-- ==== Sys2Proof/Word.lean ====
section
/-! DEFINITION. The word types of the module and their plainest arithmetic. -/

namespace Sys2Proof

/-- One byte. -/
abbrev Byte := BitVec 8
/-- A 16-bit word. -/
abbrev Half := BitVec 16
/-- A 32-bit word: a scalar register, an FP32 value, an arrival counter (R93, R98). -/
abbrev Word := BitVec 32
/-- A 64-bit word. -/
abbrev DWord := BitVec 64
/-- One 128-bit tile instruction word (R92). -/
abbrev IWord := BitVec 128
/-- One 64-byte scratchpad or overlay row, byte 0 in bits [7:0] (R5). -/
abbrev Row := BitVec 512
/-- The 128 data bytes of a mesh flit, byte 0 in bits [7:0] (R160). -/
abbrev FlitData := BitVec 1024

end Sys2Proof
end

