-- ==== Sys2Proof/Syntax.lean ====
section
/-! DEFINITION. The commands of the XAW-2880 module: one constructor of Instr per row of
spec/opcode_table.json, with the operands the row's rule gives it. -/

namespace Sys2Proof

/-- A slab; function `n` of the PCIe port belongs to slab `n` in both modes (R13). -/
inductive SlabId where
  | s0
  | s1
  deriving DecidableEq, Repr

/-- The other slab. -/
def SlabId.other : SlabId → SlabId
  | .s0 => .s1
  | .s1 => .s0

/-- The slab's number, 0 or 1. -/
def SlabId.num : SlabId → Nat
  | .s0 => 0
  | .s1 => 1

/-- Split or joined mode (Table 0.2). -/
inductive Mode where
  | split
  | joined
  deriving DecidableEq, Repr

/-- A logical tile by its slab and its slab-local coordinates (R15). -/
structure TileId where
  slab : SlabId
  x : Fin 112
  y : Fin 96
  deriving DecidableEq, Repr

/-- A field F(c, r) of one slab (R15). -/
structure FieldId where
  slab : SlabId
  c : Fin 7
  r : Fin 6
  deriving DecidableEq, Repr

/-- The three sequencers of a tile (R21). -/
inductive SeqId where
  | fwd
  | bwd
  | svc
  deriving DecidableEq, Repr

/-- The four mesh directions (R159); north is towards greater y. -/
inductive Dir where
  | west
  | east
  | south
  | north
  deriving DecidableEq, Repr

/-- An input of a router: the local port or one of the four mesh ports, in the order of
equal arrivals of R163. -/
inductive InPort where
  | loc
  | mesh (d : Dir)
  deriving DecidableEq, Repr

/-- What a router's decoder reports of one flit (R170). -/
inductive LinkCheck where
  | clean
  | corrected
  | uncorrectable
  deriving DecidableEq, Repr

/-- What comes over lanes, and what the decoder at its end reports of it (R170, R174). -/
structure Heard (α : Type) where
  what : α
  chk : LinkCheck
  deriving DecidableEq, Repr

/-- Symbols in error in a row that a command reads or merges (R148, R186): each wrong symbol of the
stored row, 0 to 63 its data bytes and 64 to 71 its check symbols, with the bits that are wrong. What
the decoder makes of them is in Machine/Ecc.lean. -/
structure RowError where
  row : Nat
  pattern : List (Fin 72 × Byte)
  merge : Bool
  deriving DecidableEq, Repr

/-- The errors that a scrub finds: in scratchpad rows and in overlay rows (R151, R186). -/
structure ScrubErrors where
  rows : List (TileId × RowError)
  ovl : List (TileId × RowError)
  deriving DecidableEq, Repr

/-- The delivery of a stream descriptor, and the errors of its buffer rows (R150, R229). -/
structure Delivery where
  stream : Fin 16384
  errs : List (TileId × RowError)
  deriving DecidableEq, Repr

/-- The physical errors an engine meets while it executes one instruction: row errors of the
scratchpad and a parity error of its own arrays (R115, R121, R148). -/
structure EngineErrors where
  rows : List RowError
  parity : Bool
  deriving DecidableEq, Repr

/-- A register of a tile or unit that control packets read and write. The spec names the
registers; it gives no numbering of them, so the operand is the register itself. -/
inductive CtrlReg where
  | scalar (q : SeqId) (r : Fin 16)
  | pc (q : SeqId)
  | status (q : SeqId)
  | tileFlags
  | spError
  | ctxPointer (c : Fin 128)
  | gate
  | lastUse
  | descState (d : Fin 16384)
  deriving DecidableEq, Repr

/-- The target of an instruction-store or scratchpad write packet (KIND 0x5 of Table 7.4). -/
inductive StoreTarget where
  | store (q : SeqId) (addr : BitVec 12) (w : IWord)
  | row (r : Fin 49152) (d : Row)
  deriving DecidableEq, Repr

/-- A col coordination message between the base camps (R28, R31, R32, R180, R252). -/
inductive ColMsg where
  | modeRecord (m : Mode)
  | firmwareVersion (v : Word)
  | supply (mV mA : Nat)
  | temperature (milliC : Int)
  | gateReport (step : DWord)
  deriving DecidableEq, Repr

/-- A node of the clock-gating tree (R447, R448); a tile's engine gates are bits of its word. -/
inductive GateNode where
  | module
  | slab (s : SlabId)
  | field (f : FieldId)
  | tile (t : TileId)
  deriving DecidableEq, Repr

/-- What a Zetra port finds of a frame's codeword and CRC (R309). -/
inductive FrameCheck where
  | clean
  | corrected
  | uncorrectable
  | badCrc
  deriving DecidableEq, Repr

/-- One frame of a Zetra link as a port receives it: the header of Table 12.3, the 640 payload bytes,
the lane it came on and what the port found of it (R305, R309). -/
structure ZFrame where
  header : BitVec 128
  payload : List Byte
  lane : Fin 8
  check : FrameCheck
  deriving DecidableEq, Repr

/-- NACK codes of Table 12.10. -/
inductive NackCode where
  | windowClosed
  | windowRange
  | windowUnknown
  | noBuffer
  deriving DecidableEq, Repr

/-- A sensor of one slab (R455). -/
inductive Sensor where
  | tile (f : Fin 42)
  | stack (s : Fin 24)
  | stage (f : Fin 42)
  deriving DecidableEq, Repr

/-- What base camp requests a hold for (R46, R59): a shelf or unit fault, a park, a forced stop. -/
inductive HoldCode where
  | sectorNone
  | stackPark
  | stackFailure
  | controllerLost
  | unitError
  | engineSlot
  | forcedStop
  deriving DecidableEq, Repr

/-- A difference record (Table 11.7) without its derived LEN field. -/
structure DiffRecord where
  kind : Byte
  wfmt : Byte
  object : Half
  block : Word
  step : DWord
  fingerprint : DWord
  seq : Word
  source : Half
  unit : Fin 24
  payload : List Byte
  deriving DecidableEq, Repr

/-- The findings of a power-on test that the physical module reports (R423). -/
structure TestFindings where
  failedTiles : List (Fin 42 × Fin 17 × Fin 17)
  failedStacks : List (Fin 24)
  failedLanes : List (Fin 16 × Fin 8)
  failedLinks : List (Fin 42 × Fin 17 × Fin 17 × Dir)
  deriving DecidableEq, Repr

/-- The commands of the module, one per row of spec/opcode_table.json, in the table's order.
`t` is a tile, `q` a sequencer, `w` the 128-bit instruction word the sequencer issues. -/
inductive Instr where
  -- control and belay instructions (chapter 4)
  | nop (t : TileId) (q : SeqId) (w : IWord)
  | waitc (t : TileId) (q : SeqId) (w : IWord)
  | waituntil (t : TileId) (q : SeqId) (w : IWord)
  | waitarr (t : TileId) (q : SeqId) (w : IWord)
  | waitEnd (t : TileId) (q : SeqId)
  | seti (t : TileId) (q : SeqId) (w : IWord)
  | addi (t : TileId) (q : SeqId) (w : IWord)
  | jmp (t : TileId) (q : SeqId) (w : IWord)
  | bnzd (t : TileId) (q : SeqId) (w : IWord)
  | ifill (t : TileId) (q : SeqId) (w : IWord)
  | ifillBegin (t : TileId)
  | ifillDone (t : TileId) (target : SeqId) (errs : List RowError)
  | belay (t : TileId) (q : SeqId) (w : IWord)
  | belayArrival (t : TileId) (ch : Fin 64)
  | belayResume (t : TileId) (ch : Fin 64)
  | reservedOpcodeDecode (t : TileId) (q : SeqId) (w : IWord)
  | wrongClassDecode (t : TileId) (q : SeqId) (w : IWord)
  -- matrix engine (chapter 4)
  | mdesc (t : TileId) (q : SeqId) (w : IWord)
  | mma (t : TileId) (q : SeqId) (w : IWord)
  | mload (t : TileId) (q : SeqId) (w : IWord)
  | mstore (t : TileId) (q : SeqId) (w : IWord)
  | matrixBegin (t : TileId) (e : EngineErrors)
  | matrixDrain (t : TileId)
  -- vector engine (chapter 5)
  | vacc (t : TileId) (q : SeqId) (w : IWord)
  | vadd (t : TileId) (q : SeqId) (w : IWord)
  | vsub (t : TileId) (q : SeqId) (w : IWord)
  | vmul (t : TileId) (q : SeqId) (w : IWord)
  | vfma (t : TileId) (q : SeqId) (w : IWord)
  | vmax (t : TileId) (q : SeqId) (w : IWord)
  | vmin (t : TileId) (q : SeqId) (w : IWord)
  | vcvt (t : TileId) (q : SeqId) (w : IWord)
  | vexp (t : TileId) (q : SeqId) (w : IWord)
  | vrcp (t : TileId) (q : SeqId) (w : IWord)
  | vrsq (t : TileId) (q : SeqId) (w : IWord)
  | vrsum (t : TileId) (q : SeqId) (w : IWord)
  | vrmax (t : TileId) (q : SeqId) (w : IWord)
  | vrmin (t : TileId) (q : SeqId) (w : IWord)
  | vperm (t : TileId) (q : SeqId) (w : IWord)
  | viota (t : TileId) (q : SeqId) (w : IWord)
  | viadd (t : TileId) (q : SeqId) (w : IWord)
  | vld (t : TileId) (q : SeqId) (w : IWord)
  | vst (t : TileId) (q : SeqId) (w : IWord)
  | vgetf (t : TileId) (q : SeqId) (w : IWord)
  | vclrf (t : TileId) (q : SeqId) (w : IWord)
  | vectorBegin (t : TileId) (e : EngineErrors)
  -- service instructions (chapters 9 and 10)
  | send (t : TileId) (q : SeqId) (w : IWord) (errs : List RowError)
  | ovrd (t : TileId) (q : SeqId) (w : IWord)
  | push (t : TileId) (q : SeqId) (w : IWord)
  | pop (t : TileId) (q : SeqId) (w : IWord)
  | peek (t : TileId) (q : SeqId) (w : IWord)
  | drop (t : TileId) (q : SeqId) (w : IWord)
  | cairn (t : TileId) (q : SeqId) (w : IWord)
  | overlayPortBegin (t : TileId) (overlayErrs spErrs : List RowError)
  -- mesh and control network (chapter 7)
  | meshFlitReceive (t : TileId) (inp : InPort) (vc : Bool) (chk : LinkCheck)
  | meshFlitEject (t : TileId)
  | multicastForward (t : TileId) (inp : InPort) (vc : Bool)
  | meshAck (t : Heard TileId)
  | meshRetry (t : TileId) (d : Dir) (returnError : Bool)
  | ctrlRegisterWrite (t : TileId) (reg : CtrlReg) (value : DWord) (tag : Heard Half)
  | ctrlRegisterRead (t : TileId) (reg : CtrlReg) (tag : Half) (chk : LinkCheck)
  | ctrlReadResponse (slab : SlabId) (tag : Half) (chk : LinkCheck)
  | streamDescriptorLoad (lender : TileId) (errs : List RowError)
  | ctrlStatusReport (slab : SlabId) (src : Half) (payload : Heard (List DWord))
  | ctrlStoreWrite (t : TileId) (target : StoreTarget) (tag : Heard Half)
  | colCoordination (src : SlabId) (m : Heard ColMsg)
  | ctrlRequestTimeout (slab : SlabId) (tag : Half)
  -- pitch, belay network and holds (chapters 2, 10, 13)
  | heartbeatToggle (f : FieldId) (pr pc : Fin 17)
  | heartbeatDeath (f : FieldId) (pr pc : Fin 17)
  | tickCheck (slab : SlabId)
  | tickRelease (slab : SlabId)
  | pitchOverrun (slab : SlabId)
  | phaseBelayRelease (slab : SlabId)
  | regionBelayRelease (slab : SlabId) (ch : Fin 64)
  | idlePitch (slab : SlabId)
  | gatePitch (slab : SlabId)
  | maintenancePitch (slab : SlabId) (scrub : ScrubErrors)
  | stepGateMet (slab : SlabId)
  | holdEntry (slab : SlabId)
  | holdRequest (slab : SlabId) (code : HoldCode) (unit : Fin 24)
  | routersEmpty (slab : SlabId)
  | holdRecovery (slab : SlabId)
  -- streams (chapter 9)
  | streamFetchStart (slab : SlabId) (d : Fin 16384)
  | streamFetchEnd (slab : SlabId) (d : Fin 16384)
  | streamDeliveryStart (slab : SlabId) (d : Delivery)
  | streamReadReturn (slab : SlabId) (d : Fin 16384) (epoch : Half) (run : Nat)
  | commitWaitRelease (slab : SlabId) (d : Fin 16384)
  | translationWalk (t : TileId) (vpn : BitVec 27)
  | portalFlitAccept (t : TileId)
  -- memory tiers (chapter 8)
  | atomicApply (slab : SlabId) (stack : Fin 24)
  | gatherRequest (slab : SlabId) (d : Fin 16384) (epoch : Half) (req : Nat)
  | parityDelta (slab : SlabId) (stack : Fin 24)
  | shelfSectorUncorrectable (slab : SlabId) (vpn : BitVec 27) (sector : Fin 65536)
  | migrationCopyDone (slab : SlabId) (vpn : BitVec 27)
  | stackFailure (slab : SlabId) (stack : Fin 24)
  | stackPark (slab : SlabId) (stack : Fin 24)
  | pageRebuild (slab : SlabId) (vpn : BitVec 27)
  | shelfControllerLost (slab : SlabId) (stack : Fin 24)
  -- update units (chapter 11)
  | gradientLanding (slab : SlabId) (unit : Fin 24)
  | landingWaitRelease (slab : SlabId) (unit : Fin 24)
  | summitContributionSend (slab : SlabId)
  | summitFrame (slab : SlabId) (port : Fin 16) (f : ZFrame)
  | summitResult (slab : SlabId)
  | pass2Block (slab : SlabId) (unit : Fin 24)
  | frozenChange (slab : SlabId) (object : Half) (block : Word)
  | updateUnitError (slab : SlabId) (unit : Fin 24) (torn : Option (Nat × Nat))
  | lostBlockReset (slab : SlabId) (object : Half) (block : Word) (peerWeights : List Byte)
  | differenceRecord (slab : SlabId) (r : DiffRecord)
  | repairRecord (slab : SlabId) (r : DiffRecord)
  -- Zetra links and collectives (chapter 12)
  | zetraIdleFrame (slab : SlabId) (port : Fin 16) (f : ZFrame)
  | zetraWriteFrame (slab : SlabId) (port : Fin 16) (f : ZFrame)
  | zetraReduceFrame (slab : SlabId) (port : Fin 16) (f : ZFrame)
  | bucketLanded (slab : SlabId) (engine : Fin 16) (coll : Nat) (bucket : Half)
  | zetraMcastFrame (slab : SlabId) (port : Fin 16) (f : ZFrame)
  | zetraTransitFrame (slab : SlabId) (port : Fin 16) (f : ZFrame)
  | nack (slab : SlabId) (port : Fin 16) (f : ZFrame) (code : NackCode) (epoch : Half) (rejected : BitVec 128)
  | resend (slab : SlabId) (port : Fin 16) (f : ZFrame) (window : Byte) (epoch bucket : Half) (missing : BitVec 128)
  | bucketAck (slab : SlabId) (port : Fin 16) (f : ZFrame) (window : Byte) (epoch bucket : Half)
  | mcastAck (slab : SlabId) (port : Fin 16) (f : ZFrame) (group : Byte) (source : Half) (seq : Word)
  | detach (slab : SlabId) (port : Fin 16) (f : ZFrame) (group : Byte) (target : Half) (seq : Word)
  | catchupFrame (slab : SlabId) (port : Fin 16) (f : ZFrame)
  | catchupAbandon (slab : SlabId) (group : Byte) (target : Half)
  | probe (slab : SlabId) (port : Fin 16) (f : ZFrame) (step : DWord) (awaited : Byte)
  | alive (slab : SlabId) (port : Fin 16) (f : ZFrame) (step : DWord) (windowState : Byte) (slow : Half)
  | advisory (slab : SlabId) (port : Fin 16) (f : ZFrame) (step : DWord) (slow : Half)
  | laneMap (slab : SlabId) (port : Fin 16) (f : ZFrame) (lanes : BitVec 8)
  | hello (slab : SlabId) (port : Fin 16) (f : ZFrame) (endpoint : Half) (peerPort : BitVec 4)
      (lanes : Byte)
  | retryTimeout (slab : SlabId) (port : Fin 16)
  | linkSilenceTimeout (slab : SlabId) (port : Fin 16)
  | zetraLaneFailure (slab : SlabId) (port : Fin 16) (lane : Fin 8)
  | zetraLaneErrorWindow (slab : SlabId) (port : Fin 16) (marginal : BitVec 8)
  | collTimeout (slab : SlabId) (engine : Fin 16) (coll : Nat) (bucket : Half)
  | summitTimeout (slab : SlabId)
  | resendDelay (slab : SlabId) (engine : Fin 16)
  | mcastRetry (slab : SlabId) (engine : Fin 16) (group : Byte) (seq : Word)
  | mcastAckTimer (slab : SlabId) (source : Half) (group : Byte)
  | reduceSlotError (slab : SlabId) (engine : Fin 16)
  | colLaneFailure (lane : Fin 96)
  | colBelayPairFailure (pair : Fin 4)
  | colCrossingFailure (crossing : Fin 8)
  -- mailbox commands (chapters 14 and 15): the firmware takes up mailbox `m` of function `fn`
  | identify (fn : SlabId) (m : Fin 4)
  | getStatus (fn : SlabId) (m : Fin 4)
  | loadImage (fn : SlabId) (m : Fin 4) (bulk : List Byte)
  | loadImageUnload (fn : SlabId) (m : Fin 4)
  | loadImageComplete (fn : SlabId)
  | verifyImage (fn : SlabId) (m : Fin 4) (bulk : List Byte)
  | mapObject (fn : SlabId) (m : Fin 4) (bulk : List Byte)
  | mapObjectComplete (fn : SlabId)
  | unmapObject (fn : SlabId) (m : Fin 4)
  | placeHint (fn : SlabId) (m : Fin 4)
  | jobStart (fn : SlabId) (m : Fin 4)
  | jobPause (fn : SlabId) (m : Fin 4)
  | pausedEntry (slab : SlabId)
  | jobResume (fn : SlabId) (m : Fin 4)
  | jobStop (fn : SlabId) (m : Fin 4)
  | jobStopForce (fn : SlabId) (m : Fin 4)
  | jobStopEnd (slab : SlabId)
  | stepControl (fn : SlabId) (m : Fin 4)
  | ledgerRead (fn : SlabId) (m : Fin 4)
  | faultLogRead (fn : SlabId) (m : Fin 4)
  | countersRead (fn : SlabId) (m : Fin 4)
  | countersClear (fn : SlabId) (m : Fin 4)
  | telemetry (fn : SlabId) (m : Fin 4)
  | selfTest (fn : SlabId) (m : Fin 4)
  | calibrate (fn : SlabId) (m : Fin 4)
  | deferredStart (slab : SlabId)
  | operationComplete (slab : SlabId) (tested : Word) (failed : List Half)
  | fwBegin (fn : SlabId) (m : Fin 4)
  | fwChunk (fn : SlabId) (m : Fin 4) (bulk : List Byte)
  | fwCommit (fn : SlabId) (m : Fin 4)
  | fwCommitComplete (fn : SlabId)
  | attest (fn : SlabId) (m : Fin 4)
  | getCert (fn : SlabId) (m : Fin 4)
  | setMode (fn : SlabId) (m : Fin 4)
  | setModeComplete
  | exportConfig (fn : SlabId) (m : Fin 4)
  | linkConfigEndpoint (fn : SlabId) (m : Fin 4)
  | linkConfigPort (fn : SlabId) (m : Fin 4)
  | linkConfigRoutes (fn : SlabId) (m : Fin 4) (bulk : List Byte)
  | linkConfigGroup (fn : SlabId) (m : Fin 4) (bulk : List Byte)
  | linkConfigMcastTx (fn : SlabId) (m : Fin 4) (bulk : List Byte)
  | linkConfigMcastRx (fn : SlabId) (m : Fin 4)
  | linkConfigTimers (fn : SlabId) (m : Fin 4)
  | portTrainingDone (slab : SlabId) (port : Fin 16)
  | feedConfigBind (fn : SlabId) (m : Fin 4)
  | feedConfigClose (fn : SlabId) (m : Fin 4)
  -- host port (chapters 15 and 16)
  | doorbell (fn : SlabId) (m : Fin 4)
  | requestBufferWrite (fn : SlabId) (m : Fin 4) (offset : Nat) (data : List Byte)
  | mbxDoneRelease (fn : SlabId) (m : Fin 4)
  | evtCtrlEnable (fn : SlabId) (base : DWord) (size : BitVec 5) (enable : Bool)
  | evtConsumerWrite (fn : SlabId) (value : DWord)
  | feedApertureWrite (fn : SlabId) (queue : Fin 16) (offset : Nat) (data : List Byte)
  | stagingWrite (fn : SlabId) (offset : Nat) (data : List Byte)
  | gateWordWrite (slab : SlabId) (writes : List (GateNode × Word))
  | dmaReadError (fn : SlabId) (m : Fin 4)
  | functionLevelReset (fn : SlabId)
  | hotReset
  | pcieLinkLoss
  | d3hotEntry (fn : SlabId)
  | d0Return (fn : SlabId)
  -- reset, clocks, firmware (chapters 15 to 18)
  | perstNAssert
  | perstNDeassert
  | referenceLoss (torn : List (SlabId × Fin 24 × Nat × Nat))
  | referenceDetectClear
  | pllLock (slab : SlabId)
  | pllLockRestart (slab : SlabId)
  | pllPhaseExcursion (slab : SlabId) (torn : List (Fin 24 × Nat × Nat))
  | firmwareStart (slab : SlabId) (findings : TestFindings)
  | firmwareServing (slab : SlabId)
  | watchdogExpiry (slab : SlabId)
  | sramUncorrectable (slab : SlabId) (preserved : Option Nat)
  | recoveryMailbox (fn : SlabId) (m : Fin 4) (bulk : List Byte)
  | faultMapCommit (slab : SlabId)
  -- supply, power and thermal (chapters 18 and 19)
  | inputRise
  | inputUndervoltage
  | inputOvervoltage
  | slabRailLoss (slab : SlabId)
  | fieldFuseOpen (f : FieldId)
  | fieldStageStart (slab : SlabId) (failed : List (Fin 42))
  | thermalSample (slab : SlabId) (readings : List (Sensor × Int))
  | fieldCriticalTimeout (f : FieldId)
  | thermalTrip (slab : SlabId) (sensor : Sensor)
  -- sideband and cables (chapter 19)
  | smbusBlockRead (slab : SlabId) (code : Fin 3)
  | smbusRejected (slab : SlabId)
  | sidebandRefresh (slab : SlabId)
  | cableSeat (slab : SlabId) (port : Fin 16)
  | cableRemove (slab : SlabId) (port : Fin 16)
  | pcieLinkRetrained
  | hostPageWrite (fn : SlabId) (vpn : BitVec 27) (data : List Byte)
  deriving DecidableEq, Repr

end Sys2Proof
end

