-- ==== Sys2Proof/Decode.lean ====
section
/-! DEFINITION. Decoding of table words. The opcode table lists commands and events and gives no
row any bits, so no word of it spells a command; the 128-bit instruction words of the tile
sequencers are decoded where they are issued (Machine/Operands.lean). -/

namespace Sys2Proof

/-- The command that an `nbits`-bit table word spells: none, since no row of the table has bits. -/
def decodeTableWord (_nbits _w : Nat) : Option Instr := none

end Sys2Proof
end

