-- ==== Sys2Proof/Config.lean ====
section
/-! DEFINITION. What an implementation fixes and the spec leaves open: free values (constants
without a body, so that no proof can see a value of them) and the fixed figures of the manual. -/

namespace Sys2Proof.Config

/-- Entry `i` of a register file whose contents became undefined, the `n`-th time one did
(R114, R118, R121). -/
opaque freeWord : Nat → Nat → Word

/-- The `n`-th free number: a choice the spec leaves open within stated bounds. -/
opaque freeNat : Nat → Nat

/-- Where within the error bound of Table 3.4 the exponential of an FP32 input lies (R84). -/
opaque expChoice : Word → Fin 4

/-- Where within the error bound of Table 3.4 the reciprocal of an FP32 input lies (R84). -/
opaque rcpChoice : Word → Fin 3

/-- Where within the error bound of Table 3.4 the reciprocal square root lies (R84). -/
opaque rsqChoice : Word → Fin 3

/-- The 64 × 64 sub-matrices in one row of a parameter object's tensor under rule 0x5: no field of the spec gives a tensor's shape
(R271). -/
opaque tensorWidth : Nat → Nat

/-- Word `k` of a CONST object belongs to a program segment: no field of the spec marks segments (R94, R95, R375). -/
opaque programSegment : Nat → Nat → Bool

/-- The product of two 64 × 64 FP32 matrices: the spec gives no order of its additions (R295). -/
opaque matMul : List Word → List Word → List Word

/-- The trace of a 64 × 64 FP32 matrix: the spec gives no order of its additions (R295). -/
opaque trace : List Word → Word

/-- The 64-byte rows of a checkpoint sink's window at its receiver, by endpoint and window; the source
is told no size (R301, R337). -/
opaque sinkRows : Half → Byte → Nat

/-- The local frames of a LOCAL object under a placement, as (x, y, frame, page of the object): the spec
says the placement names the tiles, and gives no field that does (Table 8.6). -/
opaque localFrames : Nat → Nat → List (Nat × Nat × Nat × Nat)

/-- The homes that base camp's runtime chooses to move in a maintenance pitch, as (page, stack); the spec
leaves the choice to it (R206). -/
opaque migrations : Nat → List (Nat × Nat)

/-- The inverse fourth root of a 64 × 64 FP32 matrix by 12 coupled Newton iterations: the spec
does not fix its operations to the bit (R295). -/
opaque invRoot4 : List Word → Word → List Word

/-- Whether the Cholesky factorisation of a matrix plus a multiple of the identity succeeds; the
order of its operations is not fixed (R295, R296). -/
opaque choleskyOk : List Word → Word → Bool

/-- The 64-byte SHAKE256 digest (chapter 17), an outside standard taken as an uninterpreted
function. -/
opaque shake256 : List Byte → List Byte

/-- Ed448 verification (RFC 8032): public key, context, message, signature. -/
opaque ed448Verify : List Byte → List Byte → List Byte → List Byte → Bool

/-- The signature of the slab's signing engine over a message (R436, R437), by slab number. -/
opaque deviceSign : Nat → List Byte → List Byte

/-- The public key the signing engine computes from the fused device seed (R436). -/
opaque devicePublicKey : Nat → List Byte

/-- The Alakimo firmware key in the boot ROM (R429). -/
opaque firmwareKey : List Byte

/-- The boot ROM's version (Table 15.7). -/
opaque romVersion : Word

/-- Expected delay of pass 2 at a hot stack in units of 65,536 arithmetic cycles (R281). -/
opaque slowPitches : Nat → Half

/-- What a fetch that breaks R244 returns, and other contents the spec leaves open. -/
opaque freeByte : Nat → Byte

/-- The element bits of an infinity or NaN in an MXFP4 block, whose scale byte is 0xFF (R71). -/
opaque mxfp4NonFinite : Nat → Byte

end Sys2Proof.Config
end

