-- ==== Sys2Proof/Machine/State.lean ====
section
/-! DEFINITION. The state of the module as plain data: every register, store, queue, buffer,
counter, record and pin the spec gives it, the queue of waiting commands, the reasons a step can
stop, and the state in reset. -/

namespace Sys2Proof.Machine

open Sys2Proof

/-! ## Generic containers -/

/-- Byte memory as (address, byte) cells, addresses strictly rising, no cell equal to 0: an
unlisted byte reads as 0 (R157 for scratchpads; a log entry for DRAM after power-on). -/
abbrev Cells := List Host.Cell

/-- A file of 32-bit values. `base = none`: an unlisted entry reads as 0. `base = some n`: the
file's contents became undefined (R114, R118, R121) and an unlisted entry reads as the free value
number `n` of that entry. -/
structure RegMap where
  base : Option Nat
  cells : List (Nat × Word)
  deriving DecidableEq, Repr

/-- One event counter: 48 bits and its sticky overflow bit (R8). `fresh` is what the present management
cycle has added to it: a clear in the same cycle leaves that much. -/
structure Counter where
  count : BitVec 48
  overflow : Bool
  fresh : Nat
  deriving DecidableEq, Repr

/-- Event counters of one scope, by the identifier 256 t + i of R403; absent means 0. -/
abbrev Counters := List (Nat × Counter)

/-- The event stamp of Table 2.5. -/
structure Stamp where
  powerOn : Word
  phase : Half
  slab : SlabId
  maint : Bool
  hold : Bool
  idle : Bool
  pitch : DWord
  deriving DecidableEq, Repr

/-! ## The tile -/

/-- What a sequencer is doing; STATE, STALL and CHANNEL of Table 4.9 are read off it. Cycles are
the slab's arithmetic cycle count. `waitArr` keeps the scheduled local cycle of a WAITARR pair
and the cycle at which the wait began (R116). -/
inductive SeqState where
  | notLoaded
  | issuing
  | waitCycle (until_ : Nat)
  | waitArr (ctr : BitVec 4) (target : Word) (sched : Option Word) (since : Nat)
  | inBelay (ch : Fin 64)
  | stalled (cause : BitVec 4)
  | held
  deriving DecidableEq, Repr

/-- A matrix operand descriptor (Table 4.3). -/
structure Desc where
  t : Bool
  half : Bool
  idx : BitVec 4
  base : Half
  pitch : BitVec 12
  sbase : BitVec 22
  spitch : Half
  deriving DecidableEq, Repr

/-- A scalar write that VGETF has begun and that takes effect at cycle `at_` (R133). -/
structure LateWrite where
  reg : BitVec 4
  value : Word
  at_ : Nat
  deriving DecidableEq, Repr

/-- One instruction sequencer (R92, R93, R99, R105, R119). `store` lists words not equal to the
NOP word 0; `locked` is the half an IFILL has locked; `nextIssue` is the cycle of the next issue, or
the first cycle of the stall in progress that is not counted yet; `doneAt` the cycle by which every
engine instruction begun for this sequencer has completed (R100); `issued` whether it has issued since
tile reset (R119); `spans` the cycles of this pitch that SLIP counts, each cycle once (R116). -/
structure Sequencer where
  loaded : Bool
  issued : Bool
  state : SeqState
  pc : BitVec 12
  regs : RegMap
  late : Option LateWrite
  store : List (Nat × IWord)
  locked : Option Bool
  descs : List (Nat × Desc)
  lastOp : Byte
  slip : Half
  spans : List (Nat × Nat)
  nextIssue : Nat
  doneAt : Nat
  deriving DecidableEq, Repr

/-- A matrix instruction waiting in the queue: its word, its place in the tile issue order
(R102), and what it captured at its issue (R105): the descriptors and the register values. -/
structure MatrixEntry where
  seq : SeqId
  word : IWord
  issued : Nat
  order : Nat
  descA : Desc
  descB : Desc
  i0A : Word
  i0B : Word
  k0 : Word
  deriving DecidableEq, Repr

/-- The matrix engine (R101, R103, R112): queue, the cycle it is free, the MSTORE reads not
finished and the banks not yet drained with their drain cycles. `transA` and `transB` are the two
32 × 32 transpose buffers of each operand path (R147): entry 1024 b + 32 i + k is entry k of line i of
buffer b. -/
structure MatrixEngine where
  bank0 : RegMap
  bank1 : RegMap
  transA : RegMap
  transB : RegMap
  queue : List MatrixEntry
  freeAt : Nat
  undrained : List (Bool × Nat)
  deriving DecidableEq, Repr

/-- A vector instruction waiting in the queue, with the scalar values captured at its issue. -/
structure VectorEntry where
  seq : SeqId
  word : IWord
  issued : Nat
  order : Nat
  sb : Word
  idx : Word
  sidx : Word
  deriving DecidableEq, Repr

/-- The vector engine (R121, R122, R133). Register v holds entries 4096 v to 4096 v + 4095;
`writeAt` gives the cycle of the last result of instructions still in flight per register;
`bankRead` the cycle at which the running VACC has read its last row, per bank; `storeAt` the cycle
of the last result of the VSTs and VCLRFs so far (R133). -/
structure VectorEngine where
  regs : RegMap
  queue : List VectorEntry
  freeAt : Nat
  writeAt : List (Nat × Nat)
  bankRead : List (Bool × Nat)
  storeAt : Nat
  deriving DecidableEq, Repr

/-- An IFILL in progress (R99): the cycle it began, the cycle of its next read and the rows read. -/
structure Fill where
  target : SeqId
  half : Bool
  row : Nat
  begun : Nat
  next : Nat
  rows : List Row
  deriving DecidableEq, Repr

/-- An OVRD or stack instruction at the overlay port (R260), with captured register values. -/
structure PortEntry where
  word : IWord
  issued : Nat
  idx : Word
  didx : Word
  deriving DecidableEq, Repr

/-- What the overlay port does with a row (Table 10.6): it reads a scratchpad row, to be written to an overlay
row at cycle `at_` (`fix` are bits that a wrong correction inverts); it writes an overlay row; it reads an overlay
row for a scratchpad row; it writes a scratchpad row; it gives a context back the cairn pointer it had. -/
inductive PortAct where
  | take (row to_ at_ : Nat) (fix : Row)
  | store (to_ : Nat) (data : Row)
  | fetch (from_ row : Nat)
  | deliver (row : Nat) (data : Row)
  | uncairn (ctx prev : Nat)
  deriving DecidableEq, Repr

/-- The overlay port (R260): queue, the cycle it is free, the cycle its pushes are written, and what it will do
with the rows of the instructions that have begun, each with its cycle. -/
structure OverlayPort where
  queue : List PortEntry
  freeAt : Nat
  ackAt : Nat
  moves : List (Nat × PortAct)
  deriving DecidableEq, Repr

/-- A message of a SEND that the router is injecting or has still to inject (R220): its word, its phase and its
number, the first rows at its source and destination, the flits injected, the row of the next flit already read,
the cycle from which the next row may be read, and the errors its rows have. -/
structure SendJob where
  word : IWord
  phase : Nat
  msg : Nat
  src : Nat
  drow : Nat
  flits : Nat
  half : Option Row
  readAt : Nat
  errs : List RowError
  deriving DecidableEq, Repr

/-- The detour of a packet around a hole (R175): a hop in direction `dir` was blocked, and it goes along the other
axis to line `line`, then along the blocked axis to `stop`. -/
structure Detour where
  dir : Dir
  line : Nat
  stop : Nat
  deriving DecidableEq, Repr

/-- A write of a stream engine on its way to the group of the home's stack (R233): the job-range address, the bytes, and whether it
is remote traffic. -/
structure Forward where
  addr : Nat
  bytes : Nat
  remote : Bool
  deriving DecidableEq, Repr

/-- A flit on the mesh: header (Table 7.1), data, and for the model's routing the number of its
message at the source, the cycle it reached the present router (R163), its detours, the innermost first, and the
directions by which it came, as seen going back, the latest first. Device-wide coordinates as in R160. A multicast copy has a heading along the spine (west, east) or a branch
(south, north) and, on a branch, its column; a flit at its source has none. `tagHeld`: it has been
counted as held for a phase tag (R53). `forward`: the write that a forwarded portal flit carries. -/
structure Flit where
  header : BitVec 96
  data : FlitData
  msg : Nat
  reached : Nat
  detours : List Detour
  trail : List Dir
  heading : Option Dir
  col : Nat
  tagHeld : Bool
  forward : Option Forward := none
  deriving DecidableEq, Repr

/-- An acknowledgement on its way to its source (R166): device-wide source coordinates, the message number and
the directions still to go. -/
structure Ack where
  sx : Nat
  sy : Nat
  msg : Nat
  trail : List Dir
  deriving DecidableEq, Repr

/-- A combine entry of a fork (R169): the message, the acknowledgements still to come and the way on to the
source. -/
structure Combine where
  sx : Nat
  sy : Nat
  msg : Nat
  remaining : Nat
  trail : List Dir
  deriving DecidableEq, Repr

/-- Retry state of one mesh output (R170, R171): the flits the other end has discarded, with their
channels, retries in this pitch and failures of the present flit. -/
structure LinkOut where
  pending : List (Bool × Flit)
  retries : Nat
  flitFails : Nat
  deriving DecidableEq, Repr

/-- A tile's router: the input buffers per port and channel (R162), the injection queue of the
local port, the ejection buffer (R164), portal flits handed to the stream engine, held
acknowledgements, combine entries, outputs, links marked failed (R171) and the next message
number. -/
structure Router where
  inputs : List ((InPort × Bool) × List Flit)
  eject : List Flit
  portal : List Flit
  acks : List Ack
  combine : List Combine
  outs : List (Dir × LinkOut)
  failed : List Dir
  nextMsg : Nat
  deriving DecidableEq, Repr

/-- A tile entry of the placement (Table 14.6). -/
structure TileEntry where
  x : Nat
  y : Nat
  banks : BitVec 24
  stack : Nat
  bufRows : Nat
  bufBase : Nat
  progFwd : Word
  progBwd : Word
  progSvc : Word
  resident : Word
  deriving DecidableEq, Repr

/-- A belay arrival that left the tile: its channel and the cycle at which it has reached the
root or node (R37). -/
structure Arrival where
  ch : Fin 64
  seenAt : Nat
  deriving DecidableEq, Repr

/-- A stream descriptor load waiting at a lending tile (R200): the requesting tile, the page and the
first byte of the rows within it, the frame and the rows to read, and the header fields of the mesh
message that delivers them. -/
structure LoadReq where
  requester : TileId
  vpn : Nat
  offset : Nat
  frame : Nat
  row : Nat
  count : Nat
  mcast : Bool
  ctr : Nat
  drow : Nat
  x0 : Nat
  y0 : Nat
  x1 : Nat
  y1 : Nat
  deriving DecidableEq, Repr

/-- A message whose sector atomics are not all applied, or whose forwarded writes are not all acknowledged (R233): its source, how
many are outstanding, whether its LAST flit was accepted, and its way back. -/
structure AtomicWait where
  sx : Nat
  sy : Nat
  msg : Nat
  remaining : Nat
  last : Bool
  trail : List Dir
  deriving DecidableEq, Repr

/-- One logical tile (R21). `entry` is its tile entry in the placement, `none` when idle.
`localStart` is the cycle at which the present pitch's tick release reached it (R42),
`releasedAt` the cycle at which the latest slab-scope release reaches it (R53);
`released` holds belay releases on their way to it with the cycle they arrive; `powered` the
banks that have power (R155); `scrubbed` the symbols the latest scrub corrected, by row (R152); `scrubAt` the
row at which the scrub goes on, `scrubNext` the cycle of its next reads, `scrubErrs` the errors it has still to find, and `rewrites`
its rewrites on their way with the cycle of their slot and the error corrected (R151); `ovlScrub` the 64th of the overlay slice whose
scrub is next (R186);
`flagsNow` the flags set in the present arithmetic cycle (R136); `ackedAt` the cycle at which the latest
acknowledgement came (R39); `sends` the messages of SENDs that it has still to inject (R220); `xlate` the translation cache of a portal tile, most recent first (R191). `forwards` are the messages of its
stream engine that forward writes: their numbers, each with the source and number of the message they belong to (R233). -/
structure Tile where
  entry : Option TileEntry
  fwd : Sequencer
  bwd : Sequencer
  svc : Sequencer
  matrix : MatrixEngine
  vector : VectorEngine
  fills : List Fill
  port : OverlayPort
  sends : List SendJob
  scratch : Cells
  powered : BitVec 24
  overlay : Cells
  ctxs : List (Nat × DWord)
  ac : RegMap
  flags : Word
  flagsNow : Word
  spError : DWord
  gate : Word
  unacked : Nat
  ackedAt : Nat
  arrivals : List Arrival
  released : List Arrival
  localStart : Nat
  releasedAt : Nat
  router : Router
  xlate : List (Nat × DWord)
  loads : List LoadReq
  atomicWaits : List AtomicWait
  forwards : List (Nat × Nat × Nat × Nat)
  lastUse : DWord
  lending : Bool
  failed : Bool
  scrubbed : List (Nat × List (Fin 72))
  scrubAt : Nat
  scrubNext : Nat
  scrubErrs : List RowError
  rewrites : List (Nat × Nat × RowError)
  ovlScrub : Fin 64
  counters : Counters
  deriving DecidableEq, Repr

/-! ## Fields, fault map -/

/-- A field: its entry of the persistent fault map (Table 13.5), its power stage and fuse (R452),
the heartbeat windows of its physical tiles (R47), the cycle `since` at which its stage came on, and its
conditions (R456, R457). Shift entries list (physical row or column, start). -/
structure Field where
  state : Nat
  factory : Bool
  lostPowerOn : Word
  lostPitch : DWord
  rowShift : List (Fin 17 × Fin 17)
  colShift : List (Fin 17 × Fin 17)
  failedTiles : List (Fin 17 × Fin 17)
  degradedTiles : List (Fin 17 × Fin 17)
  powered : Bool
  fuseOpen : Bool
  clamped : Bool
  since : Nat
  toggles : List ((Fin 17 × Fin 17) × Nat)
  dead : List (Fin 17 × Fin 17)
  repairPending : Bool
  critSamples : Nat
  gate : Word
  counters : Counters
  deriving DecidableEq, Repr

/-- A hot or critical condition of a sensor (R456): the number of consecutive samples at or below
the clear level since it started. -/
structure Condition where
  sensor : Sensor
  critical : Bool
  below : Nat
  deriving DecidableEq, Repr

/-! ## The belay root and holds -/

/-- The kind of the pitch in progress (R58, R61, R253). -/
inductive PitchKind where
  | none
  | image
  | idle
  | gate
  | maint
  deriving DecidableEq, Repr

/-- A cause of a hold (R46): its Table 13.1 code and where it arose. -/
structure Cause where
  code : Byte
  slab : SlabId
  field : Option (Fin 7 × Fin 6)
  tile : Option (Fin 17 × Fin 17)
  unit : Option (Fin 24)
  stamp : Stamp
  deriving DecidableEq, Repr

/-- The root of a slab's belay network and the hold it keeps. `length` is the pitch length in
force, `deadline` the root count L + 64 k of the next check (R42), `midStep` whether a maintenance
pitch lies between two image pitches of one step (R62), `stretchLimit` S in force (R351); `parks` the park
requests that wait for the boundary between two steps (R355); `before` the pitch, phase and kind before the
latest slab-scope release, which a place it has not reached still holds (R54); `task` base camp's task of the
maintenance pitch in progress (R61). -/
structure Root where
  running : Bool
  pitch : DWord
  phase : Half
  kind : PitchKind
  issued : Nat
  length : Nat
  deadline : Nat
  stretched : Nat
  stretchLimit : Nat
  releases : Nat
  lastSlip : Half
  schedIndex : DWord
  indexInStep : Nat
  firstPitch : DWord
  midStep : Bool
  releasedPhases : Nat
  inHold : Bool
  holdKind : PitchKind
  holdMidStep : Bool
  takenOver : Bool
  routersEmpty : Bool
  causes : List Cause
  parks : List Cause
  before : DWord × Half × PitchKind
  task : Nat
  deriving DecidableEq, Repr

/-! ## The program image (chapter 14) -/

/-- The pitch parameter block (Table 2.1). -/
structure PitchParams where
  length : Nat
  margin : Nat
  stretchLimit : Nat
  maintLength : Nat
  maintIntervalLog2 : Nat
  joined : Bool
  flagsReserved : Nat
  phaseBelays : Nat
  reserved : Nat
  deriving DecidableEq, Repr

/-- The step section (Table 14.4). -/
structure StepSection where
  stepLength : Nat
  microbatches : Nat
  split : Half
  gate : Nat
  maxNorm : Word
  skipNorm : Word
  fp8Overflow : Nat
  feeds : Nat
  diffGroup : Half
  reserved : Nat
  deriving DecidableEq, Repr

/-- An update descriptor (Table 11.1). -/
structure UpdateDesc where
  rule : Nat
  wfmt : Nat
  mfmt : Nat
  flags : Nat
  group : Half
  accum : Nat
  lr : Word
  wd : Word
  beta1 : Word
  beta2 : Word
  eps : Word
  eta : Word
  delta0 : Word
  rootInterval : Nat
  copy : Half
  firstPos : Nat
  nblocks : Nat
  reserved : Nat
  deriving DecidableEq, Repr

/-- An object entry (Table 14.7). -/
structure ObjectEntry where
  object : Nat
  cls : Nat
  prot : Nat
  hint : Nat
  flags : Nat
  base : Nat
  size : Nat
  stack0 : Nat
  replicas : Nat
  dataOffset : Nat
  reserved : Nat
  update : UpdateDesc
  deriving DecidableEq, Repr

/-- A context entry (Table 10.1). -/
structure ContextEntry where
  valid : Bool
  segBase : Nat
  segFrames : Nat
  reserved : Nat
  deriving DecidableEq, Repr

/-- A collective entry (Table 12.12). -/
structure Collective where
  object : Nat
  bb : Nat
  window : Nat
  nbuckets : Nat
  bpr : Nat
  group : Nat
  log : Nat
  land : Nat
  reserved : Nat
  deriving DecidableEq, Repr

/-- A window entry (Table 12.11) as the module holds it. -/
structure WindowEntry where
  kind : Nat
  opened : Bool
  flagsReserved : Nat
  epoch : Half
  object : Nat
  base : Nat
  size : Nat
  openAt : Nat
  closeAt : Nat
  reserved : Nat
  deriving DecidableEq, Repr

/-- A feed queue entry (Table 14.8). -/
structure FeedEntry where
  queue : Nat
  object : Nat
  slotBytes : Nat
  slots : Nat
  perStep : Nat
  reserved : Nat
  deriving DecidableEq, Repr

/-- A stream descriptor (Table 9.5). -/
structure StreamDesc where
  mode : Nat
  memFmt : Nat
  meshFmt : Nat
  mcast : Bool
  towardZero : Bool
  remote : Bool
  commit : Bool
  depth : Nat
  object : Nat
  ctr : Nat
  atomop : Nat
  runBytes : Nat
  runs : Nat
  rstride : Nat
  x0 : Nat
  y0 : Nat
  x1 : Nat
  y1 : Nat
  drow : Nat
  dstride : Nat
  dsbase : Nat
  dflip : Nat
  waitph : Nat
  dstart : Nat
  arm0 : Nat
  start0 : Nat
  reserved : Nat
  deriving DecidableEq, Repr

/-- An arm record (Table 9.6). -/
structure ArmRecord where
  ebase : Nat
  sbase : Nat
  padv : Nat
  npass : Nat
  period : Nat
  gap : Nat
  next : Nat
  reserved : Nat
  deriving DecidableEq, Repr

/-- A belay membership entry (R375). -/
structure Member where
  ch : Nat
  x : Nat
  y : Nat
  seqs : BitVec 3
  reserved : Nat
  deriving DecidableEq, Repr

/-- A placement of one slab: header (Table 14.5), tile entries, store images, membership, stream
descriptors by number, arm records by position in their section, and resident rows as
(device-wide x, y, row, contents). -/
structure Placement where
  number : Nat
  slab : SlabId
  stepLength : Nat
  pitchLength : Nat
  margin : Nat
  stretchLimit : Nat
  tiles : Nat
  covers : Nat
  reserved : Nat
  entries : List TileEntry
  stores : List (List IWord)
  members : List Member
  streams : List StreamDesc
  arms : List ArmRecord
  resident : List (Nat × Nat × Nat × Row)
  digest : List Byte
  deriving DecidableEq, Repr

/-- A program image as base camp holds it (R366 to R377), with its measurements (R372). -/
structure Image where
  joined : Bool
  signed : Bool
  keyId : List Byte
  declaredLost : Nat
  pairs : Nat
  pitch : PitchParams
  step : StepSection
  objects : List ObjectEntry
  updateList : List Nat
  contexts : List ContextEntry
  collectives : List Collective
  windows : List WindowEntry
  feeds : List FeedEntry
  data : List Byte
  placements : List Placement
  digest : List Byte
  deriving DecidableEq, Repr

/-! ## The job and its records -/

/-- Job states (Table 14.9). -/
inductive JobState where
  | empty
  | loaded
  | running
  | pausing
  | paused
  | stopping
  deriving DecidableEq, Repr

/-- Reasons of PAUSED (R380). -/
inductive Reason where
  | none
  | host
  | selfTest
  | recompileNeeded
  | restoreNeeded
  deriving DecidableEq, Repr

/-- A pending STEP_CONTROL setting (R385). -/
inductive Setting where
  | skip
  | lrScale (v : Word)
  | freeze (object : Nat) (first count : Nat) (frozen : Bool)
  | pauseAfter
  deriving DecidableEq, Repr

/-- A summit result (Table 11.6). -/
structure SummitResult where
  step : DWord
  skip : Bool
  lrMismatch : Bool
  nonfinite : Bool
  short : Bool
  hostSkip : Bool
  clip : Word
  lrScale : Word
  gsq : DWord
  tau : List Word
  deriving DecidableEq, Repr

/-- A summit contribution or subtree sum (Table 11.5), with the LRM bit of its frames (R330). -/
structure Contribution where
  step : DWord
  source : Half
  nonfinite : Bool
  short : Bool
  hostSkip : Bool
  slow : Bool
  slowPitches : Half
  gsq : DWord
  lrScale : Word
  groups : List (DWord × DWord)
  lrm : Bool
  deriving DecidableEq, Repr

/-- A step ledger record (Table 13.2); the CRC is computed when it is read. `tornAt`: the object, block and stripe of each torn block
(R211), for which the record has no bytes. -/
structure LedgerRec where
  step : DWord
  openStamp : Stamp
  endPitch : DWord
  voidFirst : DWord
  voidLast : DWord
  replayPitch : DWord
  replays : Half
  phases : Half
  flags : Half
  cause : Byte
  placement : Half
  clip : Word
  lrScale : Word
  commitPos : Word
  gsq : DWord
  committed : Word
  torn : Half
  repaired : Half
  lost : Half
  mismatches : Half
  bucketsRetried : Word
  gatePitches : Word
  logFirst : DWord
  logCount : Word
  tornAt : List (Nat × Nat × Nat)
  valid : Bool
  deriving DecidableEq, Repr

/-- A fault-log entry (Table 13.4); the CRC is computed when it is read. -/
structure FaultEntry where
  seq : DWord
  stamp : Stamp
  step : DWord
  cls : Byte
  action : Byte
  node : Half
  field : Byte
  aux : Byte
  map : Bool
  hold : Bool
  status : List DWord
  tileFlags : Word
  spError : DWord
  detail : List Byte
  deriving DecidableEq, Repr

/-- A feed queue in service (R378, R420): its entry, binding, rows counted per slot, released
count and slots filled. -/
structure FeedQueue where
  entry : FeedEntry
  bound : Bool
  fromHost : Bool
  window : Nat
  rows : List (Nat × Nat)
  released : DWord
  filled : Nat
  deriving DecidableEq, Repr

/-- The job of a device and its image; in joined mode slab 0's copy is the device's (R380). `step` is the
ledger step in progress, or the next one to begin while `inStep` is false; `ran` an image pitch of the job has begun (R93); `ranOut` the step before it ran
to its last image pitch, so its stacks are checked (R262); `feedPitches` the gate pitches that the coming step has waited for a
feed (R379). -/
structure Job where
  state : JobState
  reason : Reason
  image : Option Image
  incoming : Option Image
  placement : Nat
  seed : DWord
  step : DWord
  inStep : Bool
  ran : Bool
  replay : Nat
  overruns : Nat
  gateMet : Bool
  feedPitches : Nat
  primed : List Nat
  idleSinceStart : Bool
  ranOut : Bool
  epoch : Half
  window : Option (DWord × Nat)
  settings : List (DWord × Setting)
  lrScale : Word
  hostPause : Bool
  stopAsked : Bool
  missingPlacement : Bool
  lostPages : List Nat
  colLost : Bool
  results : List SummitResult
  feeds : List FeedQueue
  deriving DecidableEq, Repr

/-! ## Memory tiers and streams -/

/-- The use of a home frame (R204, R209). -/
inductive FrameUse where
  | data (vpn : Nat)
  | parity
  | reserved
  deriving DecidableEq, Repr

/-- The kind of a stripe (R209); an unlisted stripe is undecided. -/
inductive StripeKind where
  | parity
  | open_
  | unprotected
  deriving DecidableEq, Repr

/-- A parity delta on its way to its parity stack (R210). -/
structure Delta where
  frame : Nat
  sector : Nat
  delta : BitVec 256
  deriving DecidableEq, Repr

/-- An atomic waiting at a slice (R195, R196, R232): the operation code, the job-range address,
whether it is a sector form with its element mask, the operand sector and compare value, the
issuing portal tile, and the source and number of the message it came in. -/
structure Atomic where
  op : BitVec 4
  addr : Nat
  sector : Bool
  mask : BitVec 16
  operand : BitVec 256
  compare : DWord
  tile : TileId
  sx : Nat
  sy : Nat
  msg : Nat
  deriving DecidableEq, Repr

/-- A migration of a home in progress (R206). -/
structure Migration where
  vpn : Nat
  toStack : Nat
  toFrame : Nat
  deriving DecidableEq, Repr

/-- State of a shelf stack in the fault map (Table 13.8). -/
inductive StackState where
  | good
  | parked
  | failed
  | controllerLost
  deriving DecidableEq, Repr

/-- A pass-2 journal entry (R290): object, block, step, field position in the write order and next
sector. -/
structure Journal where
  object : Nat
  block : Nat
  step : DWord
  fieldPos : Nat
  sector : Nat
  deriving DecidableEq, Repr

/-- A gradient landing (R276): object, block, its scale groups (group, 32 BF16 elements packed,
scale byte) and whether it waits under R278. -/
structure Landing where
  object : Nat
  block : Nat
  groups : List (Fin 128 × BitVec 512 × Byte)
  waiting : Bool
  coll : Option (Nat × Nat)
  deriving DecidableEq, Repr

/-- The new contents of a block (R287, R290): its place, its step, the writes of its stored fields in
write order as (job-range address, bytes), header sector 0 with its address, its fingerprint, and what
its records carry: old XOR new weights, new weights, all stored fields, old XOR new of them. -/
structure BlockResult where
  object : Nat
  block : Nat
  step : DWord
  writes : List (Nat × List Byte)
  headerAt : Nat
  header : List Byte
  wfmt : Nat
  fingerprint : DWord
  xorBits : List Byte
  weights : List Byte
  stored : List Byte
  storedXor : List Byte
  deriving DecidableEq, Repr

/-- An update unit (R276 to R290, R299, R301). `gsq` and the group sums are FP64; `pos` is POS of its
commit word for step `cstep`; `result` is the block it is writing; `seqs` the record SEQ per destination
(0 weight copy, 1 all-gather, 2 sink); `repairs` blocks of a copy that await a repair record, each with
the step of its mismatch; `full` the step of the FULL record last applied per block. -/
structure UpdateUnit where
  landings : List Landing
  gsq : DWord
  nonfinite : Bool
  short : Bool
  groups : List (Nat × DWord × DWord)
  cstep : DWord
  pos : Nat
  journal : Option Journal
  torn : Bool
  result : Option BlockResult
  seqs : List (Nat × Word)
  repairs : List ((Nat × Nat) × DWord)
  full : List ((Nat × Nat) × DWord)
  dirty : List (Nat × Nat)
  sweep : Nat
  baselineUsed : Nat
  standIn : Option (Fin 24)
  counters : Counters
  deriving DecidableEq, Repr

/-- A line of 128 bytes that a shelf cache slice holds (R194), by frame and number within the frame. -/
structure SliceLine where
  frame : Nat
  line : Nat
  data : BitVec 1024
  dirty : Bool
  deriving DecidableEq, Repr

/-- The classes of shelf traffic (Table 9.8). -/
inductive ShareClass where
  | read
  | write
  | remote
  deriving DecidableEq, Repr

/-- Traffic that waits for positions of a controller's wheel (R243): its class, whether it is the update unit's, the
descriptor and run it serves, and the bytes still to move. -/
structure ShelfWork where
  cls : ShareClass
  unit : Bool
  owner : Option (Nat × Nat)
  bytes : Nat
  deriving DecidableEq, Repr

/-- A shelf stack with its controller, cache slice and unit (Table 1.3); `doubled`: its refresh rate is doubled (R458); `slice`
the lines its cache slice holds, most recently used first (R194); `wheel` the position of its wheel, `wheelHalf` in the second of
the two fabric cycles a position lasts when the stack is hot, and `work` its waiting traffic in order of arrival (R243). -/
structure Stack where
  state : StackState
  changed : Option Stamp
  milliC : Int
  hot : Bool
  critical : Bool
  selfRefresh : Bool
  doubled : Bool
  slice : List SliceLine
  wheel : Fin 16
  wheelHalf : Bool
  work : List ShelfWork
  atomics : List Atomic
  atomicOld : BitVec 256
  deltas : List Delta
  unit : UpdateUnit
  counters : Counters
  deriving DecidableEq, Repr

/-- A piece of a run fetched for a pass (R230, R231): the step, pass and run it belongs to, its
stream epoch, its first row within the run, the rows of the stream buffer that hold it, how many of its bytes are scale bytes of the
run (0 for elements), the tile whose buffer holds it, and, when a lending tile serves it instead, the page, the offset within it and
the number of rows. -/
structure BufferedRun where
  step : Nat
  pass : Nat
  run : Nat
  epoch : Half
  offset : Nat
  rows : List Nat
  scaleBytes : Nat
  holder : TileId
  lent : Option (Nat × Nat × Nat)
  deriving DecidableEq, Repr

/-- The state of a stream descriptor: STATE, FAULT, HELD, EPOCH and RUN of its state word (Table 9.7);
the step and the number of the pass being delivered or filled, from which ARM and PASS follow; the
step and pass of the next fetch, whether it is fetching, the runs of it that have returned, and the
cycles since which it waits for a commit or for buffer rows; for
WRITE and ATOMIC the pass and the bytes of the open run per source, and data not yet written; the buffered pieces; whether a pass is
being delivered, its scale bytes that do not fill a row yet, the scale rows delivered, and the errors that its buffer rows have. -/
structure StreamState where
  state : BitVec 2
  fault : Bool
  held : Bool
  epoch : Half
  run : Nat
  step : Nat
  pass : Nat
  fetchStep : Nat
  fetchPass : Nat
  fetching : Bool
  returned : List Nat
  heldAt : Option Nat
  bufferWait : Option Nat
  fill : List (Nat × Nat × Nat)
  partial_ : List (Nat × List Byte)
  buffer : List BufferedRun
  delivering : Bool
  tail : List Byte
  tailRow : Nat
  errs : List (TileId × RowError)
  deriving DecidableEq, Repr

/-! ## Zetra links and collectives -/

/-- A member group (R324, R330). -/
structure Group where
  ranks : List Half
  rank : Nat
  summit : Bool
  deriving DecidableEq, Repr

/-- A multicast packet kept at the source (R332). -/
structure McPacket where
  group : Nat
  seq : Word
  engine : Nat
  pending : List Half
  payload : List Byte
  sentAt : Nat
  deriving DecidableEq, Repr

/-- A source multicast group (R331, R333): its targets in order, the attached ones, the next SEQ
and the detached targets with the first SEQ not acknowledged and the step of their detachment. -/
structure McastTx where
  targets : List Half
  attached : List Half
  nextSeq : Word
  detached : List (Half × Word × DWord)
  deriving DecidableEq, Repr

/-- A received multicast group (R335): source, delivery, window, relay, the next expected SEQ, the
first SEQ, the reorder window, frames being assembled and deliveries not acknowledged. -/
structure McastRx where
  source : Half
  group : Nat
  toUnits : Bool
  window : Nat
  relay : Option Nat
  expected : Word
  first : Word
  held : List (Word × List Byte)
  frames : List (Word × Nat × List Byte)
  lastFrag : List (Word × Nat)
  unacked : Nat
  unackedAt : Nat
  attached : Bool
  deriving DecidableEq, Repr

/-- A frame of a Zetra port's sending side. -/
structure TxFrame where
  seq : BitVec 12
  frame : ZFrame
  deriving DecidableEq, Repr

/-- A Zetra port (R304 to R313): its configuration, training, lanes, credits, link sequence
numbers, replay buffer and frames waiting to be sent. -/
structure Port where
  enabled : Bool
  training : Bool
  retrain : Bool
  helloSent : Bool
  helloGot : Bool
  up : Bool
  cable : Bool
  neighbour : Half
  neighbourPort : BitVec 4
  working : BitVec 8
  lanes : BitVec 8
  marginal : BitVec 8
  uncorrectable : List (Nat × Nat)
  quotas : List Nat
  credits : List Nat
  owed : List Nat
  txSeq : BitVec 12
  rxSeq : BitVec 12
  rq : Bool
  resends : Nat
  replay : List TxFrame
  queue : List ZFrame
  turn : Nat
  sinceCatchup : Nat
  lastFrame : Nat
  oldestSent : Nat
  laneCounters : List (Nat × Counters)
  counters : Counters
  deriving DecidableEq, Repr

/-- A block being staged at a root engine (R325): contributor rank, block and its frames. -/
structure Staged where
  rank : Nat
  coll : Nat
  bucket : Nat
  block : Nat
  frags : List (Nat × List Byte)
  own : Bool
  deriving DecidableEq, Repr

/-- An open bucket at its root engine (R325 to R328): accumulators of its blocks as FP32 values,
the bits of blocks counted (contributor rank, block), ranks whose LAST arrived, whether it is
complete, and landings not yet acknowledged. -/
structure Bucket where
  coll : Nat
  bucket : Nat
  epoch : Half
  acc : List (Nat × List Word)
  counted : List (Nat × Nat)
  lastFrom : List Nat
  complete : Bool
  landing : Nat
  opened : Nat
  timeout : Nat
  probes : Nat
  deriving DecidableEq, Repr

/-- A block retained by a contributor until BUCKET_ACK (R327); `again` marks a block to be sent
again after RESEND_DELAY. -/
structure Retained where
  coll : Nat
  bucket : Nat
  block : Nat
  epoch : Half
  data : List Byte
  last : Bool
  again : Bool
  deriving DecidableEq, Repr

/-- An entry of a landing log (R328). -/
structure LogEntry where
  coll : Nat
  step : DWord
  bucket : Nat
  landing : Landing
  deriving DecidableEq, Repr

/-- A reduce engine (R323). -/
structure Engine where
  staged : List Staged
  buckets : List Bucket
  retained : List Retained
  log : List LogEntry
  resendAt : Option Nat
  counters : Counters
  deriving DecidableEq, Repr

/-- The links and collectives of a slab. -/
structure Links where
  endpoint : Half
  routes : List (Nat × Half)
  groups : List (Nat × Group)
  mcastTx : List (Nat × McastTx)
  mcastRx : List McastRx
  packets : List McPacket
  retryTimeout : Nat
  resendDelay : Nat
  mcastRetry : Nat
  collTimeout : Nat
  summitTimeout : Nat
  windows : List (Nat × WindowEntry)
  windowCounters : List (Nat × Counters)
  sink : Option (Byte × Half × Byte × Nat × Nat)
  sinkNext : Option (Option (Byte × Half × Byte × Nat × Nat))
  sinkOffset : Nat
  sinkUsed : Nat
  retried : List (Nat × Nat)
  own : Option Contribution
  children : List (Half × Contribution)
  summitParts : List ((Half × Bool) × List (Nat × List Byte))
  result : Option SummitResult
  contributed : Bool
  summitWait : Nat
  summitSince : Nat
  summitProbes : Nat
  unreachable : Bool
  slowPitches : Half
  transit : List (Nat × ZFrame)
  deriving DecidableEq, Repr

/-! ## Base camp, mailboxes and flash -/

/-- Mailbox status and buffers (Table 15.2); `pendingOrder` orders rung doorbells (R395). -/
structure Mailbox where
  done : Bool
  pending : Bool
  outstanding : Nat
  lastTag : Half
  request : Cells
  response : Cells
  rung : Nat
  deriving DecidableEq, Repr

/-- A command outstanding at a function (R394): tag, opcode, mailbox, whether it is past its commit point
(R395) and whether it was deferred, with the response payload its completion carries (R401). -/
structure Outstanding where
  tag : Half
  opcode : Half
  mailbox : Fin 4
  committed : Bool
  deferred : Bool
  detail : List Byte
  deriving DecidableEq, Repr

/-- An event record (Table 15.13). -/
structure EventRec where
  stamp : Stamp
  type : Byte
  status : Byte
  mailbox : Byte
  tag : Half
  opcode : Half
  detail : List Byte
  deriving DecidableEq, Repr

/-- The PCIe side of a function (R391, R405 to R407, R415 to R417): mailboxes, event-ring
registers, the next record SEQ, the queue of records without room, dropped records, whether
vector 4 may be signalled, the MSI-X table and pending bits (Table 15.1), and vectors signalled so far, newest first. -/
structure Func where
  m0 : Mailbox
  m1 : Mailbox
  m2 : Mailbox
  m3 : Mailbox
  outstanding : List Outstanding
  rungCount : Nat
  evtBase : DWord
  evtSize : BitVec 5
  evtEnable : Bool
  evtProducer : DWord
  evtConsumer : DWord
  evtSeq : DWord
  evtQueue : List EventRec
  evtDropped : Nat
  evtArmed : Bool
  msixTable : Cells
  msixPba : DWord
  vectors : List Nat
  busMaster : Bool
  d3hot : Bool
  aerLogged : Nat
  counters : Counters
  deriving DecidableEq, Repr

/-- What base camp's core is running (R390, R421, R429, R431). -/
inductive Firmware where
  | stopped
  | bootRom
  | running
  | restarting
  | recovery
  deriving DecidableEq, Repr

/-- A flash record (R425). -/
structure FlashRec where
  type : Half
  seq : DWord
  payload : List Byte
  committed : Bool
  deriving DecidableEq, Repr

/-- The flash of a slab (R424 to R434): identity region, firmware slot, record regions. -/
structure Flash where
  identity : List Byte
  deviceCert : List Byte
  issuingCert : List Byte
  factoryMap : List Byte
  fwImage : List Byte
  fwCommitted : Bool
  regionA : List FlashRec
  regionB : List FlashRec
  activeB : Bool
  deriving DecidableEq, Repr

/-- A firmware update session (R428); `committing` from FW_COMMIT to its end. -/
structure FwSession where
  total : Nat
  bytes : List Byte
  activate : Bool
  committing : Bool
  deriving DecidableEq, Repr

/-- A self-test or calibration accepted, deferred or forced (R408, R409); `live` while a completion record is owed
(R416). -/
structure Operation where
  opcode : Half
  target : Nat
  tag : Half
  mailbox : Fin 4
  deferred : Bool
  forced : Bool
  running : Bool
  live : Bool
  deriving DecidableEq, Repr

/-- A control packet on its way to a node (Table 7.4): a register write or read, a store or scratchpad write, a status
report from a source address, or a col coordination message. -/
inductive CtrlPacket where
  | write (t : TileId) (reg : CtrlReg) (value : DWord)
  | read (t : TileId) (reg : CtrlReg)
  | store (t : TileId) (target : StoreTarget)
  | report (src : Half) (payload : List DWord)
  | col (m : ColMsg)
  deriving DecidableEq, Repr

/-- A request whose response base camp awaits (R174): its tag, attempts so far, the packet and the
cycle of the latest attempt. -/
structure CtrlReq where
  tag : Half
  attempts : Nat
  packet : CtrlPacket
  sentAt : Nat
  deriving DecidableEq, Repr

/-- Base camp of a slab: `restartCause` why its firmware last stopped (0 watchdog, 1 SRAM error, 2 reference loss,
3 activation, 4 cold start), firmware, flash, power-on count, ledger, fault log, sideband file, the latest
sensor samples in thousandths of a degree, and the sensors' conditions. `ctrlResponses` are responses on their way with their
tag, value and phase; `ctrlHeld` the packets of the slab that their receiver holds for a phase tag (R53); `releasedAt` the
cycle at which the latest slab-scope release reaches base camp; `contexts` the context entries that it keeps (R254). -/
structure Camp where
  firmware : Firmware
  restartCause : Nat
  restarts : Nat
  fwVersion : Word
  romVersion : Word
  fwSvn : Word
  fwDigest : List Byte
  keyMismatch : Bool
  identityBad : Bool
  seedLocked : Bool
  powerOn : Word
  flash : Flash
  mapPending : Bool
  session : Option FwSession
  operations : List Operation
  ledger : List LedgerRec
  faultLog : List FaultEntry
  logSeq : DWord
  ctrlOutstanding : List CtrlReq
  ctrlResponses : List (Half × DWord × Nat)
  ctrlHeld : List (Half × CtrlPacket)
  releasedAt : Nat
  ctrlRead : List (Half × DWord)
  reports : List (Half × List DWord)
  readings : List (Sensor × Int)
  conditions : List Condition
  sideband : Cells
  sidebandStale : Bool
  peerVersion : Word
  peerGate : DWord × Nat
  peerMode : Mode
  peerMilliC : Int
  contexts : List ContextEntry
  deriving DecidableEq, Repr

/-! ## A slab -/

/-- The clocks of a slab (R442 to R446): whether the divided clocks run, the missing-edge
detector, the lock count, the arithmetic cycles counted since power-on and the count at which the divided
clocks last started (R49). -/
structure Clocks where
  running : Bool
  lost : Bool
  locking : Bool
  cycle : Nat
  since : Nat
  deriving DecidableEq, Repr

/-- Memory tiers of a slab: shelf bytes addressed 2^36 stack + 2^21 frame + offset, page table
entries by VPN, frames not free, stripe kinds, mapped objects, residence frames in use and their
LAST_USE, frames that leave residence in the next maintenance pitch, migrations, the level-1 page table as the number of the
level-2 table for each VPN[26:14] that has one (R190), pages whose data are withheld until the peer's copy has come (R212), and
the staging region by byte offset. -/
structure Memory where
  shelf : Cells
  pages : List (Nat × DWord)
  frames : List ((Nat × Nat) × FrameUse)
  stripes : List (Nat × StripeKind)
  objects : List ObjectEntry
  hints : List (Nat × Nat × Nat)
  residence : List ((Nat × Nat × Nat) × Nat × DWord)
  dropping : List (Nat × Nat × Nat)
  moving : List Migration
  tables : List (Nat × Nat)
  withheld : List Nat
  staging : Cells
  deriving DecidableEq, Repr

/-- One slab: power, clocks, tiles not in their reset state, fields, root, memory, streams, stacks,
ports, engines, links, base camp, job, counters per feed queue and per slab. -/
structure Slab where
  powered : Bool
  clocks : Clocks
  tiles : List ((Nat × Nat) × Tile)
  fields : List (Nat × Field)
  lostFields : List Nat
  hole : List Nat
  root : Root
  mem : Memory
  streams : List (Nat × StreamState)
  stackList : List (Nat × Stack)
  ports : List (Nat × Port)
  engines : List (Nat × Engine)
  links : Links
  camp : Camp
  job : Job
  gate : Word
  feedCounters : List (Nat × Counters)
  counters : Counters
  deriving DecidableEq, Repr

/-! ## The module -/

/-- Parts the slabs share or that lie between them: the mode in force, the supply and its
converters, the reference, the pins, the PCIe link, the col's failed lanes, belay pairs and
crossings, and the module gate. -/
structure Shared where
  mode : Mode
  inputGood : Bool
  converters : Bool
  reference : Bool
  perstN : Bool
  thermtripN : Bool
  alertN : Bool
  linkUp : Bool
  setMode : Option (SlabId × Half × Fin 4 × Mode)
  colLanes : List (Fin 96)
  belayPairs : List (Fin 4)
  belayLane : Option Nat
  crossings : List (Fin 8)
  gate : Word
  supplyMv : Nat
  supplyMa : Nat
  counters : Counters
  deriving DecidableEq, Repr

/-- The state of the module. `hostMem` holds what the module has written to host memory by DMA;
`smbus` the last 32 bytes a Block Read returned (none: NACKed). `free` counts the free values
taken so far: it is the model's own field, not the spec's. -/
structure State where
  pending : List Instr
  slab0 : Slab
  slab1 : Slab
  shared : Shared
  fn0 : Func
  fn1 : Func
  hostMem : Cells
  smbus : Option (List Byte)
  free : Nat
  deriving DecidableEq, Repr

/-- Why the machine stops with a fault. -/
inductive Fault where
  /-- A host access lies outside the BAR region the spec gives (R391, R418). Raised by
  REQUEST_BUFFER_WRITE, STAGING_WRITE and FEED_APERTURE_WRITE. Safe: the access has no place. -/
  | noSuchHostAddress
  deriving DecidableEq, Repr

/-- Why the machine has no meaning for a command. -/
inductive Refusal where
  /-- The command has no meaning yet. Raised by exec only; safe. -/
  | notModelled (mnemonic : String)
  deriving DecidableEq, Repr

/-! ## Reset

`State.reset` is the module with its input good and the reference present while PERST_N is
asserted (R421, R464): every volatile register and store holds its reset value, only flash keeps
contents. Values the spec does not give are named in the assumption log. -/

def RegMap.zero : RegMap := { base := none, cells := [] }

def Stamp.zero : Stamp :=
  { powerOn := 0, phase := 0, slab := .s0, maint := false, hold := false, idle := false, pitch := 0 }

def Desc.zero : Desc :=
  { t := false, half := false, idx := 0, base := 0, pitch := 0, sbase := 0, spitch := 0 }

/-- Table 4.9: STATE 0b000, PC 0, SLIP 0 from tile reset. -/
def Sequencer.reset : Sequencer :=
  { loaded := false, issued := false, state := .notLoaded, pc := 0, regs := .zero, late := none, store := []
    locked := none, descs := [], lastOp := 0, slip := 0, spans := [], nextIssue := 0, doneAt := 0 }

def MatrixEngine.reset : MatrixEngine :=
  { bank0 := .zero, bank1 := .zero, transA := .zero, transB := .zero, queue := [], freeAt := 0, undrained := [] }

def VectorEngine.reset : VectorEngine :=
  { regs := .zero, queue := [], freeAt := 0, writeAt := [], bankRead := [], storeAt := 0 }

def OverlayPort.reset : OverlayPort := { queue := [], freeAt := 0, ackAt := 0, moves := [] }

def Router.reset : Router :=
  { inputs := [], eject := [], portal := [], acks := [], combine := [], outs := [], failed := []
    nextMsg := 0 }

/-- A tile in reset: idle, no program, flags and error word clear (Tables 5.6, 6.4, 18.4); its
context pointer words are absent, which reads as CNONE 1, CP 0, SP 0 (Table 10.2). -/
def Tile.reset : Tile :=
  { entry := none, fwd := .reset, bwd := .reset, svc := .reset, matrix := .reset, vector := .reset
    fills := [], port := .reset, sends := [], scratch := [], powered := 0, overlay := [], ctxs := [], ac := .zero
    flags := 0, flagsNow := 0, spError := 0, gate := 0, unacked := 0, ackedAt := 0, arrivals := [], released := []
    localStart := 0, releasedAt := 0, router := .reset, xlate := [], loads := []
    atomicWaits := [], forwards := [], lastUse := 0, lending := false, failed := false
    scrubbed := [], scrubAt := 0, scrubNext := 0, scrubErrs := [], rewrites := [], ovlScrub := 0, counters := [] }

/-- A field in reset: good in the factory map, its stage off, its fuse armed. -/
def Field.reset : Field :=
  { state := 0, factory := false, lostPowerOn := 0, lostPitch := 0, rowShift := [], colShift := []
    failedTiles := [], degradedTiles := [], powered := false, fuseOpen := false, clamped := false
    since := 0, toggles := [], dead := [], repairPending := false, critSamples := 0, gate := 0, counters := [] }

/-- The root before the belay network runs: pitch number 0 (R57). -/
def Root.reset : Root :=
  { running := false, pitch := 0, phase := 0, kind := .none, issued := 0, length := 0, deadline := 0
    stretched := 0, stretchLimit := 0, releases := 0, lastSlip := 0, schedIndex := 0
    indexInStep := 0, firstPitch := 0, midStep := false, releasedPhases := 0, inHold := false
    holdKind := .none, holdMidStep := false, takenOver := false, routersEmpty := false, causes := []
    parks := [], before := (0, 0, .none), task := 0 }

def UpdateUnit.reset : UpdateUnit :=
  { landings := [], gsq := 0, nonfinite := false, short := false, groups := [], cstep := 0, pos := 0
    journal := none, torn := false, result := none, seqs := [], repairs := [], full := [], dirty := []
    sweep := 0, baselineUsed := 0, standIn := none, counters := [] }

def Stack.reset : Stack :=
  { state := .good, changed := none, milliC := 0, hot := false, critical := false
    selfRefresh := false, doubled := false, slice := [], wheel := 0, wheelHalf := false, work := [], atomics := [], atomicOld := 0, deltas := [], unit := .reset, counters := [] }

/-- A stream descriptor's state word in reset: STATE 0b00 not loaded (Table 9.7). -/
def StreamState.reset : StreamState :=
  { state := 0, fault := false, held := false, epoch := 0, run := 0, step := 0, pass := 0
    fetchStep := 0, fetchPass := 0, fetching := false, returned := [], heldAt := none, bufferWait := none
    fill := [], partial_ := []
    buffer := [], delivering := false, tail := [], tailRow := 0, errs := [] }

/-- A Zetra port in reset: disabled until LINK_CONFIG (Table 16.3), default quotas of R311. -/
def Port.reset : Port :=
  { enabled := false, training := false, retrain := false, helloSent := false, helloGot := false, up := false
    cable := false, neighbour := 0, neighbourPort := 0, working := 0xFF, lanes := 0, marginal := 0
    uncorrectable := [], quotas := List.replicate 8 128, credits := List.replicate 8 0, owed := List.replicate 8 0, txSeq := 0
    rxSeq := 0, rq := false, resends := 0, replay := [], queue := [], turn := 0, sinceCatchup := 0
    lastFrame := 0, oldestSent := 0
    laneCounters := [], counters := [] }

def Engine.reset : Engine :=
  { staged := [], buckets := [], retained := [], log := [], resendAt := none, counters := [] }

/-- Links in reset: route entries 0 (Table 12.6), timers at the defaults of Table 12.9. -/
def Links.reset : Links :=
  { endpoint := 0, routes := [], groups := [], mcastTx := [], mcastRx := [], packets := []
    retryTimeout := 16384, resendDelay := 2048, mcastRetry := 8192, collTimeout := 1048576
    summitTimeout := 1048576, windows := [], windowCounters := [], sink := none, sinkNext := none
    sinkOffset := 0, sinkUsed := 0, retried := []
    own := none, children := [], summitParts := [], result := none, contributed := false
    summitWait := 1048576, summitSince := 0, summitProbes := 0, unreachable := false, slowPitches := 0, transit := [] }

/-- A mailbox in reset (Table 15.2). -/
def Mailbox.reset : Mailbox :=
  { done := false, pending := false, outstanding := 0, lastTag := 0, request := [], response := []
    rung := 0 }

def Func.reset : Func :=
  { m0 := .reset, m1 := .reset, m2 := .reset, m3 := .reset, outstanding := [], rungCount := 0
    evtBase := 0, evtSize := 0, evtEnable := false, evtProducer := 0, evtConsumer := 0, evtSeq := 0
    evtQueue := [], evtDropped := 0, evtArmed := true, msixTable := [], msixPba := 0, vectors := [], busMaster := false
    d3hot := false, aerLogged := 0, counters := [] }

/-- Flash as it leaves the factory as far as the spec fixes it: no settings record (Table 16.6), a
committed firmware slot of unknown contents. -/
def Flash.factory : Flash :=
  { identity := [], deviceCert := [], issuingCert := [], factoryMap := [], fwImage := []
    fwCommitted := true, regionA := [], regionB := [], activeB := false }

def Camp.reset : Camp :=
  { firmware := .stopped, restartCause := 4, restarts := 0, fwVersion := 0, romVersion := 0
    fwSvn := 0, fwDigest := [], keyMismatch := false, identityBad := false, seedLocked := false, powerOn := 0
    flash := .factory, mapPending := false, session := none, operations := [], ledger := []
    faultLog := [], logSeq := 0, ctrlOutstanding := [], ctrlResponses := [], ctrlHeld := [], releasedAt := 0, ctrlRead := []
    reports := [], readings := [], conditions := [], sideband := [], sidebandStale := false, peerVersion := 0
    peerGate := (0, 0), peerMode := .split, peerMilliC := 0, contexts := [] }

def Job.reset : Job :=
  { state := .empty, reason := .none, image := none, incoming := none, placement := 0, seed := 0
    step := 0, inStep := false, ran := false, replay := 0, overruns := 0, gateMet := false, feedPitches := 0, primed := []
    idleSinceStart := false, ranOut := false, epoch := 0, window := none, settings := [], lrScale := 0x3F800000
    hostPause := false, stopAsked := false, missingPlacement := false, lostPages := []
    colLost := false, results := [], feeds := [] }

def Memory.reset : Memory :=
  { shelf := [], pages := [], frames := [], stripes := [], objects := [], hints := []
    residence := [], dropping := [], moving := [], tables := [], withheld := [], staging := [] }

def Clocks.reset : Clocks := { running := false, lost := false, locking := false, cycle := 0, since := 0 }

/-- A slab in reset; the EN bits of the module's and the slabs' gate words are 1 (Table 18.4). -/
def Slab.reset : Slab :=
  { powered := true, clocks := .reset, tiles := [], fields := [], lostFields := [], hole := []
    root := .reset, mem := .reset, streams := [], stackList := [], ports := [], engines := []
    links := .reset, camp := .reset, job := .reset, gate := 1, feedCounters := [], counters := [] }

def Shared.reset : Shared :=
  { mode := .split, inputGood := true, converters := true, reference := true, perstN := false
    thermtripN := true, alertN := true, linkUp := false, setMode := none, colLanes := []
    belayPairs := [], belayLane := none, crossings := [], gate := 1, supplyMv := 56000, supplyMa := 0, counters := [] }

/-- The module in reset. -/
def State.reset : State :=
  { pending := [], slab0 := .reset, slab1 := .reset, shared := .reset, fn0 := .reset
    fn1 := .reset, hostMem := [], smbus := none, free := 0 }

end Sys2Proof.Machine
end

