-- ==== Sys2Proof/Machine/Ops.lean ====
section
/-! DEFINITION. The named operations over the state's containers: association lists, byte memory,
register files, bytes and fields, counters, and access to slabs, tiles and units. -/

namespace Sys2Proof.Machine

open Sys2Proof

/-! ## Association lists -/

/-- The value listed under `k`. -/
def alookup {α β : Type} [DecidableEq α] (k : α) : List (α × β) → Option β
  | [] => none
  | (k', v) :: l => if k = k' then some v else alookup k l

/-- The value listed under `k`, or `d`. -/
def agetD {α β : Type} [DecidableEq α] (d : β) (k : α) (l : List (α × β)) : β :=
  (alookup k l).getD d

/-- `l` with `v` listed under `k` and nothing else changed. -/
def aset {α β : Type} [DecidableEq α] (k : α) (v : β) : List (α × β) → List (α × β)
  | [] => [(k, v)]
  | (k', v') :: l => if k = k' then (k, v) :: l else (k', v') :: aset k v l

/-- `l` without the values listed under `k`. -/
def aerase {α β : Type} [DecidableEq α] (k : α) (l : List (α × β)) : List (α × β) :=
  l.filter (fun p => p.1 ≠ k)

/-! ## Byte memory -/

/-- The byte at `a`; an unlisted byte is 0. -/
def Cells.read : Cells → Nat → Byte
  | [], _ => 0
  | (k, b) :: m, a => if a = k then b else Cells.read m a

/-- `m` without its cells at `a`. -/
def Cells.without (m : Cells) (a : Nat) : Cells := m.filter (fun c => c.1 ≠ a)

/-- `m` with the cell (`a`, `b`) put before the first cell of a greater address. -/
def Cells.put : Cells → Nat → Byte → Cells
  | [], a, b => [(a, b)]
  | (k, c) :: m, a, b => if a < k then (a, b) :: (k, c) :: m else (k, c) :: Cells.put m a b

/-- `m` with byte `b` at `a`; a zero byte is not listed, so that the canonical form stays canonical. -/
def Cells.write (m : Cells) (a : Nat) (b : Byte) : Cells :=
  if b = 0 then m.without a else (m.without a).put a b

/-- `n` bytes from `a` on. -/
def Cells.readN (m : Cells) (a : Nat) : Nat → List Byte
  | 0 => []
  | n + 1 => Cells.read m a :: Cells.readN m (a + 1) n

/-- The bytes `bs` stored from `a` on. -/
def Cells.writeN (m : Cells) (a : Nat) : List Byte → Cells
  | [] => m
  | b :: bs => Cells.writeN (Cells.write m a b) (a + 1) bs

/-- No cell of `m` lies from `lo` to below `hi`. -/
def Cells.clear (m : Cells) (lo hi : Nat) : Cells :=
  m.filter (fun c => c.1 < lo || hi ≤ c.1)

/-- The canonical form: addresses strictly rising above `lo`, no zero byte. -/
def Cells.wfFrom : Nat → Cells → Bool
  | _, [] => true
  | lo, (k, b) :: m => decide (lo ≤ k) && decide (b ≠ 0) && Cells.wfFrom (k + 1) m

/-- The canonical form of byte memory. -/
def Cells.wf (m : Cells) : Bool := Cells.wfFrom 0 m

/-! ## Bytes, little-endian (R5) -/

/-- The number that bytes spell, first byte least significant. -/
def leNat : List Byte → Nat
  | [] => 0
  | b :: bs => b.toNat + 256 * leNat bs

/-- The `n` least significant bytes of `v`, least significant first. -/
def leBytes (v : Nat) : Nat → List Byte
  | 0 => []
  | n + 1 => BitVec.ofNat 8 v :: leBytes (v / 256) n

/-- `n` bytes of `bs` from offset `off`, read as a number; bytes beyond the end read as 0. -/
def leAt (bs : List Byte) (off n : Nat) : Nat := leNat ((bs.drop off).take n)

/-- `bs` cut or padded with zero bytes to `n`. -/
def padTo (n : Nat) (bs : List Byte) : List Byte := (bs ++ List.replicate (n - bs.length) 0).take n

/-- Bits [hi:lo] of a word, as a number. -/
def bits {w : Nat} (v : BitVec w) (hi lo : Nat) : Nat := (v.toNat >>> lo) % 2 ^ (hi + 1 - lo)

/-- Bit `i` of a word. -/
def bit {w : Nat} (v : BitVec w) (i : Nat) : Bool := v.getLsbD i

/-- `w`-bit wrapping order of R10: `a` is later than `b`. -/
def later {w : Nat} (a b : BitVec w) : Bool :=
  let d := (a - b).toNat
  decide (d ≠ 0) && decide (d < 2 ^ (w - 1))

/-- A number clamped to 16 bits (R44, R119). -/
def sat16 (n : Nat) : Half := BitVec.ofNat 16 (min n 0xFFFF)

/-- `n` added to a saturating 16-bit count. -/
def addSat16 (c : Half) (n : Nat) : Half := sat16 (c.toNat + n)

/-- A 64-byte row from its bytes. -/
def rowOfBytes (bs : List Byte) : Row := BitVec.ofNat 512 (leNat (bs.take 64))

/-- The 64 bytes of a row. -/
def rowBytes (r : Row) : List Byte := leBytes r.toNat 64

/-! ## Register files -/

/-- Entry `i`. -/
def RegMap.get (r : RegMap) (i : Nat) : Word :=
  match alookup i r.cells with
  | some v => v
  | none =>
    match r.base with
    | none => 0
    | some n => Config.freeWord n i

/-- The file with entry `i` set. -/
def RegMap.set (r : RegMap) (i : Nat) (v : Word) : RegMap := { r with cells := aset i v r.cells }

/-- The file with `vs` in entries `i`, `i + 1`, ... -/
def RegMap.setMany (r : RegMap) (i : Nat) : List Word → RegMap
  | [] => r
  | v :: vs => RegMap.setMany (r.set i v) (i + 1) vs

/-- Entries `i` to `i + n - 1`. -/
def RegMap.getMany (r : RegMap) (i : Nat) : Nat → List Word
  | 0 => []
  | n + 1 => r.get i :: RegMap.getMany r (i + 1) n

/-- A file whose contents are undefined, as free value number `n`. -/
def RegMap.undefined (n : Nat) : RegMap := { base := some n, cells := [] }

/-! ## Counters (R8) -/

def Counter.zero : Counter := { count := 0, overflow := false, fresh := 0 }

/-- `n` events counted: a counter stays at all ones and sets its overflow bit. -/
def Counter.add (c : Counter) (n : Nat) : Counter :=
  if n = 0 then c
  else if c.overflow || decide (2 ^ 48 - 1 ≤ c.count.toNat + n) then
    { count := BitVec.ofNat 48 (2 ^ 48 - 1), overflow := true, fresh := c.fresh + n }
  else { count := BitVec.ofNat 48 (c.count.toNat + n), overflow := false, fresh := c.fresh + n }

/-- The counter cleared: what the present management cycle has added to it comes after the clear (R8). -/
def Counter.cleared (c : Counter) : Counter := Counter.zero.add c.fresh

/-- The counter as the next management cycle finds it. -/
def Counter.settled (c : Counter) : Counter := { c with fresh := 0 }

/-- The counter with identifier `id` (R403). -/
def Counters.get (cs : Counters) (id : Nat) : Counter := agetD Counter.zero id cs

/-- `n` events counted in counter `id`. -/
def Counters.bump (cs : Counters) (id n : Nat) : Counters :=
  if n = 0 then cs else aset id ((Counters.get cs id).add n) cs

/-- Counter `id` cleared by COUNTERS_CLEAR: the clear comes before every increment of its management
cycle (R8). -/
def Counters.clear (cs : Counters) (id : Nat) : Counters :=
  let c := Counters.get cs id
  if c.fresh = 0 then aerase id cs else aset id c.cleared cs

/-- The counters of a scope as the next management cycle finds them. -/
def Counters.settle (cs : Counters) : Counters := cs.map (fun p => (p.1, p.2.settled))

/-! ## Slabs, functions, tiles and units -/

/-- A slab of the module. -/
def State.slab (s : State) : SlabId → Slab
  | .s0 => s.slab0
  | .s1 => s.slab1

/-- The module with slab `i` replaced. -/
def State.setSlab (s : State) : SlabId → Slab → State
  | .s0, sl => { s with slab0 := sl }
  | .s1, sl => { s with slab1 := sl }

/-- The module with slab `i` changed by `f`. -/
def State.modSlab (s : State) (i : SlabId) (f : Slab → Slab) : State := s.setSlab i (f (s.slab i))

/-- The PCIe side of a function. -/
def State.func (s : State) : SlabId → Func
  | .s0 => s.fn0
  | .s1 => s.fn1

/-- The module with a function's PCIe side replaced. -/
def State.setFunc (s : State) : SlabId → Func → State
  | .s0, f => { s with fn0 := f }
  | .s1, f => { s with fn1 := f }

/-- The module with a function's PCIe side changed by `g`. -/
def State.modFunc (s : State) (i : SlabId) (g : Func → Func) : State := s.setFunc i (g (s.func i))

/-- The slab whose base camp and root keep the device's job, pitch and schedule: the slab itself
in split mode, slab 0 in joined mode (R31, R33, R380). -/
def State.dev (s : State) (i : SlabId) : SlabId :=
  match s.shared.mode with
  | .split => i
  | .joined => .s0

/-- The slabs of the device that slab `i` belongs to. -/
def State.devSlabs (s : State) (i : SlabId) : List SlabId :=
  match s.shared.mode with
  | .split => [i]
  | .joined => [.s0, .s1]

/-- The module with every slab of the device changed by `f`. -/
def State.modDev (s : State) (i : SlabId) (f : Slab → Slab) : State :=
  match s.shared.mode with
  | .split => s.modSlab i f
  | .joined => (s.modSlab .s0 f).modSlab .s1 f

/-- A logical tile by its slab-local coordinates. -/
def Slab.tile (sl : Slab) (x y : Nat) : Tile := agetD Tile.reset (x, y) sl.tiles

/-- The slab with a tile replaced. -/
def Slab.setTile (sl : Slab) (x y : Nat) (t : Tile) : Slab :=
  { sl with tiles := aset (x, y) t sl.tiles }

/-- The slab with a tile changed by `f`. -/
def Slab.modTile (sl : Slab) (x y : Nat) (f : Tile → Tile) : Slab := sl.setTile x y (f (sl.tile x y))

/-- The slab with every tile that is not in its reset state changed by `f`. -/
def Slab.mapTiles (sl : Slab) (f : Nat → Nat → Tile → Tile) : Slab :=
  { sl with tiles := sl.tiles.map (fun p => (p.1, f p.1.1 p.1.2 p.2)) }

/-- A tile of the module. -/
def State.tile (s : State) (t : TileId) : Tile := (s.slab t.slab).tile t.x.val t.y.val

/-- The module with a tile changed by `f`. -/
def State.modTile (s : State) (t : TileId) (f : Tile → Tile) : State :=
  s.modSlab t.slab (fun sl => sl.modTile t.x.val t.y.val f)

/-- A field of a slab by its number c + 7 r. -/
def Slab.field (sl : Slab) (f : Nat) : Field := agetD Field.reset f sl.fields

/-- The slab with a field changed. -/
def Slab.modField (sl : Slab) (f : Nat) (g : Field → Field) : Slab :=
  { sl with fields := aset f (g (sl.field f)) sl.fields }

/-- The number c + 7 r of a field. -/
def fieldNum (f : FieldId) : Nat := f.c.val + 7 * f.r.val

/-- The field in which a tile lies (R15). -/
def fieldOf (x y : Nat) : Nat := x / 16 + 7 * (y / 16)

/-- A shelf stack of a slab. -/
def Slab.stack (sl : Slab) (k : Nat) : Stack := agetD Stack.reset k sl.stackList

/-- The slab with a stack changed. -/
def Slab.modStack (sl : Slab) (k : Nat) (g : Stack → Stack) : Slab :=
  { sl with stackList := aset k (g (sl.stack k)) sl.stackList }

/-- The slab with the update unit of stack `k` changed. -/
def Slab.modUnit (sl : Slab) (k : Nat) (g : UpdateUnit → UpdateUnit) : Slab :=
  sl.modStack k (fun st => { st with unit := g st.unit })

/-- A Zetra port of a slab. -/
def Slab.port (sl : Slab) (p : Nat) : Port := agetD Port.reset p sl.ports

/-- The slab with a port changed. -/
def Slab.modPort (sl : Slab) (p : Nat) (g : Port → Port) : Slab :=
  { sl with ports := aset p (g (sl.port p)) sl.ports }

/-- A reduce engine of a slab. -/
def Slab.engine (sl : Slab) (e : Nat) : Engine := agetD Engine.reset e sl.engines

/-- The slab with an engine changed. -/
def Slab.modEngine (sl : Slab) (e : Nat) (g : Engine → Engine) : Slab :=
  { sl with engines := aset e (g (sl.engine e)) sl.engines }

/-- The state of a stream descriptor. -/
def Slab.stream (sl : Slab) (d : Nat) : StreamState := agetD StreamState.reset d sl.streams

/-- The slab with a stream descriptor's state changed. -/
def Slab.modStream (sl : Slab) (d : Nat) (g : StreamState → StreamState) : Slab :=
  { sl with streams := aset d (g (sl.stream d)) sl.streams }

/-- The slab with its root, job, camp, links or memory changed. -/
def Slab.modRoot (sl : Slab) (g : Root → Root) : Slab := { sl with root := g sl.root }
def Slab.modJob (sl : Slab) (g : Job → Job) : Slab := { sl with job := g sl.job }
def Slab.modCamp (sl : Slab) (g : Camp → Camp) : Slab := { sl with camp := g sl.camp }
def Slab.modLinks (sl : Slab) (g : Links → Links) : Slab := { sl with links := g sl.links }
def Slab.modMem (sl : Slab) (g : Memory → Memory) : Slab := { sl with mem := g sl.mem }

/-- `n` events counted at the scope of the slab, of a tile, of a stack or of a unit. -/
def Slab.count (sl : Slab) (id n : Nat) : Slab := { sl with counters := Counters.bump sl.counters id n }
def Tile.count (t : Tile) (id n : Nat) : Tile := { t with counters := Counters.bump t.counters id n }
def Stack.count (t : Stack) (id n : Nat) : Stack := { t with counters := Counters.bump t.counters id n }
def UpdateUnit.count (t : UpdateUnit) (id n : Nat) : UpdateUnit :=
  { t with counters := Counters.bump t.counters id n }
def Engine.count (t : Engine) (id n : Nat) : Engine :=
  { t with counters := Counters.bump t.counters id n }
def Port.count (t : Port) (id n : Nat) : Port := { t with counters := Counters.bump t.counters id n }
def Func.count (t : Func) (id n : Nat) : Func := { t with counters := Counters.bump t.counters id n }
def Field.count (t : Field) (id n : Nat) : Field :=
  { t with counters := Counters.bump t.counters id n }

/-- The job and the root of the device that slab `i` belongs to. -/
def State.job (s : State) (i : SlabId) : Job := (s.slab (s.dev i)).job
def State.root (s : State) (i : SlabId) : Root := (s.slab (s.dev i)).root
def State.modJob (s : State) (i : SlabId) (g : Job → Job) : State :=
  s.modSlab (s.dev i) (fun sl => sl.modJob g)
def State.modRoot (s : State) (i : SlabId) (g : Root → Root) : State :=
  s.modSlab (s.dev i) (fun sl => sl.modRoot g)

/-- The arithmetic cycle of a slab. -/
def State.cycle (s : State) (i : SlabId) : Nat := (s.slab i).clocks.cycle

/-- A tile's place in device-wide coordinates (R29, R160). -/
def gx (m : Mode) (t : TileId) : Nat :=
  match m, t.slab with
  | .joined, .s1 => t.x.val + 112
  | _, _ => t.x.val

/-- The width of the device grid (Table 0.2). -/
def gridWidth : Mode → Nat
  | .split => 112
  | .joined => 224

/-- The tile at device-wide coordinates of the device slab `i` belongs to. -/
def tileAt (m : Mode) (i : SlabId) (x y : Nat) : Option TileId :=
  if hy : y < 96 then
    if hx : x < 112 then
      some { slab := (match m with | .split => i | .joined => .s0), x := ⟨x, hx⟩, y := ⟨y, hy⟩ }
    else
      match m with
      | .split => none
      | .joined =>
        if hx' : x - 112 < 112 then some { slab := .s1, x := ⟨x - 112, hx'⟩, y := ⟨y, hy⟩ } else none
  else none

/-- A logical tile of a slab by slab-local coordinates. -/
def tileId (k : SlabId) (x y : Nat) : TileId := { slab := k, x := ⟨x % 112, Nat.mod_lt _ (by decide)⟩, y := ⟨y % 96, Nat.mod_lt _ (by decide)⟩ }

/-- A sequencer of a tile. -/
def Tile.seq (t : Tile) : SeqId → Sequencer
  | .fwd => t.fwd
  | .bwd => t.bwd
  | .svc => t.svc

/-- The tile with a sequencer replaced. -/
def Tile.setSeq (t : Tile) : SeqId → Sequencer → Tile
  | .fwd, q => { t with fwd := q }
  | .bwd, q => { t with bwd := q }
  | .svc, q => { t with svc := q }

/-- The tile with a sequencer changed by `f`. -/
def Tile.modSeq (t : Tile) (q : SeqId) (f : Sequencer → Sequencer) : Tile := t.setSeq q (f (t.seq q))

/-- The tile with each of its sequencers changed by `f`. -/
def Tile.mapSeqs (t : Tile) (f : Sequencer → Sequencer) : Tile :=
  { t with fwd := f t.fwd, bwd := f t.bwd, svc := f t.svc }

/-- A free number from 0 to `n - 1`, and the module with that free value taken. -/
def State.takeFree (s : State) (n : Nat) : Nat × State :=
  (Config.freeNat s.free % n, { s with free := s.free + 1 })

/-- `n` bytes of contents the spec leaves undefined, as free value number `k`. -/
def freeBytes (k n : Nat) : List Byte := (List.range n).map (fun j => Config.freeByte (k * 2 ^ 32 + j))

/-- The answer of a command that takes place. -/
abbrev Result := Host.Outcome State Fault Refusal

end Sys2Proof.Machine
end

