-- ==== Sys2Proof/Machine/Float.lean ====
section
/-! DEFINITION. Number formats, rounding and exact arithmetic of chapter 3 (R66 to R91): a
floating-point value is an exact dyadic number, an infinity or NaN; every operation is exact and
then rounded once. -/

namespace Sys2Proof.Machine

open Sys2Proof

/-- A value: NaN, a signed infinity, or ± m · 2 ^ e, the sign of zero kept. -/
inductive Fp where
  | nan
  | inf (neg : Bool)
  | fin (neg : Bool) (m : Nat) (e : Int)
  deriving DecidableEq, Repr

/-- What the exponent field of all ones means in a format (Table 3.2). -/
inductive Specials where
  | ieee
  | nanOnly
  | none
  deriving DecidableEq, Repr

/-- A scalar element format (Table 3.2): exponent and mantissa bits, bias, specials, and the bits
of the largest finite magnitude, of the canonical NaN and of infinity. -/
structure FpFormat where
  eb : Nat
  mb : Nat
  bias : Nat
  specials : Specials
  maxBits : Nat
  nanBits : Nat
  infBits : Nat
  deriving DecidableEq, Repr

def fp64 : FpFormat :=
  { eb := 11, mb := 52, bias := 1023, specials := .ieee, maxBits := 0x7FEFFFFFFFFFFFFF
    nanBits := 0x7FF8000000000000, infBits := 0x7FF0000000000000 }
def fp32 : FpFormat :=
  { eb := 8, mb := 23, bias := 127, specials := .ieee, maxBits := 0x7F7FFFFF, nanBits := 0x7FC00000
    infBits := 0x7F800000 }
def bf16 : FpFormat :=
  { eb := 8, mb := 7, bias := 127, specials := .ieee, maxBits := 0x7F7F, nanBits := 0x7FC0
    infBits := 0x7F80 }
def e4m3 : FpFormat :=
  { eb := 4, mb := 3, bias := 7, specials := .nanOnly, maxBits := 0x7E, nanBits := 0x7F
    infBits := 0x7F }
def e5m2 : FpFormat :=
  { eb := 5, mb := 2, bias := 15, specials := .ieee, maxBits := 0x7B, nanBits := 0x7F
    infBits := 0x7C }
def e2m1 : FpFormat :=
  { eb := 2, mb := 1, bias := 1, specials := .none, maxBits := 7, nanBits := 0, infBits := 7 }

/-- The bit above the exponent field: the sign. -/
def FpFormat.signBit (f : FpFormat) : Nat := 2 ^ (f.eb + f.mb)

/-- The exponent of the last place of subnormals and of the smallest normals. -/
def FpFormat.qmin (f : FpFormat) : Int := 1 - (f.bias : Int) - (f.mb : Int)

/-- The value of a bit pattern (R67, R68). -/
def FpFormat.decode (f : FpFormat) (b : Nat) : Fp :=
  let neg := decide (f.signBit ≤ b % (2 * f.signBit))
  let mag := b % f.signBit
  let ex := mag / 2 ^ f.mb
  let mant := mag % 2 ^ f.mb
  let fin : Fp :=
    if ex = 0 then .fin neg mant f.qmin
    else .fin neg (2 ^ f.mb + mant) (f.qmin + (ex : Int) - 1)
  match f.specials with
  | .ieee => if ex = 2 ^ f.eb - 1 then (if mant = 0 then .inf neg else .nan) else fin
  | .nanOnly => if mag = f.nanBits then .nan else fin
  | .none => fin

/-- The rounding modes of R78; a stochastic rounding carries its 16-bit random value (R87). -/
inductive Rounding where
  | nearestEven
  | towardZero
  | stochastic (r : Nat)
  deriving DecidableEq, Repr

/-- The rounding mode of a 2-bit field; a reserved mode never passes validation (R78, R95). -/
def Rounding.ofField (n : Nat) : Rounding := if n = 1 then .towardZero else .nearestEven

/-- m / 2 ^ k rounded to an integer on the magnitude. -/
def roundShift (rm : Rounding) (m k : Nat) : Nat :=
  let q := m / 2 ^ k
  match rm with
  | .towardZero => q
  | .stochastic x => if x < m * 2 ^ 16 / 2 ^ k % 2 ^ 16 then q + 1 else q
  | .nearestEven =>
    let r := m % 2 ^ k
    if 2 * r < 2 ^ k then q
    else if 2 * r = 2 ^ k then (if q % 2 = 0 then q else q + 1)
    else q + 1

/-- ± m · 2 ^ e as a multiple of 2 ^ q, rounded. -/
def roundAt (rm : Rounding) (m : Nat) (e q : Int) : Nat :=
  if q ≤ e then m * 2 ^ (e - q).toNat else roundShift rm m (q - e).toNat

/-- The exponent of the last place of a magnitude m · 2 ^ e with m not 0. -/
def FpFormat.quantum (f : FpFormat) (m : Nat) (e : Int) : Int :=
  max f.qmin (e + (Nat.log2 m : Int) - (f.mb : Int))

/-- Magnitude bits of m · 2 ^ e rounded, as if exponents had no upper bound. -/
def FpFormat.roundMag (f : FpFormat) (rm : Rounding) (m : Nat) (e : Int) : Nat :=
  if m = 0 then 0
  else
    let q := f.quantum m e
    (q - f.qmin).toNat * 2 ^ f.mb + roundAt rm m e q

/-- Sign and magnitude bits. -/
def FpFormat.withSign (f : FpFormat) (neg : Bool) (mag : Nat) : Nat :=
  if neg then f.signBit + mag else mag

/-- Rounding under IEEE 754 into an IEEE format: overflow gives the infinity, or the largest
finite value when rounding toward zero; a stochastic store clamps (R82). -/
def FpFormat.round (f : FpFormat) (rm : Rounding) (v : Fp) : Nat :=
  match v with
  | .nan => f.nanBits
  | .inf neg => f.withSign neg f.infBits
  | .fin neg m e =>
    let b := f.roundMag rm m e
    if b ≤ f.maxBits then f.withSign neg b
    else match rm with
      | .nearestEven => f.withSign neg f.infBits
      | _ => f.withSign neg f.maxBits

/-- An FP8 conversion (R79, R80): the bits, whether it saturated, and whether a NaN came of an
operand that is not NaN. `ovf` is the image's FP8_OVERFLOW. -/
def FpFormat.toFp8 (f : FpFormat) (rm : Rounding) (ovf : Bool) (v : Fp) : Nat × Bool × Bool :=
  match v with
  | .nan => (f.nanBits, false, false)
  | .inf neg =>
    match f.specials with
    | .ieee => (f.withSign neg f.infBits, false, false)
    | _ => (f.nanBits, false, true)
  | .fin neg m e =>
    let b := f.roundMag rm m e
    if b ≤ f.maxBits then (f.withSign neg b, false, false)
    else if ovf then (f.nanBits, false, true)
    else (f.withSign neg f.maxBits, true, false)

/-! ## Exact arithmetic -/

def Fp.isNan : Fp → Bool
  | .nan => true
  | _ => false

def Fp.isFinite : Fp → Bool
  | .fin _ _ _ => true
  | _ => false

def Fp.isZero : Fp → Bool
  | .fin _ m _ => m = 0
  | _ => false

def Fp.neg : Fp → Fp
  | .nan => .nan
  | .inf n => .inf !n
  | .fin n m e => .fin (!n) m e

def Fp.zero : Fp := .fin false 0 0

/-- The integer ± m · 2 ^ (e - q), for q at most e. -/
def scaledInt (neg : Bool) (m : Nat) (e q : Int) : Int :=
  let a : Int := (m * 2 ^ (e - q).toNat : Nat)
  if neg then -a else a

/-- An exact sum; two zeros of unlike sign, and opposite numbers, give +0 (IEEE 754). -/
def Fp.add : Fp → Fp → Fp
  | .nan, _ => .nan
  | _, .nan => .nan
  | .inf a, .inf b => if a = b then .inf a else .nan
  | .inf a, .fin _ _ _ => .inf a
  | .fin _ _ _, .inf b => .inf b
  | .fin n1 m1 e1, .fin n2 m2 e2 =>
    if m1 = 0 ∧ m2 = 0 then .fin (n1 && n2) 0 0
    else if m1 = 0 then .fin n2 m2 e2
    else if m2 = 0 then .fin n1 m1 e1
    else
      let q := min e1 e2
      let s := scaledInt n1 m1 e1 q + scaledInt n2 m2 e2 q
      .fin (decide (s < 0)) s.natAbs q

/-- An exact product. -/
def Fp.mul : Fp → Fp → Fp
  | .nan, _ => .nan
  | _, .nan => .nan
  | .inf a, .inf b => .inf (a != b)
  | .inf a, .fin b m _ => if m = 0 then .nan else .inf (a != b)
  | .fin a m _, .inf b => if m = 0 then .nan else .inf (a != b)
  | .fin a m1 e1, .fin b m2 e2 => .fin (a != b) (m1 * m2) (e1 + e2)

/-- The value times 2 ^ x. -/
def Fp.scale (v : Fp) (x : Int) : Fp :=
  match v with
  | .fin n m e => .fin n m (e + x)
  | v => v

/-- Comparison of two values that are not NaN: `a` is less than `b`; −0 and +0 are equal. -/
def Fp.lt : Fp → Fp → Bool
  | .nan, _ => false
  | _, .nan => false
  | .inf a, .inf b => a && !b
  | .inf a, .fin _ _ _ => a
  | .fin _ _ _, .inf b => !b
  | .fin n1 m1 e1, .fin n2 m2 e2 =>
    let q := min e1 e2
    decide (scaledInt n1 m1 e1 q < scaledInt n2 m2 e2 q)

/-- The magnitude. -/
def Fp.abs : Fp → Fp
  | .nan => .nan
  | .inf _ => .inf false
  | .fin _ m e => .fin false m e

/-! ## FP32 and FP64 operations, rounded to nearest even -/

def Word.fp (w : Word) : Fp := fp32.decode w.toNat
def DWord.fp (w : DWord) : Fp := fp64.decode w.toNat
def toF32 (rm : Rounding) (v : Fp) : Word := BitVec.ofNat 32 (fp32.round rm v)
def toF64 (v : Fp) : DWord := BitVec.ofNat 64 (fp64.round .nearestEven v)

def f32add (a b : Word) : Word := toF32 .nearestEven (Fp.add (Word.fp a) (Word.fp b))
def f32sub (a b : Word) : Word := toF32 .nearestEven (Fp.add (Word.fp a) (Word.fp b).neg)
def f32mul (a b : Word) : Word := toF32 .nearestEven (Fp.mul (Word.fp a) (Word.fp b))
def f32fma (a b c : Word) : Word :=
  toF32 .nearestEven (Fp.add (Fp.mul (Word.fp a) (Word.fp b)) (Word.fp c))
def f64add (a b : DWord) : DWord := toF64 (Fp.add (DWord.fp a) (DWord.fp b))
def f64sub (a b : DWord) : DWord := toF64 (Fp.add (DWord.fp a) (DWord.fp b).neg)
def f64mul (a b : DWord) : DWord := toF64 (Fp.mul (DWord.fp a) (DWord.fp b))

/-- FP32 as FP64, and FP64 rounded to FP32. -/
def f32to64 (a : Word) : DWord := toF64 (Word.fp a)
def f64to32 (a : DWord) : Word := toF32 .nearestEven (DWord.fp a)

/-- A natural number as the nearest FP32 value. -/
def f32ofNat (n : Nat) : Word := toF32 .nearestEven (.fin false n 0)

/-- Bits of precision that quotients and roots keep before they are rounded. -/
def guardBits : Nat := 128

/-- Integer square root, bit by bit from bit `k - 1` down. -/
def isqrtFrom (n : Nat) : Nat → Nat → Nat
  | 0, r => r
  | k + 1, r =>
    let c := r + 2 ^ k
    if c * c ≤ n then isqrtFrom n k c else isqrtFrom n k r

/-- The integer square root. -/
def isqrt (n : Nat) : Nat := isqrtFrom n (Nat.log2 n / 2 + 1) 0

/-- A correctly rounded IEEE quotient: the quotient is taken with guard bits and a sticky bit, so
that one rounding of it is the rounding of the exact value. -/
def Fp.div : Fp → Fp → Fp
  | .nan, _ => .nan
  | _, .nan => .nan
  | .inf _, .inf _ => .nan
  | .inf a, .fin b _ _ => .inf (a != b)
  | .fin a _ _, .inf b => .fin (a != b) 0 0
  | .fin a m1 e1, .fin b m2 e2 =>
    if m2 = 0 then (if m1 = 0 then .nan else .inf (a != b))
    else
      let k := guardBits + Nat.log2 m2
      let q := m1 * 2 ^ k / m2
      let sticky := if m1 * 2 ^ k % m2 = 0 then 0 else 1
      .fin (a != b) (2 * q + sticky) (e1 - e2 - (k : Int) - 1)

/-- A square root with guard bits and a sticky bit; a negative operand gives NaN, √−0 = −0. -/
def Fp.sqrt : Fp → Fp
  | .nan => .nan
  | .inf false => .inf false
  | .inf true => .nan
  | .fin neg m e =>
    if m = 0 then .fin neg 0 0
    else if neg then .nan
    else
      let odd := e % 2 ≠ 0
      let m' := (if odd then 2 * m else m) * 2 ^ (2 * guardBits)
      let e' := if odd then e - 1 else e
      let r := isqrt m'
      let sticky := if r * r = m' then 0 else 1
      .fin false (2 * r + sticky) (e' / 2 - (guardBits : Int) - 1)

def f32div (a b : Word) : Word := toF32 .nearestEven (Fp.div (Word.fp a) (Word.fp b))
def f32sqrt (a : Word) : Word := toF32 .nearestEven (Fp.sqrt (Word.fp a))
def f64div (a b : DWord) : DWord := toF64 (Fp.div (DWord.fp a) (DWord.fp b))
def f64sqrt (a : DWord) : DWord := toF64 (Fp.sqrt (DWord.fp a))

/-! ## Transcendental functions (R84)

The error bound leaves a few neighbouring FP32 values open; which of them the fixed function
returns is a free value of Config. -/

/-- ln 2 as a multiple of 2 ^ -256, and the fixed-point precision of the exponential. -/
def ln2Fixed : Nat := 80260960185991308862233904206310070533990667611589946606122867505419956976171
def expBits : Nat := 256

/-- Terms r ^ k / k ! for k from `k` to `k + n`, in fixed point. -/
def expTerms (r : Nat) : Nat → Nat → Nat → Nat
  | 0, _, _ => 0
  | n + 1, k, t => t + expTerms r n (k + 1) (t * r / 2 ^ expBits / (k + 1))

/-- exp of a dyadic number as m · 2 ^ e with 256 significant bits, rounded down. -/
def expDyadic (neg : Bool) (m : Nat) (e : Int) : Nat × Int :=
  let x : Int := scaledInt neg m (e + expBits) (min 0 (e + expBits))
  let x : Int := x / (2 ^ ((0 : Int) - min 0 (e + expBits)).toNat : Nat)
  let k : Int := x / (ln2Fixed : Int)
  let r := (x - k * (ln2Fixed : Int)).toNat
  (expTerms r 70 0 (2 ^ expBits), k - (expBits : Int))

/-- The FP32 magnitude bits just below an exact positive value, at most those of infinity. -/
def floorBits (m : Nat) (e : Int) : Nat := min fp32.infBits (fp32.roundMag .towardZero m e)

/-- exp of an FP32 value: special values of Table 3.4, otherwise one of the four values within 2
units in the last place. -/
def f32exp (a : Word) : Word :=
  match Word.fp a with
  | .nan => 0x7FC00000
  | .inf false => 0x7F800000
  | .inf true => 0
  | .fin neg m e =>
    if m = 0 then 0x3F800000
    else if decide (0 < e + (Nat.log2 m : Int) - 9) then (if neg then 0 else 0x7F800000)
    else
      let (mm, ee) := expDyadic neg m e
      let f := floorBits mm ee
      if fp32.maxBits ≤ f then 0x7F800000
      else BitVec.ofNat 32 (min fp32.infBits ((f + (Config.expChoice a).val) - 1))

/-- 1 / a: special values of Table 3.4, otherwise a value within 1 unit in the last place. -/
def f32rcp (a : Word) : Word :=
  match Word.fp a with
  | .nan => 0x7FC00000
  | .inf neg => BitVec.ofNat 32 (fp32.withSign neg 0)
  | .fin neg m e =>
    if m = 0 then BitVec.ofNat 32 (fp32.withSign neg fp32.infBits)
    else
      let k := guardBits + Nat.log2 m
      let f := floorBits (2 ^ k / m) (-e - (k : Int))
      let c := (Config.rcpChoice a).val
      let exact := decide (2 ^ k % m = 0)
      let b := if fp32.infBits ≤ f then f else if c = 1 then f + 1 else if c = 2 ∧ exact then f - 1 else f
      BitVec.ofNat 32 (fp32.withSign neg (min fp32.infBits b))

/-- 1 / √a and whether it is an invalid operation. -/
def f32rsq (a : Word) : Word × Bool :=
  match Word.fp a with
  | .nan => (0x7FC00000, false)
  | .inf false => (0, false)
  | .inf true => (0x7FC00000, true)
  | .fin neg m e =>
    if m = 0 then (BitVec.ofNat 32 (fp32.withSign neg fp32.infBits), false)
    else if neg then (0x7FC00000, true)
    else
      let m' := if e % 2 ≠ 0 then 2 * m else m
      let e' := if e % 2 ≠ 0 then e - 1 else e
      let k := guardBits + Nat.log2 m'
      let n := 2 ^ (2 * k) / m'
      let r := isqrt n
      let f := floorBits r (-(e' / 2) - (k : Int))
      let c := (Config.rsqChoice a).val
      let exact := decide (r * r = n ∧ 2 ^ (2 * k) % m' = 0)
      (BitVec.ofNat 32 (min fp32.infBits
        (if c = 1 then f + 1 else if c = 2 ∧ exact then f - 1 else f)), false)

/-! ## Philox4x32-10 (R85) -/

/-- One round of Philox4x32. -/
def philoxRound (k0 k1 : Word) (c : Word × Word × Word × Word) : Word × Word × Word × Word :=
  let p0 := 0xD2511F53 * c.1.toNat
  let p1 := 0xCD9E8D57 * c.2.2.1.toNat
  let hi (p : Nat) : Word := BitVec.ofNat 32 (p / 2 ^ 32)
  let lo (p : Nat) : Word := BitVec.ofNat 32 p
  (hi p1 ^^^ c.2.1 ^^^ k0, lo p1, hi p0 ^^^ c.2.2.2 ^^^ k1, lo p0)

/-- `n` rounds with the key advancing between rounds. -/
def philoxRounds : Nat → Word → Word → Word × Word × Word × Word → Word × Word × Word × Word
  | 0, _, _, c => c
  | n + 1, k0, k1, c => philoxRounds n (k0 + 0x9E3779B9) (k1 + 0xBB67AE85) (philoxRound k0 k1 c)

/-- The 16-bit random value of element `i` of a stored field (R85, R86). -/
def stochasticBits (seed step : DWord) (object block field i : Nat) : Nat :=
  let k0 : Word := seed.extractLsb' 0 32
  let k1 : Word := seed.extractLsb' 32 32 ^^^ step.extractLsb' 32 32
  let c : Word × Word × Word × Word :=
    (BitVec.ofNat 32 (i / 8), BitVec.ofNat 32 (field + 2 ^ 16 * object), BitVec.ofNat 32 block,
      step.extractLsb' 0 32)
  let o := philoxRounds 10 k0 k1 c
  let w : Word := match i % 8 / 2 with
    | 0 => o.1
    | 1 => o.2.1
    | 2 => o.2.2.1
    | _ => o.2.2.2
  if i % 2 = 0 then w.toNat % 2 ^ 16 else w.toNat / 2 ^ 16

end Sys2Proof.Machine
end

