-- ==== Sys2Proof/Machine/Blocks.lean ====
section
/-! DEFINITION. Format codes, packed planes and block-scaled conversions (R66 to R75, R79, R80). -/

namespace Sys2Proof.Machine

open Sys2Proof

/-- Bits of one element of a format code (Table 3.1). -/
def fmtBits (c : Nat) : Nat :=
  match c with
  | 0 => 32
  | 1 => 16
  | 6 => 4
  | 7 => 12
  | 8 => 16
  | _ => 8

/-- The format has a scale or exponent byte per 32 elements. -/
def fmtScaled (c : Nat) : Bool := decide (4 ≤ c) && decide (c ≤ 8)

/-- The code is not reserved (R66). -/
def fmtValid (c : Nat) : Bool := decide (c ≤ 8)

/-- The code is E4M3 or E5M2. -/
def fmtFp8 (c : Nat) : Bool := decide (c = 2) || decide (c = 3)

/-- The scalar format of a code's elements, BS12 apart. -/
def fmtElem (c : Nat) : FpFormat :=
  match c with
  | 0 => fp32
  | 1 => bf16
  | 2 => e4m3
  | 3 => e5m2
  | 4 => e4m3
  | 5 => e5m2
  | 6 => e2m1
  | _ => bf16

/-- A 12-bit two's-complement mantissa. -/
def int12 (raw : Nat) : Int := if raw % 4096 < 2048 then (raw % 4096 : Nat) else (raw % 4096 : Nat) - 4096

/-- The value of an element of format `c` with its block's scale byte (R69, R70, R72). -/
def decodeElem (c raw : Nat) (scale : Byte) : Fp :=
  if fmtScaled c && decide (scale = 0xFF) then .nan
  else if c = 7 then
    .fin (decide (int12 raw < 0)) (int12 raw).natAbs ((scale.toNat : Int) - 137)
  else
    let v := (fmtElem c).decode raw
    if fmtScaled c then v.scale ((scale.toNat : Int) - 127) else v

/-- The raw bits of element `i` of a plane whose byte `j` is `rd j` (R70). -/
def planeRaw (rd : Nat → Byte) (c i : Nat) : Nat :=
  let b := fmtBits c
  let off := b * i
  let n := (off % 8 + b + 7) / 8
  leNat ((List.range n).map (fun j => rd (off / 8 + j))) / 2 ^ (off % 8) % 2 ^ b

/-- Packed raw elements as a number, element 0 lowest. -/
def packRaws (c : Nat) : List Nat → Nat
  | [] => 0
  | r :: rs => r % 2 ^ fmtBits c + 2 ^ fmtBits c * packRaws c rs

/-- The bytes of a packed plane of elements; a last partial byte is filled with 0. -/
def packBytes (c : Nat) (raws : List Nat) : List Byte :=
  leBytes (packRaws c raws) ((fmtBits c * raws.length + 7) / 8)

/-- floor (log₂ a) for the largest finite non-zero magnitude a of a block. -/
def blockExp (vs : List Fp) : Option Int :=
  vs.foldl (fun acc v =>
    match v with
    | .fin _ m e =>
      if m = 0 then acc
      else
        let x := e + (Nat.log2 m : Int)
        match acc with
        | none => some x
        | some y => some (max x y)
    | _ => acc) none

/-- Result of a conversion: raw elements, scale bytes, elements saturated under R79, and whether a
NaN came of operands that are not NaN. -/
structure Converted where
  raws : List Nat
  scales : List Byte
  sat : Nat
  invalid : Bool
  deriving DecidableEq, Repr

/-- The exponent emax of an MX element format (R71). -/
def mxEmax (c : Nat) : Int := if c = 4 then 8 else if c = 5 then 15 else 2

/-- One scaled element of an MX block (R71 rules 4 to 6). -/
def mxElem (c : Nat) (rm : Rounding) (i : Nat) (v : Fp) : Nat :=
  let f := fmtElem c
  match v with
  | .nan => if c = 6 then (Config.mxfp4NonFinite i).toNat % 16 else f.nanBits
  | .inf neg =>
    if c = 6 then (Config.mxfp4NonFinite i).toNat % 16
    else if c = 5 then f.withSign neg f.infBits else f.nanBits
  | .fin neg m e => f.withSign neg (min f.maxBits (f.roundMag rm m e))

def Fp.isInf : Fp → Bool
  | .inf _ => true
  | _ => false

/-- `f` applied to each element with its index from `i` on. -/
def mapFrom {α β : Type} (f : Nat → α → β) : Nat → List α → List β
  | _, [] => []
  | i, a :: as => f i a :: mapFrom f (i + 1) as

/-- A conversion to an MX block (R71). -/
def encodeMx (c : Nat) (rm : Nat → Rounding) (i0 : Nat) (vs : List Fp) : Converted :=
  let x : Int := match blockExp vs with
    | none => 0
    | some a => max (-127) (a - mxEmax c)
  let bad := vs.any (fun v => !v.isFinite)
  let scale : Byte := if c = 6 ∧ bad then 0xFF else BitVec.ofNat 8 (x + 127).toNat
  { raws := mapFrom (fun i v => mxElem c (rm i) i (v.scale (-x))) i0 vs
    scales := [scale], sat := 0, invalid := decide (c ≠ 5) && vs.any Fp.isInf }

/-- The magnitude of an element in units of 2 ^ (e - 137), rounded, and its sign (R73). -/
def bs12Mantissa (rm : Rounding) (e : Int) (v : Fp) : Int :=
  match v with
  | .fin neg m x =>
    let n := roundAt rm m x (e - 137)
    if neg then -(min n 2048 : Nat) else (min n 2047 : Nat)
  | _ => 0

/-- A conversion to a BS12 block (R73). -/
def encodeBs12 (rm : Nat → Rounding) (i0 : Nat) (vs : List Fp) : Converted :=
  if vs.any (fun v => !v.isFinite) then
    { raws := vs.map (fun _ => 0), scales := [0xFF], sat := 0, invalid := vs.any Fp.isInf }
  else
    match blockExp vs with
    | none => { raws := vs.map (fun _ => 0), scales := [0x7F], sat := 0, invalid := false }
    | some a =>
      let e := max 0 (a + 127)
      { raws := mapFrom (fun i v => ((bs12Mantissa (rm i) e v) % 4096).toNat) i0 vs
        scales := [BitVec.ofNat 8 e.toNat], sat := 0, invalid := false }

/-- A conversion to an SBF16 block (R74). -/
def encodeSbf16 (rm : Nat → Rounding) (i0 : Nat) (vs : List Fp) : Converted :=
  let x : Int := match blockExp vs with
    | none => 0
    | some a => min 127 (max (-127) a)
  { raws := mapFrom (fun i v => bf16.round (rm i) (v.scale (-x))) i0 vs
    scales := [BitVec.ofNat 8 (x + 127).toNat], sat := 0, invalid := false }

/-- A conversion of one block, or of any number of unscaled elements, to format `c`; `ovf` is
FP8_OVERFLOW and `rm i` the rounding mode of element `i`. -/
def encodeChunk (c : Nat) (rm : Nat → Rounding) (ovf : Bool) (i0 : Nat) (vs : List Fp) : Converted :=
  match c with
  | 2 | 3 =>
    let rs := mapFrom (fun i v => (fmtElem c).toFp8 (rm i) ovf v) i0 vs
    { raws := rs.map (·.1), scales := [], sat := (rs.filter (·.2.1)).length
      invalid := rs.any (·.2.2) }
  | 4 | 5 | 6 => encodeMx c rm i0 vs
  | 7 => encodeBs12 rm i0 vs
  | 8 => encodeSbf16 rm i0 vs
  | _ =>
    { raws := mapFrom (fun i v => (fmtElem c).round (rm i) v) i0 vs, scales := [], sat := 0
      invalid := false }

/-- Lists of up to `n` elements, with `fuel` at least the number of lists. -/
def chunksOf {α : Type} (n : Nat) : Nat → List α → List (List α)
  | 0, _ => []
  | _ + 1, [] => []
  | k + 1, l => l.take n :: chunksOf n k (l.drop n)

/-- Two conversions one after the other. -/
def Converted.append (a b : Converted) : Converted :=
  { raws := a.raws ++ b.raws, scales := a.scales ++ b.scales, sat := a.sat + b.sat
    invalid := a.invalid || b.invalid }

def Converted.empty : Converted := { raws := [], scales := [], sat := 0, invalid := false }

/-- A conversion of a sequence of elements in blocks of 32; a short last block keeps only its
present elements (R70). -/
def encodeElems (c : Nat) (rm : Nat → Rounding) (ovf : Bool) (vs : List Fp) : Converted :=
  (mapFrom (fun b l => encodeChunk c rm ovf (32 * b) l) 0 (chunksOf 32 vs.length vs)).foldl
    Converted.append Converted.empty

/-- The values of `n` elements from element 0 of a plane and its scale bytes. -/
def decodeElems (c : Nat) (rd rdScale : Nat → Byte) (n : Nat) : List Fp :=
  (List.range n).map (fun i => decodeElem c (planeRaw rd c i) (rdScale (i / 32)))

/-- Bytes of element plane and scale plane for `n` elements (Table 3.1, R70). -/
def elemBytes (c n : Nat) : Nat := (fmtBits c * n + 7) / 8
def scaleBytes (c n : Nat) : Nat := if fmtScaled c then (n + 31) / 32 else 0

end Sys2Proof.Machine
end

