-- ==== Sys2Proof/Machine/Counters.lean ====
section
/-! DEFINITION. The event counters of the module by name: identifiers of R403 and their scopes. -/

namespace Sys2Proof.Machine

open Sys2Proof

/-- Where a counter is kept. -/
inductive CounterScope where
  | field
  | slab
  | device
  | tile
  | portalTile
  | stack
  | unit
  | lane
  | port
  | window
  | engine
  | queue
  | function
  deriving DecidableEq, Repr

/-! ## Counters of chapter 2 -/

def Ctr.SLIP_EVENTS : Nat := 0x0200
def Ctr.SLIP_CYCLES : Nat := 0x0201
def Ctr.STRETCHED_PITCHES : Nat := 0x0202
def Ctr.STRETCH_INCREMENTS : Nat := 0x0203
def Ctr.PITCH_OVERRUNS : Nat := 0x0204
def Ctr.HEARTBEAT_DEATHS : Nat := 0x0205
def Ctr.HOLDS : Nat := 0x0206
def Ctr.PHASE_TAG_HOLDS : Nat := 0x0207
def Ctr.COL_BELAY_EVENTS : Nat := 0x0208
/-! ## Counters of chapter 4 -/

def Ctr.MATRIX_STEPS : Nat := 0x0400
def Ctr.MATRIX_PAUSES : Nat := 0x0401
def Ctr.ISSUE_STALLS : Nat := 0x0402
def Ctr.OPND_FAULTS : Nat := 0x0403
/-! ## Counters of chapter 5 -/

def Ctr.VECTOR_GROUPS : Nat := 0x0500
def Ctr.VECTOR_PAUSES : Nat := 0x0501
def Ctr.PERM_RANGE_LANES : Nat := 0x0502
def Ctr.SAT_ELEMENTS : Nat := 0x0503
/-! ## Counters of chapter 6 -/

def Ctr.SP_SINGLE_CORRECTIONS : Nat := 0x0600
def Ctr.SP_SLOW_CORRECTIONS : Nat := 0x0601
def Ctr.SP_UNCORRECTABLE : Nat := 0x0602
def Ctr.SP_SCRUB_REWRITES : Nat := 0x0603
def Ctr.SP_OFF_BANK_ACCESSES : Nat := 0x0604
/-! ## Counters of chapter 7 -/

def Ctr.MESH_FLITS_SENT : Nat := 0x0700
def Ctr.MESH_FLITS_RECEIVED : Nat := 0x0701
def Ctr.MESH_CORRECTED : Nat := 0x0702
def Ctr.MESH_RETRIES : Nat := 0x0703
def Ctr.MESH_LINK_FAILURES : Nat := 0x0704
def Ctr.TRAVERSE_FLITS : Nat := 0x0705
def Ctr.HOLD_DISCARDS : Nat := 0x0706
def Ctr.CTRL_DISCARDS : Nat := 0x0707
def Ctr.COL_LANE_RETRIES : Nat := 0x0708
def Ctr.COL_LANE_FAILURES : Nat := 0x0709
/-! ## Counters of chapter 8 -/

def Ctr.OVL_CORRECTED : Nat := 0x0800
def Ctr.OVL_UNCORRECTABLE : Nat := 0x0801
def Ctr.OVL_STACK_OVERFLOWS : Nat := 0x0802
def Ctr.XLATE_MISSES : Nat := 0x0803
def Ctr.XLATE_FAULTS : Nat := 0x0804
def Ctr.BIVOUAC_READS : Nat := 0x0805
def Ctr.BIVOUAC_READ_ERRORS : Nat := 0x0806
def Ctr.BIVOUAC_EVICTIONS : Nat := 0x0807
def Ctr.BIVOUAC_RECLAIMS : Nat := 0x0808
def Ctr.PAGES_MIGRATED : Nat := 0x0809
def Ctr.SHELF_CORRECTED : Nat := 0x080A
def Ctr.SHELF_UNCORRECTABLE : Nat := 0x080B
def Ctr.PARITY_REBUILDS : Nat := 0x080C
def Ctr.ATOMIC_OPS : Nat := 0x080D
def Ctr.ATOMIC_FAULTS : Nat := 0x080E
def Ctr.GATHER_ITEMS : Nat := 0x080F
def Ctr.STACK_PARKS : Nat := 0x0810
/-! ## Counters of chapter 9 -/

def Ctr.STREAM_READ_BYTES : Nat := 0x0900
def Ctr.STREAM_WRITE_BYTES : Nat := 0x0901
def Ctr.STREAM_DISCARD_BYTES : Nat := 0x0902
def Ctr.STREAM_DROPS : Nat := 0x0903
def Ctr.STREAM_BUFFER_WAITS : Nat := 0x0904
def Ctr.STREAM_COMMIT_WAITS : Nat := 0x0905
def Ctr.SHARE_IDLE_READ : Nat := 0x0906
def Ctr.SHARE_IDLE_WRITE : Nat := 0x0907
def Ctr.SHARE_IDLE_REMOTE : Nat := 0x0908
def Ctr.STREAM_CANCELS : Nat := 0x0909
/-! ## Counters of chapter 10 -/

def Ctr.STACK_PUSH_ROWS : Nat := 0x0A00
def Ctr.STACK_POP_ROWS : Nat := 0x0A01
def Ctr.CAIRNS_PLACED : Nat := 0x0A02
def Ctr.STACK_FAULTS : Nat := 0x0A03
def Ctr.GATE_PITCHES : Nat := 0x0A04
/-! ## Counters of chapter 11 -/

def Ctr.UPD_LANDINGS : Nat := 0x0B00
def Ctr.UPD_LATE_LANDINGS : Nat := 0x0B01
def Ctr.UPD_LANDING_FAULTS : Nat := 0x0B02
def Ctr.UPD_FROZEN_DISCARDS : Nat := 0x0B03
def Ctr.UPD_COMMIT_WAITS : Nat := 0x0B04
def Ctr.UPD_NONFINITE_ELEMENTS : Nat := 0x0B05
def Ctr.UPD_SHORT_BLOCKS : Nat := 0x0B06
def Ctr.UPD_BLOCKS_COMMITTED : Nat := 0x0B07
def Ctr.UPD_SKIPPED_STEPS : Nat := 0x0B08
def Ctr.UPD_LR_MISMATCHES : Nat := 0x0B09
def Ctr.UPD_STORE_CLAMPS : Nat := 0x0B0A
def Ctr.UPD_NONFINITE_RESULTS : Nat := 0x0B0B
def Ctr.UPD_TORN_BLOCKS : Nat := 0x0B0C
def Ctr.UPD_LOST_BLOCKS : Nat := 0x0B0D
def Ctr.PRECOND_DAMPING_RAISES : Nat := 0x0B0E
def Ctr.PRECOND_IDENTITY : Nat := 0x0B0F
def Ctr.FINGERPRINT_MISMATCHES : Nat := 0x0B10
def Ctr.REPAIRS_APPLIED : Nat := 0x0B11
def Ctr.DIFF_RECORDS : Nat := 0x0B12
def Ctr.DIFF_SINK_DROPS : Nat := 0x0B13
/-! ## Counters of chapter 12 -/

def Ctr.ZETRA_CODEWORDS_CORRECTED : Nat := 0x0C00
def Ctr.ZETRA_CODEWORDS_UNCORRECTABLE : Nat := 0x0C01
def Ctr.ZETRA_LANE_FAILURES : Nat := 0x0C02
def Ctr.ZETRA_LANE_RESTORES : Nat := 0x0C03
def Ctr.ZETRA_RETRIES : Nat := 0x0C04
def Ctr.ZETRA_LINK_FAILURES : Nat := 0x0C05
def Ctr.ZETRA_BAD_FRAMES : Nat := 0x0C06
def Ctr.ZETRA_UNROUTABLE : Nat := 0x0C07
def Ctr.ZETRA_TRANSIT_FRAMES : Nat := 0x0C08
def Ctr.ZETRA_WINDOW_NACKS : Nat := 0x0C09
def Ctr.WINDOW_REJECTS : Nat := 0x0C0A
def Ctr.REDUCE_BLOCKS_ADDED : Nat := 0x0C0B
def Ctr.REDUCE_DUPLICATES : Nat := 0x0C0C
def Ctr.REDUCE_RESENDS : Nat := 0x0C0D
def Ctr.REDUCE_NO_BUFFER : Nat := 0x0C0E
def Ctr.REDUCE_RELANDINGS : Nat := 0x0C0F
def Ctr.MCAST_RETRIES : Nat := 0x0C10
def Ctr.MCAST_DETACHES : Nat := 0x0C11
def Ctr.MCAST_CATCHUP_PACKETS : Nat := 0x0C12
def Ctr.SUMMIT_PROBES : Nat := 0x0C13
def Ctr.SLOW_ADVISORIES : Nat := 0x0C14
/-! ## Counters of chapter 13 -/

def Ctr.STEP_REPLAYS : Nat := 0x0D00
def Ctr.SPARE_REMAPS : Nat := 0x0D01
def Ctr.FIELDS_LOST : Nat := 0x0D02
def Ctr.FALLBACK_SWITCHES : Nat := 0x0D03
def Ctr.OVERRUN_REPLAYS : Nat := 0x0D04
def Ctr.STACK_EVENTS : Nat := 0x0D05
def Ctr.REFERENCE_LOSSES : Nat := 0x0D06
def Ctr.BASECAMP_RESTARTS : Nat := 0x0D07
def Ctr.HOST_PAUSES : Nat := 0x0D08
def Ctr.FAULT_LOG_OVERWRITES : Nat := 0x0D09
/-! ## Counters of chapter 14 -/

def Ctr.IMAGE_LOADS : Nat := 0x0E00
def Ctr.IMAGE_REJECTS : Nat := 0x0E01
def Ctr.JOB_STARTS : Nat := 0x0E02
def Ctr.JOB_PAUSES : Nat := 0x0E03
def Ctr.FEED_ROWS : Nat := 0x0E04
def Ctr.FEED_WAIT_PITCHES : Nat := 0x0E05
/-! ## Counters of chapter 15 -/

def Ctr.MBX_COMMANDS : Nat := 0x0F00
def Ctr.MBX_ERRORS : Nat := 0x0F01
def Ctr.MBX_INTERNAL : Nat := 0x0F02
def Ctr.MBX_IGNORED_DOORBELLS : Nat := 0x0F03
def Ctr.MBX_DROPPED_WRITES : Nat := 0x0F04
def Ctr.EVT_RECORDS : Nat := 0x0F05
def Ctr.EVT_DROPPED : Nat := 0x0F06
def Ctr.SRAM_CORRECTED : Nat := 0x0F07
def Ctr.DEFERRED_OPS : Nat := 0x0F08
/-! ## Counters of chapter 16 -/

def Ctr.FEED_APERTURE_DROPS : Nat := 0x1000
def Ctr.DMA_ERRORS : Nat := 0x1001
def Ctr.PCIE_RESETS : Nat := 0x1002
def Ctr.FLASH_RECORDS_WRITTEN : Nat := 0x1003
def Ctr.FLASH_RECORDS_INVALID : Nat := 0x1004
def Ctr.FLASH_COMPACTIONS : Nat := 0x1005
def Ctr.FW_COMMITS : Nat := 0x1006
/-! ## Counters of chapter 18 -/

def Ctr.GATE_REFUSALS : Nat := 0x1200
def Ctr.PLL_LOCK_RESTARTS : Nat := 0x1201
def Ctr.FUSE_OPENS : Nat := 0x1202
def Ctr.THERMAL_HOT : Nat := 0x1203
def Ctr.THERMAL_CRITICAL : Nat := 0x1204

/-- Scopes of the counters of chapter 2, in table order. -/
def counterTable2 : List CounterScope :=
  [.field, .field, .slab, .slab, .slab, .field, .slab, .field, .device]

/-- Scopes of the counters of chapter 4, in table order. -/
def counterTable4 : List CounterScope :=
  [.tile, .tile, .tile, .tile]

/-- Scopes of the counters of chapter 5, in table order. -/
def counterTable5 : List CounterScope :=
  [.tile, .tile, .tile, .tile]

/-- Scopes of the counters of chapter 6, in table order. -/
def counterTable6 : List CounterScope :=
  [.tile, .tile, .tile, .tile, .tile]

/-- Scopes of the counters of chapter 7, in table order. -/
def counterTable7 : List CounterScope :=
  [.tile, .tile, .tile, .tile, .tile, .tile, .tile, .tile, .device, .device]

/-- Scopes of the counters of chapter 8, in table order. -/
def counterTable8 : List CounterScope :=
  [.tile, .tile, .tile, .portalTile, .portalTile, .tile, .tile, .slab, .slab, .slab, .stack,
    .stack, .stack, .stack, .stack, .stack, .slab]

/-- Scopes of the counters of chapter 9, in table order. -/
def counterTable9 : List CounterScope :=
  [.portalTile, .portalTile, .portalTile, .portalTile, .portalTile, .portalTile, .stack, .stack,
    .stack, .slab]

/-- Scopes of the counters of chapter 10, in table order. -/
def counterTable10 : List CounterScope :=
  [.tile, .tile, .tile, .tile, .slab]

/-- Scopes of the counters of chapter 11, in table order. -/
def counterTable11 : List CounterScope :=
  [.unit, .unit, .unit, .unit, .unit, .unit, .unit, .unit, .slab, .slab, .unit, .unit, .unit,
    .unit, .unit, .unit, .unit, .unit, .unit, .unit]

/-- Scopes of the counters of chapter 12, in table order. -/
def counterTable12 : List CounterScope :=
  [.lane, .lane, .port, .port, .port, .port, .port, .slab, .slab, .slab, .window, .engine, .engine,
    .engine, .engine, .engine, .engine, .engine, .engine, .slab, .slab]

/-- Scopes of the counters of chapter 13, in table order. -/
def counterTable13 : List CounterScope :=
  [.slab, .slab, .slab, .slab, .slab, .slab, .slab, .slab, .slab, .slab]

/-- Scopes of the counters of chapter 14, in table order. -/
def counterTable14 : List CounterScope :=
  [.slab, .slab, .slab, .slab, .queue, .queue]

/-- Scopes of the counters of chapter 15, in table order. -/
def counterTable15 : List CounterScope :=
  [.function, .function, .function, .function, .function, .function, .function, .slab, .slab]

/-- Scopes of the counters of chapter 16, in table order. -/
def counterTable16 : List CounterScope :=
  [.queue, .function, .function, .slab, .slab, .slab, .slab]

/-- Scopes of the counters of chapter 18, in table order. -/
def counterTable18 : List CounterScope :=
  [.slab, .slab, .slab, .slab, .slab]

/-- The scope of an identifier; none where it names no counter (R403). -/
def counterScope (id : Nat) : Option CounterScope :=
  let tbl : List CounterScope := match id / 256 with
    | 2 => counterTable2
    | 4 => counterTable4
    | 5 => counterTable5
    | 6 => counterTable6
    | 7 => counterTable7
    | 8 => counterTable8
    | 9 => counterTable9
    | 10 => counterTable10
    | 11 => counterTable11
    | 12 => counterTable12
    | 13 => counterTable13
    | 14 => counterTable14
    | 15 => counterTable15
    | 16 => counterTable16
    | 18 => counterTable18
    | _ => []
  tbl[id % 256]?

end Sys2Proof.Machine
end

