-- ==== Sys2Proof/Machine/Operands.lean ====
section
/-! DEFINITION. Operand forms: the geometry of tiles and banks, the opcode classes and the fields
of the 128-bit tile instruction words (Tables 1.2, 4.1 to 4.5, 5.1 to 5.4, 9.3, 9.4, 10.3, 10.4). -/

namespace Sys2Proof.Machine

open Sys2Proof

/-! ## Geometry -/

/-- A shelf portal tile: the stack it faces (Table 1.2). -/
def portalStack (x y : Nat) : Option Nat :=
  if 8 ≤ x ∧ x ≤ 103 then
    if y = 0 then some ((x - 8) / 8) else if y = 95 then some (12 + (x - 8) / 8) else none
  else none

/-- A Zetra portal tile: the port it faces (Table 1.2). -/
def portalPort (slab : SlabId) (x y : Nat) : Option Nat :=
  match slab with
  | .s0 => if x = 0 then some (y / 6) else none
  | .s1 => if x = 111 then some (y / 6) else none

/-- The tile carries portal hardware (R23). -/
def isPortal (t : TileId) : Bool :=
  (portalStack t.x.val t.y.val).isSome || (portalPort t.slab t.x.val t.y.val).isSome

/-- The rotation of a portal tile's banks (R139). -/
def portalHash (q : Nat) : Nat := (q % 8 + q / 8 % 8 + q / 64 % 8 + q / 512 % 4) % 6

/-- The bank that holds row `r` (R138, R139). -/
def bankOf (portal : Bool) (r : Nat) : Nat :=
  if portal then (r % 24 + 4 * portalHash (r / 24)) % 24 else r % 24

/-- Rows of a scratchpad, and bytes (R138). -/
def spRows : Nat := 49152
def spBytes : Nat := 3145728

/-! ## Opcodes (R95, R96) -/

inductive OpClass where
  | control
  | fill
  | service
  | matrix
  | vector
  | reserved
  deriving DecidableEq, Repr

def opOf (w : IWord) : Nat := bits w 127 120

/-- The class of an opcode; an opcode no table lists is reserved. -/
def opClass (op : Nat) : OpClass :=
  if op ∈ [0x00, 0x01, 0x02, 0x03, 0x04, 0x05, 0x08, 0x09, 0x10] then .control
  else if op = 0x0C then .fill
  else if op ∈ [0x20, 0x24, 0x28, 0x29, 0x2A, 0x2B, 0x2C] then .service
  else if op ∈ [0x40, 0x41, 0x42, 0x48] then .matrix
  else if op ∈ [0x80, 0x84, 0x85, 0x86, 0x87, 0x88, 0x89, 0x8A, 0x98, 0x99, 0x9A, 0xA0, 0xA1, 0xA2,
      0xA8, 0xA9, 0xAA, 0xB0, 0xB1, 0xB8, 0xB9] then .vector
  else .reserved

/-- The sequencer may issue the class (Table 4.1). -/
def classAllowed (q : SeqId) : OpClass → Bool
  | .control => true
  | .fill => decide (q = .svc)
  | .service => decide (q = .svc)
  | .matrix => decide (q ≠ .svc)
  | .vector => decide (q ≠ .svc)
  | .reserved => false

/-! ## Control fields (Table 4.2) -/

def ctlSD (w : IWord) : Nat := bits w 119 116
def ctlSA2 (w : IWord) : Nat := bits w 115 112
def ctlImm (w : IWord) : Word := BitVec.ofNat 32 (bits w 111 80)
def ctlTarget (w : IWord) : BitVec 12 := BitVec.ofNat 12 (bits w 91 80)
def fillSeq (w : IWord) : Option SeqId :=
  match bits w 119 118 with
  | 0 => some .fwd
  | 1 => some .bwd
  | 2 => some .svc
  | _ => none
def fillHalf (w : IWord) : Bool := bit w 117
def fillRow (w : IWord) : Nat := bits w 95 80
def belayChannel (w : IWord) : Fin 64 := ⟨bits w 85 80 % 64, Nat.mod_lt _ (by decide)⟩

/-! ## Matrix fields (Tables 4.3 to 4.5) -/

def mdescIndex (w : IWord) : Nat := bits w 119 117
def mdescValue (w : IWord) : Desc :=
  { t := bit w 116, half := bit w 115, idx := BitVec.ofNat 4 (bits w 114 111)
    base := BitVec.ofNat 16 (bits w 110 95), pitch := BitVec.ofNat 12 (bits w 94 83)
    sbase := BitVec.ofNat 22 (bits w 82 61), spitch := BitVec.ofNat 16 (bits w 60 45) }
def mmaFmtA (w : IWord) : Nat := bits w 119 116
def mmaFmtB (w : IWord) : Nat := bits w 115 112
def mmaDescA (w : IWord) : Nat := bits w 111 109
def mmaDescB (w : IWord) : Nat := bits w 108 106
def mmaBank (w : IWord) : Bool := bit w 105
def mmaInit (w : IWord) : Bool := bit w 104
def mmaRows (w : IWord) : Nat := bits w 103 99 + 1
def mmaCols (w : IWord) : Nat := bits w 98 94 + 1
def mmaK (w : IWord) : Nat := bits w 93 78 + 1
def mmaKidx (w : IWord) : Nat := bits w 77 74
def mmoveBank (w : IWord) : Bool := bit w 119
def mmoveIdx (w : IWord) : Nat := bits w 118 115
def mmoveBase (w : IWord) : Nat := bits w 114 99

/-- The bank a matrix instruction reads or writes. -/
def matrixBank (w : IWord) : Bool := if opOf w = 0x40 then mmaBank w else mmoveBank w

/-- The instruction writes its bank: MMA or MLOAD. -/
def matrixWrites (w : IWord) : Bool := decide (opOf w = 0x40) || decide (opOf w = 0x41)

/-! ## Vector fields (Tables 5.2 to 5.4) -/

def vD (w : IWord) : Nat := bits w 119 116
def vA (w : IWord) : Nat := bits w 115 112
def vB (w : IWord) : Nat := bits w 111 108
def vC (w : IWord) : Nat := bits w 107 104
def vBmode (w : IWord) : Nat := bits w 103 102
def vCmode (w : IWord) : Nat := bits w 101 100
def vSB (w : IWord) : Nat := bits w 99 96
def vPrec (w : IWord) : Bool := bit w 95
def vRm (w : IWord) : Nat := bits w 94 93
def vNm1 (w : IWord) : Nat := bits w 92 81
def vNsrc (w : IWord) : Nat := bits w 80 77
def vSeg (w : IWord) : Nat := bits w 76 73
def vaccBank (w : IWord) : Bool := bit w 115
def vaccRows (w : IWord) : Nat := bits w 114 110 + 1
def vaccFirst (w : IWord) : Nat := bits w 109 105
def vaccOff (w : IWord) : Nat := bits w 104 93
def vmFmt (w : IWord) : Nat := bits w 115 112
def vmIdx (w : IWord) : Nat := bits w 111 108
def vmBase (w : IWord) : Nat := bits w 107 92
def vmNm1 (w : IWord) : Nat := bits w 91 80
def vmNsrc (w : IWord) : Nat := bits w 79 76
def vmOff (w : IWord) : Nat := bits w 75 64
def vmRm (w : IWord) : Nat := bits w 63 62
def vmSbase (w : IWord) : Nat := bits w 61 40
def vmSidx (w : IWord) : Nat := bits w 39 36
def vclrMask (w : IWord) : Word := ctlImm w

/-- VLD and VST use Table 5.4. -/
def vIsMem (w : IWord) : Bool := decide (opOf w = 0xB0) || decide (opOf w = 0xB1)

/-! ## Service fields (Tables 9.3, 9.4, 10.4) -/

def sendKind (w : IWord) : Nat := bits w 119 118
def sendIdx (w : IWord) : Nat := bits w 117 114
def sendSrow (w : IWord) : Nat := bits w 113 98
def sendRows (w : IWord) : Nat := bits w 97 86 + 1
def sendX0 (w : IWord) : Nat := bits w 85 78
def sendY0 (w : IWord) : Nat := bits w 77 71
def sendX1 (w : IWord) : Nat := bits w 70 63
def sendY1 (w : IWord) : Nat := bits w 62 56
def sendDrow (w : IWord) : Nat := bits w 55 40
def sendDidx (w : IWord) : Nat := bits w 39 36
def sendCtr (w : IWord) : Nat := bits w 35 32
def sendQueue (w : IWord) : Nat := bits w 31 18
def ovrdFrame (w : IWord) : Nat := bits w 119 114
def ovrdFrow (w : IWord) : Nat := bits w 113 99
def ovrdIdx (w : IWord) : Nat := bits w 98 95
def ovrdDrow (w : IWord) : Nat := bits w 94 79
def ovrdDidx (w : IWord) : Nat := bits w 78 75
def ovrdRows (w : IWord) : Nat := bits w 74 63 + 1
def stkCtx (w : IWord) : Nat := bits w 119 113
def stkIdx (w : IWord) : Nat := bits w 112 109
def stkRow (w : IWord) : Nat := bits w 108 93
def stkRows (w : IWord) : Nat := bits w 92 81 + 1
def stkOff (w : IWord) : Nat := bits w 80 60
def stkRemove (w : IWord) : Bool := bit w 59
def stkLabel (w : IWord) : Nat := bits w 58 43

/-! ## Sequencer registers -/

/-- Scalar register `r` at cycle `now`; s0 reads 0, and a late VGETF write shows from its cycle on
(R93, R133). -/
def Sequencer.reg (q : Sequencer) (now r : Nat) : Word :=
  if r = 0 then 0
  else match q.late with
    | some l => if l.reg.toNat = r ∧ l.at_ ≤ now then l.value else q.regs.get r
    | none => q.regs.get r

/-- The sequencer with a late write that is due put into its register. -/
def Sequencer.settle (q : Sequencer) (now : Nat) : Sequencer :=
  match q.late with
  | some l => if l.at_ ≤ now then { q with regs := q.regs.set l.reg.toNat l.value, late := none } else q
  | none => q

/-- Scalar register `r` written; writes to s0 are ignored (R93). -/
def Sequencer.setReg (q : Sequencer) (now r : Nat) (v : Word) : Sequencer :=
  let q := q.settle now
  if r = 0 then q else { q with regs := q.regs.set r v }

/-- A base field plus a register, as a 32-bit sum. -/
def addIdx (base : Nat) (v : Word) : Nat := (BitVec.ofNat 32 base + v).toNat

/-- The word at an address of a store; unlisted words are NOP. -/
def Sequencer.word (q : Sequencer) (a : BitVec 12) : IWord := agetD 0 a.toNat q.store

/-- The half of a store that an address lies in (R92). -/
def halfOf (a : BitVec 12) : Bool := decide (2048 ≤ a.toNat)

end Sys2Proof.Machine
end

