-- ==== Sys2Proof/Machine/Ecc.lean ====
section
/-! DEFINITION. The symbol code of a scratchpad row, RS(72, 64) over GF(2^8) (R148): check symbols,
syndromes and a decoder that corrects up to 3 symbols; and what a row error comes to. -/

namespace Sys2Proof.Machine

open Sys2Proof

/-! ## GF(2^8) with x^8 + x^4 + x^3 + x^2 + 1 -/

/-- `a` times α. -/
def gfDouble (a : Nat) : Nat := if a < 128 then 2 * a else (2 * a) ^^^ 0x11D

/-- A product. -/
def gfMul (a b : Nat) : Nat :=
  ((List.range 8).foldl (fun (p : Nat × Nat) i => (if b.testBit i then p.1 ^^^ p.2 else p.1, gfDouble p.2)) (0, a)).1

/-- A power. -/
def gfPow (a : Nat) : Nat → Nat
  | 0 => 1
  | n + 1 => gfMul a (gfPow a n)

/-- The inverse of an element that is not 0. -/
def gfInv (a : Nat) : Nat := gfPow a 254

/-- The sum of elements. -/
def gfSum (l : List Nat) : Nat := l.foldl (· ^^^ ·) 0

/-- The determinant of an `n` × `n` matrix. -/
def gfDet : Nat → List (List Nat) → Nat
  | 0, _ => 1
  | _ + 1, [] => 1
  | n + 1, row :: rows =>
    gfSum ((List.range (n + 1)).map (fun i => gfMul (row.getD i 0) (gfDet n (rows.map (fun r => r.eraseIdx i)))))

/-- The solution of `n` linear equations with one solution, by Cramer's rule. -/
def gfSolve (n : Nat) (rows : List (List Nat)) (rhs : List Nat) : Option (List Nat) :=
  let d := gfDet n rows
  if d = 0 then none
  else some ((List.range n).map (fun i =>
    gfMul (gfDet n ((rows.zip rhs).map (fun x => x.1.set i x.2))) (gfInv d)))

/-! ## The code -/

/-- The locator of symbol `j`: symbol 0 is the coefficient of the highest power. -/
def symbolLocator (j : Nat) : Nat := gfPow 2 (71 - j)

/-- The eight syndromes of a pattern of wrong symbols. -/
def syndromes (es : List (Fin 72 × Byte)) : List Nat :=
  (List.range 8).map (fun k => gfSum (es.map (fun p => gfMul p.2.toNat (gfPow (symbolLocator p.1.val) k))))

/-- The eight check symbols of a row's 64 bytes: with them every syndrome is 0. -/
def rowCheck (bs : List Byte) : List Byte :=
  let data := (bs.zipIdx.filterMap (fun p => if h : p.2 < 64 then some ((⟨p.2, by omega⟩ : Fin 72), p.1) else none))
  let rows := (List.range 8).map (fun k => (List.range 8).map (fun c => gfPow (symbolLocator (64 + c)) k))
  ((gfSolve 8 rows (syndromes data)).getD []).map (BitVec.ofNat 8)

/-- The errors of `v` symbols that have the syndromes `s`, when there are any. -/
def errorsOf (s : List Nat) (v : Nat) : Option (List (Fin 72 × Byte)) :=
  let at_ (k : Nat) : Nat := s.getD k 0
  let hankel := (List.range v).map (fun k => (List.range v).map (fun i => at_ (k + i)))
  match gfSolve v hankel ((List.range v).map (fun k => at_ (k + v))) with
  | none => none
  | some l =>
    let recurs := (List.range (8 - v)).all (fun k =>
      decide (at_ (k + v) = gfSum ((List.range v).map (fun i => gfMul (l.getD i 0) (at_ (k + i))))))
    let root (x : Nat) : Bool :=
      decide (gfPow x v = gfSum ((List.range v).map (fun i => gfMul (l.getD i 0) (gfPow x i))))
    let js := (List.finRange 72).filter (fun j => root (symbolLocator j.val))
    if !recurs || decide (js.length ≠ v) then none
    else
      let rows := (List.range v).map (fun k => js.map (fun j => gfPow (symbolLocator j.val) k))
      match gfSolve v rows ((List.range v).map at_) with
      | none => none
      | some ys => if ys.all (fun y => decide (y ≠ 0)) then some (js.zip (ys.map (BitVec.ofNat 8))) else none

/-- What the decoder corrects: none when it reports the row as uncorrectable. -/
def eccDecode (es : List (Fin 72 × Byte)) : Option (List (Fin 72 × Byte)) :=
  let s := syndromes es
  if s.all (fun x => decide (x = 0)) then some []
  else ([1, 2, 3] : List Nat).findSome? (errorsOf s)

end Sys2Proof.Machine

namespace Sys2Proof

open Sys2Proof.Machine

/-- The symbols in error. -/
def RowError.weight (e : RowError) : Nat := e.pattern.length

/-- What the scratchpad's decoder corrects in the row: the wrong symbols when they are at most 3, nothing for
4 or 5, and what the code gives for 6 or more, which may be wrong (R148). -/
def RowError.fix (e : RowError) : Option (List (Fin 72 × Byte)) :=
  if e.weight ≤ 3 then some e.pattern else if e.weight ≤ 5 then none else eccDecode e.pattern

/-- Symbols that the decoder corrects; 4 for a row it reports as uncorrectable. -/
def RowError.symbols (e : RowError) : Nat := e.fix.elim 4 List.length

/-- The symbols that a correction of a row changes. -/
def RowError.places (e : RowError) : List (Fin 72) := (e.fix.getD []).map Prod.fst

/-- Bits that a pattern changes in the 64 data bytes. -/
def patternBits (es : List (Fin 72 × Byte)) : Row :=
  es.foldl (fun r p => if p.1.val < 64 then r ^^^ BitVec.ofNat 512 (p.2.toNat * 2 ^ (8 * p.1.val)) else r) 0

/-- Bits of the row that a wrong correction leaves wrong. -/
def RowError.residue (e : RowError) : Row :=
  match e.fix with
  | none => 0
  | some l => patternBits e.pattern ^^^ patternBits l

end Sys2Proof
end

