-- ==== Sys2Proof/Machine/Flags.lean ====
section
/-! DEFINITION. Flags of a tile: the flag word of Table 5.6, the scratchpad error word of Table
6.4 and the faults that set them; row accesses to the scratchpad (R107, R136, R148 to R156). -/

namespace Sys2Proof.Machine

open Sys2Proof

/-! ## The tile flag word (Table 5.6) -/

def flagSatV : Word := 0x01
def flagInvalidV : Word := 0x02
def flagInvalidM : Word := 0x04
def flagSatS : Word := 0x08
def flagInvalidS : Word := 0x10
def flagOpndFault : Word := 0x20
def flagPermRange : Word := 0x40

/-- Sticky flags set. -/
def Tile.setFlags (t : Tile) (m : Word) : Tile :=
  { t with flags := t.flags ||| m, flagsNow := t.flagsNow ||| m }

/-- Sticky flags cleared, by VCLRF or a W1C write: one that was set in this arithmetic cycle stays set
(R136). -/
def Tile.clearFlags (t : Tile) (m : Word) : Tile := { t with flags := (t.flags &&& ~~~m) ||| t.flagsNow }

/-- A flag set when a condition holds. -/
def Tile.setFlagIf (t : Tile) (c : Bool) (m : Word) : Tile := if c then t.setFlags m else t

/-- `n` operand faults (R107): OPND_FAULT and OPND_FAULTS. -/
def Tile.opndFaults (t : Tile) (n : Nat) : Tile :=
  if n = 0 then t else (t.setFlags flagOpndFault).count Ctr.OPND_FAULTS n

/-- `n` accesses to powered-down banks (R156). -/
def Tile.offBank (t : Tile) (n : Nat) : Tile :=
  (t.opndFaults n).count Ctr.SP_OFF_BANK_ACCESSES n

/-! ## The scratchpad error word (Table 6.4) -/

/-- The severity of an error of `n` symbols (R153). -/
def symbolSeverity (n : Nat) : Nat := if n ≤ 1 then 1 else if n ≤ 3 then 2 else 3

/-- The word that records an error found by client `client`. -/
def spErrorWord (portal : Bool) (e : RowError) (scrub : Bool) (client : Nat) : DWord :=
  let b (c : Bool) (i : Nat) : Nat := if c then 2 ^ i else 0
  BitVec.ofNat 64 (2 ^ 63 + symbolSeverity e.symbols * 2 ^ 61 + b e.merge 60 + b scrub 59
    + client * 2 ^ 57 + (if 3 < e.symbols then 15 else e.symbols) * 2 ^ 48 + e.row * 2 ^ 16
    + bankOf portal e.row * 2 ^ 11 + e.row / 24)

/-- An error recorded when it is more severe than the one the word holds (R153), and counted. A pattern
that is a codeword itself leaves the decoder nothing to record. -/
def Tile.recordRowError (t : Tile) (portal : Bool) (scrub : Bool) (client : Nat) (e : RowError) :
    Tile :=
  if e.symbols = 0 then t else
  let sev := symbolSeverity e.symbols
  let t := if bits t.spError 62 61 < sev then
    { t with spError := spErrorWord portal e scrub client } else t
  t.count (if sev = 1 then Ctr.SP_SINGLE_CORRECTIONS else if sev = 2 then Ctr.SP_SLOW_CORRECTIONS
    else Ctr.SP_UNCORRECTABLE) 1

/-- Row errors recorded one after another. -/
def Tile.recordRowErrors (t : Tile) (portal scrub : Bool) (client : Nat) (es : List RowError) :
    Tile := es.foldl (fun t e => t.recordRowError portal scrub client e) t

/-- An uncorrectable error is among them. -/
def rowsUncorrectable (es : List RowError) : Bool := es.any (fun e => decide (3 < e.symbols))

/-- Cycles by which slow-path corrections delay the reading engine (R149, R116). -/
def slowCycles (es : List RowError) : Nat :=
  4 * (es.filter (fun e => decide (symbolSeverity e.symbols = 2))).length

/-- A scratchpad as its decoder delivers it: rows with the bits that a wrong correction leaves wrong
(R148). -/
def deliveredRows (m : Cells) (es : List RowError) : Cells :=
  es.foldl (fun m e =>
    if e.residue = 0 then m
    else Cells.writeN m (64 * e.row) (rowBytes (rowOfBytes (Cells.readN m (64 * e.row) 64) ^^^ e.residue))) m

/-- A row read as its decoder delivers it (R148). -/
def fixRow (es : List RowError) (r : Nat) (d : Row) : Row :=
  es.foldl (fun d e => if e.row = r then d ^^^ e.residue else d) d

/-- The tile as an engine that reads it sees it. -/
def Tile.delivered (t : Tile) (es : List RowError) : Tile := { t with scratch := deliveredRows t.scratch es }

/-- The tile after merges of rows in error: a wrong correction is written back with the merged bytes. -/
def Tile.merged (t : Tile) (es : List RowError) : Tile := t.delivered (es.filter (fun e => e.merge))

/-- Misses of a slot that delay an access of these rows: none when they spread over 5 banks or more, or
no two of them share a bank (R110); otherwise each may wait for turns of its bank, at most one turn of 4
cycles a row. The bound of a free value. -/
def missBound (portal : Bool) (rows : List Nat) : Nat :=
  let banks := (rows.map (bankOf portal)).eraseDups
  if 5 ≤ banks.length ∨ banks.length = rows.length then 0 else 4 * rows.length

/-! ## Row accesses -/

/-- Bank power of a row (R155). -/
def Tile.rowPowered (t : Tile) (portal : Bool) (r : Nat) : Bool := t.powered.getLsbD (bankOf portal r)

/-- A byte as an engine reads it: rows out of range and powered-down banks read as zero (R107,
R156). -/
def Tile.engByte (t : Tile) (portal : Bool) (a : Nat) : Byte :=
  if decide (spRows ≤ a / 64) || !t.rowPowered portal (a / 64) then 0 else Cells.read t.scratch a

/-- A row as an engine reads it. -/
def Tile.engRow (t : Tile) (portal : Bool) (r : Nat) : Row :=
  if decide (spRows ≤ r) || !t.rowPowered portal r then 0
  else rowOfBytes (Cells.readN t.scratch (64 * r) 64)

/-- The faults of accessing rows: each row out of range and each row of a powered-down bank counts
once. -/
def Tile.rowFaults (t : Tile) (portal : Bool) (rows : List Nat) : Tile :=
  let oor := (rows.filter (fun r => decide (spRows ≤ r))).length
  let off := (rows.filter (fun r => decide (r < spRows) && !t.rowPowered portal r)).length
  (t.opndFaults oor).offBank off

/-- Bytes written into one row from byte offset `off`, if the row exists and its bank has power. The bank
drops a scrub rewrite of the row that is still on its way (R151). -/
def Tile.putBytes (t : Tile) (portal : Bool) (r off : Nat) (bs : List Byte) : Tile :=
  if decide (spRows ≤ r) || !t.rowPowered portal r then t
  else { t with scratch := Cells.writeN t.scratch (64 * r + off) bs
                rewrites := t.rewrites.filter (fun x => decide (x.1 ≠ r)) }

/-- A row written by an engine or network, with its faults. -/
def Tile.writeRow (t : Tile) (portal : Bool) (r : Nat) (d : Row) : Tile :=
  (t.putBytes portal r 0 (rowBytes d)).rowFaults portal [r]

/-- Bytes written from byte address `a` on, row by row, without fault counting. -/
def Tile.putRun (t : Tile) (portal : Bool) (a : Nat) : List Byte → Tile
  | [] => t
  | b :: bs => Tile.putRun (t.putBytes portal (a / 64) (a % 64) [b]) portal (a + 1) bs

/-- Rows written one after another from row `r` on. -/
def Tile.writeRows (t : Tile) (portal : Bool) (r : Nat) : List Row → Tile
  | [] => t
  | d :: ds => Tile.writeRows (t.writeRow portal r d) portal (r + 1) ds

/-- The first cycle from `c` on in which the bank of row `r` serves a client: 0 matrix, 1 vector, 2 stream,
3 router (Table 6.1, R141). -/
def slotFrom (r client c : Nat) : Nat := c + (r + client + (4 - c % 4)) % 4

/-- `n` consecutive row numbers. -/
def rowsFrom (r n : Nat) : List Nat := (List.range n).map (r + ·)

/-- `n` added to an arrival counter (R98). -/
def Tile.addArrival (t : Tile) (ctr n : Nat) : Tile :=
  { t with ac := t.ac.set ctr (t.ac.get ctr + BitVec.ofNat 32 n) }

/-! ## Slips (R44, R116) -/

/-- A span of cycles without another span. -/
def cutSpan (x y : Nat × Nat) : List (Nat × Nat) :=
  [(x.1, min x.2 y.1), (max x.1 y.2, x.2)].filter (fun z => decide (z.1 < z.2))

/-- The cycles from `a` to below `b` that no span of a list holds. -/
def newCycles (l : List (Nat × Nat)) (a b : Nat) : Nat :=
  ((l.foldl (fun xs y => xs.flatMap (fun x => cutSpan x y)) (cutSpan (a, b) (b, b))).map (fun z => z.2 - z.1)).sum

/-- The cycles from `a` to below `b` counted as slips, each cycle once (R116). -/
def Sequencer.slipSpan (s : Sequencer) (a b : Nat) : Sequencer :=
  if a < b then { s with slip := addSat16 s.slip (newCycles s.spans a b), spans := (a, b) :: s.spans } else s

/-- Slip cycles of a sequencer of the tile. -/
def Tile.slip (t : Tile) (q : SeqId) (a b : Nat) : Tile := t.modSeq q (fun s => s.slipSpan a b)

/-- A sequencer with the stall, or the WAITARR beyond its scheduled cycle, that is in progress counted up to
`now` (R116). -/
def Sequencer.settleSlip (s : Sequencer) (start now : Nat) : Sequencer :=
  match s.state with
  | .stalled _ => { s.slipSpan s.nextIssue now with nextIssue := max s.nextIssue now }
  | .waitArr _ _ (some c) since => s.slipSpan (max (since + 1) (start + c.toNat)) now
  | _ => s

/-- Cycles of a stall in progress that are not counted yet. -/
def Sequencer.stallCycles (s : Sequencer) (now : Nat) : Nat :=
  match s.state with
  | .stalled _ => now - s.nextIssue
  | _ => 0

/-- The tile with the stalls in progress counted up to `now`, as slips and in ISSUE_STALLS (R116, R120). -/
def Tile.settleSlips (t : Tile) (now : Nat) : Tile :=
  let n := t.fwd.stallCycles now + t.bwd.stallCycles now + t.svc.stallCycles now
  (t.mapSeqs (fun s => s.settleSlip t.localStart now)).count Ctr.ISSUE_STALLS n

/-- The tile's slip count: the largest of its three (R116). -/
def Tile.slipCount (t : Tile) : Nat := max t.fwd.slip.toNat (max t.bwd.slip.toNat t.svc.slip.toNat)

end Sys2Proof.Machine
end

