-- ==== Sys2Proof/Machine/Events.lean ====
section
/-! DEFINITION. Shared operations that record what happens: event stamps (R54), the event ring of a
function (R405 to R407), the fault log (R362), the step ledger (R360), the persistent fault map and
the causes of a hold (R46). -/

namespace Sys2Proof.Machine

open Sys2Proof

/-! ## Stamps -/

/-- The stamp of a pitch, phase and kind (Table 2.5); a gate pitch is an idle pitch (R253). -/
def State.stampOf (s : State) (i : SlabId) (p : DWord × Half × PitchKind) : Stamp :=
  { powerOn := (s.slab i).camp.powerOn, phase := p.2.1, slab := i, maint := decide (p.2.2 = .maint)
    hold := (s.root i).inHold, idle := decide (p.2.2 = .idle) || decide (p.2.2 = .gate), pitch := p.1 }

/-- The stamp that the root holds. -/
def State.rootStamp (s : State) (i : SlabId) : Stamp :=
  let r := s.root i
  s.stampOf i (r.pitch, r.phase, r.kind)

/-- The stamp of a place which the latest slab-scope release reaches at cycle `at_`: before that it holds the one before
(R53, R54). -/
def State.stampAt (s : State) (i : SlabId) (at_ : Nat) : Stamp :=
  if at_ ≤ s.cycle i then s.rootStamp i else s.stampOf i (s.root i).before

/-- The stamp that base camp and the units of a slab record, and the one that a tile records. DESIGN CHOICE: the release reaches the
units when it reaches base camp. -/
def State.stamp (s : State) (i : SlabId) : Stamp := s.stampAt i (s.slab i).camp.releasedAt
def State.tileStamp (s : State) (t : TileId) : Stamp := s.stampAt t.slab (s.tile t).releasedAt

/-- The 16 bytes of a stamp. -/
def Stamp.bytes (t : Stamp) : List Byte :=
  leBytes t.powerOn.toNat 4 ++ leBytes t.phase.toNat 2 ++ [BitVec.ofNat 8 t.slab.num]
    ++ [BitVec.ofNat 8 ((if t.maint then 1 else 0) + (if t.hold then 2 else 0)
      + (if t.idle then 4 else 0))]
    ++ leBytes t.pitch.toNat 8

/-! ## The event ring -/

/-- Event types (Table 15.14). -/
def evtCompletion : Byte := 0x01
def evtFault : Byte := 0x02
def evtStepClosed : Byte := 0x03
def evtJobState : Byte := 0x04
def evtRecompile : Byte := 0x05
def evtRestore : Byte := 0x06
def evtPeerUnreachable : Byte := 0x07
def evtThermal : Byte := 0x08
def evtFeed : Byte := 0x09
def evtFwRestarted : Byte := 0x0A
def evtRingOverflow : Byte := 0x0B
def evtDeferredStart : Byte := 0x0C
def evtLink : Byte := 0x0D

/-- The 64 bytes of an event record with its SEQ (Table 15.13). -/
def EventRec.bytes (r : EventRec) (seq : DWord) : List Byte :=
  leBytes seq.toNat 8 ++ r.stamp.bytes ++ [r.type, r.status, r.mailbox, 0]
    ++ leBytes r.tag.toNat 2 ++ leBytes r.opcode.toNat 2 ++ padTo 32 r.detail

/-- The ring takes records: enabled, bus mastering on, and the function in D0 (R415, R417). -/
def Func.ringOpen (f : Func) : Bool := f.evtEnable && f.busMaster && !f.d3hot

/-- The ring has no room (R405). -/
def Func.ringFull (f : Func) : Bool :=
  decide (2 ^ f.evtSize.toNat ≤ (f.evtProducer - f.evtConsumer).toNat)

/-- The host has masked vector `v`: bit 0 of the last word of its entry in the MSI-X table (Table 15.1). -/
def Func.masked (f : Func) (v : Nat) : Bool := (Cells.read f.msixTable (16 * v + 12)).getLsbD 0

/-- Vector `v` signalled, or pending while it is masked. -/
def Func.signal (f : Func) (v : Nat) : Func :=
  if f.masked v then { f with msixPba := f.msixPba ||| BitVec.ofNat 64 (2 ^ v) } else { f with vectors := v :: f.vectors }

/-- Vector 4, once until the host has written EVT_CONSUMER (R407). -/
def Func.signalRing (f : Func) : Func :=
  if f.evtArmed then { f.signal 4 with evtArmed := false } else f

/-- The record also signals vector 5 (R407). -/
def EventRec.urgent (r : EventRec) : Bool :=
  decide (r.type = evtRecompile) || decide (r.type = evtRestore)
    || (decide (r.type = evtThermal) && decide (r.detail[10]? = some 1))

/-- The record is never dropped (R406). -/
def EventRec.kept (r : EventRec) : Bool :=
  decide (r.type = evtCompletion) || decide (r.type = evtDeferredStart)

/-- A record written to the ring, with its vectors (R405). -/
def Func.writeRecord (f : Func) (m : Cells) (r : EventRec) : Func × Cells :=
  let a := f.evtBase.toNat + 64 * (f.evtProducer.toNat % 2 ^ f.evtSize.toNat)
  let m := Cells.writeN m a (r.bytes f.evtSeq)
  let f := { f with evtProducer := f.evtProducer + 1, evtSeq := f.evtSeq + 1 }
  let f := f.signalRing.count Ctr.EVT_RECORDS 1
  (if r.urgent then f.signal 5 else f, m)

/-- A record put into base camp's queue, or dropped when it finds no place (R406). -/
def Func.enqueue (f : Func) (r : EventRec) : Func :=
  let others := (f.evtQueue.filter (fun x => !x.kept)).length
  if r.kept || (decide (others < 768) && decide (f.evtQueue.length < 1024)) then
    { f with evtQueue := f.evtQueue ++ [r] }
  else { f with evtDropped := f.evtDropped + 1 }.count Ctr.EVT_DROPPED 1

/-- Queued records written while the ring has room: first the overflow record, then the queue. -/
def Func.drain (now : Stamp) : Nat → Func → Cells → Func × Cells
  | 0, f, m => (f, m)
  | n + 1, f, m =>
    if !f.ringOpen || f.ringFull then (f, m)
    else if f.evtDropped ≠ 0 then
      let r : EventRec :=
        { stamp := now, type := evtRingOverflow, status := 0, mailbox := 0, tag := 0, opcode := 0
          detail := leBytes f.evtDropped 8 }
      let (f, m) := ({ f with evtDropped := 0 } : Func).writeRecord m r
      Func.drain now n f m
    else match f.evtQueue with
      | [] => (f, m)
      | r :: rs =>
        let (f, m) := ({ f with evtQueue := rs } : Func).writeRecord m r
        Func.drain now n f m

/-- Records waiting at a function written as far as the ring has room. -/
def State.drainRing (s : State) (fn : SlabId) : State :=
  let f := s.func fn
  let (f, m) := Func.drain (s.stamp fn) (f.evtQueue.length + 1) f s.hostMem
  { s.setFunc fn f with hostMem := m }

/-- A record posted on a function's ring, or queued (R405, R406). -/
def State.post (s : State) (fn : SlabId) (r : EventRec) : State :=
  let f := s.func fn
  if f.evtQueue.isEmpty && decide (f.evtDropped = 0) && f.ringOpen && !f.ringFull then
    let (f, m) := f.writeRecord s.hostMem r
    { s.setFunc fn f with hostMem := m }
  else (s.modFunc fn (fun f => f.enqueue r)).drainRing fn

/-- A record of a type other than COMPLETION and DEFERRED_START, stamped by slab `i`. -/
def State.event (s : State) (fn i : SlabId) (type : Byte) (detail : List Byte) : State :=
  s.post fn
    { stamp := s.stamp i, type := type, status := 0, mailbox := 0, tag := 0, opcode := 0
      detail := detail }

/-- The job function of the device slab `i` belongs to (Table 15.14). -/
def State.jobFn (s : State) (i : SlabId) : SlabId := s.dev i

/-- The job state as its event and GET_STATUS code it. -/
def JobState.code : JobState → Nat
  | .empty => 0
  | .loaded => 1
  | .running => 2
  | .pausing => 3
  | .paused => 4
  | .stopping => 5

def Reason.code : Reason → Nat
  | .none => 0
  | .host => 1
  | .selfTest => 2
  | .recompileNeeded => 3
  | .restoreNeeded => 4

/-! ## The ledger -/

/-- The record of a step. -/
def Camp.ledgerOf (c : Camp) (n : DWord) : Option LedgerRec := c.ledger.find? (fun r => r.step = n)

/-- The ledger step in progress, or all ones. A step whose pitches have ended is in progress until it has committed
(R383, R384), unless the next one has begun. -/
def State.stepNow (s : State) (i : SlabId) : DWord :=
  let j := s.job i
  let last := (s.slab (s.dev i)).camp.ledgerOf (j.step - 1)
  if j.inStep then j.step
  else if decide (0 < j.step.toNat) && decide (j.state = .running ∨ j.state = .pausing ∨ j.state = .stopping)
      && last.any (fun r => !r.phases.getLsbD 4) then j.step - 1
  else BitVec.allOnes 64

/-- A change of the job state and its JOB_STATE record. -/
def State.setJobState (s : State) (i : SlabId) (st : JobState) (r : Reason) : State :=
  let s := s.modJob i (fun j => { j with state := st, reason := r })
  s.event (s.jobFn i) (s.dev i) evtJobState
    ([BitVec.ofNat 8 st.code, BitVec.ofNat 8 r.code] ++ leBytes (s.stepNow i).toNat 8)

/-- The ledger with the record of step `n` changed. -/
def Camp.modLedger (c : Camp) (n : DWord) (f : LedgerRec → LedgerRec) : Camp :=
  { c with ledger := c.ledger.map (fun r => if r.step = n then f r else r) }

/-- The ledger with the record of a step put into slot n mod 256. -/
def Camp.openLedger (c : Camp) (r : LedgerRec) : Camp :=
  { c with ledger :=
      c.ledger.filter (fun x => x.step.toNat % 256 ≠ r.step.toNat % 256) ++ [r] }

/-- A change of the record of step `n` on every slab of the device. -/
def State.modLedger (s : State) (i : SlabId) (n : DWord) (f : LedgerRec → LedgerRec) : State :=
  s.modDev i (fun sl => sl.modCamp (fun c => c.modLedger n f))

/-! ## The fault log -/

def allOnes64 : DWord := BitVec.allOnes 64

/-- An entry with nothing but its class and action. -/
def FaultEntry.basic (cls action : Byte) : FaultEntry :=
  { seq := 0, stamp := Stamp.zero, step := 0, cls := cls, action := action, node := 0xFFFF
    field := 0xFF, aux := 0, map := false, hold := false, status := [], tileFlags := 0, spError := 0
    detail := [] }

/-- An entry put into slab `i`'s ring of 4,096 (R362) with its SEQ and step, counted in the ledger
record of the step in progress, and its FAULT record on the slab's own ring. The entry carries the
stamp of its event. -/
def State.logFaultAt (s : State) (i : SlabId) (st : Stamp) (e : FaultEntry) : State :=
  let n := s.stepNow i
  let c := (s.slab i).camp
  let e := { e with seq := c.logSeq, stamp := st, step := n }
  let full := decide (4096 ≤ c.faultLog.length)
  let s := s.modSlab i (fun sl =>
    (sl.modCamp (fun c =>
      let c := { c with faultLog := (if full then c.faultLog.drop 1 else c.faultLog) ++ [e]
                        logSeq := c.logSeq + 1 }
      c.modLedger n (fun r =>
        { r with logFirst := if r.logCount = 0 then e.seq else r.logFirst
                 logCount := r.logCount + 1 }))).count
      Ctr.FAULT_LOG_OVERWRITES (if full then 1 else 0))
  s.event i i evtFault
    (leBytes e.seq.toNat 8 ++ [e.cls, e.action] ++ leBytes e.node.toNat 2)

/-- An entry for an event that happens now. -/
def State.logFault (s : State) (i : SlabId) (e : FaultEntry) : State :=
  s.logFaultAt i (s.stamp i) e

/-! ## Node addresses (Table 7.3) -/

/-- The node address of a tile, by device-wide coordinates. -/
def tileNode (m : Mode) (t : TileId) : Half := BitVec.ofNat 16 (gx m t * 2 ^ 7 + t.y.val)

/-- The node address of a unit. -/
def unitNode (slab : SlabId) (type idx : Nat) : Half :=
  BitVec.ofNat 16 (2 ^ 15 + slab.num * 2 ^ 14 + type * 2 ^ 10 + idx)

/-- The field index as PLACEMENT − 1 codes it: c + 7 r, or c + 14 r in joined mode. -/
def fieldIndex (m : Mode) (slab : SlabId) (c r : Nat) : Nat :=
  match m with
  | .split => c + 7 * r
  | .joined => (match slab with | .s0 => c | .s1 => c + 7) + 14 * r

/-! ## Physical tiles (R15 to R20) -/

/-- The shift of a physical row or column, if it has one. -/
def shiftStart (l : List (Fin 17 × Fin 17)) (k : Fin 17) : Option (Fin 17) := alookup k l

/-- The physical tile (column, row) of the field in which logical tile (lx, ly) of field (c, r)
stands under the field's repair (R16). -/
def physicalOf (f : Field) (c r lx ly : Nat) : Fin 17 × Fin 17 :=
  let east := decide (c ≤ 3)
  let north := decide (r ≤ 2)
  let pc := if east then lx else lx + 1
  let pr := if north then ly else ly + 1
  let pcf : Fin 17 := ⟨pc % 17, Nat.mod_lt _ (by decide)⟩
  let prf : Fin 17 := ⟨pr % 17, Nat.mod_lt _ (by decide)⟩
  let rowMoved := match shiftStart f.rowShift prf with
    | none => false
    | some k => if east then decide (k ≤ pcf) else decide (pcf ≤ k)
  let colMoved := match shiftStart f.colShift pcf with
    | none => false
    | some k => if north then decide (k ≤ prf) else decide (prf ≤ k)
  (if rowMoved then (if east then pcf + 1 else pcf - 1) else pcf,
   if colMoved then (if north then prf + 1 else prf - 1) else prf)

/-- The field of a tile. -/
def tileField (t : TileId) : Nat := fieldOf t.x.val t.y.val

/-- The physical tile at which a logical tile stands. -/
def State.physical (s : State) (t : TileId) : Fin 17 × Fin 17 :=
  physicalOf ((s.slab t.slab).field (tileField t)) (t.x.val / 16) (t.y.val / 16) (t.x.val % 16)
    (t.y.val % 16)

/-- An element put into a list that has no repeats. -/
def insertNew {α : Type} [DecidableEq α] (a : α) (l : List α) : List α :=
  if a ∈ l then l else l ++ [a]

/-! ## Sequencer status words (Table 4.9) -/

/-- STATE, STALL and CHANNEL of a sequencer. -/
def SeqState.codes : SeqState → Nat × Nat × Nat
  | .notLoaded => (0, 0, 0)
  | .issuing => (1, 0, 0)
  | .waitCycle _ => (2, 0, 0)
  | .waitArr _ _ _ _ => (3, 0, 0)
  | .inBelay ch => (4, 0, ch.val)
  | .stalled c => (5, c.toNat, 0)
  | .held => (6, 0, 0)

/-- The status word of a sequencer at cycle `now`: a stall in progress counts up to now, and until the first
instruction issues it reads as at tile reset. -/
def Tile.statusWord (t : Tile) (now : Nat) (q : SeqId) : DWord :=
  let s := t.seq q
  let (st, stall, ch) := s.state.codes
  let mq := (t.matrix.queue.filter (fun e => e.seq = q)).length
  let slip := (s.settleSlip t.localStart now).slip.toNat
  if !s.issued then 0 else BitVec.ofNat 64 (s.lastOp.toNat * 2 ^ 56 + st * 2 ^ 48 + stall * 2 ^ 44 + ch * 2 ^ 38 + mq * 2 ^ 35
    + slip * 2 ^ 16 + s.pc.toNat)

/-! ## Faults -/

/-- The fault map of a slab has a change to commit (R363). -/
def Slab.mapChanged (sl : Slab) : Slab := sl.modCamp (fun c => { c with mapPending := true })

/-- A cause recorded at the device's root (R46); a cause already seen is not recorded twice. -/
def State.raiseCause (s : State) (c : Cause) : State :=
  s.modRoot c.slab (fun r => { r with causes := insertNew c r.causes })

/-- A cause now, of a unit or of the whole slab. -/
def State.raise (s : State) (i : SlabId) (code : Byte) (unit : Option (Fin 24)) : State :=
  s.raiseCause { code := code, slab := i, field := none, tile := none, unit := unit
                 stamp := s.stamp i }

/-- The tile runs an image program in the pitch in progress (R38). -/
def State.participates (s : State) (t : TileId) : Bool :=
  match alookup (t.x.val, t.y.val) (s.slab t.slab).tiles with
  | none => false
  | some tl => tl.entry.isSome && decide ((s.root t.slab).kind = .image)

/-- The tile has an image program in the placement in force. -/
def State.active (s : State) (t : TileId) : Bool :=
  match alookup (t.x.val, t.y.val) (s.slab t.slab).tiles with
  | none => false
  | some tl => tl.entry.isSome

/-- A physical tile recorded as failed in the persistent fault map (R347, R150). -/
def Slab.tileFailed (sl : Slab) (f : Nat) (p : Fin 17 × Fin 17) : Slab :=
  (sl.modField f (fun fd => { fd with failedTiles := insertNew p fd.failedTiles
                                      repairPending := true })).mapChanged

/-! ## The image in force -/

/-- The image loaded on the device of a slab. -/
def State.image (s : State) (i : SlabId) : Option Image := (s.job i).image

/-- FP8_OVERFLOW of the image in force (R79). -/
def State.fp8Nan (s : State) (i : SlabId) : Bool :=
  match s.image i with
  | none => false
  | some im => decide (im.step.fp8Overflow = 1)

/-- The placement in force on a slab. -/
def State.placement (s : State) (i : SlabId) : Option Placement :=
  match s.image i with
  | none => none
  | some im => im.placements.find? (fun p => p.number = (s.job i).placement && p.slab = i)

/-! ## Stream descriptors of a placement (R217, R228, R235) -/

/-- The state word of a descriptor as Table 9.7 lays it out, given its current arm record and pass. -/
def StreamState.word (st : StreamState) (arm pass : Nat) : DWord :=
  BitVec.ofNat 64 (st.state.toNat * 2 ^ 62 + (if st.fault then 2 ^ 61 else 0)
    + (if st.held then 2 ^ 60 else 0) + arm % 2 ^ 12 * 2 ^ 48 + pass % 2 ^ 16 * 2 ^ 32
    + st.epoch.toNat * 2 ^ 16 + st.run % 2 ^ 16)

/-- First arm record of the table of descriptor `d`'s group (Table 9.1). -/
def armBase (d : Nat) : Nat := if d < 12288 then 4096 * (d / 512) else 98304 + 2048 * ((d - 12288) / 256)

/-- A stream descriptor of a placement. -/
def Placement.stream (p : Placement) (d : Nat) : Option StreamDesc := p.streams[d]?

/-- Arm record `a` of descriptor `d`'s group. -/
def Placement.arm (p : Placement) (d a : Nat) : Option ArmRecord := p.arms[armBase d + a]?

/-- The passes of a chain from record `a` on: each with its record, its number within the record and
its delivery index relative to the step's base (R228). -/
def Placement.chain (p : Placement) (d : Nat) : Nat → Nat → Nat → List (Nat × Nat × Nat)
  | 0, _, _ => []
  | fuel + 1, a, at_ =>
    match p.arm d a with
    | none => []
    | some r =>
      let here := (List.range r.npass).map (fun j => (a, j, at_ + j * r.period))
      if r.next = 0xFFFF then here
      else
        let gap := match p.arm d r.next with
          | none => 0
          | some n => n.gap
        here ++ p.chain d fuel r.next (at_ + (r.npass - 1) * r.period + gap)

/-- All passes of a descriptor in one step, in order. -/
def Placement.passes (p : Placement) (d : Nat) : List (Nat × Nat × Nat) :=
  match p.stream d with
  | none => []
  | some sd => p.chain d 4096 sd.arm0 sd.start0

/-- The state word of descriptor `d` of slab `i`. -/
def State.streamWord (s : State) (i : SlabId) (d : Nat) : DWord :=
  let st := (s.slab i).stream d
  let st := match (s.placement i).bind (fun p => p.stream d) with
    | none => st
    | some sd => if sd.mode = 2 then { st with run := min sd.runs (64 * st.run) } else st
  match (s.placement i).bind (fun p => (p.passes d)[st.pass]?) with
  | none => st.word 0 0
  | some (a, j, _) => st.word a j

/-! ## Tile faults -/

/-- The tile whose stream engine executes descriptor `d` (Table 9.1): of the shelf group of stack
d div 512, or of the Zetra group of port (d - 12288) div 256. -/
def streamTile (i : SlabId) (d : Nat) : TileId :=
  if d < 12288 then
    let k := d / 512
    { slab := i, x := ⟨(8 + 8 * (k % 12) + d % 8) % 112, Nat.mod_lt _ (by decide)⟩
      y := if k < 12 then 0 else 95 }
  else
    let p := (d - 12288) / 256
    { slab := i, x := if i = .s0 then 0 else 111, y := ⟨(6 * p + d % 6) % 96, Nat.mod_lt _ (by decide)⟩ }

/-- The state words of the loaded descriptors that a tile executes, those with FAULT first: as many as DETAIL holds (R235). DESIGN CHOICE:
DETAIL is their place in the entry of a tile; Table 13.4 gives them none. -/
def State.streamWords (s : State) (t : TileId) : List Byte :=
  let ds := (s.slab t.slab).streams.filter (fun p => decide (streamTile t.slab p.1 = t) && decide (p.2.state ≠ 0))
  ((ds.filter (fun p => p.2.fault) ++ ds.filter (fun p => !p.2.fault)).take 4).flatMap (fun p =>
    leBytes (s.streamWord t.slab p.1).toNat 8)

/-- The entry of a tile fault: its node, the status words, flag word, error word and the state words of its descriptors (R119, R136,
R153, R235). -/
def State.tileEntry (s : State) (t : TileId) (cls action : Byte) : FaultEntry :=
  let tl := s.tile t
  let now := s.cycle t.slab
  { FaultEntry.basic cls action with
    node := tileNode s.shared.mode t
    field := BitVec.ofNat 8 (fieldIndex s.shared.mode t.slab (t.x.val / 16) (t.y.val / 16))
    map := true, status := [tl.statusWord now .fwd, tl.statusWord now .bwd, tl.statusWord now .svc]
    tileFlags := tl.flags, spError := tl.spError, detail := s.streamWords t }

/-- Keys of residence entries at the tile with device-wide coordinates (x, y). -/
def residenceAt (x y : Nat) (p : (Nat × Nat × Nat) × Nat × DWord) : Bool := decide (p.1.1 = x ∧ p.1.2.1 = y)

/-- A tile that stops lends no more: its frames leave residence in the next maintenance pitch (R347). -/
def State.stopLending (s : State) (t : TileId) : State :=
  let x := gx s.shared.mode t
  let y := t.y.val
  (s.modTile t (fun tl => { tl with lending := false })).modSlab t.slab (fun sl => sl.modMem (fun m =>
    { m with dropping := ((m.residence.filter (residenceAt x y)).map Prod.fst).foldl (fun l k => insertNew k l) m.dropping }))

/-- A tile that stops (0x01) or has an uncorrectable error (0x02): recorded in the fault map; a tile
that runs an image program raises the cause of a hold, another is logged, lends no more and causes none (R46,
R150, R347). Its overlay contents are lost with it (R22). -/
def State.tileFault (s : State) (t : TileId) (code : Byte) : State :=
  let p := s.physical t
  let s := (s.modSlab t.slab (fun sl => sl.tileFailed (tileField t) p)).modTile t (fun tl => { tl with overlay := [] })
  if s.participates t then
    s.raiseCause
      { code := code, slab := t.slab
        field := some (⟨t.x.val / 16 % 7, Nat.mod_lt _ (by decide)⟩,
          ⟨t.y.val / 16 % 6, Nat.mod_lt _ (by decide)⟩)
        tile := some p, unit := none, stamp := s.tileStamp t }
  else (if s.active t then s else s.stopLending t).logFaultAt t.slab (s.tileStamp t) (s.tileEntry t code 0)

/-- An uncorrectable error of a tile, when `c` holds. -/
def State.tileErrorIf (s : State) (c : Bool) (t : TileId) : State :=
  if c then s.tileFault t 0x02 else s

/-- A tile recorded as degraded (R152, R186), class 0x16; the next image load remaps it. -/
def State.tileDegraded (s : State) (t : TileId) : State :=
  let p := s.physical t
  let s := s.modSlab t.slab (fun sl =>
    (sl.modField (tileField t) (fun fd =>
      { fd with degradedTiles := insertNew p fd.degradedTiles })).mapChanged)
  s.logFaultAt t.slab (s.tileStamp t) (s.tileEntry t 0x16 0)

/-- The sequencers of a tile that a belay channel names (R100): all loaded ones for tick and phase
belays, those of the membership entry for a region. -/
def State.named (s : State) (t : TileId) (ch : Nat) (q : SeqId) : Bool :=
  let tl := s.tile t
  if ch ≤ 1 then tl.entry.isSome && (tl.seq q).loaded
  else match s.placement t.slab with
    | none => false
    | some p => p.members.any (fun m =>
        m.ch = ch && m.x = gx s.shared.mode t && m.y = t.y.val
          && m.seqs.getLsbD (match q with | .fwd => 0 | .bwd => 1 | .svc => 2))

/-! ## Commands at a tile -/

/-- The clocks of the slab run. -/
def Slab.ready (sl : Slab) : Bool := sl.powered && sl.clocks.running

/-- A tile in use changed by an action at the present cycle, while the slab's clocks run and its field has power; an
idle tile has no sequencers to act. -/
def State.onTile (s : State) (t : TileId) (f : Nat → Tile → Tile) : State :=
  s.modSlab t.slab (fun sl =>
    if sl.ready && !(sl.field (tileField t)).clamped then
      match alookup (t.x.val, t.y.val) sl.tiles with
      | none => sl
      | some tl => sl.setTile t.x.val t.y.val (f sl.clocks.cycle tl)
    else sl)

end Sys2Proof.Machine
end

