-- ==== Sys2Proof/Machine/Issue.lean ====
section
/-! DEFINITION. How a sequencer issues an instruction: when it may, what a stall records, and the
checks every instruction passes (R92, R95, R99, R116, R119). -/

namespace Sys2Proof.Machine

open Sys2Proof

/-- The sequencer may issue at cycle `now`: it issues or retries a stalled instruction, and its next
issue cycle has come. -/
def Sequencer.ready (q : Sequencer) (now : Nat) : Bool :=
  q.loaded && decide (q.nextIssue ≤ now) &&
    (match q.state with
     | .issuing => true
     | .stalled _ => true
     | _ => false)

/-- The sequencer stalls at issue with a cause of Table 4.9; `nextIssue` keeps the first cycle of
the stall. -/
def Tile.stall (t : Tile) (q : SeqId) (now : Nat) (cause : BitVec 4) : Tile :=
  t.modSeq q (fun s =>
    match s.state with
    | .stalled _ => { s with state := .stalled cause }
    | _ => { s with state := .stalled cause, nextIssue := now })

/-- The stall at which a sequencer stands counted up to `now`. -/
def Tile.settleStall (t : Tile) (q : SeqId) (now : Nat) : Tile :=
  (t.modSeq q (fun s => s.settleSlip t.localStart now)).count Ctr.ISSUE_STALLS ((t.seq q).stallCycles now)

/-- The instruction `w` issues: stalled cycles are counted, OPCODE and PC follow, and the next
instruction issues `cost` cycles later unless `st` makes the sequencer wait. -/
def Tile.issue (t : Tile) (q : SeqId) (now : Nat) (w : IWord) (cost : Nat) (pc : BitVec 12)
    (st : SeqState) : Tile :=
  (t.settleStall q now).modSeq q (fun s =>
    { s with state := st, issued := true, pc := pc, lastOp := BitVec.ofNat 8 (opOf w), nextIssue := now + cost })

/-- The instruction issues at a cost of 1 and the next word follows. -/
def Tile.issueNext (t : Tile) (q : SeqId) (now : Nat) (w : IWord) : Tile :=
  t.issue q now w 1 ((t.seq q).pc + 1) .issuing

/-- The program counter lies in a half that an IFILL has locked (R99). -/
def Sequencer.fetchLocked (q : Sequencer) : Bool := decide (q.locked = some (halfOf q.pc))

/-- An instruction of a class the sequencer may not issue: a NOP that sets OPND_FAULT (R95). -/
def Tile.wrongClass (t : Tile) (q : SeqId) (now : Nat) (w : IWord) : Tile :=
  (t.issueNext q now w).opndFaults 1

/-- The gate bits of a tile's sequencers and engines (Table 18.4). -/
def gateSeq : Nat := 4
def gateStream : Nat := 3
def gateVector : Nat := 2
def gateMatrix : Nat := 1

/-- The word at the program counter is `w` and the sequencer, with its clock on, may issue it now. -/
def Tile.atIssue (t : Tile) (q : SeqId) (now : Nat) (w : IWord) : Bool :=
  bit t.gate gateSeq && (t.seq q).ready now && decide ((t.seq q).word (t.seq q).pc = w)

/-- The word `w` of opcode `op`, issued by sequencer `q` at cycle `now`: a fetch from a locked half
stalls, a class the sequencer may not issue is a faulting NOP, and otherwise `act` takes place. A
word that is not at the program counter, or not of this opcode, issues nothing. -/
def Tile.issueOp (t : Tile) (op : Nat) (q : SeqId) (now : Nat) (w : IWord) (act : Tile → Tile) : Tile :=
  if !(t.atIssue q now w && decide (opOf w = op)) then t
  else if (t.seq q).fetchLocked then t.stall q now 3
  else if !classAllowed q (opClass op) then t.wrongClass q now w
  else act t

/-- The opcode enters the matrix queue, or the vector queue. -/
def entersMatrix (op : Nat) : Bool := decide (op ∈ [0x40, 0x41, 0x42])
def entersVector (op : Nat) : Bool := decide (opClass op = .vector)

/-- The backward sequencer issues an instruction of a kind in this cycle. -/
def Tile.bwdIssues (t : Tile) (now : Nat) (kind : Nat → Bool) : Bool :=
  bit t.gate gateSeq && t.bwd.ready now && !t.bwd.fetchLocked && kind (opOf (t.bwd.word t.bwd.pc))

/-- An engine queue of `cap` entries, `n` of them taken, has none for a sequencer: when both issue to it in one
cycle the backward sequencer takes the last one (R102). R102 says so of the matrix engine; R122 has the
vector engine follow its rules (DEDUCED). -/
def Tile.queueFull (t : Tile) (q : SeqId) (now n cap : Nat) (kind : Nat → Bool) : Bool :=
  decide (cap ≤ n) || (decide (q = .fwd) && decide (cap ≤ n + 1) && t.bwdIssues now kind)

/-- An instruction command of opcode `op`. -/
def State.issue (s : State) (t : TileId) (op : Nat) (q : SeqId) (w : IWord)
    (act : Nat → Tile → Tile) : State :=
  s.onTile t (fun now tl => tl.issueOp op q now w (act now))

end Sys2Proof.Machine
end

