-- ==== Sys2Proof/Machine/Control.lean ====
section
/-! DEFINITION. Control and belay instructions of the tile sequencers (Table 4.2, R97 to R100). -/

namespace Sys2Proof.Machine

open Sys2Proof

/-- NOP (R97). -/
def execNop (t : TileId) (q : SeqId) (w : IWord) (s : State) : Result :=
  .next (s.issue t 0x00 q w (fun now tl => tl.issueNext q now w))

/-- WAITC (R97): the next instruction issues N cycles after this one. -/
def execWaitc (t : TileId) (q : SeqId) (w : IWord) (s : State) : Result :=
  .next (s.issue t 0x01 q w (fun now tl =>
    let n := (ctlImm w).toNat
    tl.issue q now w n ((tl.seq q).pc + 1) (.waitCycle (now + n))))

/-- WAITUNTIL (R97): the next instruction issues at local cycle C + s[SA], or on the next cycle. -/
def execWaituntil (t : TileId) (q : SeqId) (w : IWord) (s : State) : Result :=
  .next (s.issue t 0x02 q w (fun now tl =>
    let c := (ctlImm w + (tl.seq q).reg now (ctlSD w)).toNat
    let at_ := max (now + 1) (tl.localStart + c)
    tl.issue q now w (at_ - now) ((tl.seq q).pc + 1) (.waitCycle at_)))

/-- The WAITUNTIL with the same SA that follows a WAITARR: it gives the scheduled cycle (R116). -/
def Sequencer.waitPair (q : Sequencer) (now : Nat) (w : IWord) : Option Word :=
  let w2 := q.word (q.pc + 1)
  if opOf w2 = 0x02 ∧ ctlSD w2 = ctlSD w then some (ctlImm w2 + q.reg now (ctlSD w)) else none

/-- WAITARR (R97, R116), alone or paired with a WAITUNTIL. -/
def execWaitarr (t : TileId) (q : SeqId) (w : IWord) (s : State) : Result :=
  .next (s.issue t 0x03 q w (fun now tl =>
    let sq := tl.seq q
    let sched := sq.waitPair now w
    let target := ctlImm w + sq.reg now (ctlSD w)
    tl.issue q now w 1 (sq.pc + (if sched.isSome then 2 else 1))
      (.waitArr (BitVec.ofNat 4 (ctlSA2 w)) target sched now)))

/-- A sequencer whose wait is over issues again: WAITC and WAITUNTIL at their cycle, WAITARR once
its counter has reached the value; cycles from the scheduled one on are slips (R97, R116). -/
def Tile.endWait (t : Tile) (q : SeqId) (now : Nat) : Tile :=
  match (t.seq q).state with
  | .waitCycle at_ =>
    if at_ ≤ now then t.modSeq q (fun s => { s with state := .issuing }) else t
  | .waitArr ctr target sched since =>
    if target.toNat ≤ (t.ac.get ctr.toNat).toNat ∧ since < now then
      (match sched with
        | none => t
        | some c => t.slip q (max (since + 1) (t.localStart + c.toNat)) now).modSeq q (fun s => { s with state := .issuing, nextIssue := now })
    else t
  | _ => t

/-- WAIT_END. -/
def execWaitEnd (t : TileId) (q : SeqId) (s : State) : Result :=
  .next (s.onTile t (fun now tl => tl.endWait q now))

/-- SETI (R97). -/
def execSeti (t : TileId) (q : SeqId) (w : IWord) (s : State) : Result :=
  .next (s.issue t 0x04 q w (fun now tl =>
    (tl.modSeq q (fun sq => sq.setReg now (ctlSD w) (ctlImm w))).issueNext q now w))

/-- ADDI (R97, R93): the sum wraps at 32 bits. -/
def execAddi (t : TileId) (q : SeqId) (w : IWord) (s : State) : Result :=
  .next (s.issue t 0x05 q w (fun now tl =>
    (tl.modSeq q (fun sq =>
      sq.setReg now (ctlSD w) (sq.reg now (ctlSA2 w) + ctlImm w))).issueNext q now w))

/-- JMP (R97). -/
def execJmp (t : TileId) (q : SeqId) (w : IWord) (s : State) : Result :=
  .next (s.issue t 0x08 q w (fun now tl => tl.issue q now w 2 (ctlTarget w) .issuing))

/-- BNZD (R97): decrement, and branch when the result is not 0. -/
def execBnzd (t : TileId) (q : SeqId) (w : IWord) (s : State) : Result :=
  .next (s.issue t 0x09 q w (fun now tl =>
    let v := (tl.seq q).reg now (ctlSD w) - 1
    let tl := tl.modSeq q (fun sq => sq.setReg now (ctlSD w) v)
    if v = 0 then tl.issueNext q now w else tl.issue q now w 2 (ctlTarget w) .issuing))

/-- The IFILL at the service sequencer can begin: its target store has no fill in progress and the
target's program counter is in the other half (R99). -/
def Tile.fillFree (t : Tile) (target : SeqId) (half : Bool) : Bool :=
  (t.fills.all (fun f => decide (f.target ≠ target))) && decide (halfOf (t.seq target).pc ≠ half)

/-- The IFILL issues, locks its half and begins to copy. -/
def Tile.startFill (t : Tile) (now : Nat) (w : IWord) (target : SeqId) : Tile :=
  let t := t.issueNext .svc now w
  let t := t.modSeq target (fun s => { s with locked := some (fillHalf w) })
  { t with fills := t.fills ++
      [{ target := target, half := fillHalf w, row := fillRow w, begun := now, next := slotFrom (fillRow w) 2 (now + 1), rows := [] }] }

/-- IFILL (R97, R99): it begins, or the service sequencer stalls at it. SEQ code 3 is reserved and
never passes validation (R95); it fills nothing. -/
def execIfill (t : TileId) (q : SeqId) (w : IWord) (s : State) : Result :=
  .next (s.issue t 0x0C q w (fun now tl =>
    match fillSeq w with
    | none => tl.issueNext q now w
    | some target =>
      if tl.fillFree target (fillHalf w) then tl.startFill now w target else tl.stall q now 4))

/-- IFILL_BEGIN (R99): the IFILL at which the service sequencer stalls begins. -/
def execIfillBegin (t : TileId) (s : State) : Result :=
  .next (s.onTile t (fun now tl =>
    let w := tl.svc.word tl.svc.pc
    if decide (tl.svc.state = .stalled 4) && decide (opOf w = 0x0C) then
      match fillSeq w with
      | none => tl
      | some target => if tl.fillFree target (fillHalf w) then tl.startFill now w target else tl
    else tl))

/-- The four words of a row (R92). -/
def rowWords (r : Row) : List IWord := (List.range 4).map (fun i => r.extractLsb' (128 * i) 128)

/-- A store with words put from address `a` on; NOP words are not listed. -/
def storeWords (store : List (Nat × IWord)) (a : Nat) (ws : List IWord) : List (Nat × IWord) :=
  store.filter (fun p => p.1 < a || a + ws.length ≤ p.1)
    ++ (mapFrom (fun i w => (i, w)) a ws).filter (fun p => p.2 ≠ 0)

/-- IFILL_DONE (R99, R149): once its 512 rows are read, each slow correction taking 4 cycles more, they are in the
store and the half is unlocked; an uncorrectable source row is an uncorrectable error of the tile. -/
def execIfillDone (t : TileId) (target : SeqId) (errs : List RowError) (s : State) : Result :=
  let now := s.cycle t.slab
  let due (f : Fill) : Bool := decide (f.target = target) && decide (512 ≤ f.rows.length)
    && decide (f.next + slowCycles (errs.filter (fun e => decide (e.row ∈ rowsFrom f.row 512))) ≤ now)
  match (s.tile t).fills.find? due with
  | none => .next s
  | some f =>
    let p := isPortal t
    let bad := rowsUncorrectable (errs.filter (fun e => decide (e.row ∈ rowsFrom f.row 512)))
    .next ((s.onTile t (fun _ tl =>
      let rows := rowsFrom f.row 512
      let es := errs.filter (fun e => decide (e.row ∈ rows))
      let ws := (mapFrom (fun i d => fixRow es (f.row + i) d) 0 f.rows).flatMap rowWords
      let tl := ((tl.rowFaults p rows).recordRowErrors p false 2 es).slip .svc f.next (f.next + slowCycles es)
      let tl := { tl with fills := tl.fills.filter (fun g => g.target ≠ target) }
      if bad then tl
      else tl.modSeq target (fun sq =>
        { sq with store := storeWords sq.store (if f.half then 2048 else 0) ws, locked := none }))).tileErrorIf bad t)

/-- BELAY (R100): the sequencer stops issuing until the release. -/
def execBelay (t : TileId) (q : SeqId) (w : IWord) (s : State) : Result :=
  .next (s.issue t 0x10 q w (fun now tl =>
    tl.issue q now w 1 ((tl.seq q).pc + 1) (.inBelay (belayChannel w))))

/-- Everything that sequencer `q` issued has completed (R100). -/
def Tile.drained (t : Tile) (now : Nat) (q : SeqId) : Bool :=
  t.matrix.queue.all (fun e => decide (e.seq ≠ q)) && t.vector.queue.all (fun e => decide (e.seq ≠ q))
    && decide ((t.seq q).doneAt ≤ now) && (decide (q ≠ .svc) || t.fills.isEmpty)

/-- Every write of the tile to its overlay and to other tiles has been acknowledged (R39). -/
def Tile.acked (t : Tile) (now : Nat) : Bool :=
  t.port.queue.isEmpty && t.port.moves.isEmpty && decide (t.port.ackAt ≤ now) && decide (t.unacked = 0)

/-- The belay has been reached by every sequencer it names, and all their work is done. -/
def State.belayReady (s : State) (t : TileId) (ch : Fin 64) : Bool :=
  let tl := s.tile t
  let now := s.cycle t.slab
  let ok (q : SeqId) : Bool :=
    !s.named t ch.val q || (decide ((tl.seq q).state = .inBelay ch) && tl.drained now q)
  ok .fwd && ok .bwd && ok .svc && tl.acked now
    && (s.named t ch.val .fwd || s.named t ch.val .bwd || s.named t ch.val .svc)
    && tl.arrivals.all (fun a => decide (a.ch ≠ ch))

/-- Longest arrival path in arithmetic cycles (Table 2.2). -/
def arrivalBound : Mode → Nat
  | .split => 256
  | .joined => 288

/-- Shortest and longest release path in arithmetic cycles (Table 2.2). -/
def releaseBounds : Mode → Nat × Nat
  | .split => (240, 256)
  | .joined => (264, 288)

/-- The members of a region belay all lie in one field (R40). -/
def State.regionInField (s : State) (i : SlabId) (ch : Nat) : Bool :=
  let fs := (s.devSlabs i).flatMap (fun k => (s.placement k).elim [] (fun p =>
    (p.members.filter (fun m => decide (m.ch = ch))).map (fun m => (k, m.x / 16, m.y / 16))))
  match fs with
  | [] => true
  | f :: rest => rest.all (fun g => decide (g = f))

/-- Longest arrival path of a channel: within one field a complete region belay takes at most 48 fabric
cycles, of which the arrival takes half (R40). -/
def State.arrivalMax (s : State) (i : SlabId) (ch : Nat) : Nat :=
  if 2 ≤ ch ∧ s.regionInField i ch then 48 else arrivalBound s.shared.mode

/-- The cycles a tick arrival has waited for acknowledgements beyond the pitch's work budget L − M are slips of the
sequencers it names (R39, R44). -/
def Tile.lateAcks (t : Tile) (budget : Nat) : Tile :=
  let last := max t.ackedAt t.port.ackAt
  t.mapSeqs (fun q => if q.loaded then q.slipSpan (max (t.localStart + budget) q.nextIssue) last else q)

/-- The work budget L − M of a pitch (R36). -/
def State.workBudget (s : State) (i : SlabId) : Nat :=
  match s.image i, s.placement i with
  | some im, some p =>
    (if p.pitchLength = 0 then im.pitch.length else p.pitchLength) - (if p.margin = 0 then im.pitch.margin else p.margin)
  | some im, none => im.pitch.length - im.pitch.margin
  | none, _ => 0

/-- BELAY_ARRIVAL (R39, R44): the tile's arrival leaves and is seen at the combining node within the
arrival latency of Table 2.2; a tick arrival carries the slip count. -/
def execBelayArrival (t : TileId) (ch : Fin 64) (s : State) : Result :=
  if s.belayReady t ch && (s.slab t.slab).ready then
    let (d, s) := s.takeFree (s.arrivalMax t.slab ch.val + 1)
    let budget := s.workBudget t.slab
    .next (s.onTile t (fun now tl =>
      let tl := tl.settleSlips now
      { (if ch.val = 0 then tl.lateAcks budget else tl) with arrivals := tl.arrivals ++ [{ ch := ch, seenAt := now + d }] }))
  else .next s

/-- BELAY_RESUME (R100): the release has reached the tile and its waiting sequencers issue from the
cycle after. -/
def execBelayResume (t : TileId) (ch : Fin 64) (s : State) : Result :=
  .next (s.onTile t (fun now tl =>
    match tl.released.find? (fun a => decide (a.ch = ch) && decide (a.seenAt ≤ now)) with
    | none => tl
    | some a =>
      let tl := { tl with released := tl.released.filter (fun b => b ≠ a) }
      tl.mapSeqs (fun sq =>
        if sq.state = .inBelay ch then { sq with state := .issuing, nextIssue := a.seenAt + 1 }
        else sq)))

/-- The bits in which two words differ. -/
def bitErrors (a b : IWord) : Nat := ((List.range 128).filter (fun k => decide (a.getLsbD k ≠ b.getLsbD k))).length

/-- A word read by the fetch path is an uncorrectable error: it has errors in two or more bits, or, without an error, a reserved opcode
(R92, R95). One wrong bit is corrected at no cost. -/
def Sequencer.badFetch (q : Sequencer) (w : IWord) : Bool :=
  let n := bitErrors w (q.word q.pc)
  decide (2 ≤ n) || (decide (n = 0) && decide (opClass (opOf w) = .reserved))

/-- RESERVED_OPCODE_DECODE (R92, R95): a corrupted word, or one with a reserved opcode, is an uncorrectable error
of the tile. -/
def execReservedOpcodeDecode (t : TileId) (q : SeqId) (w : IWord) (s : State) : Result :=
  let now := s.cycle t.slab
  .next (s.tileErrorIf ((s.slab t.slab).ready && ((s.tile t).seq q).ready now && ((s.tile t).seq q).badFetch w) t)

/-- WRONG_CLASS_DECODE (R95): a word of a class the sequencer may not issue. -/
def execWrongClassDecode (t : TileId) (q : SeqId) (w : IWord) (s : State) : Result :=
  .next (s.onTile t (fun now tl =>
    if tl.atIssue q now w && decide (opClass (opOf w) ≠ .reserved)
        && !classAllowed q (opClass (opOf w)) && !(tl.seq q).fetchLocked then
      tl.wrongClass q now w
    else tl))

end Sys2Proof.Machine
end

