-- ==== Sys2Proof/Machine/Mesh.lean ====
section
/-! DEFINITION. The bulk-data mesh (R159 to R179): flit headers, routes, detours around holes,
multicast trees, retries, ejection and acknowledgements. -/

namespace Sys2Proof.Machine

open Sys2Proof

/-! ## Headers (Table 7.1) -/

def Flit.kind (f : Flit) : Nat := bits f.header 95 94
def Flit.phase (f : Flit) : Nat := bits f.header 93 92
def Flit.vc (f : Flit) : Bool := bit f.header 91
def Flit.last (f : Flit) : Bool := bit f.header 90
def Flit.one (f : Flit) : Bool := bit f.header 89
def Flit.ctr (f : Flit) : Nat := bits f.header 88 85
def Flit.row (f : Flit) : Nat := bits f.header 84 69
def Flit.x0 (f : Flit) : Nat := bits f.header 68 61
def Flit.y0 (f : Flit) : Nat := bits f.header 60 54
def Flit.x1 (f : Flit) : Nat := bits f.header 53 46
def Flit.y1 (f : Flit) : Nat := bits f.header 45 39
def Flit.queue (f : Flit) : Nat := bits f.header 53 40
def Flit.sx (f : Flit) : Nat := bits f.header 38 31
def Flit.sy (f : Flit) : Nat := bits f.header 30 24

/-- A header on channel 0. `xy1` are bits [53:39]: the far corner, or QUEUE for a portal write. -/
def mkHeader (kind phase : Nat) (last one : Bool) (ctr row x0 y0 xy1 sx sy : Nat) : BitVec 96 :=
  BitVec.ofNat 96 (kind % 4 * 2 ^ 94 + phase % 4 * 2 ^ 92 + (if last then 2 ^ 90 else 0)
    + (if one then 2 ^ 89 else 0) + ctr % 16 * 2 ^ 85 + row % 2 ^ 16 * 2 ^ 69 + x0 % 256 * 2 ^ 61
    + y0 % 128 * 2 ^ 54 + xy1 % 2 ^ 15 * 2 ^ 39 + sx % 256 * 2 ^ 31 + sy % 128 * 2 ^ 24)

/-- The flit on the traverse channel (R175). -/
def Flit.traverse (f : Flit) : Flit := { f with header := f.header ||| (1 <<< 91) }

/-- The rows a flit carries. -/
def Flit.rows (f : Flit) : List Row :=
  f.data.extractLsb' 0 512 :: (if f.one then [] else [f.data.extractLsb' 512 512])

/-! ## Holes (R175) -/

/-- The tile at device-wide coordinates lies in a hole. -/
def State.inHole (s : State) (i : SlabId) (x y : Nat) : Bool :=
  match tileAt s.shared.mode i x y with
  | none => false
  | some t => decide (tileField t ∈ (s.slab t.slab).hole)

/-- Fields from `c` downwards, and upwards, that belong to one hole along a row of fields. -/
def extentDown (p : Nat → Bool) : Nat → Nat
  | 0 => 0
  | c + 1 => if p c then extentDown p c else c + 1
def extentUp (p : Nat → Bool) : Nat → Nat → Nat
  | 0, c => c
  | n + 1, c => if p (c + 1) then extentUp p n (c + 1) else c

/-- The rectangle of tiles of the hole that holds a tile: x from, x to, y from, y to. -/
def State.holeRect (s : State) (i : SlabId) (x y : Nat) : Nat × Nat × Nat × Nat :=
  let c := x / 16
  let r := y / 16
  let pc (k : Nat) : Bool := s.inHole i (16 * k) (16 * r)
  let pr (k : Nat) : Bool := s.inHole i (16 * c) (16 * k)
  (16 * extentDown pc c, 16 * extentUp pc 14 c + 15, 16 * extentDown pr r, 16 * extentUp pr 6 r + 15)

/-- One step in a direction; none beyond the device. -/
def stepDir (m : Mode) (d : Dir) (x y : Nat) : Option (Nat × Nat) :=
  match d with
  | .west => if x = 0 then none else some (x - 1, y)
  | .east => if x + 1 < gridWidth m then some (x + 1, y) else none
  | .south => if y = 0 then none else some (x, y - 1)
  | .north => if y + 1 < 96 then some (x, y + 1) else none

def Dir.opposite : Dir → Dir
  | .west => .east
  | .east => .west
  | .south => .north
  | .north => .south

/-- The nearest working col lane to lane y, the lower winning a tie (R179). -/
def nearestLane (failed : List (Fin 96)) (y : Nat) : Nat → Option Nat
  | 0 => none
  | n + 1 =>
    match nearestLane failed y n with
    | some l => some l
    | none =>
      let ok (l : Nat) : Bool := decide (l < 96) && failed.all (fun f => decide (f.val ≠ l))
      if n ≤ y ∧ ok (y - n) then some (y - n) else if ok (y + n) then some (y + n) else none

/-- Why a hop in direction `d` is blocked, as the detour to take (R175): a hole ahead, a failed
link, a failed col lane. `goal` is the destination coordinate on the blocked axis. -/
def State.detourFor (s : State) (t : TileId) (d : Dir) (goal : Nat) : Option Detour :=
  let m := s.shared.mode
  let x := gx m t
  let y := t.y.val
  match stepDir m d x y with
  | none => none
  | some (nx, ny) =>
    if s.inHole t.slab nx ny then
      let (xa, xb, ya, yb) := s.holeRect t.slab nx ny
      match d with
      | .west | .east =>
        let south := decide (y + 1 - ya < yb + 1 - y)
        let line := if (south && decide (0 < ya)) || decide (95 ≤ yb) then ya - 1 else yb + 1
        some { dir := d, line := line, stop := if d = .east then min goal (xb + 1) else max goal (xa - 1) }
      | .south | .north =>
        let west := decide (x + 1 - xa < xb + 1 - x)
        let line := if (west && decide (0 < xa)) || decide (gridWidth m ≤ xb + 1) then xa - 1
          else xb + 1
        some { dir := d, line := line, stop := if d = .north then min goal (yb + 1) else max goal (ya - 1) }
    else if d ∈ (s.tile t).router.failed then
      match d with
      | .west | .east => some { dir := d, line := if y < 48 then y + 1 else y - 1, stop := nx }
      | .south | .north => some { dir := d, line := if t.x.val < 56 then x + 1 else x - 1, stop := ny }
    else if (x = 111 ∧ nx = 112 ∨ x = 112 ∧ nx = 111) ∧ s.shared.colLanes.any (fun l => l.val = y) then
      some { dir := d, line := (nearestLane s.shared.colLanes y 97).getD y, stop := nx }
    else none

/-- Direction along an axis towards a coordinate. -/
def towardX (x g : Nat) : Option Dir := if x < g then some .east else if g < x then some .west else none
def towardY (y g : Nat) : Option Dir := if y < g then some .north else if g < y then some .south else none

/-- The direction runs along x. -/
def Dir.alongX : Dir → Bool
  | .west | .east => true
  | .south | .north => false

/-- The next hop of a flit on its detour, and the coordinate it goes for; none when the detour is over. -/
def detourStep (x y : Nat) (d : Detour) : Option (Dir × Nat) :=
  if Dir.alongX d.dir then
    (if y ≠ d.line ∧ x ≠ d.stop then (towardY y d.line).map (·, d.line) else (towardX x d.stop).map (·, d.stop))
  else (if x ≠ d.line ∧ y ≠ d.stop then (towardX x d.line).map (·, d.line) else (towardY y d.stop).map (·, d.stop))

/-- One output of a router for a flit: `none` is the ejection buffer. The copy is what leaves. -/
abbrev FlitOut := Option Dir × Flit

/-- A copy sent in direction `d`, on a detour when the hop is blocked; the first hop of a detour may be blocked in turn. -/
def State.hopFrom (s : State) (t : TileId) : Nat → Flit → Dir → Nat → FlitOut
  | 0, f, d, _ => (some d, f)
  | n + 1, f, d, goal =>
    match s.detourFor t d goal with
    | none => (some d, f)
    | some det =>
      let f := { f.traverse with detours := det :: f.detours }
      match detourStep (gx s.shared.mode t) t.y.val det with
      | none => (some d, f)
      | some (e, g) => s.hopFrom t n f e g
def State.hop (s : State) (t : TileId) (f : Flit) (d : Dir) (goal : Nat) : FlitOut := s.hopFrom t 4 f d goal

/-- The detours of a flit that are not over at a tile. -/
def State.liveDetours (s : State) (t : TileId) (f : Flit) : List Detour :=
  f.detours.dropWhile (fun d => (detourStep (gx s.shared.mode t) t.y.val d).isNone)

/-- The output of a flit on its innermost detour, or `normal` when it has none left. -/
def State.onDetour (s : State) (t : TileId) (f : Flit) (normal : Flit → FlitOut) : FlitOut :=
  let f := { f with detours := s.liveDetours t f }
  match f.detours.head?.bind (detourStep (gx s.shared.mode t) t.y.val) with
  | some (d, g) => s.hop t f d g
  | none => normal f

/-- The output of a unicast or portal flit (R163, R175). -/
def State.unicastOut (s : State) (t : TileId) (f : Flit) : FlitOut :=
  s.onDetour t f (fun f =>
    match towardX (gx s.shared.mode t) f.x0 with
    | some d => s.hop t f d f.x0
    | none => match towardY t.y.val f.y0 with
      | some d => s.hop t f d f.y0
      | none => (none, f))

/-- A target of the flit in column `col` lies outside every hole, beyond row `y` to the north or south (R177). -/
def State.branchLive (s : State) (t : TileId) (f : Flit) (col y : Nat) (north : Bool) : Bool :=
  (List.range 96).any (fun k => (if north then decide (y < k) else decide (k < y)) && decide (f.y0 ≤ k) && decide (k ≤ f.y1)
    && !s.inHole t.slab col k)

/-- A column holds a target outside every hole. -/
def State.columnLive (s : State) (t : TileId) (f : Flit) (col : Nat) : Bool :=
  (List.range 96).any (fun k => decide (f.y0 ≤ k) && decide (k ≤ f.y1) && !s.inHole t.slab col k)

/-- A column with a target outside every hole lies further along the spine (R177). -/
def State.spineLive (s : State) (t : TileId) (f : Flit) (east : Bool) : Bool :=
  let x := gx s.shared.mode t
  (List.range (f.x1 + 1 - f.x0)).any (fun n =>
    let c := f.x0 + n
    (if east then decide (x < c) else decide (c < x)) && s.columnLive t f c)

/-- Copies that leave the spine at a column: north and south branches and the local target. -/
def State.columnOuts (s : State) (t : TileId) (f : Flit) : List FlitOut :=
  let x := gx s.shared.mode t
  let y := t.y.val
  let f := { f with detours := [] }
  if f.x0 ≤ x ∧ x ≤ f.x1 then
    (if s.branchLive t f x y true then [s.hop t { f with heading := some .north, col := x } .north f.y1] else [])
    ++ (if s.branchLive t f x y false then [s.hop t { f with heading := some .south, col := x } .south f.y0] else [])
    ++ (if f.y0 ≤ y ∧ y ≤ f.y1 then [(none, f)] else [])
  else []

/-- The spine copy that goes on east or west. -/
def State.spineOut (s : State) (t : TileId) (f : Flit) (east : Bool) : List FlitOut :=
  let f := { f with detours := [], heading := some (if east then .east else .west) }
  if !s.spineLive t f east then []
  else [if east then s.hop t f .east f.x1 else s.hop t f .west f.x0]

/-- The outputs of a multicast flit (R167, R177): the spine along the source's row, branches along
each column, detours between them. Where the spine's row lies in a hole, branches leave from the
detour line. -/
def State.multicastOuts (s : State) (t : TileId) (f : Flit) : List FlitOut :=
  let x := gx s.shared.mode t
  let y := t.y.val
  let on := s.onDetour t f
  match f.heading with
  | none => s.spineOut t f true ++ s.spineOut t f false ++ s.columnOuts t f
  | some h =>
    match h with
    | .east | .west =>
      let east := decide (h = .east)
      let home (f : Flit) : FlitOut := match towardY y f.sy with
        | some d => s.hop t f d f.sy
        | none => (none, f)
      if s.inHole t.slab x f.sy then
        (if s.spineLive t f east then [on home] else []) ++ s.columnOuts t f
      else if !(s.liveDetours t f).isEmpty || decide (y ≠ f.sy) then [on home]
      else s.spineOut t f east ++ s.columnOuts t f
    | .north | .south =>
      let north := decide (h = .north)
      if !(s.liveDetours t f).isEmpty || decide (x ≠ f.col) then
        [on (fun f => match towardX x f.col with
          | some d => s.hop t f d f.col
          | none => (none, f))]
      else
        let f := { f with detours := [] }
        (if s.branchLive t f x y north then [s.hop t f h (if north then f.y1 else f.y0)] else [])
          ++ (if f.y0 ≤ y ∧ y ≤ f.y1 then [(none, f)] else [])

/-- All outputs of the head flit of an input. -/
def State.flitOuts (s : State) (t : TileId) (f : Flit) : List FlitOut :=
  if f.kind = 1 then s.multicastOuts t f else [s.unicastOut t f]

/-! ## Buffers and credits (R162, R164, R166) -/

def Router.input (r : Router) (p : InPort) (vc : Bool) : List Flit := agetD [] (p, vc) r.inputs
def Router.setInput (r : Router) (p : InPort) (vc : Bool) (fs : List Flit) : Router :=
  { r with inputs := if fs.isEmpty then aerase (p, vc) r.inputs else aset (p, vc) fs r.inputs }
def Router.out (r : Router) (d : Dir) : LinkOut :=
  agetD { pending := [], retries := 0, flitFails := 0 } d r.outs
def Router.setOut (r : Router) (d : Dir) (o : LinkOut) : Router := { r with outs := aset d o r.outs }

/-- Acknowledgements queued at a router for one of its ports; `none` is the local one. -/
def Router.acksFor (r : Router) (d : Option Dir) : List Ack := r.acks.filter (fun a => decide (a.trail.head? = d))

/-- The neighbour of a tile. -/
def State.neighbour (s : State) (t : TileId) (d : Dir) : Option TileId :=
  match stepDir s.shared.mode d (gx s.shared.mode t) t.y.val with
  | none => none
  | some (x, y) => tileAt s.shared.mode t.slab x y

/-- The router of a tile changed. -/
def State.modRouter (s : State) (t : TileId) (f : Router → Router) : State :=
  s.modTile t (fun tl => { tl with router := f tl.router })

/-- A tile that no flit can reach: its field is lost or clamped, or it was declared dead. -/
def State.routerDead (s : State) (t : TileId) : Bool :=
  let sl := s.slab t.slab
  (sl.field (tileField t)).clamped || decide (tileField t ∈ sl.lostFields) || (s.tile t).failed
def State.unreachable (s : State) (i : SlabId) (x y : Nat) : Bool :=
  match tileAt s.shared.mode i x y with
  | none => true
  | some t => s.routerDead t

/-- The link of a tile in a direction has failed (R171, R179). -/
def State.linkFailed (s : State) (t : TileId) (d : Dir) : Bool :=
  let x := gx s.shared.mode t
  decide (d ∈ (s.tile t).router.failed)
    || (decide (s.shared.mode = .joined) && decide (x = 111 ∧ d = .east ∨ x = 112 ∧ d = .west) && decide (t.y ∈ s.shared.colLanes))

/-- An output has a credit for the flit: a live router beyond a working link, a place among the 8 of the next input's
channel, no resend outstanding, and room for a LAST flit's acknowledgement among the 32 of that port; or a place in the
ejection buffer of 8. -/
def State.outReady (s : State) (t : TileId) (o : FlitOut) : Bool :=
  match o.1 with
  | none => decide ((s.tile t).router.eject.length < 8)
  | some d => match s.neighbour t d with
    | none => false
    | some n =>
      let r := (s.tile n).router
      !s.routerDead n && !s.linkFailed t d
        && decide ((r.input (.mesh (Dir.opposite d)) o.2.vc).length < 8)
        && ((s.tile t).router.out d).pending.isEmpty
        && (!o.2.last || decide ((r.acksFor (some (Dir.opposite d))).length < 32))

/-- Flits of a failed link wait to be resent, and the copy has just been turned away from that link: it keeps behind them
(R171, R179). -/
def State.behindResend (s : State) (t : TileId) (o : FlitOut) : Bool :=
  o.2.detours.any (fun d => s.linkFailed t d.dir && !((s.tile t).router.out d.dir).pending.isEmpty)

/-- A copy put into the next buffer; it remembers the way back. -/
def State.putFlit (s : State) (t : TileId) (o : FlitOut) : State :=
  let now := s.cycle t.slab
  match o.1 with
  | none => s.modRouter t (fun r => { r with eject := r.eject ++ [{ o.2 with reached := now }] })
  | some d => match s.neighbour t d with
    | none => s
    | some n => s.modRouter n (fun r =>
        let p := InPort.mesh (Dir.opposite d)
        r.setInput p o.2.vc (r.input p o.2.vc ++ [{ o.2 with reached := now, trail := Dir.opposite d :: o.2.trail }]))

/-- The order of equal arrivals (R163). -/
def InPort.rank : InPort → Nat
  | .loc => 0
  | .mesh .west => 1
  | .mesh .east => 2
  | .mesh .south => 3
  | .mesh .north => 4

/-- A multicast LAST flit that forks finds no free combine entry among the 16 (R169). -/
def State.combineFull (s : State) (t : TileId) (f : Flit) (outs : List FlitOut) : Bool :=
  decide (f.kind = 1) && f.last && decide (1 < outs.length) && decide (16 ≤ (s.tile t).router.combine.length)

/-- Every output of a head flit can take it. -/
def State.canLeave (s : State) (t : TileId) (f : Flit) (outs : List FlitOut) : Bool :=
  outs.all (s.outReady t) && !outs.any (s.behindResend t) && !s.combineFull t f outs

/-- A head flit of another input that reached the router earlier wants one of these outputs and can go; a multicast one that
lacks an output keeps younger heads from its others in the same channel, so it is never starved (R163, R168). -/
def State.olderContender (s : State) (t : TileId) (inp : InPort) (vc : Bool) (f : Flit)
    (outs : List FlitOut) : Bool :=
  (s.tile t).router.inputs.any (fun e =>
    match e.2 with
    | [] => false
    | g :: _ =>
      let os := s.flitOuts t g
      decide (e.1 ≠ (inp, vc))
      && (decide (g.reached < f.reached)
          || (decide (g.reached = f.reached) && decide (InPort.rank e.1.1 < InPort.rank inp)))
      && !(decide (e.1.1 = .loc) && (s.root t.slab).inHold)
      && ((os.any (fun o => outs.any (fun p => o.1 = p.1)) && s.canLeave t g os)
        || (decide (g.kind = 1) && os.any (fun o => outs.any (fun p => decide (o.1 = p.1) && decide (o.2.vc = p.2.vc))))))

/-- Every target of a flit lies in a field that is lost, or is a dead tile. -/
def State.lostTargets (s : State) (i : SlabId) (f : Flit) : Bool :=
  if f.kind = 1 then
    (List.range (f.x1 + 1 - f.x0)).all (fun dx => (List.range (f.y1 + 1 - f.y0)).all (fun dy => s.unreachable i (f.x0 + dx) (f.y0 + dy)))
  else s.unreachable i f.x0 f.y0

/-- A flit that a hold discards at a tile: addressed into a lost field or to a dead tile, or one whose way leads into a router
that is dead (R178). -/
def State.discarded (s : State) (t : TileId) (f : Flit) : Bool :=
  s.lostTargets t.slab f || (s.flitOuts t f).any (fun o => match o.1 with
    | none => false
    | some d => (s.neighbour t d).all s.routerDead)
def State.holdDiscards (s : State) (t : TileId) (f : Flit) : Bool := (s.root t.slab).inHold && s.discarded t f

/-- The head flit leaves input (inp, vc). -/
def State.popInput (s : State) (t : TileId) (inp : InPort) (vc : Bool) : State :=
  s.modRouter t (fun r => r.setInput inp vc ((r.input inp vc).drop 1))

/-- Counts of a flit that leaves: injections, and moves to the traverse channel (R181). -/
def State.countHop (s : State) (t : TileId) (inp : InPort) (f : Flit) (outs : List FlitOut) : State :=
  let tr := decide (!f.vc) && outs.any (fun o => o.2.vc)
  s.modTile t (fun tl => (tl.count Ctr.MESH_FLITS_SENT (if inp = .loc then 1 else 0)).count
    Ctr.TRAVERSE_FLITS (if tr then 1 else 0))

/-- A flit whose outputs can all take it, that no older head contends with and whose injection no
hold stops. -/
def State.mayForward (s : State) (t : TileId) (inp : InPort) (vc : Bool) (f : Flit)
    (outs : List FlitOut) : Bool :=
  s.canLeave t f outs && !s.olderContender t inp vc f outs
    && !(decide (inp = .loc) && (s.root t.slab).inHold)

/-- What the next link's decoder reported is over: the sender's count of failures of one flit. -/
def State.clearFails (s : State) (t : TileId) (inp : InPort) : State :=
  match inp with
  | .loc => s
  | .mesh d => match s.neighbour t d with
    | none => s
    | some n => s.modRouter n (fun r =>
        let o := r.out (Dir.opposite d)
        if o.flitFails = 0 then r else r.setOut (Dir.opposite d) { o with flitFails := 0 })

/-- An uncorrectable flit and those behind it are discarded at the input and kept for the resend at
the sending router (R170), as they were there. -/
def State.discardInput (s : State) (t : TileId) (d : Dir) (vc : Bool) : State :=
  match s.neighbour t d with
  | none => s
  | some n =>
    let fs := (s.tile t).router.input (.mesh d) vc
    let s := s.modTile t (fun tl =>
      { tl with router := tl.router.setInput (.mesh d) vc [] }.count Ctr.MESH_RETRIES 1)
    s.modRouter n (fun r =>
      let o := r.out (Dir.opposite d)
      r.setOut (Dir.opposite d) { o with pending := o.pending ++ fs.map (fun f => (vc, { f with trail := f.trail.drop 1 })) })

/-! ## Acknowledgements (R166, R169) -/

/-- The combine entry waits for this acknowledgement. -/
def Combine.takes (c : Combine) (a : Ack) : Bool :=
  decide (c.sx = a.sx) && decide (c.sy = a.sy) && decide (c.msg = a.msg) && decide (c.trail = a.trail)

/-- An acknowledgement at a router: its fork's combine entry takes it, and the last one sends one on; without an entry
it is queued for the port of its way back. -/
def State.putAck (s : State) (t : TileId) (a : Ack) : State :=
  s.modRouter t (fun r =>
    match r.combine.find? (fun c => c.takes a) with
    | none => { r with acks := r.acks ++ [a] }
    | some c =>
      if c.remaining ≤ 1 then { r with combine := r.combine.filter (fun d => !d.takes a), acks := r.acks ++ [a] }
      else { r with combine := r.combine.map (fun d => if d.takes a then { d with remaining := d.remaining - 1 } else d) })

/-- The acknowledgement of a message whose LAST flit has come to its end at a tile. -/
def Flit.ack (f : Flit) : Ack := { sx := f.sx, sy := f.sy, msg := f.msg, trail := f.trail }

/-- An acknowledgement sent back from a tile along the way its flit came. -/
def State.sendAck (s : State) (t : TileId) (a : Ack) : State := s.putAck t a

/-- One atomic, or one forwarded write, of the message `msg` of source (`sx`, `sy`) is done; when it was the last, and the LAST flit has
come, the message is acknowledged (R233). -/
def State.partDone (s : State) (t : TileId) (sx sy msg : Nat) : State :=
  let same (w : AtomicWait) : Bool := w.sx = sx && w.sy = sy && w.msg = msg
  match (s.tile t).atomicWaits.find? same with
  | none => s
  | some w =>
    let rest := (s.tile t).atomicWaits.filter (fun x => !same x)
    if w.remaining ≤ 1 ∧ w.last then
      (s.modTile t (fun tl => { tl with atomicWaits := rest })).sendAck t { sx := sx, sy := sy, msg := msg, trail := w.trail }
    else s.modTile t (fun tl => { tl with atomicWaits := rest ++ [{ w with remaining := w.remaining - 1 }] })

/-- The acknowledgement of message `msg` of a tile: what it forwarded has been written. -/
def State.forwardDone (s : State) (t : TileId) (msg : Nat) : State :=
  match alookup msg (s.tile t).forwards with
  | none => s
  | some (sx, sy, m) => (s.modTile t (fun tl => { tl with forwards := aerase msg tl.forwards })).partDone t sx sy m

/-- The next router of an acknowledgement takes it: a fork's entry, or a place among the 32 of its port. -/
def State.ackRoom (s : State) (n : TileId) (a : Ack) : Bool :=
  let r := (s.tile n).router
  !s.routerDead n && (r.combine.any (fun c => c.takes a) || decide ((r.acksFor a.trail.head?).length < 32) || a.trail.isEmpty)

/-- MESH_ACK (R166, R169, R170): an acknowledgement at a tile goes one hop back, where its fork combines it, or is counted
at its source. A corrected word is counted; one that cannot be corrected is sent again, and MESH_RETRY counts it. -/
def execMeshAck (t : Heard TileId) (s : State) : Result :=
  let chk := t.chk
  let t := t.what
  let ok (a : Ack) : Bool := match a.trail with
    | [] => true
    | d :: rest => (s.neighbour t d).any (fun n => s.ackRoom n { a with trail := rest })
  match (if (s.slab t.slab).ready && decide (chk ≠ .uncorrectable) then (s.tile t).router.acks.find? ok else none) with
  | none => .next s
  | some a =>
    let now := s.cycle t.slab
    let s := s.modTile t (fun tl =>
      { tl with router := { tl.router with acks := tl.router.acks.erase a } }.count Ctr.MESH_CORRECTED (if chk = LinkCheck.corrected then 1 else 0))
    match a.trail with
    | [] => .next ((s.modTile t (fun tl => { tl with unacked := tl.unacked - 1, ackedAt := now })).forwardDone t a.msg)
    | d :: rest => match s.neighbour t d with
      | none => .next s
      | some n => .next (s.putAck n { a with trail := rest })

/-! ## Flits move (R163, R168, R170) -/

/-- MESH_FLIT_RECEIVE (R163, R170, R175): the head flit of an input is decoded; a unicast or portal
flit goes to its output when that has a credit. A multicast flit leaves by MULTICAST_FORWARD. -/
def execMeshFlitReceive (t : TileId) (inp : InPort) (vc : Bool) (chk : LinkCheck) (s : State) :
    Result :=
  match (if (s.slab t.slab).ready then (s.tile t).router.input inp vc else []) with
  | [] => .next s
  | f :: _ =>
    match chk, inp with
    | .uncorrectable, .mesh d => .next (s.discardInput t d vc)
    | _, _ =>
      let s := if chk = .corrected then s.modTile t (fun tl => tl.count Ctr.MESH_CORRECTED 1) else s
      let s := s.clearFails t inp
      if s.holdDiscards t f then
        .next ((s.popInput t inp vc).modTile t (fun tl => tl.count Ctr.HOLD_DISCARDS 1))
      else
        let outs := s.flitOuts t f
        if decide (f.kind = 1) || !s.mayForward t inp vc f outs then .next s
        else .next (outs.foldl (fun s o => s.putFlit t o) ((s.popInput t inp vc).countHop t inp f outs))

/-- MULTICAST_FORWARD (R168, R169): the flit takes all of its outputs at once; a LAST flit that forks
records one of the 16 combine entries. A LAST flit without a target left is acknowledged here (R177). -/
def execMulticastForward (t : TileId) (inp : InPort) (vc : Bool) (s : State) : Result :=
  match (if (s.slab t.slab).ready then (s.tile t).router.input inp vc else []) with
  | [] => .next s
  | f :: _ =>
    let outs := s.flitOuts t f
    if decide (f.kind ≠ 1) || !s.mayForward t inp vc f outs then .next s
    else
      let s := (s.popInput t inp vc).countHop t inp f outs
      let c : Combine := { sx := f.sx, sy := f.sy, msg := f.msg, remaining := outs.length, trail := f.trail }
      let s := if f.last && decide (1 < outs.length) then s.modRouter t (fun r => { r with combine := r.combine ++ [c] }) else s
      let s := if f.last && outs.isEmpty then s.sendAck t f.ack else s
      .next (outs.foldl (fun s o => s.putFlit t o) s)

/-! ## Ejection (R53, R161) -/

/-- The slab-scope releases that have reached a tile (R53). -/
def State.tileReleases (s : State) (t : TileId) : Nat :=
  let n := (s.root t.slab).releases
  if s.cycle t.slab < (s.tile t).releasedAt then n - 1 else n

/-- The packet's tag is one ahead of the receiver's count. -/
def State.tagAhead (s : State) (t : TileId) (tag : Nat) : Bool :=
  decide (tag = (s.tileReleases t + 1) % 4)

/-- MESH_FLIT_EJECT (R161, R164, R166): the rows of the head flit are written in ascending order, its
arrival counter counts each, and a LAST flit is acknowledged. A portal write passes to the stream
engine; a flit whose tag is one ahead waits. -/
def execMeshFlitEject (t : TileId) (s : State) : Result :=
  match (if (s.slab t.slab).ready then (s.tile t).router.eject else []) with
  | [] => .next s
  | f :: rest =>
    if s.tagAhead t f.phase then
      if f.tagHeld then .next s
      else
        .next ((s.modRouter t (fun r => { r with eject := { f with tagHeld := true } :: rest })).modSlab
          t.slab (fun sl => sl.modField (tileField t) (fun fd => fd.count Ctr.PHASE_TAG_HOLDS 1)))
    else
      let s := s.modTile t (fun tl =>
        { tl with router := { tl.router with eject := rest } }.count Ctr.MESH_FLITS_RECEIVED 1)
      if f.kind = 2 then
        .next (s.modRouter t (fun r => { r with portal := r.portal ++ [f] }))
      else
        let s := s.modTile t (fun tl =>
          (tl.writeRows (isPortal t) f.row f.rows).addArrival f.ctr f.rows.length)
        .next (if f.last then s.sendAck t f.ack else s)

/-! ## Retries and failed links (R170, R171) -/

/-- A link marked failed at both ends, recorded in the fault log and the fault map, class 0x0E. -/
def State.failLink (s : State) (t : TileId) (d : Dir) : State :=
  let mark (r : Router) (e : Dir) : Router := { r with failed := insertNew e r.failed }
  let s := s.modTile t (fun tl =>
    { tl with router := mark tl.router d }.count Ctr.MESH_LINK_FAILURES 1)
  let s := match s.neighbour t d with
    | none => s
    | some n => s.modTile n (fun tl =>
        { tl with router := mark tl.router (Dir.opposite d) }.count Ctr.MESH_LINK_FAILURES 1)
  (s.modSlab t.slab Slab.mapChanged).logFault t.slab
    { FaultEntry.basic 0x0E 1 with node := tileNode s.shared.mode t, map := true }

/-- A count of one of the device's col counters, kept while the module is in joined mode. -/
def State.countCol (s : State) (id n : Nat) : State :=
  { s with shared := { s.shared with counters := Counters.bump s.shared.counters id n } }

/-- The belays cross on the sideband of the lowest-numbered working col lane: a move with its own lane event (R63). -/
def State.moveBelay (s : State) : State :=
  match (List.range 96).find? (fun l => s.shared.colLanes.all (fun f => decide (f.val ≠ l))) with
  | none => { s with shared := { s.shared with belayLane := none } }
  | some l =>
    (({ s with shared := { s.shared with belayLane := some l } } : State).countCol Ctr.COL_BELAY_EVENTS 1).logFault .s0
      { FaultEntry.basic 0x10 1 with aux := BitVec.ofNat 8 l }

/-- A col mesh lane marked failed in joined mode (R179): its traffic traverses to the nearest working
lane. Without any lane the device has lost the col, which only the host can mend (R359). DESIGN CHOICE: the hold at which R359
abandons the step has 0x0F as its cause, though R46 does not list it. -/
def State.failColLane (s : State) (i : SlabId) (l : Fin 96) : State :=
  if l ∈ s.shared.colLanes ∨ s.shared.mode = .split then s
  else
    let lanes := s.shared.colLanes ++ [l]
    let lost := decide (96 ≤ lanes.length)
    let s := { s with shared := { s.shared with colLanes := lanes } }
    let s := ((s.countCol Ctr.COL_LANE_FAILURES 1).modSlab i Slab.mapChanged).logFault i
      { FaultEntry.basic 0x0F 1 with aux := BitVec.ofNat 8 l.val, map := true, hold := lost }
    let s := if s.shared.belayLane = some l.val then s.moveBelay else s
    if lost then
      (s.modJob i (fun j => { j with colLost := true })).raise i 0x0F none
    else s

/-- Flits kept for a resend put before the others of an input. -/
def putBack (r : Router) (p : InPort) (fs : List (Bool × Flit)) : Router :=
  let on (vc : Bool) : List Flit := (fs.filter (fun e => e.1 = vc)).map Prod.snd
  (r.setInput p false (on false ++ r.input p false)).setInput p true (on true ++ r.input p true)

/-- The first flit that a failed link left behind goes on by traverse (R171, R179). -/
def State.rerouteOne (s : State) (t : TileId) (d : Dir) : State :=
  let o := (s.tile t).router.out d
  match o.pending with
  | [] => s
  | (_, f) :: rest =>
    match stepDir s.shared.mode d (gx s.shared.mode t) t.y.val with
    | none => s
    | some (nx, ny) =>
      let out := s.hop t f d (if Dir.alongX d then nx else ny)
      if s.outReady t out then (s.modRouter t (fun r => r.setOut d { o with pending := rest })).putFlit t out else s

/-- MESH_RETRY (R170, R171): the output resends from the failed flit; 16 retries in a pitch or 4
failures of one flit fail the link, and its flits go on by traverse. An uncorrectable return word
counts as a failed retry. -/
def execMeshRetry (t : TileId) (d : Dir) (returnError : Bool) (s : State) : Result :=
  let o := (s.tile t).router.out d
  if !(s.slab t.slab).ready || (o.pending.isEmpty && !returnError) then .next s
  else if s.linkFailed t d then .next (s.rerouteOne t d)
  else
    let retries := o.retries + 1
    let fails := o.flitFails + 1
    let lane := decide ((gx s.shared.mode t = 111 ∧ d = .east ∨ gx s.shared.mode t = 112 ∧ d = .west)
      ∧ s.shared.mode = .joined)
    let s := if lane then s.countCol Ctr.COL_LANE_RETRIES 1 else s
    if 16 ≤ retries ∨ 4 ≤ fails then
      let s := s.modRouter t (fun r => r.setOut d { o with retries := retries, flitFails := fails })
      .next (if lane then s.failColLane t.slab t.y else s.failLink t d)
    else
      let s := s.modRouter t (fun r => r.setOut d { pending := [], retries := retries, flitFails := fails })
      match s.neighbour t d with
      | none => .next s
      | some n => .next (s.modRouter n (fun r => putBack r (.mesh (Dir.opposite d))
          (o.pending.map (fun e => (e.1, { e.2 with trail := Dir.opposite d :: e.2.trail })))))

end Sys2Proof.Machine
end

