-- ==== Sys2Proof/Machine/Service.lean ====
section
/-! DEFINITION. Service instructions: SEND (R220, R221), OVRD (R222) and the activation-stack
instructions at the overlay port (R184 to R186, R256 to R261). -/

namespace Sys2Proof.Machine

open Sys2Proof

/-! ## SEND -/

/-- The destinations of a SEND lie in the device and, for a multicast, form a rectangle (R167). -/
def sendInGrid (m : Mode) (w : IWord) : Bool :=
  decide (sendX0 w < gridWidth m) && decide (sendY0 w < 96) &&
    (decide (sendKind w ≠ 1) || (decide (sendX0 w ≤ sendX1 w) && decide (sendX1 w < gridWidth m)
      && decide (sendY0 w ≤ sendY1 w) && decide (sendY1 w < 96)))

/-- The message of a SEND handed to the router, or discarded at injection: one OPND_FAULT for the message
(DESIGN CHOICE: R167 counts a discarded header, and does not say whether each flit's header counts). -/
def Tile.sendMessage (tl : Tile) (m : Mode) (phase now : Nat) (portal : Bool) (w : IWord) (errs : List RowError) : Tile :=
  let sq := tl.svc
  let src := addIdx (sendSrow w) (sq.reg now (sendIdx w))
  let rows := rowsFrom src (sendRows w)
  let es := errs.filter (fun r => decide (r.row ∈ rows))
  if !sendInGrid m w then tl.opndFaults 1
  else
    let job : SendJob :=
      { word := w, phase := phase, msg := tl.router.nextMsg, src := src, drow := addIdx (sendDrow w) (sq.reg now (sendDidx w))
        flits := 0, half := none, readAt := now + 1, errs := es }
    let tl := (tl.rowFaults portal rows).recordRowErrors portal false 3 es
    if rowsUncorrectable es then tl
    else { tl with unacked := tl.unacked + 1, sends := tl.sends ++ [job], router := { tl.router with nextMsg := tl.router.nextMsg + 1 } }

/-- The rows a SEND reads. -/
def Tile.sendReads (t : Tile) (now : Nat) (w : IWord) : List Nat :=
  rowsFrom (addIdx (sendSrow w) (t.svc.reg now (sendIdx w))) (sendRows w)

/-- SEND (R220): a message is handed to the router; with 64 messages unacknowledged it stalls (R221). -/
def execSend (t : TileId) (q : SeqId) (w : IWord) (errs : List RowError) (s : State) : Result :=
  let m := s.shared.mode
  let phase := s.tileReleases t % 4
  let bad := (s.slab t.slab).ready && (s.tile t).atIssue q (s.cycle t.slab) w && decide (opOf w = 0x20)
    && decide (q = .svc) && !(s.tile t).svc.fetchLocked && decide ((s.tile t).unacked < 64)
    && sendInGrid m w
    && rowsUncorrectable (errs.filter (fun r => decide (r.row ∈ (s.tile t).sendReads (s.cycle t.slab) w)))
  .next ((s.issue t 0x20 q w (fun now tl =>
    if 64 ≤ tl.unacked then tl.stall q now 6
    else (tl.sendMessage m phase now (isPortal t) w errs).issueNext q now w)).tileErrorIf bad t)

/-- The header of flit `f` of a message (Table 7.1). -/
def SendJob.header (j : SendJob) (sx sy : Nat) (last one : Bool) : BitVec 96 :=
  let w := j.word
  mkHeader (sendKind w) j.phase last one (sendCtr w) (if sendKind w = 2 then 0 else j.drow + 2 * j.flits) (sendX0 w) (sendY0 w)
    (if sendKind w = 2 then sendQueue w * 2 else sendX1 w * 2 ^ 7 + sendY1 w) sx sy

/-- The flit of the rows read, `d` the one just read, at cycle `now`. -/
def SendJob.flit (j : SendJob) (sx sy now : Nat) (d : Row) : Flit :=
  let last := decide (sendRows j.word ≤ 2 * j.flits + 2)
  let one := j.half.isNone
  let data : FlitData := match j.half with
    | none => BitVec.ofNat 1024 d.toNat
    | some r => BitVec.ofNat 1024 (r.toNat + d.toNat * 2 ^ 512)
  { header := j.header sx sy last one, data := data, msg := j.msg, reached := now, detours := [], trail := [], heading := none
    col := 0, tagHeld := false }

/-- The message being injected reads its next row when the router slot of the row's bank comes, and a flit that is
complete enters the local port (R162, R220); a slow correction delivers the row 4 cycles later (R149). -/
def Tile.inject (t : Tile) (sx sy : Nat) (portal : Bool) (now : Nat) : Tile :=
  match t.sends with
  | [] => t
  | j :: rest =>
    let i := 2 * j.flits + (if j.half.isSome then 1 else 0)
    let r := j.src + i
    let room := decide ((t.router.input .loc false).length < 8)
    if now < j.readAt ∨ slotFrom r 3 now ≠ now ∨ !room then t
    else
      let slow := slowCycles (j.errs.filter (fun e => decide (e.row = r)))
      let d := fixRow j.errs r (t.engRow portal r)
      let t := t.slip .svc now (now + slow)
      let next := now + 1 + slow
      if decide (i + 1 < sendRows j.word) && j.half.isNone then
        { t with sends := { j with half := some d, readAt := next } :: rest }
      else
        let f := j.flit sx sy (now + slow) d
        let r := t.router
        { t with router := r.setInput .loc false (r.input .loc false ++ [f])
                 sends := if sendRows j.word ≤ i + 1 then rest
                   else { j with flits := j.flits + 1, half := none, readAt := next } :: rest }

/-! ## The overlay port (R260) -/

/-- An instruction enters the port's queue of 8, or stalls at a full queue. -/
def Tile.issuePort (tl : Tile) (q : SeqId) (now : Nat) (w : IWord) (idx didx : Nat) : Tile :=
  if 8 ≤ tl.port.queue.length then tl.stall q now 4
  else
    let e : PortEntry :=
      { word := w, issued := now, idx := (tl.seq q).reg now idx, didx := (tl.seq q).reg now didx }
    { tl.issueNext q now w with port := { tl.port with queue := tl.port.queue ++ [e] } }

def execOvrd (t : TileId) (q : SeqId) (w : IWord) (s : State) : Result :=
  .next (s.issue t 0x24 q w (fun now tl => tl.issuePort q now w (ovrdIdx w) (ovrdDidx w)))
def execPush (t : TileId) (q : SeqId) (w : IWord) (s : State) : Result :=
  .next (s.issue t 0x28 q w (fun now tl => tl.issuePort q now w (stkIdx w) 0))
def execPop (t : TileId) (q : SeqId) (w : IWord) (s : State) : Result :=
  .next (s.issue t 0x29 q w (fun now tl => tl.issuePort q now w (stkIdx w) 0))
def execPeek (t : TileId) (q : SeqId) (w : IWord) (s : State) : Result :=
  .next (s.issue t 0x2A q w (fun now tl => tl.issuePort q now w (stkIdx w) 0))
def execDrop (t : TileId) (q : SeqId) (w : IWord) (s : State) : Result :=
  .next (s.issue t 0x2B q w (fun now tl => tl.issuePort q now w (stkIdx w) 0))
def execCairn (t : TileId) (q : SeqId) (w : IWord) (s : State) : Result :=
  .next (s.issue t 0x2C q w (fun now tl => tl.issuePort q now w (stkIdx w) 0))

/-! ## Context pointers (Table 10.2) -/

/-- The pointer word of a context; reset value CNONE 1, CP 0, SP 0. -/
def ctxReset : DWord := 1 <<< 63
def Tile.ctx (t : Tile) (c : Nat) : DWord := agetD ctxReset c t.ctxs
def ctxNone (w : DWord) : Bool := bit w 63
def ctxCP (w : DWord) : Nat := bits w 42 22
def ctxSP (w : DWord) : Nat := bits w 21 0
def mkCtx (none : Bool) (cp sp : Nat) : DWord :=
  BitVec.ofNat 64 ((if none then 2 ^ 63 else 0) + cp % 2 ^ 21 * 2 ^ 22 + sp % 2 ^ 22)
def Tile.setCtx (t : Tile) (c : Nat) (w : DWord) : Tile := { t with ctxs := aset c w t.ctxs }

/-- Overlay row of stack position `p` of a context whose segment begins at frame `seg` (R256). -/
def stackRow (seg p : Nat) : Nat := seg * 32768 + p

def Tile.ovlRow (t : Tile) (r : Nat) : Row := rowOfBytes (Cells.readN t.overlay (64 * r) 64)
def Tile.setOvlRow (t : Tile) (r : Nat) (d : Row) : Tile :=
  { t with overlay := Cells.writeN t.overlay (64 * r) (rowBytes d) }
def Tile.setOvlRows (t : Tile) (r : Nat) : List Row → Tile
  | [] => t
  | d :: ds => Tile.setOvlRows (t.setOvlRow r d) (r + 1) ds

/-- What the tile needs to know of the image and the root: a context's segment, the schedule index
and the pitch number (R256, R261). -/
structure StackEnv where
  seg : Nat
  frames : Nat
  sched : DWord
  pitch : DWord
  deriving DecidableEq, Repr

/-- The cairn row of Table 10.5. -/
def cairnRow (label ctx : Nat) (prev : Nat) (env : StackEnv) : Row :=
  BitVec.ofNat 512 (label + ctx * 2 ^ 16 + prev * 2 ^ 32 + env.sched.toNat * 2 ^ 64
    + env.pitch.toNat * 2 ^ 128)

/-- PREV of a cairn that is the first of its context. -/
def noCairn : Nat := 0xFFFFFFFF

/-- A refusal under R259: OPND_FAULT and STACK_FAULTS. -/
def Tile.stackFault (t : Tile) : Tile := (t.setFlags flagOpndFault).count Ctr.STACK_FAULTS 1

/-- A dropped push (R185). -/
def Tile.stackOverflow (t : Tile) : Tile :=
  (t.setFlags flagOpndFault).count Ctr.OVL_STACK_OVERFLOWS 1

/-- The port is free again at cycle `free`, everything written is acknowledged at `ack`, and `ms` is what becomes
of the rows. -/
def Tile.portDone (t : Tile) (free ack : Nat) (ms : List (Nat × PortAct)) : Tile :=
  { t with port := { t.port with freeAt := free, ackAt := max t.port.ackAt ack, moves := t.port.moves ++ ms } }

/-- The `n` positions below `top` stay above 0 and above the latest cairn (R259). -/
def takeAllowed (w : DWord) (top n : Int) : Bool :=
  decide (0 ≤ top - n) && (ctxNone w || decide ((ctxCP w : Int) < top - n))

/-- An overlay row as the port's accesses in order leave it (R260). -/
def Tile.ovlAhead (t : Tile) (r : Nat) : Row :=
  t.port.moves.foldl (fun d m => match m.2 with
    | .store k x => if k = r then x else d
    | _ => d) (t.ovlRow r)

/-- PUSH of rows `src` to overlay rows from `to_` on, begun at cycle `now`: row k is read in the first stream slot of its
bank from cycle k on and written 96 cycles later; slow corrections delay it and the rows after it (R149, R260). A
row in error delivers nothing. -/
def pushMoves (now to_ row n : Nat) (errs : List RowError) : List (Nat × PortAct) :=
  (List.range n).filterMap (fun k =>
    let at_ := now + k + slowCycles (errs.filter (fun e => decide (e.row < row + k)))
    if rowsUncorrectable (errs.filter (fun e => decide (e.row = row + k))) then none
    else some (slotFrom (row + k) 2 at_,
      .take (row + k) (to_ + k) (at_ + 96 + slowCycles (errs.filter (fun e => decide (e.row = row + k)))) (fixRow errs (row + k) 0)))

/-- Overlay rows from `lo` on to scratchpad rows from `row` on, begun at cycle `now` (R184, R260); a row in error is
delivered to no one (R186). -/
def popMoves (now lo row n : Nat) (bad : List Nat) : List (Nat × PortAct) :=
  (List.range n).filterMap (fun k => if lo + k ∈ bad then none else some (now + 96 + k, .fetch (lo + k) (row + k)))

/-- The stack instruction `e` at cycle `now` (R257 to R261). `spErrs` are the errors of the scratchpad rows it reads and
`bad` the overlay rows in error. DESIGN CHOICE: the port is free in the next cycle after an instruction it refuses or
drops, whose end Table 10.6 does not time; after a refused CAIRN with U = 1, which reads its row all the same,
in cycle t + 97. -/
def Tile.runStack (t : Tile) (portal : Bool) (now : Nat) (e : PortEntry) (env : StackEnv) (spErrs : List RowError)
    (bad : List Nat) : Tile :=
  let w := e.word
  let op := opOf w
  let c := stkCtx w
  let n := stkRows w
  let p := t.ctx c
  let sp := ctxSP p
  let row := addIdx (stkRow w) e.idx
  if op = 0x28 then
    if 32768 * env.frames < sp + n then t.stackOverflow.portDone (now + 1) now []
    else
      let slow := slowCycles spErrs
      let t := (t.rowFaults portal (rowsFrom row n)).slip .svc now (now + slow)
      ((t.setCtx c (mkCtx (ctxNone p) (ctxCP p) (sp + n))).count Ctr.STACK_PUSH_ROWS n).portDone
        (now + n + slow) (now + n + 96 + slow) (pushMoves now (stackRow env.seg sp) row n spErrs)
  else if op = 0x29 ∨ op = 0x2A then
    let off := if op = 0x2A then stkOff w else 0
    if !takeAllowed p (sp - off : Int) n then t.stackFault.portDone (now + 1) now []
    else
      let t := if op = 0x29 then t.setCtx c (mkCtx (ctxNone p) (ctxCP p) (sp - n)) else t
      (t.count Ctr.STACK_POP_ROWS n).portDone (now + n) (now + 96 + n + 3)
        (popMoves now (stackRow env.seg (sp - off - n)) row n bad)
  else if op = 0x2B then
    if !takeAllowed p (sp : Int) n then t.stackFault.portDone (now + 1) now []
    else (t.setCtx c (mkCtx (ctxNone p) (ctxCP p) (sp - n))).portDone (now + 1) now []
  else if stkRemove w then
    let d := t.ovlAhead (stackRow env.seg (ctxCP p))
    if ctxNone p ∨ sp ≠ ctxCP p + 1 ∨ bits d 15 0 ≠ stkLabel w then
      t.stackFault.portDone (now + 97) now []
    else
      (t.setCtx c (mkCtx false (ctxCP p) (ctxCP p))).portDone (now + 97) (now + 96) [(now + 96, .uncairn c (bits d 63 32))]
  else if 32768 * env.frames < sp + 1 then t.stackOverflow.portDone (now + 1) now []
  else
    let prev := if ctxNone p then noCairn else ctxCP p
    ((t.setCtx c (mkCtx false sp (sp + 1))).count Ctr.CAIRNS_PLACED 1).portDone (now + 1) (now + 96)
      [(now + 96, .store (stackRow env.seg sp) (cairnRow (stkLabel w) c prev env))]

/-- OVRD at cycle `now` (R184, R222): rows of a local frame to the scratchpad, `late` cycles later when the rows
come from the shelf home instead (R186). -/
def Tile.runOvrd (t : Tile) (now late : Nat) (e : PortEntry) : Tile :=
  let w := e.word
  let stack := match t.entry with | none => 0 | some en => en.stack
  let first := addIdx (ovrdFrow w) e.idx
  let n := ovrdRows w
  if ovrdFrame w < stack ∨ 32768 < first + n then (t.opndFaults 1).portDone (now + 1) now []
  else
    (t.slip .svc (now + 96) (now + 96 + late)).portDone (now + n + late) (now + 96 + n + 3 + late)
      (popMoves (now + late) (ovrdFrame w * 32768 + first) (addIdx (ovrdDrow w) e.didx) n [])

/-- One row of the port at cycle `now`. The pointer that CAIRN with U = 1 gives back leaves SP as it is (R261). -/
def Tile.runMove (t : Tile) (portal : Bool) (now : Nat) : PortAct → Tile
  | .take row to_ at_ fix =>
    { t with port := { t.port with moves := t.port.moves ++ [(at_, .store to_ (t.engRow portal row ^^^ fix))] } }
  | .store to_ d => t.setOvlRow to_ d
  | .fetch from_ row =>
    let d := t.ovlRow from_
    let at_ := slotFrom row 2 now
    if at_ ≤ now then t.writeRow portal row d
    else { t with port := { t.port with moves := t.port.moves ++ [(at_, .deliver row d)] } }
  | .deliver row d => t.writeRow portal row d
  | .uncairn c prev => t.setCtx c (mkCtx (decide (prev = noCairn)) (if prev = noCairn then 0 else prev) (ctxSP (t.ctx c)))

/-- The port's rows of cycle `now`. -/
def Tile.movePort (t : Tile) (portal : Bool) (now : Nat) : Tile :=
  let due := t.port.moves.filter (fun m => decide (m.1 ≤ now))
  due.foldl (fun t m => t.runMove portal now m.2)
    { t with port := { t.port with moves := t.port.moves.filter (fun m => decide (now < m.1)) } }

/-- The scratchpad row that a row of the port takes in a stream slot. -/
def PortAct.row : PortAct → Option Nat
  | .take row _ _ _ => some row
  | .fetch _ row => some row
  | .deliver row _ => some row
  | _ => none

/-- The IFILLs read their rows of cycle `now`, one turn later where the port has a bank's slot (R99, R260). -/
def Tile.moveFills (t : Tile) (portal : Bool) (now : Nat) : Tile :=
  let busy := t.port.moves.filterMap (fun m => if m.1 = now then m.2.row else none)
  { t with fills := t.fills.map (fun f =>
      let r := f.row + f.rows.length
      if f.next ≠ now ∨ 512 ≤ f.rows.length then f
      else if busy.any (fun k => decide (bankOf portal k = bankOf portal r)) then { f with next := now + 4 }
      else { f with next := now + 1, rows := f.rows ++ [t.engRow portal r] }) }

/-- The overlay rows an instruction reads. -/
def Tile.portReads (t : Tile) (e : PortEntry) (env : StackEnv) : List Nat :=
  let w := e.word
  let p := t.ctx (stkCtx w)
  if opOf w = 0x24 then rowsFrom (ovrdFrame w * 32768 + addIdx (ovrdFrow w) e.idx) (ovrdRows w)
  else if opOf w = 0x29 ∨ opOf w = 0x2A then
    let off := if opOf w = 0x2A then stkOff w else 0
    rowsFrom (stackRow env.seg (ctxSP p - off - stkRows w)) (stkRows w)
  else if opOf w = 0x2C ∧ stkRemove w then [stackRow env.seg (ctxCP p)]
  else []

/-- The port's instruction that may begin at cycle `now` (R260). -/
def Tile.portHead (t : Tile) (now : Nat) : Option PortEntry :=
  match t.port.queue with
  | [] => none
  | e :: _ => if bit t.gate gateStream ∧ e.issued + 1 ≤ now ∧ t.port.freeAt ≤ now then some e else none

/-- The entry of a context, at the base camp that keeps it: in joined mode slab 0's for contexts 0 to 63, slab 1's for the others
(R254). -/
def State.contextOf (s : State) (i : SlabId) (ctx : Nat) : Option ContextEntry :=
  match s.shared.mode with
  | .split => (s.slab i).camp.contexts[ctx]?
  | .joined => if ctx < 64 then s.slab0.camp.contexts[ctx]? else s.slab1.camp.contexts[ctx - 64]?

/-- The segment of a context, and what the root counts. -/
def State.stackEnv (s : State) (i : SlabId) (ctx : Nat) : StackEnv :=
  let r := s.root i
  match s.contextOf i ctx with
  | none => { seg := 0, frames := 0, sched := r.schedIndex, pitch := r.pitch }
  | some c =>
    { seg := c.segBase, frames := if c.valid then c.segFrames else 0, sched := r.schedIndex
      pitch := r.pitch }

end Sys2Proof.Machine
end

