-- ==== Sys2Proof/Machine/Gates.lean ====
section
/-! DEFINITION. The clock-gating tree (R447 to R450): gate words, writes in two passes, and the gates
a placement sets. -/

namespace Sys2Proof.Machine

open Sys2Proof

/-! ## Gate words (Table 18.4) -/

/-- The bits a write may set: EN, and in a tile the four engine bits. -/
def gateMask : GateNode → Word
  | .tile _ => 0x1F
  | _ => 0x01

def gateRefused : Word := 0x80000000

/-- The stored gate word of a node: REFUSED, EN and the engine bits. -/
def State.gateStored (s : State) : GateNode → Word
  | .module => s.shared.gate
  | .slab i => (s.slab i).gate
  | .field f => ((s.slab f.slab).field (fieldNum f)).gate
  | .tile t => (s.tile t).gate

def State.setGate (s : State) (n : GateNode) (w : Word) : State :=
  match n with
  | .module => { s with shared := { s.shared with gate := w } }
  | .slab i => s.modSlab i (fun sl => { sl with gate := w })
  | .field f => s.modSlab f.slab (fun sl => sl.modField (fieldNum f) (fun fd => { fd with gate := w }))
  | .tile t => s.modTile t (fun tl => { tl with gate := w })

/-- A tile of field `f` has its EN set. -/
def Slab.fieldTilesOn (sl : Slab) (f : Nat) : Bool :=
  sl.tiles.any (fun p => decide (fieldOf p.1.1 p.1.2 = f) && bit p.2.gate 0)

/-- A field of the slab has its EN set. -/
def Slab.fieldsOn (sl : Slab) : Bool := sl.fields.any (fun p => bit p.2.gate 0)

/-- CHILD_ON: a child gate of the node is enabled; a tile's EN is the parent of its engine bits. -/
def State.childOn (s : State) : GateNode → Bool
  | .module => bit s.slab0.gate 0 || bit s.slab1.gate 0
  | .slab i => (s.slab i).fieldsOn
  | .field f => (s.slab f.slab).fieldTilesOn (fieldNum f)
  | .tile t => decide (bits (s.tile t).gate 4 1 ≠ 0)

/-- The parent gate of a node's EN is enabled; the module's has no parent. -/
def State.parentOn (s : State) : GateNode → Bool
  | .module => true
  | .slab _ => bit s.shared.gate 0
  | .field f => bit (s.slab f.slab).gate 0
  | .tile t => bit ((s.slab t.slab).field (tileField t)).gate 0

/-- The gate word as it reads. -/
def State.gateRead (s : State) (n : GateNode) : Word :=
  s.gateStored n ||| (if s.childOn n then 0x40000000 else 0)

/-! ## Writes (R449) -/

/-- The slab whose base camp counts a node's refusals. -/
def gateSlab (by_ : SlabId) : GateNode → SlabId
  | .module => by_
  | .slab i => i
  | .field f => f.slab
  | .tile t => t.slab

/-- The level of a node: module 0, slab 1, field 2, tile 3. -/
def gateLevel : GateNode → Nat
  | .module => 0
  | .slab _ => 1
  | .field _ => 2
  | .tile _ => 3

/-- One bit of a node's gate changed, or refused: REFUSED set and counted. -/
def State.gateBit (s : State) (by_ : SlabId) (n : GateNode) (k : Nat) (on : Bool) : State :=
  let w := s.gateStored n
  if bit w k = on then s
  else
    let ok := if k = 0 then (if on then s.parentOn n else !s.childOn n) else (!on || bit w 0)
    if ok then s.setGate n (w ^^^ (1 <<< k))
    else
      (s.setGate n (w ||| gateRefused)).modSlab (gateSlab by_ n) (fun sl =>
        sl.count Ctr.GATE_REFUSALS 1)

/-- The bits of one pass over the writes of one level. -/
def State.gatePass (s : State) (by_ : SlabId) (ws : List (GateNode × Word)) (level : Nat)
    (engines on : Bool) : State :=
  ws.foldl (fun s p =>
    if gateLevel p.1 ≠ level then s
    else
      (if engines then (if level = 3 then [1, 2, 3, 4] else []) else [0]).foldl (fun s k =>
        if bit p.2 k = on then s.gateBit by_ p.1 k on else s) s) s

/-- REFUSED cleared by writing 1 to it. -/
def State.gateClear (s : State) (ws : List (GateNode × Word)) : State :=
  ws.foldl (fun s p =>
    if bit p.2 31 then s.setGate p.1 (s.gateStored p.1 &&& ~~~gateRefused) else s) s

/-- The gate writes of one management cycle (R449): first every disabling bit, from the engine level
up, then every enabling bit, from the module down. -/
def State.gateWrites (s : State) (by_ : SlabId) (ws : List (GateNode × Word)) : State :=
  let s := s.gateClear ws
  let s := s.gatePass by_ ws 3 true false
  let s := [3, 2, 1, 0].foldl (fun s l => s.gatePass by_ ws l false false) s
  let s := [0, 1, 2, 3].foldl (fun s l => s.gatePass by_ ws l false true) s
  s.gatePass by_ ws 3 true true

/-- No pitch of the device's job has begun (R93, R256, R450). -/
def State.beforeJob (s : State) (i : SlabId) : Bool :=
  !(s.job i).ran

/-- Base camp may write the registers and gates of a running program's tile now. -/
def State.mayWriteTile (s : State) (i : SlabId) : Bool := (s.root i).inHold || s.beforeJob i

/-- Base camp of slab `by_` may write the node: its own slab's, and no tile that runs an image
program outside a hold (R28, R450). -/
def State.gateOwned (s : State) (by_ : SlabId) (n : GateNode) : Bool :=
  decide (gateSlab by_ n = by_) &&
    (match n with
     | .tile t => !s.active t || s.mayWriteTile t.slab
     | _ => true)

/-- GATE_WORD_WRITE (R448, R449): base camp writes gate words in one management cycle. -/
def execGateWordWrite (slab : SlabId) (writes : List (GateNode × Word)) (s : State) : Result :=
  if (s.slab slab).ready then
    .next (s.gateWrites slab (writes.filter (fun p => s.gateOwned slab p.1)))
  else .next s

/-! ## Gates of a placement (R199, R450) -/

/-- Every logical coordinate of a slab. -/
def allTiles : List (Nat × Nat) :=
  (List.range 96).flatMap (fun y => (List.range 112).map (fun x => (x, y)))

/-- A tile lends to the bivouac tier: idle, not failed, outside every hole, with an image loaded
(R199). -/
def Slab.lends (sl : Slab) (x y : Nat) : Bool :=
  let t := sl.tile x y
  t.entry.isNone && !t.failed && decide (fieldOf x y ∉ sl.hole) && decide (fieldOf x y ∉ sl.lostFields)

/-- The gate word of a tile under a placement: all engines of an active tile, the stream engine of a
portal or lending tile. -/
def Slab.placementGate (sl : Slab) (i : SlabId) (x y : Nat) : Word :=
  if (sl.tile x y).entry.isSome then 0x1F
  else if (portalStack x y).isSome || (portalPort i x y).isSome || sl.lends x y then 0x09
  else 0

/-- The gates base camp sets when a placement is loaded: tiles, and every node above one that is on. -/
def Slab.setPlacementGates (sl : Slab) (i : SlabId) : Slab :=
  let on := allTiles.filter (fun p => decide (sl.placementGate i p.1 p.2 ≠ 0))
  let sl := sl.mapTiles (fun _ _ t => { t with gate := 0, lending := false })
  let sl := on.foldl (fun sl p =>
    let g := sl.placementGate i p.1 p.2
    let l := sl.lends p.1 p.2
    sl.modTile p.1 p.2 (fun t => { t with gate := g, lending := l })) sl
  let sl := (List.range 42).foldl (fun sl f =>
    sl.modField f (fun fd => { fd with gate := if on.any (fun (p : Nat × Nat) => fieldOf p.1 p.2 = f) then 1 else 0 })) sl
  { sl with gate := sl.gate ||| 1 }

end Sys2Proof.Machine
end

