-- ==== Sys2Proof/Machine/CtrlNet.lean ====
section
/-! DEFINITION. The control network (R172 to R174, R180): register writes and reads, responses and
their timeouts, status reports, store writes and the col coordination messages. -/

namespace Sys2Proof.Machine

open Sys2Proof

/-! ## Registers -/

/-- What a read of a register returns (R93, R119, R136, R153, R200, R235, R256, R448). -/
def State.ctrlRead (s : State) (t : TileId) : CtrlReg → DWord
  | .scalar q r => (((s.tile t).seq q).reg (s.cycle t.slab) r.val).zeroExtend 64
  | .pc q => (((s.tile t).seq q).pc).zeroExtend 64
  | .status q => (s.tile t).statusWord (s.cycle t.slab) q
  | .tileFlags => ((s.tile t).flags).zeroExtend 64
  | .spError => (s.tile t).spError
  | .ctxPointer c => (s.tile t).ctx c.val
  | .gate => (s.gateRead (.tile t)).zeroExtend 64
  | .lastUse => (s.tile t).lastUse
  | .descState d => s.streamWord t.slab d.val

/-- A register write: scalar registers, program counters and context pointers only in a hold or before
the job's first pitch; the flag word and FAULT clear by writing 1, the error word by writing bit 63;
read-only registers keep their value. -/
def State.ctrlWrite (s : State) (t : TileId) (v : DWord) : CtrlReg → State
  | .scalar q r =>
    if s.mayWriteTile t.slab then
      let now := s.cycle t.slab
      s.modTile t (fun tl => tl.modSeq q (fun x => x.setReg now r.val (v.truncate 32)))
    else s
  | .pc q =>
    if s.mayWriteTile t.slab then
      s.modTile t (fun tl => tl.modSeq q (fun x => { x with pc := v.truncate 12 }))
    else s
  | .status _ => s
  | .tileFlags => s.modTile t (fun tl => tl.clearFlags (v.truncate 32))
  | .spError => if bit v 63 then s.modTile t (fun tl => { tl with spError := 0 }) else s
  | .ctxPointer c =>
    if s.mayWriteTile t.slab then
      s.modTile t (fun tl => tl.setCtx c.val (mkCtx (ctxNone v) (ctxCP v) (ctxSP v)))
    else s
  | .gate =>
    if s.gateOwned t.slab (.tile t) then s.gateWrites t.slab [(.tile t, v.truncate 32)] else s
  | .lastUse => s
  | .descState d =>
    if bit v 61 then s.modSlab t.slab (fun sl => sl.modStream d.val (fun st => { st with fault := false }))
    else s

/-! ## Packets (R53, R172 to R174, R180) -/

/-- The node address of base camp. -/
def campNode (i : SlabId) : Half := unitNode i 0 0

/-- The header word of a packet (Table 7.4). -/
def ctrlHeader (dest src : Half) (kind phase len : Nat) (tag : Half) : DWord :=
  BitVec.ofNat 64 (dest.toNat * 2 ^ 48 + src.toNat * 2 ^ 32 + kind % 16 * 2 ^ 28 + phase % 4 * 2 ^ 26 + len % 256 * 2 ^ 16 + tag.toNat)

/-- KIND and payload words of a packet. -/
def CtrlPacket.kind : CtrlPacket → Nat
  | .write _ _ _ => 0
  | .read _ _ => 1
  | .store _ _ => 5
  | .report _ _ => 4
  | .col _ => 6

/-- The tile of a request. -/
def CtrlPacket.tile? : CtrlPacket → Option TileId
  | .write t _ _ => some t
  | .read t _ => some t
  | .store t _ => some t
  | _ => none

/-- The tile at whose router base camp attaches: T(55, 47), or T(56, 48) when that lies in a hole (R173). -/
def State.campPort (s : State) (i : SlabId) : TileId :=
  if fieldOf 55 47 ∈ (s.slab i).hole ∨ fieldOf 55 47 ∈ (s.slab i).lostFields then tileId i 56 48 else tileId i 55 47

/-- A packet with an uncorrectable word is discarded at a router and counted (R174). -/
def State.ctrlDiscard (s : State) (t : TileId) : State := s.modTile t (fun tl => tl.count Ctr.CTRL_DISCARDS 1)

/-- The tile's router lives and no hole holds it. -/
def State.routed (s : State) (t : TileId) : Bool :=
  (s.slab t.slab).ready && decide (tileField t ∉ (s.slab t.slab).lostFields) && decide (tileField t ∉ (s.slab t.slab).hole)
    && !((s.slab t.slab).field (tileField t)).clamped && !(s.tile t).failed

/-- Base camp reaches the tile, and the tile answers (R173, R175). -/
def State.reachable (s : State) (t : TileId) : Bool := s.routed t && s.routed (s.campPort t.slab)

/-- The low 2 bits of the releases that have reached base camp. -/
def State.campReleases (s : State) (i : SlabId) : Nat :=
  let n := (s.root i).releases
  if s.cycle i < (s.slab i).camp.releasedAt then n - 1 else n

/-- Base camp is one release behind a packet's tag (R53). -/
def State.campAhead (s : State) (i : SlabId) (tag : Nat) : Bool := decide (tag % 4 = (s.campReleases i + 1) % 4)

/-- A tile's response to a request, with the tile's tag of R53. A write has one without a value: DEDUCED from R174, whose every
request is repeated until it has a response. -/
def State.ctrlRespond (s : State) (t : TileId) (tag : Half) (v : DWord) : State :=
  let phase := s.tileReleases t % 4
  s.modSlab t.slab (fun sl => sl.modCamp (fun c => { c with ctrlResponses := aset tag (v, phase) c.ctrlResponses }))

/-- A word of an instruction store, in a hold or before the job's first pitch, or a scratchpad row (R93, R94). -/
def State.ctrlStore (s : State) (t : TileId) : StoreTarget → State
  | .store q a w =>
    if s.mayWriteTile t.slab then
      s.modTile t (fun tl => tl.modSeq q (fun x => { x with store := storeWords x.store a.toNat [w] }))
    else s
  | .row r d => s.modTile t (fun tl => tl.writeRow (isPortal t) r.val d)

/-- A packet at its receiver: requests have their effect and are answered, and base camp keeps the latest report of each source. -/
def State.ctrlArrive (s : State) (i : SlabId) (tag : Half) : CtrlPacket → State
  | .write t reg v => (s.ctrlWrite t v reg).ctrlRespond t tag 0
  | .read t reg => s.ctrlRespond t tag (s.ctrlRead t reg)
  | .store t target => (s.ctrlStore t target).ctrlRespond t tag 0
  | .report src payload => s.modSlab i (fun sl => sl.modCamp (fun c => { c with reports := aset src (payload.take 255) c.reports }))
  | .col _ => s

/-- A packet that its receiver holds until the release reaches it (R53). -/
def State.ctrlHold (s : State) (i : SlabId) (tag : Half) (p : CtrlPacket) : State :=
  s.modSlab i (fun sl => sl.modCamp (fun c => { c with ctrlHeld := c.ctrlHeld ++ [(tag, p)] }))

/-- The request as base camp remembers it until its response comes. -/
def Camp.remember (c : Camp) (r : CtrlReq) : Camp :=
  if c.ctrlOutstanding.any (fun x => x.tag = r.tag) then c
  else { c with ctrlOutstanding := c.ctrlOutstanding ++ [r] }

/-- A request of base camp to a tile with its TAG: the tile has its effect and answers, holds it for its phase tag, or nothing
answers it. In a hold a packet for a lost field or a dead tile is a discard (R178). -/
def State.request (s : State) (t : TileId) (tag : Half) (p : CtrlPacket) (chk : LinkCheck) : State :=
  if !(s.slab t.slab).ready then s
  else
    let now := s.cycle t.slab
    let s := s.modSlab t.slab (fun sl => sl.modCamp (fun c => c.remember { tag := tag, attempts := 1, packet := p, sentAt := now }))
    if !s.reachable t then
      if (s.root t.slab).inHold then s.modTile (s.campPort t.slab) (fun tl => tl.count Ctr.HOLD_DISCARDS 1) else s
    else if chk = .uncorrectable then s.ctrlDiscard t
    else if s.tagAhead t (s.campReleases t.slab % 4) then
      (s.ctrlHold t.slab tag p).modSlab t.slab (fun sl => sl.modField (tileField t) (fun fd => fd.count Ctr.PHASE_TAG_HOLDS 1))
    else s.ctrlArrive t.slab tag p

/-! ## Commands -/

/-- CTRL_REGISTER_WRITE (R93, R174). -/
def execCtrlRegisterWrite (t : TileId) (reg : CtrlReg) (value : DWord) (tag : Heard Half) (s : State) : Result :=
  .next (s.request t tag.what (.write t reg value) tag.chk)

/-- CTRL_REGISTER_READ (R174): the request reaches the tile, which sends a response with its TAG; a
discarded request gets none. -/
def execCtrlRegisterRead (t : TileId) (reg : CtrlReg) (tag : Half) (chk : LinkCheck) (s : State) : Result :=
  .next (s.request t tag (.read t reg) chk)

/-- CTRL_STORE_WRITE (R93, R94, R174): base camp writes a word of an instruction store, in a hold or
before the job's first pitch, or a scratchpad row. -/
def execCtrlStoreWrite (t : TileId) (target : StoreTarget) (tag : Heard Half) (s : State) : Result :=
  .next (s.request t tag.what (.store t target) tag.chk)

/-- CTRL_READ_RESPONSE (R174): a response reaches base camp and ends its request; one whose phase tag is one ahead waits. -/
def execCtrlReadResponse (slab : SlabId) (tag : Half) (chk : LinkCheck) (s : State) : Result :=
  let c := (s.slab slab).camp
  match (if (s.slab slab).ready then alookup tag c.ctrlResponses else none) with
  | none => .next s
  | some (v, phase) =>
    if s.campAhead slab phase then .next s
    else
      let s := s.modSlab slab (fun sl => sl.modCamp (fun c =>
        { c with ctrlResponses := aerase tag c.ctrlResponses }))
      match c.ctrlOutstanding.find? (fun r => r.tag = tag) with
      | none => .next s
      | some r =>
        if chk = .uncorrectable then .next (s.ctrlDiscard (r.packet.tile?.getD (s.campPort slab)))
        else
          .next (s.modSlab slab (fun sl => sl.modCamp (fun c =>
            { c with ctrlOutstanding := c.ctrlOutstanding.filter (fun r => r.tag ≠ tag)
                     ctrlRead := aset tag v c.ctrlRead })))

/-- Arithmetic cycles of the 65,536 fabric cycles after which a request is repeated (R174). -/
def ctrlTimeout : Nat := 131072

/-- CTRL_REQUEST_TIMEOUT (R174): the request is sent again; after the fourth attempt the tile has an
uncorrectable error. -/
def execCtrlRequestTimeout (slab : SlabId) (tag : Half) (s : State) : Result :=
  let now := s.cycle slab
  match (s.slab slab).camp.ctrlOutstanding.find? (fun r => r.tag = tag) with
  | none => .next s
  | some r =>
    if !(s.slab slab).ready ∨ now < r.sentAt + ctrlTimeout then .next s
    else if 4 ≤ r.attempts then
      let s := s.modSlab slab (fun sl => sl.modCamp (fun c =>
        { c with ctrlOutstanding := c.ctrlOutstanding.filter (fun r => r.tag ≠ tag) }))
      .next (match r.packet.tile? with
        | none => s
        | some t => s.tileFault t 0x02)
    else
      .next (s.modSlab slab (fun sl => sl.modCamp (fun c =>
        { c with ctrlOutstanding := c.ctrlOutstanding.map (fun x =>
            if x.tag = tag then { x with attempts := x.attempts + 1, sentAt := now } else x) })))

/-- The tile of a node address on slab `i`; none for a unit. -/
def State.nodeTile (s : State) (i : SlabId) (a : Half) : Option TileId :=
  if bit a 15 then none else tileAt s.shared.mode i (bits a 14 7) (bits a 6 0)

/-- CTRL_STATUS_REPORT (R173, R174): the report reaches base camp, which keeps the latest of each source; a tile reports while it is
reached, and a unit whose attachment tile lies in a hole over the belay spine. DESIGN CHOICE: a discard counts at the router at
which base camp attaches, since the report does not say which router found the word. -/
def execCtrlStatusReport (slab : SlabId) (src : Half) (payload : Heard (List DWord)) (s : State) : Result :=
  let t := s.nodeTile slab src
  if !(s.slab slab).ready || (!(bit src 15) && !(t.any s.reachable)) then .next s
  else if payload.chk = .uncorrectable then .next (s.ctrlDiscard (s.campPort slab))
  else if t.any (fun t => s.campAhead slab (s.tileReleases t)) then .next (s.ctrlHold slab 0 (.report src payload.what))
  else .next (s.ctrlArrive slab 0 (.report src payload.what))

/-! ## The col (R180) -/

/-- The row of mesh lanes beside which a crossing lies. -/
def crossingRow (k : Nat) : Nat := 6 + 12 * k

/-- Distance of two rows. -/
def rowsApart (a b : Nat) : Nat := max a b - min a b

/-- The crossing nearest to row y, the lower row winning a tie. -/
def nearestCrossing (y : Nat) : Nat :=
  (List.range 8).foldl (fun k n => if rowsApart (crossingRow n) y < rowsApart (crossingRow k) y then n else k) 0

/-- The crossing a packet whose route lies at row y takes: the nearest one, or the next working one in y (R180). The
next after the last is the first (DESIGN CHOICE: R180 does not say what follows the northernmost). -/
def Shared.crossing (x : Shared) (y : Nat) : Option Nat :=
  ((List.range 8).map (fun n => (nearestCrossing y + n) % 8)).find? (fun k => x.crossings.all (fun f => decide (f.val ≠ k)))

/-- The col carries control packets: over a crossing, or in joined mode over the sideband of a mesh lane (R180, R359). -/
def Shared.colControl (x : Shared) : Bool :=
  (x.crossing 47).isSome || (decide (x.mode = .joined) && decide (x.colLanes.length < 96))

end Sys2Proof.Machine
end

