-- ==== Sys2Proof/Machine/Matrix.lean ====
section
/-! DEFINITION. The matrix engine (R101 to R115): issue into its queue, operand reads, the
accumulation of R77, and the begin and drain of an instruction. -/

namespace Sys2Proof.Machine

open Sys2Proof

/-- The place of an instruction in the tile issue order: by cycle, the backward sequencer first
(R102). -/
def issueOrder (q : SeqId) (now : Nat) : Nat := 2 * now + (if q = .bwd then 0 else 1)

/-- MDESC (R105): one operand descriptor of the sequencer is written. -/
def execMdesc (t : TileId) (q : SeqId) (w : IWord) (s : State) : Result :=
  .next (s.issue t 0x48 q w (fun now tl =>
    (tl.modSeq q (fun sq => { sq with descs := aset (mdescIndex w) (mdescValue w) sq.descs })).issueNext
      q now w))

/-- An entry put into the queue at its place in the issue order. -/
def insertMatrix (e : MatrixEntry) : List MatrixEntry → List MatrixEntry
  | [] => [e]
  | x :: xs => if e.order < x.order then e :: x :: xs else x :: insertMatrix e xs

/-- What a matrix instruction captures at its issue: its descriptors and register values (R105,
R106, R109). -/
def Sequencer.matrixEntry (sq : Sequencer) (q : SeqId) (now : Nat) (w : IWord) : MatrixEntry :=
  let mma := decide (opOf w = 0x40)
  let dA := agetD Desc.zero (mmaDescA w) sq.descs
  let dB := agetD Desc.zero (mmaDescB w) sq.descs
  { seq := q, word := w, issued := now, order := issueOrder q now, descA := dA, descB := dB
    i0A := if mma then sq.reg now dA.idx.toNat else sq.reg now (mmoveIdx w)
    i0B := sq.reg now dB.idx.toNat, k0 := sq.reg now (mmaKidx w) }

/-- A matrix instruction enters the queue of 4, or stalls when it finds no entry (R101, R102). -/
def Tile.issueMatrix (tl : Tile) (q : SeqId) (now : Nat) (w : IWord) : Tile :=
  if tl.queueFull q now tl.matrix.queue.length 4 entersMatrix then tl.stall q now 1
  else
    let e := (tl.seq q).matrixEntry q now w
    { tl.issueNext q now w with
      matrix := { tl.matrix with queue := insertMatrix e tl.matrix.queue } }

/-- MMA (R108). -/
def execMma (t : TileId) (q : SeqId) (w : IWord) (s : State) : Result :=
  .next (s.issue t 0x40 q w (fun now tl => tl.issueMatrix q now w))

/-- MLOAD (R109). -/
def execMload (t : TileId) (q : SeqId) (w : IWord) (s : State) : Result :=
  .next (s.issue t 0x41 q w (fun now tl => tl.issueMatrix q now w))

/-- MSTORE (R109). -/
def execMstore (t : TileId) (q : SeqId) (w : IWord) (s : State) : Result :=
  .next (s.issue t 0x42 q w (fun now tl => tl.issueMatrix q now w))

/-! ## Operands -/

/-- An operand of an MMA as captured: format, descriptor, line offset, first k and the number of
lines used. -/
structure MmaOperand where
  fmt : Nat
  desc : Desc
  i0 : Word
  k0 : Nat
  lines : Nat
  deriving DecidableEq, Repr

/-- Elements to which k0 is aligned when T = 0 (R106). -/
def kAlign (fmt : Nat) : Nat := match fmt with
  | 0 => 16
  | 1 => 32
  | 6 => 128
  | 7 => 128
  | 8 => 32
  | _ => 64

/-- The operand is one that R107 forbids. -/
def MmaOperand.forbidden (o : MmaOperand) : Bool :=
  o.desc.t && (fmtScaled o.fmt || (o.desc.half && !fmtFp8 o.fmt))

/-- k0 breaks the alignment of R106. -/
def MmaOperand.misaligned (o : MmaOperand) : Bool :=
  !o.desc.t && decide (o.k0 % kAlign o.fmt ≠ 0)

/-- k0 rounded down to the aligned value when T = 0. -/
def MmaOperand.kBase (o : MmaOperand) : Nat :=
  if o.desc.t then o.k0 else o.k0 - o.k0 % kAlign o.fmt

/-- The row BASE + n · PITCH, with n a 32-bit sum of the line offset. -/
def MmaOperand.rowAt (o : MmaOperand) (n : Nat) : Nat :=
  (BitVec.ofNat 32 o.desc.base.toNat + (o.i0 + BitVec.ofNat 32 n) * BitVec.ofNat 32 o.desc.pitch.toNat).toNat

/-- The byte address of the scale byte of line `i` and element `k` of the line (R106). -/
def MmaOperand.scaleAt (o : MmaOperand) (i k : Nat) : Nat :=
  (BitVec.ofNat 32 o.desc.sbase.toNat
    + (o.i0 + BitVec.ofNat 32 i) * BitVec.ofNat 32 o.desc.spitch.toNat + BitVec.ofNat 32 (k / 32)).toNat

/-- Element [i][k], k counted from k0 (R106, R107). -/
def MmaOperand.elem (o : MmaOperand) (t : Tile) (portal : Bool) (i k : Nat) : Fp :=
  if o.forbidden then decodeElem o.fmt 0 0
  else
    let rd := t.engByte portal
    if o.desc.t then
      let row := o.rowAt (o.kBase + k)
      if o.fmt = 1 then decodeElem 1 (planeRaw (fun j => rd (64 * row + j)) 1 i) 0
      else decodeElem o.fmt (rd (64 * row + i + (if o.desc.half then 32 else 0))).toNat 0
    else
      let row := o.rowAt i
      let n := o.kBase + k
      decodeElem o.fmt (planeRaw (fun j => rd (64 * row + j)) o.fmt n)
        (if fmtScaled o.fmt then rd (o.scaleAt i n) else 0)

/-- The element rows the engine reads for the operand over `kn` values of k (R106, R110). -/
def MmaOperand.rows (o : MmaOperand) (kn : Nat) : List Nat :=
  if o.forbidden then []
  else if o.desc.t then (List.range kn).map (fun k => o.rowAt (o.kBase + k))
  else
    (List.range o.lines).flatMap (fun i =>
      let lo := o.kBase * fmtBits o.fmt / 512
      rowsFrom (o.rowAt i + lo) (((o.kBase + kn) * fmtBits o.fmt - 1) / 512 + 1 - lo))

/-- The byte addresses of the scale bytes the engine reads: one for every line and block (R106). -/
def MmaOperand.scales (o : MmaOperand) (kn : Nat) : List Nat :=
  if o.forbidden || o.desc.t || !fmtScaled o.fmt then []
  else (List.range o.lines).flatMap (fun i =>
    (List.range ((o.kBase + kn - 1) / 32 + 1 - o.kBase / 32)).map (fun b => o.scaleAt i (o.kBase + 32 * b)))

/-- The rows of some byte addresses, each once: lines share their scale rows (Table 4.6). -/
def byteRows (addrs : List Nat) : List Nat := (addrs.map (fun a => a / 64)).eraseDups

/-- Scale bytes at or beyond the end of the scratchpad: each is an operand fault (R107). -/
def scaleFaults (addrs : List Nat) : Nat := (addrs.filter (fun a => decide (spBytes ≤ a))).length

/-- Scale rows that exist. -/
def scaleRows (addrs : List Nat) : List Nat := (byteRows addrs).filter (fun r => decide (r < spRows))

/-- What a transposed operand leaves in the transpose buffers of its path after `kn` values of k: of each
32-value range entry k of line i, in the buffer the range is filled into (R147). A short last range leaves
the rest of its buffer. An FP8 byte stands in the low byte of its entry, below zeros. -/
def MmaOperand.buffers (o : MmaOperand) (t : Tile) (portal : Bool) (kn : Nat) (old : RegMap) : RegMap :=
  if !o.desc.t || o.forbidden then old
  else
    let rd := t.engByte portal
    let entry (k i : Nat) : Word :=
      let row := o.rowAt (o.kBase + k)
      if o.fmt = 1 then BitVec.ofNat 32 (planeRaw (fun j => rd (64 * row + j)) 1 i)
      else (rd (64 * row + i + (if o.desc.half then 32 else 0))).setWidth 32
    let ranges := (kn + 31) / 32
    let last := (List.range ranges).filter (fun r => decide (ranges ≤ r + 2))
    let cells := last.flatMap (fun r => ((List.range 32).filter (fun k => decide (32 * r + k < kn))).flatMap (fun k =>
      (List.range 32).map (fun i => (1024 * (r % 2) + 32 * i + k, entry (32 * r + k) i))))
    let keys := cells.map Prod.fst
    { old with cells := cells ++ old.cells.filter (fun c => decide (c.1 ∉ keys)) }

/-- The operand faults of R107 other than rows out of range. -/
def MmaOperand.faults (o : MmaOperand) : Nat :=
  (if o.forbidden then 1 else 0) + (if o.misaligned then 1 else 0)

/-! ## Accumulation (R76, R77) -/

/-- The pair accumulates exact sums of groups of 32 products (Table 3.3). -/
def grouped (a b : Nat) : Bool :=
  (decide (2 ≤ a) && decide (a ≤ 6) && decide (2 ≤ b) && decide (b ≤ 6))
    || (decide (a = 7) && decide (b = 7))

/-- A value added to an accumulator with one rounding to nearest even, and whether that made a NaN
of operands that are not NaN. -/
def accAdd (acc : Word × Bool) (v : Fp) (nanOperand : Bool) : Word × Bool :=
  let r := toF32 .nearestEven (Fp.add (Word.fp acc.1) v)
  (r, acc.2 || ((Word.fp r).isNan && !nanOperand && !(Word.fp acc.1).isNan))

/-- The exact sum of products; a BS12 sum is an integer, so that its zero is +0. -/
def groupSum (bs12 : Bool) (ps : List (Fp × Fp)) : Fp :=
  match ps.map (fun p => Fp.mul p.1 p.2) with
  | [] => .zero
  | v :: vs =>
    let r := vs.foldl Fp.add v
    if bs12 && r.isZero then .zero else r

/-- The products of ascending k added to an accumulator (R77). -/
def accumulate (fa fb : Nat) (acc : Word) (ps : List (Fp × Fp)) : Word × Bool :=
  let nan (l : List (Fp × Fp)) : Bool := l.any (fun p => p.1.isNan || p.2.isNan)
  if grouped fa fb then
    (chunksOf 32 ps.length ps).foldl
      (fun r l => accAdd r (groupSum (decide (fa = 7)) l) (nan l)) (acc, false)
  else ps.foldl (fun r p => accAdd r (Fp.mul p.1 p.2) (nan [p])) (acc, false)

/-- Duration D of an MMA (Table 4.7). -/
def mmaDuration (fa fb k : Nat) : Nat :=
  if fa = 6 ∧ fb = 6 then (k + 1) / 2
  else if fa = 1 ∨ fa = 7 ∨ fb = 1 ∨ fb = 7 then 2 * k
  else k

/-- Duration and fetch latency of a queued instruction (R111, R112). -/
def MatrixEntry.duration (e : MatrixEntry) : Nat :=
  if opOf e.word = 0x40 then mmaDuration (mmaFmtA e.word) (mmaFmtB e.word) (mmaK e.word) else 64
def MatrixEntry.fetch (e : MatrixEntry) : Nat :=
  if opOf e.word = 0x40 ∧ (e.descA.t || e.descB.t) then 24 else 16

def MatrixEntry.opA (e : MatrixEntry) : MmaOperand :=
  { fmt := mmaFmtA e.word, desc := e.descA, i0 := e.i0A, k0 := e.k0.toNat, lines := mmaRows e.word }
def MatrixEntry.opB (e : MatrixEntry) : MmaOperand :=
  { fmt := mmaFmtB e.word, desc := e.descB, i0 := e.i0B, k0 := e.k0.toNat, lines := mmaCols e.word }

/-- The scale bytes an instruction reads. -/
def MatrixEntry.scales (e : MatrixEntry) : List Nat :=
  if opOf e.word = 0x40 then e.opA.scales (mmaK e.word) ++ e.opB.scales (mmaK e.word) else []

/-- The scratchpad rows an instruction reads or writes: rows of elements, and scale rows that exist. -/
def MatrixEntry.elemRows (e : MatrixEntry) : List Nat :=
  if opOf e.word = 0x40 then e.opA.rows (mmaK e.word) ++ e.opB.rows (mmaK e.word)
  else rowsFrom (addIdx (mmoveBase e.word) e.i0A) 64
def MatrixEntry.rows (e : MatrixEntry) : List Nat := e.elemRows ++ scaleRows e.scales

/-- The bound of the cycles for which the engine may pause because rows miss their slots (R110). -/
def MatrixEntry.missBound (e : MatrixEntry) (portal : Bool) : Nat :=
  if opOf e.word = 0x40 then
    Sys2Proof.Machine.missBound portal (e.opA.rows (mmaK e.word) ++ scaleRows (e.opA.scales (mmaK e.word)))
      + Sys2Proof.Machine.missBound portal (e.opB.rows (mmaK e.word) ++ scaleRows (e.opB.scales (mmaK e.word)))
  else 0

def MatrixEngine.bank (m : MatrixEngine) (b : Bool) : RegMap := if b then m.bank1 else m.bank0
def MatrixEngine.setBank (m : MatrixEngine) (b : Bool) (r : RegMap) : MatrixEngine :=
  if b then { m with bank1 := r } else { m with bank0 := r }

/-- The accumulator entries an MMA writes and whether it made a NaN (R77, R108). -/
def mmaResult (t : Tile) (portal : Bool) (e : MatrixEntry) : RegMap × Bool :=
  let w := e.word
  let start := if mmaInit w then RegMap.zero else t.matrix.bank (mmaBank w)
  let ks := List.range (mmaK w)
  let a (i : Nat) : List Fp := ks.map (fun k => e.opA.elem t portal i k)
  let b (j : Nat) : List Fp := ks.map (fun k => e.opB.elem t portal j k)
  (List.range (mmaRows w)).foldl (fun acc i =>
    let ai := a i
    (List.range (mmaCols w)).foldl (fun (acc : RegMap × Bool) j =>
      let (v, bad) := accumulate (mmaFmtA w) (mmaFmtB w) (acc.1.get (32 * i + j)) (ai.zip (b j))
      (acc.1.set (32 * i + j) v, acc.2 || bad)) acc) (start, false)

/-- The 1,024 entries MLOAD reads from 64 rows (R109). -/
def mloadResult (t : Tile) (portal : Bool) (e : MatrixEntry) : RegMap :=
  let row := addIdx (mmoveBase e.word) e.i0A
  RegMap.zero.setMany 0 ((List.range 1024).map (fun n =>
    BitVec.ofNat 32 (leNat ((List.range 4).map (fun j => t.engByte portal (64 * row + 4 * n + j))))))

/-- The 64 rows MSTORE writes (R109). -/
def mstoreRows (t : Tile) (e : MatrixEntry) : List Row :=
  let b := t.matrix.bank (mmoveBank e.word)
  (List.range 64).map (fun r =>
    BitVec.ofNat 512 (leNat ((b.getMany (16 * r) 16).flatMap (fun v => leBytes v.toNat 4))))

/-- No interlock of R103 holds the instruction at cycle `now`. -/
def Tile.matrixFree (t : Tile) (now : Nat) (e : MatrixEntry) : Bool :=
  let b := matrixBank e.word
  if matrixWrites e.word then
    t.vector.queue.all (fun v => decide (e.order < v.order) || decide (opOf v.word ≠ 0x80)
      || decide (vaccBank v.word ≠ b))
    && t.vector.bankRead.all (fun r => decide (r.1 ≠ b) || decide (r.2 ≤ now))
  else t.matrix.undrained.all (fun u => decide (u.1 ≠ b))

/-- The instruction at the head of the matrix queue that may begin at cycle `now` (R113). -/
def Tile.matrixHead (t : Tile) (now : Nat) : Option MatrixEntry :=
  match t.matrix.queue with
  | [] => none
  | e :: _ =>
    if bit t.gate gateMatrix ∧ e.issued + e.fetch ≤ now ∧ t.matrix.freeAt ≤ now ∧ t.matrixFree now e then some e else none

/-- The instruction runs: its effect, its timing, its counters and its faults (R107 to R113, R120).
With an uncorrectable row or parity error it writes nothing. `miss` is the pause for rows that miss their
slots. -/
def Tile.runMatrix (t : Tile) (portal : Bool) (now miss : Nat) (e : MatrixEntry) (errs : EngineErrors) :
    Tile :=
  let w := e.word
  let rows := e.rows
  let es := errs.rows.filter (fun r => decide (r.row ∈ rows))
  let d := e.duration
  let pause := slowCycles es + miss
  let bad := errs.parity || rowsUncorrectable es
  let rd := t.delivered es
  let t0 := { t with matrix := { t.matrix with
    queue := t.matrix.queue.drop 1, freeAt := now + d + pause
    undrained := if matrixWrites w then t.matrix.undrained ++ [(matrixBank w, now + d + pause + 10)]
      else t.matrix.undrained } }
  let t1 :=
    if bad then t0
    else if opOf w = 0x40 then
      let (b, inv) := mmaResult rd portal e
      { t0 with matrix := { t0.matrix.setBank (mmaBank w) b with
                              transA := e.opA.buffers rd portal (mmaK w) t.matrix.transA
                              transB := e.opB.buffers rd portal (mmaK w) t.matrix.transB } }.setFlagIf inv flagInvalidM
    else if opOf w = 0x41 then
      { t0 with matrix := t0.matrix.setBank (mmoveBank w) (mloadResult rd portal e) }
    else (List.range 64).foldl (fun (tl : Tile) i =>
      tl.putBytes portal (addIdx (mmoveBase w) e.i0A + i) 0 (rowBytes ((mstoreRows t e).getD i 0))) t0
  let faults := (if opOf w = 0x40 then e.opA.faults + e.opB.faults else 0) + scaleFaults e.scales
  let t2 := ((t1.opndFaults faults).rowFaults portal rows).recordRowErrors portal false 0 es
  ((t2.count Ctr.MATRIX_STEPS d).count Ctr.MATRIX_PAUSES pause).slip e.seq now (now + pause) |>.modSeq e.seq
    (fun s => { s with doneAt := max s.doneAt (now + d + pause + (if matrixWrites w then 10 else 0)) })

/-- MATRIX_BEGIN (R113). -/
def execMatrixBegin (t : TileId) (e : EngineErrors) (s : State) : Result :=
  let now := s.cycle t.slab
  let p := isPortal t
  match (if (s.slab t.slab).ready then (s.tile t).matrixHead now else none) with
  | none => .next s
  | some m =>
    let bad := e.parity || rowsUncorrectable (e.rows.filter (fun r => decide (r.row ∈ m.rows)))
    let (miss, s) := s.takeFree (m.missBound p + 1)
    .next ((s.onTile t (fun now tl => tl.runMatrix p now miss m e)).tileErrorIf bad t)

/-- MATRIX_DRAIN (R112): the bank of the oldest instruction whose drain cycle has come is drained. -/
def execMatrixDrain (t : TileId) (s : State) : Result :=
  .next (s.onTile t (fun now tl =>
    match tl.matrix.undrained with
    | [] => tl
    | (_, c) :: rest =>
      if c ≤ now then { tl with matrix := { tl.matrix with undrained := rest } } else tl))

end Sys2Proof.Machine
end

