-- ==== Sys2Proof/Machine/Vector.lean ====
section
/-! DEFINITION. The vector engine (chapter 5): issue into its queue, the element operations, loads
and stores, reductions, and the begin of an instruction. -/

namespace Sys2Proof.Machine

open Sys2Proof

/-! ## Issue (R122) -/

def insertVector (e : VectorEntry) : List VectorEntry → List VectorEntry
  | [] => [e]
  | x :: xs => if e.order < x.order then e :: x :: xs else x :: insertVector e xs

/-- What a vector instruction captures at its issue. The spec fixes N when the instruction begins (R125) and
does not say when s[SB], s[IDX] and s[SIDX] are read: at issue (DESIGN CHOICE), as a matrix instruction
captures its registers (R105). -/
def Sequencer.vectorEntry (sq : Sequencer) (q : SeqId) (now : Nat) (w : IWord) : VectorEntry :=
  { seq := q, word := w, issued := now, order := issueOrder q now, sb := sq.reg now (vSB w)
    idx := sq.reg now (vmIdx w), sidx := sq.reg now (vmSidx w) }

/-- A vector instruction enters the queue of 8, or stalls when it finds no entry (R122). -/
def Tile.issueVector (tl : Tile) (q : SeqId) (now : Nat) (w : IWord) : Tile :=
  if tl.queueFull q now tl.vector.queue.length 8 entersVector then tl.stall q now 2
  else
    let e := (tl.seq q).vectorEntry q now w
    { tl.issueNext q now w with
      vector := { tl.vector with queue := insertVector e tl.vector.queue } }

def execVacc (t : TileId) (q : SeqId) (w : IWord) (s : State) : Result :=
  .next (s.issue t 0x80 q w (fun now tl => tl.issueVector q now w))
def execVadd (t : TileId) (q : SeqId) (w : IWord) (s : State) : Result :=
  .next (s.issue t 0x84 q w (fun now tl => tl.issueVector q now w))
def execVsub (t : TileId) (q : SeqId) (w : IWord) (s : State) : Result :=
  .next (s.issue t 0x85 q w (fun now tl => tl.issueVector q now w))
def execVmul (t : TileId) (q : SeqId) (w : IWord) (s : State) : Result :=
  .next (s.issue t 0x86 q w (fun now tl => tl.issueVector q now w))
def execVfma (t : TileId) (q : SeqId) (w : IWord) (s : State) : Result :=
  .next (s.issue t 0x87 q w (fun now tl => tl.issueVector q now w))
def execVmax (t : TileId) (q : SeqId) (w : IWord) (s : State) : Result :=
  .next (s.issue t 0x88 q w (fun now tl => tl.issueVector q now w))
def execVmin (t : TileId) (q : SeqId) (w : IWord) (s : State) : Result :=
  .next (s.issue t 0x89 q w (fun now tl => tl.issueVector q now w))
def execVcvt (t : TileId) (q : SeqId) (w : IWord) (s : State) : Result :=
  .next (s.issue t 0x8A q w (fun now tl => tl.issueVector q now w))
def execVexp (t : TileId) (q : SeqId) (w : IWord) (s : State) : Result :=
  .next (s.issue t 0x98 q w (fun now tl => tl.issueVector q now w))
def execVrcp (t : TileId) (q : SeqId) (w : IWord) (s : State) : Result :=
  .next (s.issue t 0x99 q w (fun now tl => tl.issueVector q now w))
def execVrsq (t : TileId) (q : SeqId) (w : IWord) (s : State) : Result :=
  .next (s.issue t 0x9A q w (fun now tl => tl.issueVector q now w))
def execVrsum (t : TileId) (q : SeqId) (w : IWord) (s : State) : Result :=
  .next (s.issue t 0xA0 q w (fun now tl => tl.issueVector q now w))
def execVrmax (t : TileId) (q : SeqId) (w : IWord) (s : State) : Result :=
  .next (s.issue t 0xA1 q w (fun now tl => tl.issueVector q now w))
def execVrmin (t : TileId) (q : SeqId) (w : IWord) (s : State) : Result :=
  .next (s.issue t 0xA2 q w (fun now tl => tl.issueVector q now w))
def execVperm (t : TileId) (q : SeqId) (w : IWord) (s : State) : Result :=
  .next (s.issue t 0xA8 q w (fun now tl => tl.issueVector q now w))
def execViota (t : TileId) (q : SeqId) (w : IWord) (s : State) : Result :=
  .next (s.issue t 0xA9 q w (fun now tl => tl.issueVector q now w))
def execViadd (t : TileId) (q : SeqId) (w : IWord) (s : State) : Result :=
  .next (s.issue t 0xAA q w (fun now tl => tl.issueVector q now w))
def execVld (t : TileId) (q : SeqId) (w : IWord) (s : State) : Result :=
  .next (s.issue t 0xB0 q w (fun now tl => tl.issueVector q now w))
def execVst (t : TileId) (q : SeqId) (w : IWord) (s : State) : Result :=
  .next (s.issue t 0xB1 q w (fun now tl => tl.issueVector q now w))
def execVgetf (t : TileId) (q : SeqId) (w : IWord) (s : State) : Result :=
  .next (s.issue t 0xB8 q w (fun now tl => tl.issueVector q now w))
def execVclrf (t : TileId) (q : SeqId) (w : IWord) (s : State) : Result :=
  .next (s.issue t 0xB9 q w (fun now tl => tl.issueVector q now w))

/-! ## Element operations -/

/-- An element of a vector register. -/
def VectorEngine.elem (v : VectorEngine) (r i : Nat) : Word := v.regs.get (4096 * r + i)

/-- An operand element as a value: FP32, or the BF16 in its upper half (R126). -/
def operandFp (prec : Bool) (w : Word) : Fp :=
  if prec then bf16.decode (w.toNat / 2 ^ 16) else Word.fp w

/-- A result rounded under RM, BF16 results in the upper half (R126). -/
def resultWord (prec : Bool) (rm : Rounding) (v : Fp) : Word :=
  if prec then BitVec.ofNat 32 (bf16.round rm v * 2 ^ 16) else toF32 rm v

/-- An operand returned as a result: its bits, with a BF16's lower half 0 and a NaN canonical. -/
def sameWord (prec : Bool) (w : Word) : Word :=
  if (operandFp prec w).isNan then 0x7FC00000
  else if prec then w &&& 0xFFFF0000 else w

/-- VMAX and VMIN on two elements (R128). -/
def pickWord (prec isMax : Bool) (a b : Word) : Word :=
  let x := operandFp prec a
  let y := operandFp prec b
  if x.isNan || y.isNan then 0x7FC00000
  else if (if isMax then Fp.lt x y else Fp.lt y x) then sameWord prec b
  else sameWord prec a

/-- A result of arithmetic and whether it is a NaN of operands that are not NaN (R81). -/
def arithResult (prec : Bool) (rm : Rounding) (v : Fp) (ops : List Fp) : Word × Bool :=
  (resultWord prec rm v, v.isNan && ops.all (fun o => !o.isNan))

/-- The 16-bit result of a transcendental form, rounded to nearest even when PREC is 1 (R84). -/
def transcendental (prec : Bool) (r : Word) : Word :=
  if prec then resultWord true .nearestEven (Word.fp r) else r

/-- One element of the element-wise opcodes of Table 5.1. -/
def elementOp (op : Nat) (prec : Bool) (rm : Rounding) (i : Nat) (sb a b c : Word) : Word × Bool :=
  let x := operandFp prec a
  let y := operandFp prec b
  let z := operandFp prec c
  match op with
  | 0x84 => arithResult prec rm (Fp.add x y) [x, y]
  | 0x85 => arithResult prec rm (Fp.add x y.neg) [x, y]
  | 0x86 => arithResult prec rm (Fp.mul x y) [x, y]
  | 0x87 => arithResult prec rm (Fp.add (Fp.mul x y) z) [x, y, z]
  | 0x88 => (pickWord prec true a b, false)
  | 0x89 => (pickWord prec false a b, false)
  | 0x8A => (resultWord true rm x, false)
  | 0x98 =>
    let d := toF32 .nearestEven (Fp.add x y.neg)
    (transcendental prec (f32exp d), (Word.fp d).isNan && !x.isNan && !y.isNan)
  | 0x99 => (transcendental prec (f32rcp (toF32 .nearestEven x)), false)
  | 0x9A =>
    let (r, bad) := f32rsq (toF32 .nearestEven x)
    (transcendental prec r, bad)
  | 0xA9 => (BitVec.ofNat 32 i + sb, false)
  | 0xAA => (a + b, false)
  | _ => (0, false)

/-- The opcode is element-wise. -/
def vElementwise (op : Nat) : Bool :=
  decide (op ∈ [0x84, 0x85, 0x86, 0x87, 0x88, 0x89, 0x8A, 0x98, 0x99, 0x9A, 0xA9, 0xAA])

def vReduction (op : Nat) : Bool := decide (op ∈ [0xA0, 0xA1, 0xA2])

/-- b_i or c_i by its mode (R127, Table 5.2). -/
def modeElem (v : VectorEngine) (mode r i seg : Nat) (sb : Word) : Word :=
  match mode with
  | 0 => v.elem r i
  | 1 => v.elem r 0
  | 2 => v.elem r (i / 2 ^ seg)
  | _ => sb

/-- The results of an element-wise instruction over N elements, and INVALID_V. -/
def elementwise (v : VectorEngine) (e : VectorEntry) (n : Nat) : List (Word × Bool) :=
  let w := e.word
  (List.range n).map (fun i =>
    elementOp (opOf w) (vPrec w) (Rounding.ofField (vRm w)) i e.sb (v.elem (vA w) i)
      (modeElem v (vBmode w) (vB w) i (vSeg w) e.sb) (modeElem v (vCmode w) (vC w) i (vSeg w) 0))

/-! ## Reductions (R134) -/

/-- Two partials combined: an FP32 sum to nearest even, or the larger or smaller; and whether a NaN
came of values that are not NaN. -/
def combineWords (op : Nat) (a b : Word × Bool) : Word × Bool :=
  if op = 0xA0 then
    let r := f32add a.1 b.1
    (r, a.2 || b.2 || ((Word.fp r).isNan && !(Word.fp a.1).isNan && !(Word.fp b.1).isNan))
  else (pickWord false (decide (op = 0xA1)) a.1 b.1, a.2 || b.2)

/-- One level of the tree: partials 2k and 2k + 1 combine, an odd one passes. -/
def treeLevel (op : Nat) : List (Word × Bool) → List (Word × Bool)
  | a :: b :: rest => combineWords op a b :: treeLevel op rest
  | l => l

/-- The tree, with fuel at least the number of levels. -/
def treeReduce (op : Nat) : Nat → List (Word × Bool) → Word × Bool
  | 0, l => l.headD (0, false)
  | n + 1, l => match l with
    | [x] => x
    | l => treeReduce op n (treeLevel op l)

/-- The partial of lane `l`: elements l, l + 64, ... in ascending order. -/
def lanePartial (op : Nat) (xs : List Word) (l : Nat) : Word × Bool :=
  let ls := (List.range (xs.length / 64 + 1)).filterMap (fun k => xs[l + 64 * k]?)
  match ls with
  | [] => (0, false)
  | x :: rest => rest.foldl (fun acc y => combineWords op acc (y, false)) (x, false)

/-- The reduction of one segment. -/
def reduceSegment (op : Nat) (prec : Bool) (rm : Rounding) (xs : List Word) : Word × Bool :=
  let xs := xs.map (fun x => toF32 .nearestEven (operandFp prec x))
  let r := treeReduce op 13 ((List.range (min xs.length 64)).map (lanePartial op xs))
  ((if prec then resultWord true rm (Word.fp r.1) else r.1), r.2)

/-- The results of a reduction over N elements: one per segment (R125). -/
def reduction (v : VectorEngine) (e : VectorEntry) (n : Nat) : List (Word × Bool) :=
  let w := e.word
  let xs := (List.range n).map (fun i => v.elem (vA w) i)
  (chunksOf (2 ^ vSeg w) n xs).map
    (reduceSegment (opOf w) (vPrec w) (Rounding.ofField (vRm w)))

/-- VPERM (R135): the results, and whether the index was beyond the segment. -/
def permute (v : VectorEngine) (e : VectorEntry) (n : Nat) : List (Word × Bool) :=
  let w := e.word
  let len := 2 ^ vSeg w
  (List.range n).map (fun i =>
    let g := i / len * len
    let k := (v.elem (vB w) i).toNat
    if k < min len (n - g) then (v.elem (vA w) (g + k), false) else (0, true))

/-! ## Loads and stores (R130, R131) -/

/-- The first row, and the byte address of the first scale byte. -/
def VectorEntry.memRow (e : VectorEntry) : Nat := addIdx (vmBase e.word) e.idx
def VectorEntry.memScale (e : VectorEntry) : Nat := addIdx (vmSbase e.word) e.sidx

/-- Element rows and scale rows that a load or store of N elements touches. -/
def VectorEntry.elemRows (e : VectorEntry) (n : Nat) : List Nat :=
  rowsFrom e.memRow ((elemBytes (vmFmt e.word) n + 63) / 64)
def VectorEntry.scaleRows (e : VectorEntry) (n : Nat) : List Nat :=
  let k := scaleBytes (vmFmt e.word) n
  if k = 0 then [] else rowsFrom (e.memScale / 64) ((e.memScale + k - 1) / 64 + 1 - e.memScale / 64)

/-- Scale bytes at or beyond the end of the scratchpad, each an operand fault (R131, R107). -/
def VectorEntry.scaleFaults (e : VectorEntry) (n : Nat) : Nat :=
  let k := scaleBytes (vmFmt e.word) n
  min k (e.memScale + k - spBytes)

/-- The rows of a load or store that may be out of range: its element rows, and its scale rows that exist. -/
def VectorEntry.memRows (e : VectorEntry) (n : Nat) : List Nat :=
  e.elemRows n ++ (e.scaleRows n).filter (fun r => decide (r < spRows))

/-- The bound of the cycles for which the engine may pause because rows miss their slots (R131): element rows
are consecutive and never share a bank within a turn, so only scale rows beside them can. -/
def VectorEntry.missBound (e : VectorEntry) (portal : Bool) (n : Nat) : Nat :=
  if vIsMem e.word ∧ (e.scaleRows n).any (fun r => decide (bankOf portal r ∈ (e.elemRows n).map (bankOf portal))) then
    4 * (e.scaleRows n).length
  else 0

/-- The elements VLD writes: FP32 and BF16 bits as they are, other formats converted (R131). -/
def vldWords (t : Tile) (portal : Bool) (e : VectorEntry) (n : Nat) : List Word :=
  let c := vmFmt e.word
  let rd (j : Nat) : Byte := t.engByte portal (64 * e.memRow + j)
  let sc (j : Nat) : Byte := t.engByte portal (e.memScale + j)
  (List.range n).map (fun i =>
    let raw := planeRaw rd c i
    if c = 0 then BitVec.ofNat 32 raw
    else if c = 1 then BitVec.ofNat 32 (raw * 2 ^ 16)
    else toF32 .nearestEven (decodeElem c raw (if fmtScaled c then sc (i / 32) else 0)))

/-- The conversion VST makes of its N elements. To FP32 it copies the 32 bits of each element, a NaN with its
payload too: R68 propagates no payload, and R131 does not say whether a copy to the same format is such a
conversion (DESIGN CHOICE). -/
def vstConvert (ovf : Bool) (v : VectorEngine) (e : VectorEntry) (n : Nat) : Converted :=
  let w := e.word
  let xs := (List.range n).map (fun i => v.elem (vD w) (vmOff w + i))
  if vmFmt w = 0 then { raws := xs.map BitVec.toNat, scales := [], sat := 0, invalid := false }
  else encodeElems (vmFmt w) (fun _ => Rounding.ofField (vmRm w)) ovf (xs.map Word.fp)

/-! ## Rates (Table 5.5) -/

/-- The present vector length N, fixed when the instruction begins (R125). -/
def Tile.vectorLength (t : Tile) (now : Nat) (e : VectorEntry) : Nat :=
  let (nm1, src) := if vIsMem e.word then (vmNm1 e.word, vmNsrc e.word)
    else (vNm1 e.word, vNsrc e.word)
  if src = 0 then nm1 + 1 else min ((t.seq e.seq).reg now src).toNat (nm1 + 1)

def ceilDiv (a b : Nat) : Nat := (a + b - 1) / b

/-- Groups of elements, rows or flags the engine processes for N elements. -/
def VectorEntry.groups (e : VectorEntry) (n : Nat) : Nat :=
  let op := opOf e.word
  let prec := vPrec e.word
  if op = 0x80 then vaccRows e.word
  else if op = 0xB8 ∨ op = 0xB9 then 1
  else if op ∈ [0x98, 0x99, 0x9A] then ceilDiv n (if prec then 32 else 16)
  else if op = 0xA8 then ceilDiv n 16
  else if vReduction op ∨ op = 0xB0 ∨ op = 0xB1 then ceilDiv n 64
  else ceilDiv n (if prec then 128 else 64)

/-- Duration D; an instruction of no elements takes 1 cycle. -/
def VectorEntry.duration (e : VectorEntry) (n : Nat) : Nat :=
  let op := opOf e.word
  if op = 0x80 ∨ op = 0xB8 ∨ op = 0xB9 then e.groups n
  else if n = 0 then 1
  else if vReduction op then e.groups n + 6
  else if op = 0xB0 ∨ op = 0xB1 then e.groups n + (e.scaleRows n).length
  else e.groups n

/-- Latency P. -/
def vectorLatency (op : Nat) : Nat :=
  if op = 0x80 then 4
  else if op = 0x87 then 8
  else if op ∈ [0x98, 0x99, 0x9A] then 14
  else if vReduction op then 4
  else if op = 0xA8 then 8
  else if op = 0xB0 ∨ op = 0xB1 then 12
  else if op = 0xB8 ∨ op = 0xB9 then 2
  else 6

/-- Vector registers an instruction reads, and the one it writes. -/
def vectorReads (w : IWord) : List Nat :=
  let op := opOf w
  let b := if vBmode w = 3 then [] else [vB w]
  if op ∈ [0x84, 0x85, 0x86, 0x88, 0x89, 0x98, 0xAA] then vA w :: b
  else if op = 0x87 then vA w :: vC w :: b
  else if op = 0x8A ∨ op = 0x99 ∨ op = 0x9A ∨ vReduction op then [vA w]
  else if op = 0xA8 then [vA w, vB w]
  else if op = 0xB1 then [vD w]
  else []
def vectorWrites (w : IWord) : List Nat :=
  if opOf w ∈ [0xB1, 0xB8, 0xB9] then [] else [vD w]

/-- A VGETF of the sequencer has not yet written its register. -/
def Sequencer.lateAfter (q : Sequencer) (now : Nat) : Bool := q.late.elim false (fun l => decide (now < l.at_))

/-- No interlock or register dependency holds the instruction at cycle `now` (R103, R129, R133). -/
def Tile.vectorFree (t : Tile) (now : Nat) (e : VectorEntry) : Bool :=
  let w := e.word
  let acc := if opOf w = 0x80 then
      t.matrix.undrained.all (fun u => decide (u.1 ≠ vaccBank w))
      && t.matrix.queue.all (fun m => decide (e.order < m.order) || !matrixWrites m.word
        || decide (matrixBank m.word ≠ vaccBank w))
    else true
  let used := vectorReads w ++ vectorWrites w
  let regs := t.vector.writeAt.all (fun p => decide (p.1 ∉ used) || decide (p.2 ≤ now))
  let all_ := if opOf w = 0xB8 then
      t.vector.writeAt.all (fun p => decide (p.2 ≤ now)) && decide (t.vector.storeAt ≤ now)
        && !t.fwd.lateAfter now && !t.bwd.lateAfter now && !t.svc.lateAfter now
    else true
  acc && regs && all_

/-- The instruction at the head of the vector queue that may begin at cycle `now` (R133). -/
def Tile.vectorHead (t : Tile) (now : Nat) : Option VectorEntry :=
  match t.vector.queue with
  | [] => none
  | e :: _ =>
    if bit t.gate gateVector ∧ e.issued + 2 ≤ now ∧ t.vector.freeAt ≤ now ∧ t.vectorFree now e then some e else none

/-- Results written to elements 0 on of the destination register. -/
def VectorEngine.put (v : VectorEngine) (r off : Nat) (ws : List Word) : VectorEngine :=
  { v with regs := v.regs.setMany (4096 * r + off) ws }

/-- The effect of an instruction over N elements on registers, flags and scratchpad. -/
def Tile.vectorEffect (t : Tile) (portal ovf : Bool) (now : Nat) (e : VectorEntry) (n : Nat)
    (es : List RowError) : Tile :=
  let w := e.word
  let op := opOf w
  if vElementwise op then
    let rs := elementwise t.vector e n
    { t with vector := t.vector.put (vD w) 0 (rs.map Prod.fst) }.setFlagIf (rs.any Prod.snd) flagInvalidV
  else if vReduction op then
    let rs := reduction t.vector e n
    { t with vector := t.vector.put (vD w) 0 (rs.map Prod.fst) }.setFlagIf (rs.any Prod.snd) flagInvalidV
  else if op = 0xA8 then
    let rs := permute t.vector e n
    let out := (rs.filter Prod.snd).length
    ({ t with vector := t.vector.put (vD w) 0 (rs.map Prod.fst) }.setFlagIf (decide (0 < out))
      flagPermRange).count Ctr.PERM_RANGE_LANES out
  else if op = 0x80 then
    let vs := (t.matrix.bank (vaccBank w)).getMany (32 * vaccFirst w) (32 * vaccRows w)
    { t with vector := t.vector.put (vD w) (vaccOff w) vs }
  else if op = 0xB0 then
    let t := { t with vector := t.vector.put (vD w) (vmOff w) (vldWords (t.delivered es) portal e n) }
    (t.rowFaults portal (e.memRows n)).opndFaults (e.scaleFaults n)
  else if op = 0xB1 then
    let c := vstConvert ovf t.vector e n
    let t := ((t.merged es).putRun portal (64 * e.memRow) (packBytes (vmFmt w) c.raws)).putRun portal e.memScale
      c.scales
    let t := (t.setFlagIf (decide (0 < c.sat)) flagSatV).setFlagIf c.invalid flagInvalidV
    ((t.count Ctr.SAT_ELEMENTS c.sat).rowFaults portal (e.memRows n)).opndFaults (e.scaleFaults n)
  else if op = 0xB8 then
    t.modSeq e.seq (fun sq =>
      { sq.settle now with late := some { reg := BitVec.ofNat 4 (vD w), value := t.flags, at_ := now + 2 } })
  else if op = 0xB9 then t.clearFlags (vclrMask w)
  else t

/-- The instruction runs: its effect, its timing, its counters and its faults (R131 to R137). With an
uncorrectable row or parity error it writes nothing. `miss` is the pause for rows that miss their slots. -/
def Tile.runVector (t : Tile) (portal ovf : Bool) (now miss : Nat) (e : VectorEntry) (errs : EngineErrors) :
    Tile :=
  let w := e.word
  let n := t.vectorLength now e
  let rows := if vIsMem w then e.elemRows n ++ e.scaleRows n else []
  let es := errs.rows.filter (fun r => decide (r.row ∈ rows))
  let pause := slowCycles es + miss
  let bad := errs.parity || rowsUncorrectable es
  let fin := now + e.duration n + pause
  let last := fin + vectorLatency (opOf w)
  let t1 := if bad || (decide (n = 0) && decide (opOf w ∉ [0x80, 0xB8, 0xB9])) then t
    else t.vectorEffect portal ovf now e n es
  let t2 := { t1 with vector := { t1.vector with
    queue := t.vector.queue.drop 1, freeAt := fin,
    writeAt := (vectorWrites w).foldl (fun l r => aset r last l) t.vector.writeAt,
    bankRead := (if opOf w = 0x80 then
      (vaccBank w, fin) :: t.vector.bankRead.filter (fun b => now < b.2) else t.vector.bankRead),
    storeAt := if opOf w = 0xB1 ∨ opOf w = 0xB9 then max t.vector.storeAt last else t.vector.storeAt } }
  let t3 := t2.recordRowErrors portal false 1 es
  ((t3.count Ctr.VECTOR_GROUPS (e.groups n)).count Ctr.VECTOR_PAUSES pause).slip e.seq now (now + pause) |>.modSeq
    e.seq (fun s => { s with doneAt := max s.doneAt last })

/-- VECTOR_BEGIN (R133). -/
def execVectorBegin (t : TileId) (e : EngineErrors) (s : State) : Result :=
  let now := s.cycle t.slab
  let p := isPortal t
  let ovf := s.fp8Nan t.slab
  match (if (s.slab t.slab).ready then (s.tile t).vectorHead now else none) with
  | none => .next s
  | some v =>
    let tl := s.tile t
    let n := tl.vectorLength now v
    let rows := if vIsMem v.word then v.elemRows n ++ v.scaleRows n else []
    let bad := e.parity || rowsUncorrectable (e.rows.filter (fun r => decide (r.row ∈ rows)))
    let (miss, s) := s.takeFree (v.missBound p n + 1)
    .next ((s.onTile t (fun now tl => tl.runVector p ovf now miss v e)).tileErrorIf bad t)

end Sys2Proof.Machine
end

