-- ==== Sys2Proof/Machine/Shelf.lean ====
section
/-! DEFINITION. Shelf memory (R187 to R214): page-table entries, homes, stripes and parity, reads and
writes of homes, translation, atomics, rebuilds and migration. -/

namespace Sys2Proof.Machine

open Sys2Proof

/-! ## Page table entries (Table 8.3) -/

def pteValid (e : DWord) : Bool := bit e 63
def pteRes (e : DWord) : Nat := bits e 62 61
def pteSlab (e : DWord) : Bool := bit e 60
def pteProt (e : DWord) : Nat := bits e 59 58
def pteStack (e : DWord) : Nat := bits e 57 53
def pteFrame (e : DWord) : Nat := bits e 52 38
def pteRX (e : DWord) : Nat := bits e 37 31
def pteRY (e : DWord) : Nat := bits e 30 24
def pteRFrame (e : DWord) : Nat := bits e 23 17

/-- A valid entry without residence. -/
def mkPte (slab : Bool) (prot stack frame : Nat) : DWord :=
  BitVec.ofNat 64 (2 ^ 63 + (if slab then 2 ^ 60 else 0) + prot % 4 * 2 ^ 58 + stack % 32 * 2 ^ 53
    + frame % 2 ^ 15 * 2 ^ 38)

/-- The entry with its residence fields set. -/
def pteWithRes (e : DWord) (res rx ry rframe : Nat) : DWord :=
  BitVec.ofNat 64 (e.toNat / 2 ^ 63 * 2 ^ 63 + res % 4 * 2 ^ 61 + bits e 60 38 * 2 ^ 38
    + rx % 2 ^ 7 * 2 ^ 31 + ry % 2 ^ 7 * 2 ^ 24 + rframe % 2 ^ 7 * 2 ^ 17)

/-- The entry with a new home. -/
def pteWithHome (e : DWord) (stack frame : Nat) : DWord :=
  BitVec.ofNat 64 (bits e 63 58 * 2 ^ 58 + stack % 32 * 2 ^ 53 + frame % 2 ^ 15 * 2 ^ 38 + bits e 37 0)

/-- Bytes of a page. -/
def pageBytes : Nat := 2097152

/-- The page a job-range address lies in (R187). -/
def vpnOf (a : Nat) : Nat := a / pageBytes % 2 ^ 27

/-- The page entry of VPN `v` in the device slab `i` belongs to, with the slab that holds the page. -/
def State.pte (s : State) (i : SlabId) (v : Nat) : Option (SlabId × DWord) :=
  (s.devSlabs i).findSome? (fun k =>
    match alookup v (s.slab k).mem.pages with
    | none => none
    | some e => if pteValid e then some (k, e) else none)

/-! ## Shelf bytes -/

/-- The address at which the model keeps a byte of a stack's frame. -/
def shelfAddr (stack frame off : Nat) : Nat := 2 ^ 36 * stack + 2 ^ 21 * frame + off

/-- The stack serves its own data: it is neither parked, failed nor without its controller. -/
def Slab.stackUp (sl : Slab) (k : Nat) : Bool := decide ((sl.stack k).state = .good)

/-- `f` over the stacks of a slab. -/
def stacks24 : List Nat := List.range 24

/-- XOR of bytes. -/
def xorBytes (bs : List Byte) : Byte := bs.foldl (· ^^^ ·) 0

/-- Deltas on their way to a stripe's parity frame, for one sector, taken together (R210). -/
def Slab.deltaOf (sl : Slab) (frame sector : Nat) : BitVec 256 :=
  ((sl.stack (frame % 24)).deltas.filter (fun d => decide (d.frame = frame) && decide (d.sector = sector))).foldl
    (fun x d => x ^^^ d.delta) 0

/-- A byte rebuilt from the other 23 frames of its stripe, with the deltas in flight to its parity (R212, R213). None when the
stripe is no parity stripe or lacks another frame. -/
def Slab.rebuiltByte (sl : Slab) (stack frame off : Nat) : Option Byte :=
  let others := stacks24.filter (fun k => decide (k ≠ stack))
  if decide (alookup frame sl.mem.stripes = some .parity) && others.all sl.stackUp then
    some (xorBytes (others.map (fun k => Cells.read sl.mem.shelf (shelfAddr k frame off)))
      ^^^ (sl.deltaOf frame (off / 32)).extractLsb' (8 * (off % 32)) 8)
  else none

/-- A byte of a frame below its cache slice: the stack's own, or rebuilt when the stack is out of service. -/
def Slab.shelfByte (sl : Slab) (stack frame off : Nat) : Option Byte :=
  if sl.stackUp stack then some (Cells.read sl.mem.shelf (shelfAddr stack frame off)) else sl.rebuiltByte stack frame off

/-- The line of a frame that the slice holds. -/
def Stack.lineAt (x : Stack) (frame line : Nat) : Option SliceLine :=
  x.slice.find? (fun l => decide (l.frame = frame) && decide (l.line = line))

/-- A byte of a home: that of the line the slice holds, which survives the loss of the stack (R194), else the shelf's. -/
def Slab.homeByte (sl : Slab) (stack frame off : Nat) : Option Byte :=
  match (sl.stack stack).lineAt frame (off / 128) with
  | some l => some (l.data.extractLsb' (8 * (off % 128)) 8)
  | none => sl.shelfByte stack frame off

/-- `n` bytes of a home; none when they cannot be read. -/
def Slab.homeBytes (sl : Slab) (stack frame : Nat) : Nat → Nat → Option (List Byte)
  | _, 0 => some []
  | off, n + 1 =>
    match sl.homeByte stack frame off, sl.homeBytes stack frame (off + 1) n with
    | some b, some bs => some (b :: bs)
    | _, _ => none

/-- The parity stack of a stripe (R209). -/
def parityStack (frame : Nat) : Nat := frame % 24

/-- Traffic of a stack that waits for positions of its class on the controller's wheel (R243). -/
def Slab.addWork (sl : Slab) (stack : Nat) (w : ShelfWork) : Slab :=
  if w.bytes = 0 then sl else sl.modStack stack (fun x => { x with work := x.work ++ [w] })

/-- Traffic of a cache slice or of base camp, which no stream and no unit waits for. -/
def campWork (cls : ShareClass) (bytes : Nat) : ShelfWork := { cls := cls, unit := false, owner := none, bytes := bytes }

/-- A delta on its way to the parity stack of the frame's stripe (R210); with that stack out of service
the stripe is unprotected and takes none. -/
def Slab.sendDelta (sl : Slab) (frame sector : Nat) (d : BitVec 256) : Slab :=
  let p := parityStack frame
  if d = 0 ∨ !sl.stackUp p then sl
  else (sl.modStack p (fun st =>
    { st with deltas := st.deltas ++ [{ frame := frame, sector := sector, delta := d }] })).addWork p (campWork .remote 32)

/-- 32 bytes as a sector, and back. -/
def sectorOf (bs : List Byte) : BitVec 256 := BitVec.ofNat 256 (leNat (bs.take 32))
def sectorBytes (v : BitVec 256) : List Byte := leBytes v.toNat 32

/-- A sector of a home, from a rebuild when its stack is out of service. -/
def Slab.sector (sl : Slab) (stack frame k : Nat) : Option (BitVec 256) :=
  (sl.homeBytes stack frame (32 * k) 32).map sectorOf

/-- A sector below the cache slice. -/
def Slab.shelfSector (sl : Slab) (stack frame k : Nat) : Option (BitVec 256) :=
  ((List.range 32).foldr (fun j acc => match sl.shelfByte stack frame (32 * k + j), acc with
    | some b, some bs => some (b :: bs)
    | _, _ => none) (some [])).map sectorOf

/-- A sector of a stack written (R210, R213): a page of a parity stripe sends its delta; on a stack out of
service only the parity changes. -/
def Slab.putShelf (sl : Slab) (stack frame k : Nat) (v : BitVec 256) : Slab :=
  let parity := decide (alookup frame sl.mem.stripes = some .parity)
  let sl' := match (if parity then sl.shelfSector stack frame k else none) with
    | none => sl
    | some old => sl.sendDelta frame k (old ^^^ v)
  if sl.stackUp stack then
    sl'.modMem (fun m => { m with shelf := Cells.writeN m.shelf (shelfAddr stack frame (32 * k)) (sectorBytes v) })
  else sl'

/-! ## The cache slice (R194) -/

/-- A line put first, as the most recently used. -/
def Stack.useLine (x : Stack) (l : SliceLine) : Stack :=
  { x with slice := l :: x.slice.filter (fun y => !(decide (y.frame = l.frame) && decide (y.line = l.line))) }

/-- A sector of a line. -/
def SliceLine.sector (l : SliceLine) (c : Nat) : BitVec 256 := l.data.extractLsb' (256 * (c % 4)) 256

/-- A line with a sector written. -/
def SliceLine.put (l : SliceLine) (c : Nat) (v : BitVec 256) : SliceLine :=
  { l with dirty := true
           data := BitVec.ofNat 1024 ((List.range 4).foldl (fun n j =>
             n + (if j = c % 4 then v else l.sector j).toNat * 2 ^ (256 * j)) 0) }

/-- A line written back: its sectors that differ from the stack's go there, with their deltas (R210). -/
def Slab.writeBack (sl : Slab) (stack : Nat) (l : SliceLine) : Slab :=
  if !l.dirty then sl
  else (List.range 4).foldl (fun sl c =>
    let k := 4 * l.line + c
    if sl.shelfSector stack l.frame k = some (l.sector c) then sl
    else (sl.putShelf stack l.frame k (l.sector c)).addWork stack (campWork .write 32)) sl

/-- The set of a line: 8,192 sets of 16 ways. DESIGN CHOICE: the low bits of its number within the stack; R194 does not give the
index. -/
def sliceSet (frame line : Nat) : Nat := (frame * 16384 + line) % 8192

/-- A line allocated, with a fill of class `cls`: in place of the least recently used one of its set that is not `pinned`, when all 16 ways are taken; when all are
pinned it is not held. -/
def Slab.allocLine (sl : Slab) (stack frame line : Nat) (cls : ShareClass) (pinned : SliceLine → Bool) : Slab :=
  match (sl.stack stack).lineAt frame line with
  | some l => sl.modStack stack (fun x => x.useLine l)
  | none =>
    let get (c : Nat) : Option (BitVec 256) := sl.shelfSector stack frame (4 * line + c)
    match get 0, get 1, get 2, get 3 with
    | some a, some b, some c, some d =>
      let l : SliceLine := { frame := frame, line := line, data := d ++ c ++ b ++ a, dirty := false }
      let sl := sl.addWork stack (campWork cls 128)
      let ways := (sl.stack stack).slice.filter (fun y => decide (sliceSet y.frame y.line = sliceSet frame line))
      if ways.length < 16 then sl.modStack stack (fun x => x.useLine l)
      else match ways.reverse.find? (fun y => !pinned y) with
        | none => sl
        | some v => (sl.writeBack stack v).modStack stack (fun x => { x with slice := x.slice.filter (fun y => decide (y ≠ v)) }.useLine l)
    | _, _, _, _ => sl

/-- Lines of a frame given up with what they hold. -/
def Slab.dropLines (sl : Slab) (stack frame : Nat) : Slab :=
  if (sl.stack stack).slice.isEmpty then sl
  else sl.modStack stack (fun x => { x with slice := x.slice.filter (fun l => decide (l.frame ≠ frame)) })

/-- Lines of a frame written back and given up. -/
def Slab.flushFrame (sl : Slab) (stack frame : Nat) : Slab :=
  (((sl.stack stack).slice.filter (fun l => decide (l.frame = frame))).foldl (fun sl l => sl.writeBack stack l) sl).dropLines stack frame

/-- A sector of a home written: every access passes through the slice, and a line that it holds takes the write (R194). -/
def Slab.putSector (sl : Slab) (stack frame k : Nat) (v : BitVec 256) : Slab :=
  match (sl.stack stack).lineAt frame (k / 4) with
  | some l => sl.modStack stack (fun x => x.useLine (l.put k v))
  | none => sl.putShelf stack frame k v

/-- The sectors that bytes at `off` of a frame touch, each with its new contents. -/
def Slab.mergeSectors (sl : Slab) (stack frame off : Nat) (bs : List Byte) : List (Nat × BitVec 256) :=
  let first := off / 32
  let n := if bs.isEmpty then 0 else (off + bs.length - 1) / 32 + 1 - first
  (List.range n).map (fun i =>
    let k := first + i
    let old := match sl.sector stack frame k with
      | none => List.replicate 32 0
      | some v => sectorBytes v
    (k, sectorOf ((List.range 32).map (fun j =>
      let a := 32 * k + j
      if off ≤ a ∧ a < off + bs.length then bs.getD (a - off) 0 else old.getD j 0))))

/-- Bytes of one page written to its home. -/
def Slab.putHome (sl : Slab) (stack frame off : Nat) (bs : List Byte) : Slab :=
  (sl.mergeSectors stack frame off bs).foldl (fun sl p => sl.putSector stack frame p.1 p.2) sl

/-! ## Job-range accesses by base camp and units -/

/-- Bytes of one page. -/
def State.readPage (s : State) (i : SlabId) (v off n : Nat) : Option (List Byte) :=
  match s.pte i v with
  | none => none
  | some (k, e) => (s.slab k).homeBytes (pteStack e) (pteFrame e) off n

/-- A byte range cut at page boundaries: page, offset, bytes before it, length. -/
def pagePieces (a n : Nat) : Nat → Nat → List (Nat × Nat × Nat × Nat)
  | 0, _ => []
  | fuel + 1, done =>
    if n ≤ done then []
    else
      let off := (a + done) % pageBytes
      let m := min (n - done) (pageBytes - off)
      (vpnOf (a + done), off, done, m) :: pagePieces a n fuel (done + m)

/-- The pieces of a range. -/
def pieces (a n : Nat) : List (Nat × Nat × Nat × Nat) := pagePieces a n (n / pageBytes + 2) 0

/-- Bytes of the job range; an unmapped page reads as zero (R191). None when a page cannot be read. -/
def State.readRange (s : State) (i : SlabId) (a n : Nat) : Option (List Byte) :=
  (pieces a n).foldl (fun acc p =>
    match acc with
    | none => none
    | some bs =>
      match s.pte i p.1 with
      | none => some (bs ++ List.replicate p.2.2.2 0)
      | some _ => (s.readPage i p.1 p.2.1 p.2.2.2).map (bs ++ ·)) (some [])

/-- Bytes of the job range, zero where they cannot be read. -/
def State.readRangeD (s : State) (i : SlabId) (a n : Nat) : List Byte :=
  (s.readRange i a n).getD (List.replicate n 0)

/-- Bytes written to the job range; an unmapped page takes none. -/
def State.writeRange (s : State) (i : SlabId) (a : Nat) (bs : List Byte) : State :=
  (pieces a bs.length).foldl (fun s p =>
    match s.pte i p.1 with
    | none => s
    | some (k, e) =>
      s.modSlab k (fun sl => sl.putHome (pteStack e) (pteFrame e) p.2.1 ((bs.drop p.2.2.1).take p.2.2.2))) s

/-! ## Objects -/

/-- The mapped object that holds an address, with its slab. -/
def State.objectAt (s : State) (i : SlabId) (a : Nat) : Option ObjectEntry :=
  (s.devSlabs i).findSome? (fun k =>
    (s.slab k).mem.objects.find? (fun o => decide (o.base ≤ a) && decide (a < o.base + o.size)))

/-- The mapped object of a number. -/
def State.objectNo (s : State) (i : SlabId) (n : Nat) : Option ObjectEntry :=
  (s.devSlabs i).findSome? (fun k => (s.slab k).mem.objects.find? (fun o => decide (o.object = n)))

/-- The object has an update descriptor. -/
def ObjectEntry.isParam (o : ObjectEntry) : Bool := decide (o.flags % 2 = 1)

/-- Pages of an object. -/
def ObjectEntry.pages (o : ObjectEntry) : Nat := (o.size + pageBytes - 1) / pageBytes

/-- The slab that holds an object: FLAGS bit 4 in joined mode. -/
def State.objectSlab (s : State) (i : SlabId) (o : ObjectEntry) : SlabId :=
  match s.shared.mode with
  | .split => i
  | .joined => if o.flags / 16 % 2 = 1 then .s1 else .s0

/-! ## Translation (R191) -/

/-- A cached translation. -/
def Tile.cached (t : Tile) (v : Nat) : Option DWord := alookup v t.xlate

/-- A translation put first among those of its set of eight ways. -/
def Tile.cache (t : Tile) (v : Nat) (e : DWord) : Tile :=
  let others := aerase v t.xlate
  let same := others.filter (fun p => decide (p.1 % 64 = v % 64))
  let drop := same.drop 7
  { t with xlate := (v, e) :: others.filter (fun p => decide (p.1 ∉ drop.map Prod.fst)) }

/-- A hit makes the translation the most recent of its set. -/
def Tile.touch (t : Tile) (v : Nat) : Tile :=
  match t.cached v with
  | none => t
  | some e => t.cache v e

/-- A translation invalidated in every cache of the device. -/
def State.invalidate (s : State) (i : SlabId) (v : Nat) : State :=
  s.modDev i (fun sl => sl.mapTiles (fun _ _ t => { t with xlate := aerase v t.xlate }))

/-! ## The page table in stripes 0 to 15 (R190, R353) -/

/-- The `n`-th data frame of stripes 0 to 15: stack and frame. -/
def tableFrame (n : Nat) : Nat × Nat :=
  let f := n / 23
  let k := n % 23
  (if k < f % 24 then k else k + 1, f)

/-- Bytes written by base camp to a frame of stripes 0 to 15, which are parity stripes: the parity changes with them. -/
def Slab.campWrite (sl : Slab) (at_ : Nat × Nat) (off : Nat) (bs : List Byte) : Slab :=
  let a := shelfAddr at_.1 at_.2 off
  let p := shelfAddr (parityStack at_.2) at_.2 off
  sl.modMem (fun m =>
    let old := Cells.readN m.shelf a bs.length
    let par := Cells.readN m.shelf p bs.length
    let d := List.zipWith (· ^^^ ·) old bs
    { m with shelf := Cells.writeN (Cells.writeN m.shelf p (List.zipWith (· ^^^ ·) par d)) a bs })

/-- Bytes of table `n` written in both its copies, which stand on two stacks (R353). Table 0 is level 1. -/
def Slab.tableWrite (sl : Slab) (n off : Nat) (bs : List Byte) : Slab :=
  (sl.campWrite (tableFrame (2 * n)) off bs).campWrite (tableFrame (2 * n + 1)) off bs

/-- The first number from 1 on that no level-2 table has. -/
def Memory.freeTable (m : Memory) : Nat :=
  ((List.range (m.tables.length + 1)).map (· + 1)).find? (fun n => m.tables.all (fun p => decide (p.2 ≠ n))) |>.getD 1

/-- The level-1 entry of a table: the frame of its first copy, as stack × 2^15 + frame (DESIGN CHOICE: R190 does not say how an entry
writes a frame), or 0. -/
def tableEntry (n : Nat) : List Byte := leBytes (if n = 0 then 0 else (tableFrame (2 * n)).1 * 2 ^ 15 + (tableFrame (2 * n)).2) 8

/-- An entry written into the two-level table: a level-2 table that becomes the first or the last entry's takes or leaves its
frame. DESIGN CHOICE: the lowest free frame. -/
def Slab.tablePut (sl : Slab) (v : Nat) (e : DWord) : Slab :=
  let x := v / 16384
  let sl := if (alookup x sl.mem.tables).isSome ∨ pteValid e = false then sl
    else
      let n := sl.mem.freeTable
      (sl.modMem (fun m => { m with tables := aset x n m.tables })).tableWrite 0 (8 * x) (tableEntry n)
  match alookup x sl.mem.tables with
  | none => sl
  | some n =>
    let sl := sl.tableWrite n (8 * (v % 16384)) (leBytes (if pteValid e then e.toNat else 0) 8)
    if sl.mem.pages.any (fun p => decide (p.1 / 16384 = x)) then sl
    else (sl.modMem (fun m => { m with tables := aerase x m.tables })).tableWrite 0 (8 * x) (tableEntry 0)

/-- A page entry written by base camp, with its translations invalidated (R190, R206). -/
def State.setPte (s : State) (i : SlabId) (k : SlabId) (v : Nat) (e : DWord) : State :=
  (s.modSlab k (fun sl => (sl.modMem (fun m =>
    { m with pages := if pteValid e then aset v e m.pages else aerase v m.pages })).tablePut v e)).invalidate i v

/-! ## Residence of pages at tiles (R188, R202) -/

/-- RES of a page set to none (R202, R205). -/
def State.dropResidence (s : State) (i : SlabId) (v : Nat) : State :=
  match s.pte i v with
  | none => s
  | some (k, e) => s.setPte i k v (pteWithRes e 0 0 0 0)

/-- Slab-local x of device-wide x at slab `k`. -/
def State.localX (s : State) (k : SlabId) (x : Nat) : Nat := if s.shared.mode = .joined then x - 112 * k.num else x

/-- An idle tile's banks without power (R155). -/
def Tile.idleBanks (t : Tile) : Tile := if t.entry.isSome then t else { t with powered := 0, scratch := [] }

/-- A residence frame at a tile of slab `k` given up: its record and its page's residence; the banks of an idle tile that held
a page lose power (R155). -/
def State.leaveResidence (s : State) (k : SlabId) (key : Nat × Nat × Nat) : State :=
  match alookup key (s.slab k).mem.residence with
  | none => s
  | some (v, _) =>
    let x := s.localX k key.1
    (s.dropResidence k v).modSlab k (fun sl =>
      let sl := sl.modMem (fun m => { m with residence := aerase key m.residence, dropping := m.dropping.filter (fun z => decide (z ≠ key)) })
      if key.2.2 = 64 then sl.modTile x key.2.1 Tile.idleBanks else sl)

/-- Residence frames of slab `k` that a test names given up. -/
def State.leaveAll (s : State) (k : SlabId) (c : (Nat × Nat × Nat) × Nat × DWord → Bool) : State :=
  ((s.slab k).mem.residence.filter c).foldl (fun s p => s.leaveResidence k p.1) s

/-- Every residence copy of a page given up. -/
def State.leavePage (s : State) (i : SlabId) (v : Nat) : State :=
  (s.devSlabs i).foldl (fun s k => s.leaveAll k (fun p => decide (p.2.1 = v))) s

/-! ## Accesses that allocate lines (R194) -/

/-- An atomic waits for the line, which keeps its place until then. -/
def State.pinned (s : State) (k : SlabId) (stack : Nat) (l : SliceLine) : Bool :=
  ((s.slab k).stack stack).atomics.any (fun a => match s.pte k (vpnOf a.addr) with
    | none => false
    | some (w, e) => decide (w = k) && decide (pteStack e = stack) && decide (pteFrame e = l.frame)
        && decide (a.addr % pageBytes / 128 = l.line))

/-- The lines of a range of the job range allocated in the slices of their homes, as gathers and atomics do. -/
def State.allocLines (s : State) (i : SlabId) (a n : Nat) : State :=
  (pieces a n).foldl (fun s p => match s.pte i p.1 with
    | none => s
    | some (w, e) =>
      let first := p.2.1 / 128
      (List.range ((p.2.1 + p.2.2.2 + 127) / 128 - first)).foldl (fun (s : State) j =>
        s.modSlab w (fun sl =>
          sl.allocLine (pteStack e) (pteFrame e) (first + j) (if w = i then .read else .remote) (s.pinned w (pteStack e)))) s) s

/-- The lines of both levels that a walk for page `v` reads allocated. -/
def State.walkLines (s : State) (k : SlabId) (v : Nat) : State :=
  let line (s : State) (n off : Nat) : State :=
    let f := tableFrame (2 * n)
    s.modSlab k (fun sl => sl.allocLine f.1 f.2 (off / 128) .read (s.pinned k f.1))
  let s := line s 0 (8 * (v / 16384))
  match alookup (v / 16384) (s.slab k).mem.tables with
  | none => s
  | some n => line s n (8 * (v % 16384))

/-! ## Waiting traffic of the shelf controllers (R243) -/

/-- Traffic for a range of the job range: `cls` at the stack of each home, and remote for homes on the other slab. -/
def State.addWork (s : State) (i : SlabId) (a n : Nat) (cls : ShareClass) (unit : Bool) (owner : Option (Nat × Nat)) : State :=
  (pieces a n).foldl (fun s p => match s.pte i p.1 with
    | none => s
    | some (w, e) => s.modSlab w (fun sl => sl.addWork (pteStack e)
        { cls := if w = i then cls else .remote, unit := unit, owner := owner, bytes := p.2.2.2 })) s

/-- Bytes that an update unit writes, with their traffic. -/
def State.unitWrite (s : State) (i : SlabId) (a : Nat) (bs : List Byte) : State :=
  (s.writeRange i a bs).addWork i a bs.length .write true none

/-- Bytes that an update unit reads, as traffic. -/
def State.unitRead (s : State) (i : SlabId) (a n : Nat) : State := s.addWork i a n .read true none

/-- The traffic of a run that has returned is done. -/
def State.doneWork (s : State) (i : SlabId) (owner : Nat × Nat) : State :=
  s.modDev i (fun sl => { sl with stackList := sl.stackList.map (fun p =>
    (p.1, { p.2 with work := p.2.work.filter (fun w => decide (w.owner ≠ some owner)) })) })

/-- TRANSLATION_WALK (R191): a miss walks the page table through the caches, and the tile's cache takes the entry. -/
def execTranslationWalk (t : TileId) (vpn : BitVec 27) (s : State) : Result :=
  let v := vpn.toNat
  if !(s.slab t.slab).ready || !isPortal t || ((s.tile t).cached v).isSome then .next s
  else
    let e := match s.pte t.slab v with
      | none => 0
      | some (_, e) => e
    let k := (s.pte t.slab v).elim t.slab Prod.fst
    let s := s.walkLines k v
    .next (s.modTile t (fun tl => (tl.cache v e).count Ctr.XLATE_MISSES 1))

/-! ## Atomics (R195, R196) -/

/-- Bits of the element of an atomic code. -/
def atomicBits (op : Nat) : Nat :=
  if op ∈ [1, 6, 7] then 16 else if op ∈ [3, 11, 13] then 64 else 32

/-- The value of an atomic for one element: stored bits, operand bits and compare bits (Table 8.4). -/
def atomicElem (op old x cmp : Nat) : Nat :=
  let o : Word := BitVec.ofNat 32 old
  let v : Word := BitVec.ofNat 32 x
  match op with
  | 0 => (f32add o v).toNat
  | 1 => bf16.round .nearestEven (Word.fp (f32add (BitVec.ofNat 32 (old * 2 ^ 16)) (BitVec.ofNat 32 (x * 2 ^ 16))))
  | 2 => (o + v).toNat
  | 3 => (old + x) % 2 ^ 64
  | 4 => (pickWord false true o v).toNat
  | 5 => (pickWord false false o v).toNat
  | 6 => (pickWord false true (BitVec.ofNat 32 (old * 2 ^ 16)) (BitVec.ofNat 32 (x * 2 ^ 16))).toNat / 2 ^ 16
  | 7 => (pickWord false false (BitVec.ofNat 32 (old * 2 ^ 16)) (BitVec.ofNat 32 (x * 2 ^ 16))).toNat / 2 ^ 16
  | 8 => if o.toInt < v.toInt then x else old
  | 9 => if v.toInt < o.toInt then x else old
  | 10 => x
  | 11 => x
  | _ => if old = cmp then x else old

/-- The sector after an atomic: elements selected by the mask, or the one at `at_` bits. -/
def Atomic.apply (a : Atomic) (old : BitVec 256) : BitVec 256 :=
  let op := a.op.toNat
  let b := atomicBits op
  let sel (k : Nat) : Bool := if a.sector then a.mask.getLsbD k else decide (k = a.addr % 32 * 8 / b)
  BitVec.ofNat 256 ((List.range (256 / b)).foldl (fun n k =>
    let o := bits old (b * k + b - 1) (b * k)
    let x := if a.sector then bits a.operand (b * k + b - 1) (b * k) else bits a.operand (b - 1) 0
    n + (if sel k then atomicElem op o x a.compare.toNat else o) * 2 ^ (b * k)) 0)

/-- An atomic that a slice rejects: a reserved code, a misaligned element, a sector form of CAS. -/
def Atomic.bad (a : Atomic) : Bool :=
  let op := a.op.toNat
  decide (14 ≤ op) || (a.sector && (decide (12 ≤ op) || decide (a.addr % 32 ≠ 0)))
    || (!a.sector && decide (a.addr % (atomicBits op / 8) ≠ 0))

/-- One atomic of a message is applied (R233). -/
def State.atomicDone (s : State) (a : Atomic) : State := s.partDone a.tile a.sx a.sy a.msg

/-- An access of a portal tile that faults on its translation or its class (R189, R191). -/
def Tile.xlateFault (t : Tile) (n : Nat) : Tile :=
  if n = 0 then t else (t.setFlags flagOpndFault).count Ctr.XLATE_FAULTS n

/-- ATOMIC_APPLY (R195, R196): the oldest atomic at a slice is applied and acknowledged. -/
def execAtomicApply (slab : SlabId) (stack : Fin 24) (s₀ : State) : Result :=
  match (if (s₀.slab slab).ready then ((s₀.slab slab).stack stack.val).atomics else []) with
  | [] => .next s₀
  | a :: rest =>
    let s := s₀.modSlab slab (fun sl => sl.modStack stack.val (fun st => { st with atomics := rest }))
    if a.bad then
      .next (((s.modTile a.tile (fun tl => tl.setFlags flagOpndFault)).modSlab slab (fun sl =>
        sl.modStack stack.val (fun st => st.count Ctr.ATOMIC_FAULTS 1))).atomicDone a)
    else match s.pte slab (vpnOf a.addr) with
      | none => .next ((s.modTile a.tile (fun tl => tl.xlateFault 1)).atomicDone a)
      | some (k, e) =>
        let c := a.addr % pageBytes / 32
        let s := s.allocLines slab (a.addr / 32 * 32) 32
        match (s.slab k).sector (pteStack e) (pteFrame e) c with
        | none => .next s₀
        | some old =>
          .next ((s.modSlab k (fun sl => (sl.putSector (pteStack e) (pteFrame e) c (a.apply old)).modStack
            stack.val (fun st => { st.count Ctr.ATOMIC_OPS 1 with atomicOld := old }))).atomicDone a)

/-! ## Parity (R210) -/

/-- PARITY_DELTA (R210): the update unit of the parity stack applies the oldest delta. -/
def execParityDelta (slab : SlabId) (stack : Fin 24) (s : State) : Result :=
  let sl := s.slab slab
  match (if sl.ready then (sl.stack stack.val).deltas else []) with
  | [] => .next s
  | d :: rest =>
    .next (s.modSlab slab (fun sl =>
      let sl := sl.modStack stack.val (fun st => { st with deltas := rest })
      if !sl.stackUp stack.val || decide (alookup d.frame sl.mem.stripes ≠ some .parity) then sl
      else
        let a := shelfAddr stack.val d.frame (32 * d.sector)
        let old := sectorOf (Cells.readN sl.mem.shelf a 32)
        sl.modMem (fun m => { m with shelf := Cells.writeN m.shelf a (sectorBytes (old ^^^ d.delta)) })))

/-! ## Frames and stripes (R204, R209) -/

/-- Reserved: stripes 0 to 15, and frames base camp holds (R204). -/
def Slab.frameFree (sl : Slab) (stack frame : Nat) : Bool :=
  decide (16 ≤ frame) && decide (frame < 32768) && (alookup (stack, frame) sl.mem.frames).isNone

/-- The frame is free for a home of the kind: in a stripe of that kind or an undecided one, and not the
parity frame of a parity stripe. DESIGN CHOICE: an unprotected stripe takes no new home; R209 does not say. -/
def Slab.frameFor (sl : Slab) (parity : Bool) (stack frame : Nat) : Bool :=
  sl.frameFree stack frame &&
    (match alookup frame sl.mem.stripes with
     | none => !parity || decide (parityStack frame ≠ stack)
     | some .parity => parity && decide (parityStack frame ≠ stack)
     | some .open_ => !parity
     | some .unprotected => false)

/-- The first of `n` numbers from `k` on that `ok` admits. -/
def firstFrom (ok : Nat → Bool) : Nat → Nat → Option Nat
  | 0, _ => none
  | n + 1, k => if ok k then some k else firstFrom ok n (k + 1)

/-- The lowest-numbered frame of a stack for a home of the kind. -/
def Slab.lowestFrame (sl : Slab) (parity : Bool) (stack : Nat) : Option Nat := firstFrom (sl.frameFor parity stack) 32768 0

/-- The first stack from `start` on, in ascending order modulo 24 and leaving out `skip`, that is in
service and has such a frame, with the frame. -/
def Slab.findHome (sl : Slab) (parity : Bool) (start : Nat) (skip : Option Nat) : Option (Nat × Nat) :=
  stacks24.findSome? (fun k =>
    let st := (start + k) % 24
    if !sl.stackUp st || decide (some st = skip) then none
    else (sl.lowestFrame parity st).map (fun f => (st, f)))

/-- A home frame taken: the stripe takes its kind, and a parity stripe its parity frame; with its parity stack out of service it is
unprotected (R213). -/
def Slab.takeFrame (sl : Slab) (parity : Bool) (stack frame vpn : Nat) : Slab :=
  let kind : StripeKind := if !parity then .open_ else if sl.stackUp (parityStack frame) then .parity else .unprotected
  sl.modMem (fun m =>
    let fs := aset (stack, frame) (.data vpn) m.frames
    { m with frames := if parity then aset (parityStack frame, frame) .parity fs else fs
             stripes := aset frame kind m.stripes })

/-- A data frame of the stripe is still in use. -/
def Memory.stripeUsed (m : Memory) (frame : Nat) : Bool :=
  m.frames.any (fun p => decide (p.1.2 = frame) &&
    (match p.2 with
     | .data _ => true
     | _ => false))

/-- The bytes of a frame, as cells from offset 0 on. -/
def Cells.frame (m : Cells) (stack frame : Nat) : Cells :=
  (m.filter (fun c => shelfAddr stack frame 0 ≤ c.1 && c.1 < shelfAddr stack (frame + 1) 0)).map
    (fun c => (c.1 - shelfAddr stack frame 0, c.2))

/-- XOR of two cell lists, byte by byte. -/
def Cells.xor (a b : Cells) : Cells :=
  b.foldl (fun m c => Cells.write m c.1 (Cells.read m c.1 ^^^ c.2)) a

/-- A frame's contents replaced, in its slice too. -/
def Slab.setFrame (sl : Slab) (stack frame : Nat) (cs : Cells) : Slab :=
  (sl.dropLines stack frame).modMem (fun m =>
    let base := shelfAddr stack frame 0
    let empty := Cells.clear m.shelf base (shelfAddr stack (frame + 1) 0)
    { m with shelf := cs.foldl (fun m c => Cells.write m (base + c.1) c.2) empty })

/-- The deltas in flight to a stripe's parity frame as cells. -/
def Slab.deltaCells (sl : Slab) (frame : Nat) : Cells :=
  (sl.stack (parityStack frame)).deltas.foldl (fun m d =>
    if d.frame = frame then
      Cells.writeN m (32 * d.sector)
        (List.zipWith (· ^^^ ·) (Cells.readN m (32 * d.sector) 32) (sectorBytes d.delta))
    else m) []

/-- Deltas for a stripe's parity frame that are no longer wanted. -/
def Slab.dropDeltas (sl : Slab) (frame : Nat) : Slab :=
  sl.modStack (parityStack frame) (fun st =>
    { st with deltas := st.deltas.filter (fun d => decide (d.frame ≠ frame)) })

/-- A home frame freed: a stripe without homes is undecided again, its parity frame free and clear. -/
def Slab.freeFrame (sl : Slab) (stack frame : Nat) : Slab :=
  let m := { sl.mem with frames := aerase (stack, frame) sl.mem.frames }
  if m.stripeUsed frame then { sl with mem := m }
  else if alookup (parityStack frame, frame) m.frames = some .parity then
    let sl := ({ sl with mem :=
      { m with frames := aerase (parityStack frame, frame) m.frames, stripes := aerase frame m.stripes } } : Slab)
    (sl.dropDeltas frame).setFrame (parityStack frame) frame []
  else { sl with mem := { m with stripes := aerase frame m.stripes } }

/-- The contents of a home frame: its own bytes, or the XOR of the other 23 frames of its stripe. None
when the stripe cannot give them. -/
def Slab.frameCells (sl : Slab) (stack frame : Nat) : Option Cells :=
  if sl.stackUp stack then some (Cells.frame sl.mem.shelf stack frame)
  else
    let others := stacks24.filter (fun k => decide (k ≠ stack))
    if decide (alookup frame sl.mem.stripes = some .parity) && others.all sl.stackUp then
      some (others.foldl (fun m k => Cells.xor m (Cells.frame sl.mem.shelf k frame)) (sl.deltaCells frame))
    else none

/-- The parity frame of a stripe recomputed from its 23 data frames (R211, R214). -/
def Slab.recomputeParity (sl : Slab) (frame : Nat) : Slab :=
  let p := parityStack frame
  let others := stacks24.filter (fun k => decide (k ≠ p))
  let sl := sl.modStack p (fun st => { st with deltas := st.deltas.filter (fun d => decide (d.frame ≠ frame)) })
  sl.setFrame p frame (others.foldl (fun m k => Cells.xor m (Cells.frame sl.mem.shelf k frame)) [])

/-- A home frame filled with new contents, its old contents and the new ones taken into the parity of a
parity stripe; deltas still in flight for the stripe come after. -/
def Slab.fillFrame (sl : Slab) (stack frame : Nat) (cs : Cells) : Slab :=
  let old := Cells.frame sl.mem.shelf stack frame
  let p := parityStack frame
  let sl' := sl.setFrame stack frame cs
  if alookup frame sl.mem.stripes = some .parity ∧ sl.stackUp p then
    sl'.setFrame p frame (Cells.xor (Cells.xor (Cells.frame sl'.mem.shelf p frame) old) cs)
  else sl'

/-- A home frame emptied and freed, with the parity of its stripe updated. -/
def Slab.dropFrame (sl : Slab) (stack frame : Nat) : Slab := (sl.fillFrame stack frame []).freeFrame stack frame

/-- Every address of a page has a home on a stack: the pages homed there. -/
def Slab.pagesOn (sl : Slab) (stack : Nat) : List (Nat × DWord) :=
  sl.mem.pages.filter (fun p => decide (pteStack p.2 = stack))

/-! ## Uncorrectable sectors (R212) -/

/-- A sector rebuilt from the other 23 of its stripe; none where the stripe is not protected. -/
def Slab.rebuiltSector (sl : Slab) (stack frame k : Nat) : Option (BitVec 256) :=
  ((List.range 32).foldr (fun j acc => match sl.rebuiltByte stack frame (32 * k + j), acc with
    | some b, some bs => some (b :: bs)
    | _, _ => none) (some [])).map sectorOf

/-- A sector of a stack's cells replaced. -/
def Slab.setSector (sl : Slab) (stack frame k : Nat) (bs : List Byte) : Slab :=
  sl.modMem (fun m => { m with shelf := Cells.writeN m.shelf (shelfAddr stack frame (32 * k)) bs })

/-- A sector that can be had from nowhere: its bytes are free values, and a hold is requested (R212). -/
def State.sectorLost (s : State) (i : SlabId) (stack frame k : Nat) : State :=
  let lost := freeBytes s.free 32
  (({ s with free := s.free + 1 } : State).modSlab i (fun sl => sl.setSector stack frame k lost)).raise i 0x08
    (some ⟨stack % 24, Nat.mod_lt _ (by decide)⟩)

/-- An uncorrectable sector of a page (R212): a PARITY sector is rebuilt from its stripe and written back; a REPLICA page's data are
withheld until base camp has fetched the page from the peer; a NONE page's step is replayed. DEDUCED: so is the step of a
PARITY page whose stripe is unprotected. A stack out of service reports no error of its own. -/
def State.sectorError (s : State) (slab : SlabId) (vpn sector : Nat) : State :=
  match alookup vpn (s.slab slab).mem.pages with
  | none => s
  | some e =>
    let st := pteStack e
    let f := pteFrame e
    if !(s.slab slab).stackUp st then s
    else
      let s := s.modSlab slab (fun sl => sl.modStack st (fun x => x.count Ctr.SHELF_UNCORRECTABLE 1))
      let entry (cls action : Byte) : FaultEntry :=
        { FaultEntry.basic cls action with
          node := unitNode slab 1 st, aux := BitVec.ofNat 8 st
          detail := leBytes vpn 8 ++ leBytes f 8 }
      if pteProt e = 1 then
        match (s.slab slab).rebuiltSector st f sector with
        | some v =>
          ((s.modSlab slab (fun sl => (sl.setSector st f sector (sectorBytes v)).modStack st (fun x =>
            x.count Ctr.PARITY_REBUILDS 1))).logFault slab (entry 0x06 1))
        | none => (s.sectorLost slab st f sector)
      else if pteProt e = 2 then
        ((s.modSlab slab (fun sl => sl.modMem (fun m =>
          { m with withheld := insertNew vpn m.withheld }))).logFault slab (entry 0x07 1))
      else (s.sectorLost slab st f sector)

/-- SHELF_SECTOR_UNCORRECTABLE (R212): the shelf controller reports an uncorrectable sector. -/
def execShelfSectorUncorrectable (slab : SlabId) (vpn : BitVec 27) (sector : Fin 65536) (s : State) : Result :=
  .next (if (s.slab slab).ready then s.sectorError slab vpn.toNat sector.val else s)

/-! ## Migration (R206 to R208) -/

/-- A page holds blocks of a parameter object. -/
def State.paramPage (s : State) (i : SlabId) (v : Nat) : Bool :=
  match s.objectAt i (v * pageBytes) with
  | none => false
  | some o => o.isParam

end Sys2Proof.Machine
end

