-- ==== Sys2Proof/Machine/Units.lean ====
section
/-! DEFINITION. Parameter blocks (R268 to R273, R286, R288): layout of a page, the block header, which
unit owns a block, and commit positions. Also the two CRCs of the manual (R297, R309). -/

namespace Sys2Proof.Machine

open Sys2Proof

/-! ## CRCs -/

/-- One bit of a reflected CRC with reversed polynomial `p`. -/
def crcBit {w : Nat} (p c : BitVec w) : BitVec w := if c.getLsbD 0 then (c >>> 1) ^^^ p else c >>> 1

/-- `n` bits of a reflected CRC. -/
def crcBits {w : Nat} (p : BitVec w) : Nat → BitVec w → BitVec w
  | 0, c => c
  | n + 1, c => crcBits p n (crcBit p c)

/-- Bytes taken into a reflected CRC, least significant bit first. -/
def crcBytes {w : Nat} (p : BitVec w) (c : BitVec w) : List Byte → BitVec w
  | [] => c
  | b :: bs => crcBytes p (crcBits p 8 (c ^^^ b.zeroExtend w)) bs

/-- CRC-32 of R309: polynomial 0x04C11DB7. -/
def crc32 (bs : List Byte) : Word := ~~~(crcBytes 0xEDB88320#32 (BitVec.allOnes 32) bs)

/-- CRC-64 of R297: polynomial 0x42F0E1EBA9EA3693. -/
def crc64 (bs : List Byte) : DWord := ~~~(crcBytes 0xC96C5795D7870F42#64 (BitVec.allOnes 64) bs)

/-! ## Page layout (R269, Table 11.4) -/

/-- Stored state fields of a rule, in field_id order. -/
def stateFields (rule : Nat) : List Nat :=
  match rule with
  | 1 => [2]
  | 2 => [2, 3]
  | 3 => [2]
  | 4 => [2]
  | 5 => [2, 4, 5, 6, 7]
  | _ => []

/-- The fields of a rule in write order. -/
def writeOrder (rule : Nat) : List Nat :=
  match rule with
  | 1 => [2, 1]
  | 2 => [2, 3, 1]
  | 3 => [2, 1]
  | 4 => [1, 2]
  | 5 => [4, 5, 6, 7, 2, 1]
  | _ => [1]

/-- Elements of a block. -/
def blockElems : Nat := 4096

/-- Bytes per block of the planes of a page, in order: header, weight elements and scales, each state
field's elements and scales, slot elements and scales. A plane of 0 bytes is absent. -/
def planeSizes (u : UpdateDesc) : List Nat :=
  [64, elemBytes u.wfmt blockElems, scaleBytes u.wfmt blockElems]
    ++ (stateFields u.rule).flatMap (fun _ => [elemBytes u.mfmt blockElems, scaleBytes u.mfmt blockElems])
    ++ [8192, 128]

/-- Start of each plane for `p` blocks a page, on 4 KiB boundaries, and the end of the last. -/
def planeStarts (p : Nat) : Nat → List Nat → List Nat
  | at_, [] => [at_]
  | at_, n :: ns => at_ :: planeStarts p (at_ + (n * p + 4095) / 4096 * 4096) ns

/-- The planes of `p` blocks fit in a page. -/
def planesFit (u : UpdateDesc) (p : Nat) : Bool :=
  decide ((planeStarts p 0 (planeSizes u)).getLast?.getD 0 ≤ pageBytes)

/-- P: the largest power of two of blocks that fit in a page. -/
def blocksPerPage (u : UpdateDesc) : Nat :=
  match [512, 256, 128, 64, 32, 16, 8, 4, 2].find? (planesFit u) with
  | some p => p
  | none => 1

/-- The plane number of a field's elements: 1 the weight, 2 on the state fields. -/
def fieldPlane (rule f : Nat) : Nat := if f = 1 then 1 else 3 + 2 * (stateFields rule).idxOf f

/-- The plane number of the slot elements. -/
def slotPlane (rule : Nat) : Nat := 3 + 2 * (stateFields rule).length

/-- The job-range address of plane `k` of block `i`. -/
def ObjectEntry.planeAddr (o : ObjectEntry) (i k : Nat) : Nat :=
  let p := blocksPerPage o.update
  let sizes := planeSizes o.update
  o.base + pageBytes * (i / p) + (planeStarts p 0 sizes).getD k 0 + i % p * sizes.getD k 0

/-- The page of the object that holds block `i`. -/
def ObjectEntry.blockPage (o : ObjectEntry) (i : Nat) : Nat := i / blocksPerPage o.update

/-- The block and byte offset in a plane of an address within a parameter object's page plane. -/
def ObjectEntry.locate (o : ObjectEntry) (a k : Nat) : Option (Nat × Nat) :=
  let p := blocksPerPage o.update
  let sizes := planeSizes o.update
  let pg := (a - o.base) / pageBytes
  let off := (a - o.base) % pageBytes
  let st := (planeStarts p 0 sizes).getD k 0
  let n := sizes.getD k 0
  if st ≤ off ∧ off < st + n * p then some (pg * p + (off - st) / n, (off - st) % n) else none

/-! ## The block header (Table 11.3) -/

/-- A field of a header: `n` bytes at `off`. -/
def State.headerField (s : State) (i : SlabId) (o : ObjectEntry) (b off n : Nat) : Nat :=
  leNat (s.readRangeD i (o.planeAddr b 0 + off) n)

def State.blockStep (s : State) (i : SlabId) (o : ObjectEntry) (b : Nat) : DWord :=
  BitVec.ofNat 64 (s.headerField i o b 0 8)
def State.blockFrozen (s : State) (i : SlabId) (o : ObjectEntry) (b : Nat) : Bool :=
  decide (s.headerField i o b 0x14 2 % 2 = 1)
def State.blockLanded (s : State) (i : SlabId) (o : ObjectEntry) (b : Nat) : Nat := s.headerField i o b 0x2A 2

/-- Bytes of header sector 0. -/
def sector0 (step fingerprint : DWord) (updates flags rule damp block object : Nat) : List Byte :=
  leBytes step.toNat 8 ++ leBytes fingerprint.toNat 8 ++ leBytes updates 4 ++ leBytes flags 2
    ++ leBytes rule 1 ++ leBytes damp 1 ++ leBytes block 4 ++ leBytes object 2 ++ leBytes 0 2

/-- Bytes of header sector 1. -/
def sector1 (step : DWord) (replay landed fresh : Nat) : List Byte :=
  leBytes step.toNat 8 ++ leBytes replay 2 ++ leBytes landed 2 ++ leBytes 0 4 ++ leBytes fresh 16

/-- The header of a block never committed (R371): STEP_TAG all ones, UPDATES 0. -/
def newHeader (o : ObjectEntry) (b : Nat) : List Byte :=
  sector0 (BitVec.allOnes 64) 0 0 (o.update.flags % 2) o.update.rule 0 b o.object
    ++ sector1 (BitVec.allOnes 64) 0 0 0

/-! ## Ownership and update order (R27, R286, R289, R354) -/

/-- The update list of the image in force, as objects. -/
def State.paramObjects (s : State) (i : SlabId) : List ObjectEntry :=
  match s.image i with
  | none => []
  | some im => im.updateList.filterMap (fun n => im.objects.find? (fun o => decide (o.object = n)))

/-- Positions of the update order. -/
def State.orderLength (s : State) (i : SlabId) : Nat :=
  (s.paramObjects i).foldl (fun n o => n + o.update.nblocks) 0

/-- The block at a position of the update order. -/
def State.atPosition (s : State) (i : SlabId) (p : Nat) : Option (ObjectEntry × Nat) :=
  (s.paramObjects i).findSome? (fun o =>
    if o.update.firstPos ≤ p ∧ p < o.update.firstPos + o.update.nblocks then
      some (o, p - o.update.firstPos) else none)

/-- The unit that works for stack `k`: its own, or the stand-in of a lost controller. -/
def Slab.unitFor (sl : Slab) (k : Nat) : Nat :=
  match (sl.stack k).unit.standIn with
  | some u => u.val
  | none => k

/-- The slab and unit that own block `b`. -/
def State.blockOwner (s : State) (i : SlabId) (o : ObjectEntry) (b : Nat) : Option (SlabId × Nat) :=
  match s.pte i (vpnOf (o.base + pageBytes * o.blockPage b)) with
  | none => none
  | some (k, e) => some (k, (s.slab k).unitFor (pteStack e))

/-- The unit owns the block at a position and pass 2 must treat it: it is not frozen, and not committed for the step of the unit's
commit word. -/
def State.owes (s : State) (i : SlabId) (u p : Nat) : Bool :=
  match s.atPosition i p with
  | none => false
  | some (o, b) => decide (s.blockOwner i o b = some (i, u)) && !s.blockFrozen i o b
      && decide (s.blockStep i o b ≠ ((s.slab i).stack u).unit.cstep)

/-- The least position from `p` on that the unit owes; the order's length when there is none. -/
def State.nextOwed (s : State) (i : SlabId) (u p : Nat) : Nat :=
  let n := s.orderLength i
  match (List.range (n - p)).find? (fun k => s.owes i u (p + k)) with
  | some k => p + k
  | none => n

/-- The blocks of a page, with their positions in the update order. -/
def State.pagePositions (s : State) (i : SlabId) (v : Nat) : List Nat :=
  match s.objectAt i (v * pageBytes) with
  | none => []
  | some o =>
    if !o.isParam then []
    else
      let p := blocksPerPage o.update
      let first := (v - o.base / pageBytes) * p
      ((List.range p).filter (fun j => decide (first + j < o.update.nblocks))).map (fun j => o.update.firstPos + first + j)

/-- Ownership of a page's blocks has passed from unit `u` to unit `w` of a slab: the one stands at the next position that it still owes,
the other no later than the first of the moved blocks that it now owes (R207, R288, R289). -/
def State.passOwnership (s : State) (i : SlabId) (v u w : Nat) : State :=
  let x := ((s.slab i).stack u).unit
  let y := ((s.slab i).stack w).unit
  if u = w ∨ x.cstep ≠ y.cstep then s
  else
    let t := s.modSlab i (fun sl => sl.modUnit u (fun x => { x with pos := s.nextOwed i u x.pos }))
    match (s.pagePositions i v).find? (s.owes i w) with
    | none => t
    | some p => t.modSlab i (fun sl => sl.modUnit w (fun y => { y with pos := min y.pos p }))

/-! ## Commit positions (R288) -/

/-- POS of a unit for step `n`: 0 before the result of step n reached it, the whole order after. -/
def UpdateUnit.posFor (u : UpdateUnit) (n : DWord) (all : Nat) : Nat :=
  if u.cstep = n then u.pos else if n.toNat < u.cstep.toNat then all else 0

/-- The unit at a stack publishes a commit word: its controller is not lost. -/
def Slab.unitCounts (sl : Slab) (k : Nat) : Bool := decide ((sl.stack k).unit.standIn = none)

/-- The commit position of step `n`: the least POS of the device's units. -/
def State.commitPos (s : State) (i : SlabId) (n : DWord) : Nat :=
  let all := s.orderLength i
  if all = 0 then 0
  else
    (s.devSlabs i).foldl (fun m k =>
      stacks24.foldl (fun m u =>
        if (s.slab k).unitCounts u then min m (((s.slab k).stack u).unit.posFor n all) else m) m) all

/-- A unit has committed block `b` of object `o` for step `n`. -/
def State.committed (s : State) (i : SlabId) (n : DWord) (o : ObjectEntry) : Bool :=
  decide (o.update.firstPos + o.update.nblocks ≤ s.commitPos i n)

/-- The parameter object that a COMMIT fetch of object `n` waits for: the object itself, or the one whose
weight copy it is (R271). -/
def State.commitObject (s : State) (i : SlabId) (n : Nat) : Option ObjectEntry :=
  (s.paramObjects i).find? (fun o => decide (o.object = n) || decide (o.update.copy.toNat = n))

/-- A fetch of object `n` for step `st` may begin under COMMIT (R245, R288, R299). -/
def State.commitReady (s : State) (i : SlabId) (n st : Nat) : Bool :=
  match s.commitObject i n with
  | none => true
  | some o =>
    (decide (st = 0) || s.committed i (BitVec.ofNat 64 (st - 1)) o)
      && (s.devSlabs i).all (fun k => stacks24.all (fun u =>
        ((s.slab k).stack u).unit.repairs.all (fun r => decide (r.1.1 ≠ n))))

/-! ## Element access -/

/-- The values of `n` elements of format `c` with elements at `ea` and scale bytes at `sa`. -/
def State.readElems (s : State) (i : SlabId) (c ea sa n : Nat) : List Fp :=
  let es := (s.readRangeD i ea (elemBytes c n)).toArray
  let ss := (s.readRangeD i sa (scaleBytes c n)).toArray
  decodeElems c (fun k => es.getD k 0) (fun k => ss.getD k 0) n

/-- The values of field `f` of a block. -/
def State.readField (s : State) (i : SlabId) (o : ObjectEntry) (b f : Nat) : List Fp :=
  let k := fieldPlane o.update.rule f
  s.readElems i (if f = 1 then o.update.wfmt else o.update.mfmt) (o.planeAddr b k) (o.planeAddr b (k + 1))
    blockElems

/-- Planes of a block read by its unit, as traffic. -/
def State.readPlanes (s : State) (i : SlabId) (o : ObjectEntry) (b : Nat) (ks : List Nat) : State :=
  ks.foldl (fun s k => s.unitRead i (o.planeAddr b k) ((planeSizes o.update).getD k 0)) s

/-- The gradient slot of a block. -/
def State.readSlot (s : State) (i : SlabId) (o : ObjectEntry) (b : Nat) : List Fp :=
  let k := slotPlane o.update.rule
  s.readElems i 8 (o.planeAddr b k) (o.planeAddr b (k + 1)) blockElems

end Sys2Proof.Machine
end

