-- ==== Sys2Proof/Machine/Links.lean ====
section
/-! DEFINITION. Zetra ports (R304 to R316): frame headers, lane forms, the link layer with its retry
and credits, routing, training and link failure. -/

namespace Sys2Proof.Machine

open Sys2Proof

/-! ## Frame headers (Tables 12.3 and 12.4) -/

def zType (h : BitVec 128) : Nat := bits h 127 124
def zVc (h : BitVec 128) : Nat := bits h 123 121
def zRq (h : BitVec 128) : Bool := bit h 120
def zLseq (h : BitVec 128) : BitVec 12 := BitVec.ofNat 12 (bits h 119 108)
def zLack (h : BitVec 128) : BitVec 12 := BitVec.ofNat 12 (bits h 107 96)
def zCvc (h : BitVec 128) : Nat := bits h 95 93
def zCredits (h : BitVec 128) : Nat := bits h 92 87
def zDest (h : BitVec 128) : Half := BitVec.ofNat 16 (bits h 86 71)
def zSrc (h : BitVec 128) : Half := BitVec.ofNat 16 (bits h 70 55)
def zWindow (h : BitVec 128) : Nat := bits h 54 47
def zEpoch (h : BitVec 128) : Half := BitVec.ofNat 16 (bits h 46 31)
def zOffset (h : BitVec 128) : Nat := bits h 30 5
def zRows (h : BitVec 128) : Nat := bits h 4 1 + 1
def zBucket (h : BitVec 128) : Nat := bits h 30 15
def zBlock (h : BitVec 128) : Nat := bits h 14 8
def zFrag (h : BitVec 128) : Nat := bits h 7 4
def zLast (h : BitVec 128) : Bool := bit h 3
def zGroup (h : BitVec 128) : Nat := bits h 54 47
def zSeq (h : BitVec 128) : Word := BitVec.ofNat 32 (bits h 46 15)
def zMcFrag (h : BitVec 128) : Nat := bits h 14 11
def zMcLast (h : BitVec 128) : Bool := bit h 6
def zCatchup (h : BitVec 128) : Bool := bit h 5
def zSumEpoch (h : BitVec 128) : Half := BitVec.ofNat 16 (bits h 54 39)
def zSumDir (h : BitVec 128) : Bool := bit h 38
def zSumFrag (h : BitVec 128) : Nat := bits h 37 30
def zSumFrags (h : BitVec 128) : Nat := bits h 29 22 + 1
def zSumLrm (h : BitVec 128) : Bool := bit h 21
def zOp (h : BitVec 128) : Nat := bits h 54 47

/-- A header with its type fields. -/
def mkZHeader (type vc : Nat) (dest src : Half) (fields : Nat) : BitVec 128 :=
  BitVec.ofNat 128 (type % 16 * 2 ^ 124 + vc % 8 * 2 ^ 121 + dest.toNat * 2 ^ 71 + src.toNat * 2 ^ 55
    + fields % 2 ^ 55)

/-- The header with its virtual channel replaced. -/
def zOnVc (h : BitVec 128) (vc : Nat) : BitVec 128 :=
  BitVec.ofNat 128 (bits h 127 124 * 2 ^ 124 + vc % 8 * 2 ^ 121 + bits h 120 0)

/-- The header as sent: LSEQ, LACK, RQ and returned credits. -/
def zSent (h : BitVec 128) (lseq lack : BitVec 12) (rq : Bool) (cvc credits : Nat) : BitVec 128 :=
  BitVec.ofNat 128 (bits h 127 121 * 2 ^ 121 + (if rq then 2 ^ 120 else 0) + lseq.toNat * 2 ^ 108
    + lack.toNat * 2 ^ 96 + cvc % 8 * 2 ^ 93 + credits % 64 * 2 ^ 87 + bits h 86 0)

/-- The escape channel of a channel's class (Table 12.5). -/
def escapeVc (vc : Nat) : Nat := vc % 4 + 4

/-- A frame that the module originates. -/
def mkFrame (h : BitVec 128) (payload : List Byte) : ZFrame :=
  { header := h, payload := padTo 640 payload, lane := 0, check := .clean }

/-- Arithmetic cycles of a number of fabric cycles. -/
def fabric (n : Nat) : Nat := 2 * n

/-! ## Lane forms (Table 12.2) -/

/-- Working lanes of a half. -/
def halfLanes (w : BitVec 8) (hi : Bool) : List Nat :=
  (if hi then [4, 5, 6, 7] else [0, 1, 2, 3]).filter (fun l => w.getLsbD l)

/-- A mask of lanes. -/
def laneMask (ls : List Nat) : BitVec 8 := BitVec.ofNat 8 (ls.foldl (fun n l => n + 2 ^ l) 0)

/-- The lanes used with the given working lanes; 0 where the port fails. -/
def laneForm (w : BitVec 8) : BitVec 8 :=
  let lo := halfLanes w false
  let hi := halfLanes w true
  let n := lo.length + hi.length
  if n = 8 ∨ n = 7 then laneMask (lo ++ hi)
  else if n = 6 ∧ lo.length = 3 ∧ hi.length = 3 then laneMask (lo ++ hi)
  else if lo.length = 4 then laneMask lo
  else if hi.length = 4 then laneMask hi
  else 0

/-- Lanes in a mask. -/
def laneCount (m : BitVec 8) : Nat := (halfLanes m false).length + (halfLanes m true).length

/-! ## The sending side (R311, R312) -/

/-- `n` added to entry `k` of a list of channel counts. -/
def bumpAt (l : List Nat) (k n : Nat) : List Nat := l.set k (l.getD k 0 + n)

/-- A channel with at least 4 frames of credit to return, and how many units of 4. -/
def creditsOwed (l : List Nat) : Nat × Nat :=
  match (List.range 8).find? (fun c => decide (4 ≤ l.getD c 0)) with
  | none => (0, 0)
  | some c => (c, min 63 (l.getD c 0 / 4))

/-- A frame that carries a row of a multicast again (R334). -/
def isCatchup (f : ZFrame) : Bool := decide (zType f.header = 3) && zCatchup f.header

/-- A frame whose channel has a credit. -/
def Port.credited (p : Port) (f : ZFrame) : Bool := decide (0 < p.credits.getD (zVc f.header) 0)

/-- A frame that may take the next slot: its channel has a credit, and a catch-up frame takes at most one slot in four while
other frames wait (R311). -/
def Port.maySend (p : Port) (f : ZFrame) : Bool :=
  p.credited f && (!isCatchup f || decide (3 ≤ p.sinceCatchup) || !p.queue.any (fun g => !isCatchup g && p.credited g))

/-- The next frame to send (R311): channels 0 and 4 first, then the other channels in turn, each its oldest frame that may go. -/
def Port.nextFrame (p : Port) : Option Nat :=
  match p.queue.findIdx? (fun f => decide (zVc f.header % 4 = 0) && p.maySend f) with
  | some k => some k
  | none => (List.range 8).findSome? (fun d =>
      let c := (p.turn + 1 + d) % 8
      p.queue.findIdx? (fun f => decide (zVc f.header = c) && p.maySend f))

/-- Frames sent while the link is up, the replay buffer has room and credits last. -/
def Port.pump (now : Nat) : Nat → Port → Port
  | 0, p => p
  | n + 1, p =>
    if !p.up || decide (1024 ≤ p.replay.length) then p
    else match p.nextFrame with
      | none => p
      | some k =>
        match p.queue[k]? with
        | none => p
        | some f =>
          let seq := p.txSeq + 1
          let (cvc, cr) := creditsOwed p.owed
          let f' := { f with header := zSent f.header seq p.rxSeq p.rq cvc cr }
          let p' : Port :=
            { p with queue := p.queue.eraseIdx k, txSeq := seq, replay := p.replay ++ [{ seq := seq, frame := f' }]
                     credits := p.credits.set (zVc f.header) (p.credits.getD (zVc f.header) 0 - 1)
                     owed := p.owed.set cvc (p.owed.getD cvc 0 - 4 * cr)
                     turn := if zVc f.header % 4 = 0 then p.turn else zVc f.header
                     sinceCatchup := if isCatchup f then 0 else min 3 (p.sinceCatchup + 1)
                     oldestSent := if p.replay.isEmpty then now else p.oldestSent }
          Port.pump now n p'

/-- A frame given to a port. -/
def Port.give (p : Port) (now : Nat) (f : ZFrame) : Port :=
  let p := { p with queue := p.queue ++ [f] }
  p.pump now p.queue.length

/-- Every unacknowledged frame sent again (R312). -/
def Port.resend (p : Port) (now : Nat) : Port :=
  if p.replay.isEmpty then p
  else { p with resends := p.resends + 1, oldestSent := now }.count Ctr.ZETRA_RETRIES 1

/-! ## Routing (R315) -/

def routeValid (e : Half) : Bool := bit e 15
def routePrimary (e : Half) : Nat := bits e 14 11
def routeAlternate (e : Half) : Nat := bits e 10 7

/-- The port and channel by which a frame leaves; none where it is unroutable. -/
def Slab.routeOf (sl : Slab) (f : ZFrame) (escape : Bool) : Option (Nat × Nat) :=
  let e := agetD 0 (zDest f.header).toNat sl.links.routes
  let vc := zVc f.header
  if !routeValid e then none
  else if (sl.port (routePrimary e)).up then
    some (routePrimary e, if escape then escapeVc vc else vc)
  else if (sl.port (routeAlternate e)).up then some (routeAlternate e, escapeVc vc)
  else none

/-- A frame for another endpoint leaves by its route, or is discarded and counted. -/
def Slab.sendFrame (sl : Slab) (f : ZFrame) (escape : Bool) : Slab :=
  match sl.routeOf f escape with
  | none => sl.count Ctr.ZETRA_UNROUTABLE 1
  | some (p, vc) =>
    sl.modPort p (fun x => x.give sl.clocks.cycle { f with header := zOnVc f.header vc })

/-- Frames sent one after another. -/
def Slab.sendFrames (sl : Slab) (fs : List ZFrame) : Slab := fs.foldl (fun sl f => sl.sendFrame f false) sl

/-- A CTRL frame to an endpoint on channel 0, its arguments packed in Table 12.7's order. -/
def Slab.ctrlFrame (sl : Slab) (dest : Half) (op : Nat) (payload : List Byte) : ZFrame :=
  mkFrame (mkZHeader 5 0 dest sl.links.endpoint (op * 2 ^ 47)) payload

/-- A CTRL frame sent. -/
def Slab.sendCtrl (sl : Slab) (dest : Half) (op : Nat) (payload : List Byte) : Slab :=
  sl.sendFrame (sl.ctrlFrame dest op payload) false

/-! ## Link failure and its record (R313) -/

/-- The LINK record of a port. -/
def State.linkEvent (s : State) (i : SlabId) (p : Nat) : State :=
  let x := (s.slab i).port p
  s.event i i evtLink [BitVec.ofNat 8 p, BitVec.ofNat 8 (laneCount x.lanes), if x.up then 1 else 0]

/-- A link fails: its frames are routed again on the escape channel of their class, logged as class
0x12. -/
def State.linkFail (s : State) (i : SlabId) (p : Nat) : State :=
  let x := (s.slab i).port p
  if !x.up then s
  else
    let fs := x.replay.map (fun t => t.frame) ++ x.queue
    let s := s.modSlab i (fun sl =>
      let sl := sl.modPort p (fun x =>
        { x with up := false, helloSent := false, helloGot := false, training := true, retrain := true, replay := []
                 queue := [], resends := 0, rq := false, credits := List.replicate 8 0 }.count
          Ctr.ZETRA_LINK_FAILURES 1)
      fs.foldl (fun sl f => sl.sendFrame f true) sl)
    (s.logFault i
      { FaultEntry.basic 0x12 1 with node := unitNode i 3 p, aux := BitVec.ofNat 8 p }).linkEvent i p

/-! ## The receiving side (R309, R310, R312) -/

/-- LACK of a received header frees the frames it acknowledges. -/
def Port.acked (p : Port) (now : Nat) (lack : BitVec 12) : Port :=
  let left := p.replay.filter (fun t => later t.seq lack)
  if left.length = p.replay.length then p else { p with replay := left, resends := 0, oldestSent := now }

/-- What a received header says of the sending side: LACK, credits and RQ. -/
def Port.heard (p : Port) (now : Nat) (h : BitVec 128) : Port :=
  let p := { p with lastFrame := now, credits := bumpAt p.credits (zCvc h) (4 * zCredits h) }
  let p := p.acked now (zLack h)
  let p := if zRq h then p.resend now else p
  p.pump now p.queue.length

/-- A lane's codeword counted; an uncorrectable one also counts towards the lane's failure (R308). -/
def Port.codeword (p : Port) (f : ZFrame) : Port :=
  let bump (id : Nat) : Port :=
    { p with laneCounters := aset f.lane.val (Counters.bump (agetD [] f.lane.val p.laneCounters) id 1) p.laneCounters }
  match f.check with
  | .clean => p
  | .corrected => bump Ctr.ZETRA_CODEWORDS_CORRECTED
  | .uncorrectable =>
    let q := bump Ctr.ZETRA_CODEWORDS_UNCORRECTABLE
    { q with uncorrectable := aset f.lane.val (agetD 0 f.lane.val q.uncorrectable + 1) q.uncorrectable }
  | .badCrc => p.count Ctr.ZETRA_BAD_FRAMES 1

/-- What the link layer does with a frame: it accepts it, drops it, or leaves it waiting for those
before it. -/
inductive LinkTake where
  | taken
  | dropped
  | waits
  deriving DecidableEq, Repr

/-- The link layer's handling of a frame at a port. -/
def Port.receive (p : Port) (now : Nat) (f : ZFrame) : Port × LinkTake :=
  if f.check = .uncorrectable ∨ f.check = .badCrc then ({ p.codeword f with rq := true, lastFrame := now }, .dropped)
  else
    let h := f.header
    if zType h = 0 then ((p.codeword f).heard now h, .dropped)
    else
      let d := (zLseq h - p.rxSeq).toNat
      if d = 1 then
        let q := (p.codeword f).heard now h
        let q := { q with rxSeq := zLseq h, rq := false, owed := bumpAt q.owed (zVc h) 1 }
        if 6 ≤ zType h then (q.count Ctr.ZETRA_BAD_FRAMES 1, .dropped) else (q, .taken)
      else if 1 < d ∧ d < 17 then (p, .waits)
      else
        let q := (p.codeword f).heard now h
        (if d = 0 ∨ 2048 ≤ d then q else { q with rq := true }, .dropped)

/-- A link that has sent one frame again 8 times fails (R313). -/
def State.checkResends (s : State) (i : SlabId) (p : Nat) : State :=
  if 8 ≤ ((s.slab i).port p).resends then s.linkFail i p else s

/-- A frame of type `type` received at a port that is up: the module after the link layer, and whether
the frame was taken. Another frame, or a frame that must wait, changes nothing. -/
def State.linkIn (s : State) (i : SlabId) (p : Nat) (f : ZFrame) (type : Nat) : State × Bool :=
  let x := (s.slab i).port p
  if !(s.slab i).ready || !x.up || decide (f.check ≠ .uncorrectable ∧ zType f.header ≠ type) then (s, false)
  else
    let (q, t) := x.receive (s.cycle i) f
    match t with
    | .waits => (s, false)
    | .dropped => ((s.modSlab i (fun sl => sl.modPort p (fun _ => q))).checkResends i p, false)
    | .taken => (s.modSlab i (fun sl => sl.modPort p (fun _ => q)), true)

/-- The same for a frame addressed to this slab's endpoint. -/
def State.linkInOwn (s : State) (i : SlabId) (p : Nat) (f : ZFrame) (type : Nat) : State × Bool :=
  if zDest f.header = (s.slab i).links.endpoint then s.linkIn i p f type else (s, false)

/-- A CTRL frame of operation `op` for this endpoint. -/
def State.ctrlIn (s : State) (i : SlabId) (p : Nat) (f : ZFrame) (op : Nat) : State × Bool :=
  if zOp f.header = op then s.linkInOwn i p f 5 else (s, false)

/-! ## Commands at a port -/

/-- ZETRA_IDLE_FRAME (R307): LACK, RQ and credits are taken, and the frame is dropped. -/
def execZetraIdleFrame (slab : SlabId) (port : Fin 16) (f : ZFrame) (s : State) : Result :=
  .next (s.linkIn slab port.val f 0).1

/-- ZETRA_TRANSIT_FRAME (R315): a frame for another endpoint is routed on. One of a reserved type is discarded and counted, whatever
its destination (R310). -/
def execZetraTransitFrame (slab : SlabId) (port : Fin 16) (f : ZFrame) (s : State) : Result :=
  if zDest f.header = (s.slab slab).links.endpoint ∧ zType f.header < 6 then .next s
  else
    let (s, ok) := s.linkIn slab port.val f (zType f.header)
    if ok then
      .next (s.modSlab slab (fun sl =>
        match sl.routeOf f false with
        | none => sl.count Ctr.ZETRA_UNROUTABLE 1
        | some _ => (sl.sendFrame f false).count Ctr.ZETRA_TRANSIT_FRAMES 1))
    else .next s

/-- RETRY_TIMEOUT (R312, R313): the oldest frame is unacknowledged for RETRY_TIMEOUT; the port sends
again from LACK + 1, and fails after 8 times. -/
def execRetryTimeout (slab : SlabId) (port : Fin 16) (s : State) : Result :=
  let sl := s.slab slab
  let x := sl.port port.val
  let now := s.cycle slab
  if !sl.ready || !x.up || x.replay.isEmpty
      || decide (now < x.oldestSent + fabric sl.links.retryTimeout) then .next s
  else
    .next ((s.modSlab slab (fun sl => sl.modPort port.val (fun x => x.resend now))).checkResends slab port.val)

/-- LINK_SILENCE_TIMEOUT (R313): no frame for 65,536 fabric cycles fails the link. -/
def execLinkSilenceTimeout (slab : SlabId) (port : Fin 16) (s : State) : Result :=
  let sl := s.slab slab
  let x := sl.port port.val
  if !sl.ready || !x.up || decide (s.cycle slab < x.lastFrame + fabric 65536) then .next s
  else .next (s.linkFail slab port.val)

/-- PORT_TRAINING_DONE (R306): an enabled port with a cable has adapted and locked; it sends HELLO. A port whose link failed
retrains in maintenance pitches alone (R313); DESIGN CHOICE: which of its failed lanes pass is a free value. -/
def execPortTrainingDone (slab : SlabId) (port : Fin 16) (s : State) : Result :=
  let sl := s.slab slab
  let x := sl.port port.val
  let (v, s) := if x.retrain then s.takeFree 256 else (0, s)
  let w := x.working ||| BitVec.ofNat 8 v
  if !sl.ready || !x.enabled || !x.cable || !x.training || x.up || decide (laneForm w = 0)
      || (x.retrain && !decide ((s.root slab).kind = .maint)) then .next s
  else
    .next (s.modSlab slab (fun sl => sl.modPort port.val (fun x =>
      { x with helloSent := true, training := false, retrain := false, working := w, lanes := laneForm w })))

/-- The link comes up when both HELLOs are received; numbering starts afresh and every quota is owed to
the neighbour as credits. -/
def Port.bringUp (p : Port) (now : Nat) : Port :=
  { p with up := true, txSeq := 0, rxSeq := 0, rq := false, resends := 0, replay := [], lastFrame := now
           owed := p.quotas, credits := List.replicate 8 0, marginal := 0 }

/-- HELLO (R306): the neighbour's HELLO arrives; with this port's own sent, the link is up. -/
def execHello (slab : SlabId) (port : Fin 16) (_f : ZFrame) (endpoint : Half) (peerPort : BitVec 4)
    (_lanes : Byte) (s : State) : Result :=
  let sl := s.slab slab
  let x := sl.port port.val
  if !sl.ready || !x.enabled || !x.cable || x.up || !x.helloSent then .next s
  else
    .next ((s.modSlab slab (fun sl => sl.modPort port.val (fun x =>
      ({ x with helloGot := true, neighbour := endpoint, neighbourPort := peerPort } : Port).bringUp
        sl.clocks.cycle))).linkEvent slab port.val)

/-- LANE_MAP (R308): the neighbour's receiver reports the lanes that work; this end uses the same form. -/
def execLaneMap (slab : SlabId) (port : Fin 16) (f : ZFrame) (lanes : BitVec 8) (s : State) : Result :=
  let (s, ok) := s.linkIn slab port.val f 5
  if !ok then .next s
  else
    let form := laneForm lanes
    if form = 0 then .next (s.linkFail slab port.val)
    else
      .next ((s.modSlab slab (fun sl => sl.modPort port.val (fun x =>
        { x with working := lanes, lanes := form }))).linkEvent slab port.val)

/-- A lane out of service at this port: LANE_MAP and RQ go to the other end, or the port fails. -/
def State.laneFail (s : State) (i : SlabId) (p l : Nat) : State :=
  let x := (s.slab i).port p
  let w := x.working &&& ~~~(1#8 <<< l)
  let form := laneForm w
  let s := s.modSlab i (fun sl =>
    (sl.modPort p (fun x =>
      { x with working := w, lanes := form, rq := true, uncorrectable := aerase l x.uncorrectable }.count
        Ctr.ZETRA_LANE_FAILURES 1)).mapChanged)
  let s := s.logFault i
    { FaultEntry.basic 0x11 1 with node := unitNode i 3 p, aux := BitVec.ofNat 8 l, map := true }
  if form = 0 then s.linkFail i p
  else
    (s.modSlab i (fun sl => sl.modPort p (fun x =>
      x.give sl.clocks.cycle (mkFrame (mkZHeader 5 0 x.neighbour sl.links.endpoint (9 * 2 ^ 47))
        [BitVec.ofNat 8 form.toNat])))).linkEvent i p

/-- ZETRA_LANE_FAILURE (R308): a lane in service loses codeword lock, or has 64 uncorrectable codewords
in the window. -/
def execZetraLaneFailure (slab : SlabId) (port : Fin 16) (lane : Fin 8) (s : State) : Result :=
  let x := (s.slab slab).port port.val
  if !(s.slab slab).ready || !x.up || !x.working.getLsbD lane.val then .next s
  else .next (s.laneFail slab port.val lane.val)

/-- ZETRA_LANE_ERROR_WINDOW (R308): at the end of a window of 2^24 fabric cycles the lanes whose symbol
error ratio exceeded the limit are marginal, and the counts of uncorrectable codewords start again. -/
def execZetraLaneErrorWindow (slab : SlabId) (port : Fin 16) (marginal : BitVec 8) (s : State) : Result :=
  let x := (s.slab slab).port port.val
  if !(s.slab slab).ready || !x.up then .next s
  else
    .next (s.modSlab slab (fun sl => sl.modPort port.val (fun x =>
      { x with marginal := x.marginal ||| (marginal &&& x.working), uncorrectable := [] })))

/-! ## Cables (R470) -/

/-- CABLE_SEAT (R470): presence is set. A port that is enabled trains. -/
def execCableSeat (slab : SlabId) (port : Fin 16) (s : State) : Result :=
  .next (s.modSlab slab (fun sl => sl.modPort port.val (fun x =>
    { x with cable := true, training := x.enabled && !x.up })))

/-- CABLE_REMOVE (R470, R313): presence is cleared; the link of an enabled port fails. -/
def execCableRemove (slab : SlabId) (port : Fin 16) (s : State) : Result :=
  .next ((s.linkFail slab port.val).modSlab slab (fun sl => sl.modPort port.val (fun x =>
    { x with cable := false, training := false })))

/-! ## Failures of the col (R63, R179, R180) -/

/-- COL_LANE_FAILURE (R179). -/
def execColLaneFailure (lane : Fin 96) (s : State) : Result :=
  if s.slab0.ready then .next (s.failColLane .s0 lane) else .next s

/-- COL_BELAY_PAIR_FAILURE (R63): the belays move to another pair, or to a lane's sideband. -/
def execColBelayPairFailure (pair : Fin 4) (s : State) : Result :=
  if !s.slab0.ready || pair ∈ s.shared.belayPairs || s.shared.mode = .split then .next s
  else
    let pairs := s.shared.belayPairs ++ [pair]
    let s := (({ s with shared := { s.shared with belayPairs := pairs } } : State).countCol Ctr.COL_BELAY_EVENTS 1).logFault .s0
      { FaultEntry.basic 0x10 1 with aux := BitVec.ofNat 8 pair.val }
    .next (if 4 ≤ pairs.length then s.moveBelay else s)

/-- COL_CROSSING_FAILURE (R180): packets take the next crossing. -/
def execColCrossingFailure (crossing : Fin 8) (s : State) : Result :=
  if !s.slab0.ready || crossing ∈ s.shared.crossings then .next s
  else
    .next (({ s with shared := { s.shared with crossings := s.shared.crossings ++ [crossing] } } : State).logFault
      .s0 { FaultEntry.basic 0x10 1 with aux := BitVec.ofNat 8 crossing.val })

end Sys2Proof.Machine
end

