-- ==== Sys2Proof/Machine/Windows.lean ====
section
/-! DEFINITION. Windows of remote frames (R318 to R322): their states and checks, and where written data
go: job-range memory, feed slots, and tiles through a DELIVER descriptor. -/

namespace Sys2Proof.Machine

open Sys2Proof

/-! ## Window states -/

def WindowEntry.unused : WindowEntry :=
  { kind := 0, opened := false, flagsReserved := 0, epoch := 0, object := 0, base := 0, size := 0
    openAt := 0, closeAt := 0, reserved := 0 }

/-- A window of a slab. -/
def Slab.window (sl : Slab) (w : Nat) : WindowEntry := agetD WindowEntry.unused w sl.links.windows

/-- The step whose pass-1 window is open on the device of slab `i`. -/
def State.passWindow (s : State) (i : SlabId) : Option DWord := (s.job i).window.map Prod.fst

/-- OPEN and EPOCH of a window now; a REDUCE window follows the pass-1 window (R319). -/
def State.windowNow (s : State) (i : SlabId) (w : Nat) : Bool × Half :=
  let e := (s.slab i).window w
  if e.kind = 2 then
    match s.passWindow i with
    | none => (false, e.epoch)
    | some n => (true, n.truncate 16)
  else (e.opened, e.epoch)

/-- The kind takes frames of the type: WRITE for MEMORY, FEED and TILE, REDUCE for REDUCE. -/
def kindTakes (kind type : Nat) : Bool := if type = 2 then decide (kind = 2) else decide (kind = 1 ∨ kind = 3 ∨ kind = 4)

/-- The checks of Table 12.10 before a slot is sought, in order; `off` and `n` are the byte range of the
rows, 0 for a REDUCE frame. -/
def State.windowCheck (s : State) (i : SlabId) (type w : Nat) (epoch : Half) (off n : Nat) : Option NackCode :=
  let e := (s.slab i).window w
  let (opened, ep) := s.windowNow i w
  if !kindTakes e.kind type then some .windowUnknown
  else if !opened || decide (ep ≠ epoch) then some .windowClosed
  else if e.size < off + n then some .windowRange
  else none

/-- NACK codes of Table 12.10. -/
def nackNumber : NackCode → Nat
  | .windowClosed => 1
  | .windowRange => 2
  | .windowUnknown => 3
  | .noBuffer => 4

/-- A frame that fails a check is dropped, counted at its window and answered with a NACK that carries the
code, the receiver's epoch and the rejected header (R320). -/
def State.rejectFrame (s : State) (i : SlabId) (f : ZFrame) (c : NackCode) : State :=
  let w := zWindow f.header
  let (_, ep) := s.windowNow i w
  s.modSlab i (fun sl =>
    (sl.modLinks (fun l =>
      let cs := Counters.bump (agetD [] w l.windowCounters) Ctr.WINDOW_REJECTS 1
      { l with windowCounters := aset w cs l.windowCounters })).sendCtrl
      (zSrc f.header) 1
      ([BitVec.ofNat 8 (nackNumber c)] ++ leBytes ep.toNat 2 ++ leBytes f.header.toNat 16))

/-! ## Messages of the stream engines -/

/-- Flits that carry rows, two to a flit (R160). -/
def rowFlits (hdr : Nat → Bool → Bool → BitVec 96) (msg now : Nat) : Nat → List Row → List Flit
  | _, [] => []
  | k, [r] =>
    [{ header := hdr k true true, data := BitVec.ofNat 1024 r.toNat, msg := msg, reached := now
       detours := [], trail := [], heading := none, col := 0, tagHeld := false }]
  | k, r0 :: r1 :: rs =>
    { header := hdr k rs.isEmpty false, data := BitVec.ofNat 1024 (r0.toNat + r1.toNat * 2 ^ 512), msg := msg
      reached := now, detours := [], trail := [], heading := none, col := 0, tagHeld := false }
      :: rowFlits hdr msg now (k + 1) rs

/-- Where a message of rows goes: multicast or not, arrival counter, first row and rectangle. -/
structure RowTarget where
  mcast : Bool
  ctr : Nat
  row : Nat
  x0 : Nat
  y0 : Nat
  x1 : Nat
  y1 : Nat
  deriving DecidableEq, Repr

/-- A message of rows enters the local port of a tile; its last flit asks for an acknowledgement when
`last` holds. -/
def State.injectRows (s : State) (t : TileId) (g : RowTarget) (rows : List Row) (last : Bool) : State :=
  let m := s.shared.mode
  let now := s.cycle t.slab
  let phase := s.tileReleases t % 4
  let hdr (k : Nat) (l one : Bool) : BitVec 96 :=
    mkHeader (if g.mcast then 1 else 0) phase (l && last) one g.ctr (g.row + 2 * k) g.x0 g.y0
      (g.x1 * 2 ^ 7 + g.y1) (gx m t) t.y.val
  if rows.isEmpty then s
  else s.modTile t (fun tl =>
    let r := tl.router
    let fs := rowFlits hdr r.nextMsg now 0 rows
    { tl with unacked := tl.unacked + (if last then 1 else 0)
              router := { r.setInput .loc false (r.input .loc false ++ fs) with nextMsg := r.nextMsg + 1 } })

/-- The first tile of the Zetra portal group of a port. -/
def zetraTile (i : SlabId) (p : Nat) : TileId :=
  { slab := i, x := if i = .s0 then 0 else 111, y := ⟨6 * p % 96, Nat.mod_lt _ (by decide)⟩ }

/-! ## Writes to job-range memory from a portal tile (R189, R191) -/

/-- The object is the weight copy of a parameter object. -/
def State.isCopy (s : State) (i : SlabId) (o : ObjectEntry) : Bool := (s.paramObjects i).any (fun x => decide (x.update.copy.toNat = o.object))

/-- The page takes writes of streams and windows: it is mapped, not of a CONST object (R189), and neither a parameter object's, which
only units and base camp write (R270), nor a weight copy's, which only records write (R271). -/
def State.pageWritable (s : State) (i : SlabId) (a : Nat) : Bool :=
  (s.pte i (vpnOf a)).isSome &&
    (match s.objectAt i a with
     | none => true
     | some o => decide (o.cls ≠ 2) && !o.isParam && !s.isCopy i o)

/-- The unit of a gradient slot that an address lies in: of its elements or its scale bytes. -/
def State.slotUnit (s : State) (i : SlabId) (a : Nat) : Option (SlabId × Nat) :=
  match s.objectAt i a, s.pte i (vpnOf a) with
  | some o, some (k, e) =>
    let sp := slotPlane o.update.rule
    if o.isParam && ((o.locate a sp).isSome || (o.locate a (sp + 1)).isSome) then some (k, (s.slab k).unitFor (pteStack e)) else none
  | _, _ => none

/-- A write that its page does not take: a fault of the tile. One into gradient slots that is no landing, since it covers no whole scale
group with its scale byte, is counted at the unit (R276). -/
def State.refuseWrite (s : State) (t : TileId) (a : Nat) : State :=
  match s.slotUnit t.slab a with
  | some (k, u) => s.modSlab k (fun sl => sl.modUnit u (fun x => x.count Ctr.UPD_LANDING_FAULTS 1))
  | none => s.modTile t (fun tl => tl.xlateFault 1)

/-- Bytes written for a portal tile, with their traffic: pieces on pages that take no writes are dropped with a fault. -/
def State.portalWrite (s : State) (t : TileId) (cls : ShareClass) (a : Nat) (bs : List Byte) : State :=
  (pieces a bs.length).foldl (fun s p =>
    let at_ := a + p.2.2.1
    if s.pageWritable t.slab at_ then (s.writeRange t.slab at_ ((bs.drop p.2.2.1).take p.2.2.2)).addWork t.slab at_ p.2.2.2 cls false none
    else s.refuseWrite t at_) s

/-! ## Feed slots (R378, R379) -/

/-- A row accepted into a slot; a full slot that is not released counts no more. -/
def FeedQueue.addRow (q : FeedQueue) (slot : Nat) : FeedQueue :=
  let full := q.entry.slotBytes / 64
  let n := agetD 0 slot q.rows
  if full ≤ n then q
  else { q with rows := aset slot (n + 1) q.rows, filled := if n + 1 = full then q.filled + 1 else q.filled }

/-- Rows from a byte offset of a queue's window on. -/
def FeedQueue.addRows (q : FeedQueue) (off n : Nat) : FeedQueue :=
  (List.range n).foldl (fun q k => q.addRow ((off + 64 * k) / max 1 q.entry.slotBytes)) q

/-- The feed queue that window `w` of slab `i` fills counts the rows. -/
def State.feedRows (s : State) (i : SlabId) (w off n : Nat) : State :=
  match (s.job i).feeds.find? (fun q => q.bound && !q.fromHost && decide (q.window = w)) with
  | none => s
  | some q =>
    (s.modJob i (fun j =>
      { j with feeds := j.feeds.map (fun x => if x.entry.queue = q.entry.queue then x.addRows off n else x) })).modSlab
      i (fun sl =>
        let cs := Counters.bump (agetD [] q.entry.queue sl.feedCounters) Ctr.FEED_ROWS n
        { sl with feedCounters := aset q.entry.queue cs sl.feedCounters })

/-! ## Data written through a window -/

/-- A row of a TILE window: byte `off` goes to run off div RUNBYTES, at row
DROW + run × DSTRIDE + (off mod RUNBYTES) div 64 (Table 12.8). -/
def StreamDesc.deliverRow (sd : StreamDesc) (off : Nat) : Nat :=
  let rb := max 1 sd.runBytes
  sd.drow + off / rb * sd.dstride + off % rb / 64

/-- Rows delivered through a DELIVER descriptor, each to its own row. -/
def State.deliverRows (s : State) (i : SlabId) (d off : Nat) (rows : List Row) : State :=
  match (s.placement i).bind (fun p => p.stream d) with
  | none => s
  | some sd =>
    let t := streamTile i d
    (List.range rows.length).foldl (fun s k =>
      let g : RowTarget :=
        { mcast := sd.mcast, ctr := sd.ctr, row := sd.deliverRow (off + 64 * k), x0 := sd.x0, y0 := sd.y0
          x1 := sd.x1, y1 := sd.y1 }
      s.injectRows t g [rows.getD k 0] true) s

/-- Rows from their bytes. -/
def rowsOf (bs : List Byte) : List Row := (chunksOf 64 (bs.length / 64 + 1) bs).map rowOfBytes

/-- Data accepted by a window from byte offset `off` on, received at port `p` (R320). -/
def State.windowWrite (s : State) (i : SlabId) (p w off : Nat) (bs : List Byte) : State :=
  let e := (s.slab i).window w
  if e.kind = 4 then s.deliverRows i e.object off (rowsOf bs)
  else
    let s := s.portalWrite (zetraTile i p) .remote (e.base + off) bs
    if e.kind = 3 then s.feedRows i w off (bs.length / 64) else s

/-- Messages that a tile may have unacknowledged (R221). -/
def maxUnacked : Nat := 64

/-- The rows of a frame can be sent: the tile that delivers a TILE window's rows may have that many more messages
unacknowledged (R221). -/
def State.windowRoom (s : State) (i : SlabId) (w n : Nat) : Bool :=
  let e := (s.slab i).window w
  decide (e.kind ≠ 4) || decide ((s.tile (streamTile i e.object)).unacked + n / 64 ≤ maxUnacked)

/-- ZETRA_WRITE_FRAME (R320): a WRITE frame for this endpoint is checked against its window, and its rows
are written or it is answered with a NACK. -/
def execZetraWriteFrame (slab : SlabId) (port : Fin 16) (f : ZFrame) (s : State) : Result :=
  let h := f.header
  let n := 64 * zRows h
  let room := s.windowRoom slab (zWindow h) n
  let waiting := s
  let (s, ok) := s.linkInOwn slab port.val f 1
  if !ok then .next s
  else
    match s.windowCheck slab 1 (zWindow h) (zEpoch h) (64 * zOffset h) n with
    | some c => .next (s.rejectFrame slab f c)
    | none =>
      .next (if room then s.windowWrite slab port.val (zWindow h) (64 * zOffset h) (f.payload.take n) else waiting)

end Sys2Proof.Machine
end

