-- ==== Sys2Proof/Machine/Reduce.lean ====
section
/-! DEFINITION. Reduce engines and collectives (R323 to R329, R338 to R340): staging, accumulation,
landing, retention, resends, and the timers that await peers. -/

namespace Sys2Proof.Machine

open Sys2Proof

/-! ## Collectives and ranks (R324) -/

/-- Collective `c` of the image in force. -/
def State.collective (s : State) (i : SlabId) (c : Nat) : Option Collective :=
  (s.image i).bind (fun im => im.collectives[c]?)

/-- Member group of a slab. -/
def Slab.group (sl : Slab) (g : Nat) : Group := agetD { ranks := [], rank := 0, summit := false } g sl.links.groups

/-- The endpoint of a rank. -/
def Group.endpoint (g : Group) (r : Nat) : Half := g.ranks.getD r 0

/-- The rank of an endpoint. -/
def Group.rankOf (g : Group) (e : Half) : Option Nat := g.ranks.findIdx? (fun x => decide (x = e))

/-- The group of a collective. -/
def State.collGroup (s : State) (i : SlabId) (c : Nat) : Group :=
  match s.collective i c with
  | none => { ranks := [], rank := 0, summit := false }
  | some co => (s.slab i).group co.group

/-- The root rank of a bucket. -/
def Collective.rootRank (c : Collective) (b : Nat) : Nat := b / max 1 c.bpr

/-- The local block of the root's object that block `j` of bucket `b` is. -/
def Collective.localBlock (c : Collective) (b j : Nat) : Nat := b % max 1 c.bpr * c.bb + j

/-- The collective that a REDUCE window serves. -/
def Slab.windowColl (sl : Slab) (w : Nat) : Nat := (sl.window w).object

/-! ## Slots (R323, R325) -/

/-- Blocks per bucket of a collective. -/
def State.collBB (s : State) (i : SlabId) (c : Nat) : Nat :=
  match s.collective i c with
  | none => 0
  | some co => co.bb

/-- The bucket has landed and its landings are acknowledged; its table entry stays for duplicates. -/
def Bucket.landed (b : Bucket) : Bool := b.complete && decide (b.landing = 0)

/-- Landings of an engine's buckets that wait in slots for stack `k`: those behind the first 64 of the
unit's queue. -/
def Slab.waitingLandings (sl : Slab) (e k : Nat) : Nat :=
  (((sl.stack k).unit.landings.drop 64).filter (fun l =>
    match l.coll with
    | none => false
    | some (c, b) => (sl.engine e).buckets.any (fun x => decide (x.coll = c) && decide (x.bucket = b)))).length

/-- Slots an engine has in use. -/
def State.slotsUsed (s : State) (i : SlabId) (e : Nat) : Nat :=
  let sl := s.slab i
  let x := sl.engine e
  x.staged.length + x.retained.length + (sl.links.packets.filter (fun p => decide (p.engine = e))).length
    + x.buckets.foldl (fun n b => n + if b.landed then 0 else 2 * s.collBB i b.coll) 0

def engineSlots : Nat := 1008

/-- The engine that roots a bucket: the one that has it open, else bucket mod 16. -/
def Slab.rootEngine (sl : Slab) (c b : Nat) (ep : Half) : Nat :=
  match (List.range 16).find? (fun e =>
    (sl.engine e).buckets.any (fun x => decide (x.coll = c) && decide (x.bucket = b) && decide (x.epoch = ep))) with
  | some e => e
  | none => b % 16

/-- An open bucket of an engine. -/
def Engine.bucketOf (e : Engine) (c b : Nat) (ep : Half) : Option Bucket :=
  e.buckets.find? (fun x => decide (x.coll = c) && decide (x.bucket = b) && decide (x.epoch = ep))

/-- The engine with a bucket changed. -/
def Engine.modBucket (e : Engine) (c b : Nat) (f : Bucket → Bucket) : Engine :=
  { e with buckets := e.buckets.map (fun x => if x.coll = c ∧ x.bucket = b then f x else x) }

/-- The staged block an arriving frame belongs to. -/
def Engine.stagedOf (e : Engine) (r c b j : Nat) : Option Staged :=
  e.staged.find? (fun x => decide (x.rank = r) && decide (x.coll = c) && decide (x.bucket = b) && decide (x.block = j))

/-- The engine can open the bucket, if it is not open, and stage a block of it (R325, R340). -/
def State.hasSlots (s : State) (i : SlabId) (e c b : Nat) (ep : Half) (stage : Nat) : Bool :=
  let open_ := ((s.slab i).engine e).bucketOf c b ep |>.isSome
  let need := stage + (if open_ then 0 else 2 * s.collBB i c)
  decide (s.slotsUsed i e + need ≤ engineSlots) &&
    (open_ || (match s.collective i c with
      | none => false
      | some co => match s.objectNo i co.object with
        | none => true
        | some o => (List.range co.bb).all (fun j => match s.blockOwner i o (co.localBlock b j) with
          | none => true
          | some (k, u) => decide ((s.slab k).waitingLandings e u < 128))))

/-- A bucket opened at its engine. -/
def State.openBucket (s : State) (i : SlabId) (e c b : Nat) (ep : Half) : State :=
  if (((s.slab i).engine e).bucketOf c b ep).isSome then s
  else
    s.modSlab i (fun sl =>
      let x : Bucket :=
        { coll := c, bucket := b, epoch := ep, acc := [], counted := [], lastFrom := [], complete := false
          landing := 0, opened := sl.clocks.cycle, timeout := sl.links.collTimeout, probes := 0 }
      sl.modEngine e (fun y =>
        { y with buckets := y.buckets.filter (fun z => !(decide (z.coll = c) && decide (z.bucket = b))) ++ [x] }))

/-! ## Blocks -/

/-- A wire block: 128 scale bytes, then 8,192 element bytes; its values as FP32. -/
def wireValues (bs : List Byte) : List Word :=
  let a := bs.toArray
  (decodeElems 8 (fun k => a.getD (128 + k) 0) (fun k => a.getD k 0) blockElems).map (toF32 .nearestEven)

/-- The data of a staged block. -/
def Staged.data (x : Staged) : List Byte := (List.range 13).flatMap (fun k => padTo 640 (agetD [] k x.frags))

/-- The scale groups of a landing from FP32 values, converted under R74. -/
def landingGroups (vs : List Word) : List (Fin 128 × BitVec 512 × Byte) :=
  let cs := ((chunksOf 32 128 vs).map (fun l => encodeSbf16 (fun _ => .nearestEven) 0 (l.map Word.fp))).toArray
  (List.range 128).map (fun g =>
    let c := cs.getD g Converted.empty
    (⟨g % 128, Nat.mod_lt _ (by decide)⟩, BitVec.ofNat 512 (packRaws 8 c.raws), c.scales.headD 0))

/-- A landing handed to the unit that owns its block (R328); with no owner it has no place, and while no window is open it is late
(R277). The first 64 of a unit's list are in its queue; later ones wait at the controller for a place (R276). -/
def State.giveLanding (s : State) (i : SlabId) (l : Landing) : State :=
  match s.objectNo i l.object with
  | none => s
  | some o => match s.blockOwner i o l.block with
    | none => s
    | some (k, u) => s.modSlab k (fun sl => sl.modUnit u (fun x =>
        if (s.job i).window.isNone then x.count Ctr.UPD_LATE_LANDINGS 1 else { x with landings := x.landings ++ [l] }))

/-- A landing log already holds the block for step `n` (R323). -/
def Slab.logged (sl : Slab) (c : Nat) (n : DWord) (blk : Nat) : Bool :=
  (List.range 16).any (fun e => (sl.engine e).log.any (fun g =>
    decide (g.coll = c) && decide (g.step = n) && decide (g.landing.block = blk)))

/-- The landing log keeps the current and the previous step (R328). -/
def Engine.logLanding (e : Engine) (g : LogEntry) : Engine :=
  { e with log := e.log.filter (fun x => decide (g.step.toNat ≤ x.step.toNat + 1)) ++ [g] }

/-- Landings of a bucket that units have not yet taken (R327). -/
def State.landingsOut (s : State) (i : SlabId) (c b : Nat) : Nat :=
  (s.devSlabs i).foldl (fun n k => stacks24.foldl (fun n u =>
    n + (((s.slab k).stack u).unit.landings.drop 64 |>.filter (fun l => decide (l.coll = some (c, b)))).length) n) 0

/-- A complete bucket converted and landed: each block once per window, and into the log (R327, R328). -/
def State.landBucket (s : State) (i : SlabId) (e : Nat) (co : Collective) (x : Bucket) : State :=
  match s.passWindow i with
  | none => s
  | some n =>
    let s := (List.range co.bb).foldl (fun s j =>
      let blk := co.localBlock x.bucket j
      if (s.slab i).logged x.coll n blk then s
      else
        let l : Landing :=
          { object := co.object, block := blk, groups := landingGroups (agetD (List.replicate blockElems 0) j x.acc)
            waiting := false, coll := some (x.coll, x.bucket) }
        (s.giveLanding i l).modSlab i (fun sl => sl.modEngine e (fun y =>
          y.logLanding { coll := x.coll, step := n, bucket := x.bucket, landing := l }))) s
    s.modSlab i (fun sl => sl.modEngine e (fun y => y.modBucket x.coll x.bucket (fun z =>
      { z with complete := true, landing := co.bb, acc := [] })))

/-- Blocks of a bucket that a rank has not contributed. -/
def Bucket.missing (x : Bucket) (bb r : Nat) : List Nat :=
  (List.range bb).filter (fun j => decide ((r, j) ∉ x.counted))

/-- The bucket has every block of every rank. -/
def Bucket.full (x : Bucket) (bb ranks : Nat) : Bool :=
  (List.range ranks).all (fun r => (x.missing bb r).isEmpty)

/-- A block of a contributor added to its bucket, or discarded when it was counted before (R325, R326). -/
def State.addBlock (s : State) (i : SlabId) (e : Nat) (co : Collective) (ep : Half) (c r b j : Nat)
    (data : List Byte) : State :=
  match ((s.slab i).engine e).bucketOf c b ep with
  | none => s
  | some x =>
    if (r, j) ∈ x.counted then
      s.modSlab i (fun sl => sl.modEngine e (fun y => y.count Ctr.REDUCE_DUPLICATES 1))
    else
      let vs := wireValues data
      let sum := match alookup j x.acc with
        | none => vs
        | some acc => List.zipWith f32add acc vs
      let x' := { x with acc := aset j sum x.acc, counted := x.counted ++ [(r, j)] }
      let s := s.modSlab i (fun sl => sl.modEngine e (fun y =>
        (y.modBucket c b (fun _ => x')).count Ctr.REDUCE_BLOCKS_ADDED 1))
      if x'.full co.bb (s.collGroup i c).ranks.length then s.landBucket i e co x' else s

/-! ## Requests for blocks -/

/-- A bitmap of blocks. -/
def blockMap (js : List Nat) : Nat := js.foldl (fun n j => n + 2 ^ j) 0

/-- A bucket of the step took a RESEND, counted once in the ledger (Table 13.2). -/
def State.noteRetry (s : State) (i : SlabId) (c b : Nat) : State :=
  if (c, b) ∈ (s.slab i).links.retried then s
  else
    (s.modSlab i (fun sl => sl.modLinks (fun l => { l with retried := l.retried ++ [(c, b)] }))).modSlab i
      (fun sl => sl.modCamp (fun c => c.modLedger (s.stepNow i) (fun r =>
        { r with bucketsRetried := r.bucketsRetried + 1 })))

/-- RESEND of the missing blocks of a contributor (R327). -/
def State.askResend (s : State) (i : SlabId) (e : Nat) (co : Collective) (b : Nat) (ep : Half) (r : Nat)
    (js : List Nat) : State :=
  let g := (s.slab i).group co.group
  if js.isEmpty ∨ r = g.rank then s
  else
    (s.noteRetry i ((s.slab i).windowColl co.window) b).modSlab i (fun sl =>
      (sl.sendCtrl (g.endpoint r) 2 ([BitVec.ofNat 8 co.window] ++ leBytes ep.toNat 2 ++ leBytes b 2
        ++ leBytes (blockMap js) 16)).modEngine e (fun y => y.count Ctr.REDUCE_RESENDS 1))

/-- BUCKET_ACK to a contributor (R327). -/
def State.sendBucketAck (s : State) (i : SlabId) (co : Collective) (b : Nat) (ep : Half) (r : Nat) : State :=
  let g := (s.slab i).group co.group
  if r = g.rank then s
  else s.modSlab i (fun sl =>
    sl.sendCtrl (g.endpoint r) 3 ([BitVec.ofNat 8 co.window] ++ leBytes ep.toNat 2 ++ leBytes b 2))

/-- The check after a contributor's LAST frame (R327). -/
def State.afterLast (s : State) (i : SlabId) (e : Nat) (co : Collective) (ep : Half) (c r b : Nat) : State :=
  let s := s.modSlab i (fun sl => sl.modEngine e (fun y => y.modBucket c b (fun x =>
    { x with lastFrom := insertNew r x.lastFrom })))
  match ((s.slab i).engine e).bucketOf c b ep with
  | none => s
  | some x =>
    if x.landed then s.sendBucketAck i co b ep r else s.askResend i e co b ep r (x.missing co.bb r)

/-! ## Frames at the root -/

/-- What a REDUCE frame names: its collective, the contributor's rank and the root engine; none when its
bucket, block or frame lies outside the collective, it is not rooted here, or the source is no member. -/
def State.reduceTarget (s : State) (i : SlabId) (f : ZFrame) : Option (Nat × Collective × Nat × Nat) :=
  let h := f.header
  let c := (s.slab i).windowColl (zWindow h)
  match s.collective i c with
  | none => none
  | some co =>
    let g := (s.slab i).group co.group
    match g.rankOf (zSrc h) with
    | none => none
    | some r =>
      if zBucket h < co.nbuckets ∧ co.rootRank (zBucket h) = g.rank ∧ zBlock h < co.bb ∧ zFrag h ≤ 12 then
        some (c, co, r, (s.slab i).rootEngine c (zBucket h) (zEpoch h))
      else none

/-- A frame staged; a block with all 13 frames is added. -/
def State.stageFrame (s : State) (i : SlabId) (f : ZFrame) (c : Nat) (co : Collective) (r e : Nat) : State :=
  let h := f.header
  let b := zBucket h
  let j := zBlock h
  let ep := zEpoch h
  let s := s.openBucket i e c b ep
  let st : Staged := match ((s.slab i).engine e).stagedOf r c b j with
    | none => { rank := r, coll := c, bucket := b, block := j, frags := [], own := false }
    | some x => x
  let st := { st with frags := aset (zFrag h) f.payload st.frags }
  let others := ((s.slab i).engine e).staged.filter (fun x =>
    !(decide (x.rank = r) && decide (x.coll = c) && decide (x.bucket = b) && decide (x.block = j)))
  let done := (List.range 13).all (fun k => (alookup k st.frags).isSome)
  let s := s.modSlab i (fun sl => sl.modEngine e (fun y =>
    { y with staged := if done then others else others ++ [st] }))
  let s := if done then s.addBlock i e co ep c r b j st.data else s
  if zLast h then s.afterLast i e co ep c r b else s

/-- ZETRA_REDUCE_FRAME (R320, R325 to R327): a REDUCE frame for this endpoint is checked and staged at the
root engine. -/
def execZetraReduceFrame (slab : SlabId) (port : Fin 16) (f : ZFrame) (s : State) : Result :=
  let (s, ok) := s.linkInOwn slab port.val f 2
  if !ok then .next s
  else
    let h := f.header
    match s.windowCheck slab 2 (zWindow h) (zEpoch h) 0 0 with
    | some c => .next (s.rejectFrame slab f c)
    | none => match s.reduceTarget slab f with
      | none => .next (s.rejectFrame slab f .windowRange)
      | some (c, co, r, e) =>
        let staged := (((s.slab slab).engine e).stagedOf r c (zBucket h) (zBlock h)).isSome
        if s.hasSlots slab e c (zBucket h) (zEpoch h) (if staged then 0 else 1) then
          .next (s.stageFrame slab f c co r e)
        else
          .next ((s.modSlab slab (fun sl => sl.modEngine e (fun y => y.count Ctr.REDUCE_NO_BUFFER 1))).rejectFrame
            slab f .noBuffer)

/-- BUCKET_LANDED (R327): every landing of a complete bucket is acknowledged; BUCKET_ACK goes to every
contributor, and the accumulator slots are free. -/
def execBucketLanded (slab : SlabId) (engine : Fin 16) (coll : Nat) (bucket : Half) (s : State) : Result :=
  let b := bucket.toNat
  match (if (s.slab slab).ready then s.collective slab coll else none),
    ((s.slab slab).engine engine.val).buckets.find? (fun x =>
      decide (x.coll = coll) && decide (x.bucket = b) && x.complete && decide (0 < x.landing)) with
  | some co, some x =>
    if 0 < s.landingsOut slab coll b then .next s
    else
      let s := s.modSlab slab (fun sl => sl.modEngine engine.val (fun y =>
        y.modBucket coll b (fun z => { z with landing := 0 })))
      .next ((List.range ((s.slab slab).group co.group).ranks.length).foldl (fun s r =>
        s.sendBucketAck slab co b x.epoch r) s)
  | _, _ => .next s

/-! ## The contributor (R324, R327) -/

/-- The 13 frames of a retained block. -/
def Slab.blockFrames (sl : Slab) (dest : Half) (w : Nat) (x : Retained) (ep : Half) : List ZFrame :=
  (List.range 13).map (fun k =>
    let last := x.last && decide (k = 12)
    mkFrame (mkZHeader 2 1 dest sl.links.endpoint (w * 2 ^ 47 + ep.toNat * 2 ^ 31 + x.bucket % 65536 * 2 ^ 15
      + x.block % 128 * 2 ^ 8 + k * 2 ^ 4 + (if last then 8 else 0))) ((x.data.drop (640 * k)).take 640))

/-- A retained block sent to its root. -/
def State.sendRetained (s : State) (i : SlabId) (co : Collective) (x : Retained) (ep : Half) : State :=
  let dest := ((s.slab i).group co.group).endpoint (co.rootRank x.bucket)
  s.modSlab i (fun sl => sl.sendFrames (sl.blockFrames dest co.window x ep))

/-- The device's own contribution of a block, accepted under COLLECT at engine `e` in step `n`: added at
this slab's engine when it roots the bucket, else retained and sent. None when no slot is free. -/
def State.contribute (s : State) (i : SlabId) (e c : Nat) (n : DWord) (b j : Nat) (last : Bool) (data : List Byte) :
    Option State :=
  match s.collective i c with
  | none => some s
  | some co =>
    let g := (s.slab i).group co.group
    let ep : Half := n.truncate 16
    if co.rootRank b = g.rank then
      let re := (s.slab i).rootEngine c b ep
      if !s.hasSlots i re c b ep 1 then none
      else
        let s := (s.openBucket i re c b ep).addBlock i re co ep c g.rank b j data
        some (if last then s.afterLast i re co ep c g.rank b else s)
    else if engineSlots ≤ s.slotsUsed i e then none
    else
      let x : Retained := { coll := c, bucket := b, block := j, epoch := ep, data := data, last := last, again := false }
      let s := s.modSlab i (fun sl => sl.modEngine e (fun y =>
        { y with retained := y.retained.filter (fun z =>
            !(decide (z.coll = c) && decide (z.bucket = b) && decide (z.block = j) && decide (z.epoch = ep))) ++ [x] }))
      some (s.sendRetained i co x ep)

/-- The collective served by a window number at the other members. -/
def State.collOfWindow (s : State) (i : SlabId) (w : Nat) : Option (Nat × Collective) :=
  match s.image i with
  | none => none
  | some im => (im.collectives.zipIdx.find? (fun p => decide (p.1.window = w))).map (fun p => (p.2, p.1))

/-- The retained blocks of every engine changed by `f`; a block for which it answers none is freed. -/
def Slab.mapRetained (sl : Slab) (f : Retained → Option Retained) : Slab :=
  { sl with engines := sl.engines.map (fun p => (p.1, { p.2 with retained := p.2.retained.filterMap f })) }

/-- The engine that retains a block. -/
def Slab.retainer (sl : Slab) (c b j : Nat) : Option Nat :=
  (List.range 16).find? (fun e => (sl.engine e).retained.any (fun x =>
    decide (x.coll = c) && decide (x.bucket = b) && decide (x.block = j)))

/-- NACK (R321, R327): a WRITE frame's rejection is counted; a REDUCE frame's block is sent again after
RESEND_DELAY when it found no buffer or its epoch is later than the receiver's, else it is dropped. -/
def execNack (slab : SlabId) (port : Fin 16) (f : ZFrame) (code : NackCode) (epoch : Half) (rejected : BitVec 128)
    (s : State) : Result :=
  let (s, ok) := s.ctrlIn slab port.val f 1
  if !ok then .next s
  else if zType rejected = 1 then .next (s.modSlab slab (fun sl => sl.count Ctr.ZETRA_WINDOW_NACKS 1))
  else match (if zType rejected = 2 then s.collOfWindow slab (zWindow rejected) else none) with
    | none => .next s
    | some (c, _) =>
      let b := zBucket rejected
      let j := zBlock rejected
      let same (x : Retained) : Bool := decide (x.coll = c) && decide (x.bucket = b) && decide (x.block = j)
      match (s.slab slab).retainer c b j with
      | none => .next s
      | some e =>
        if code = .noBuffer ∨ later (zEpoch rejected) epoch then
          .next (s.modSlab slab (fun sl =>
            let at_ := sl.clocks.cycle + fabric sl.links.resendDelay
            (sl.mapRetained (fun x => if same x then some { x with again := true } else some x)).modEngine e
              (fun y => if y.resendAt.isSome then y else { y with resendAt := some at_ })))
        else .next (s.modSlab slab (fun sl => sl.mapRetained (fun x => if same x then none else some x)))

/-- The epoch that a block sent again carries. -/
def State.epochNow (s : State) (i : SlabId) (x : Retained) : Half :=
  match s.passWindow i with
  | none => x.epoch
  | some n => n.truncate 16

/-- RESEND_DELAY (R321, R327): the delay of an engine has passed; its marked blocks are sent again. -/
def execResendDelay (slab : SlabId) (engine : Fin 16) (s : State) : Result :=
  let y := (s.slab slab).engine engine.val
  match (if (s.slab slab).ready then y.resendAt else none) with
  | none => .next s
  | some at_ =>
    if s.cycle slab < at_ then .next s
    else
      let blocks := y.retained.filter (fun x => x.again)
      let s := s.modSlab slab (fun sl => sl.modEngine engine.val (fun y =>
        { y with resendAt := none, retained := y.retained.map (fun x => { x with again := false }) }))
      .next (blocks.foldl (fun s x => match s.collective slab x.coll with
        | none => s
        | some co => s.sendRetained slab co x (s.epochNow slab x)) s)

/-- RESEND (R327): the missing blocks are served from the retained slots, with the current epoch. -/
def execResend (slab : SlabId) (port : Fin 16) (f : ZFrame) (window : Byte) (_epoch bucket : Half)
    (missing : BitVec 128) (s : State) : Result :=
  let (s, ok) := s.ctrlIn slab port.val f 2
  match (if ok then s.collOfWindow slab window.toNat else none) with
  | none => .next s
  | some (c, co) =>
    .next ((List.range 16).foldl (fun s e =>
      let s := if ((s.slab slab).engine e).retained.any (fun x =>
          decide (x.coll = c) && decide (x.bucket = bucket.toNat)) then s.noteRetry slab c bucket.toNat else s
      let blocks := ((s.slab slab).engine e).retained.filter (fun x =>
        decide (x.coll = c) && decide (x.bucket = bucket.toNat) && missing.getLsbD x.block)
      if blocks.isEmpty then s
      else
        (blocks.foldl (fun s x => s.sendRetained slab co x (s.epochNow slab x)) s).modSlab slab (fun sl =>
          sl.modEngine e (fun y => y.count Ctr.REDUCE_RESENDS 1))) s)

/-- BUCKET_ACK (R327): the retained slots of the bucket are free. -/
def execBucketAck (slab : SlabId) (port : Fin 16) (f : ZFrame) (window : Byte) (epoch bucket : Half) (s : State) :
    Result :=
  let (s, ok) := s.ctrlIn slab port.val f 3
  match (if ok then s.collOfWindow slab window.toNat else none) with
  | none => .next s
  | some (c, _) =>
    .next (s.modSlab slab (fun sl => sl.mapRetained (fun x =>
      if x.coll = c ∧ x.bucket = bucket.toNat ∧ !later x.epoch epoch then none else some x)))

/-! ## Delivered collectives and replays (R280, R329) -/

/-- Landings of collectives that no unit has taken into its queue yet (R280). -/
def State.landingsWaiting (s : State) (i : SlabId) : Bool :=
  (s.devSlabs i).any (fun k => stacks24.any (fun u => (((s.slab k).stack u).unit.landings.drop 64).any (fun l => l.coll.isSome)))

/-- Every bucket rooted on slab `i` has landed in step `n`, and every landing, repeated ones too, has been taken (R280). -/
def State.delivered (s : State) (i : SlabId) (n : DWord) : Bool :=
  !s.landingsWaiting i && match s.image i with
  | none => true
  | some im => im.collectives.zipIdx.all (fun p =>
      let co := p.1
      let g := (s.slab i).group co.group
      (List.range (min co.nbuckets (max 1 co.bpr))).all (fun k =>
        let b := g.rank * max 1 co.bpr + k
        decide (co.nbuckets ≤ b) || (List.range 16).any (fun e =>
          ((s.slab i).engine e).buckets.any (fun x =>
            decide (x.coll = p.2) && decide (x.bucket = b) && decide (x.epoch = n.truncate 16) && x.landed))))

/-- The landings of step `n` made in earlier windows land again, in order (R329). -/
def State.reland (s : State) (i : SlabId) (n : DWord) : State :=
  (List.range 16).foldl (fun s e =>
    let gs := ((s.slab i).engine e).log.filter (fun g => decide (g.step = n))
    (gs.foldl (fun s g => s.giveLanding i { g.landing with waiting := false }) s).modSlab i (fun sl =>
      if gs.isEmpty then sl else sl.modEngine e (fun y => y.count Ctr.REDUCE_RELANDINGS gs.length))) s

/-- A hold discards the staged blocks of the device's own tiles that are not complete (R329). -/
def Slab.discardOwnStaged (sl : Slab) : Slab :=
  { sl with engines := sl.engines.map (fun p => (p.1, { p.2 with staged := p.2.staged.filter (fun x => !x.own) })) }

/-- When a step's window opens, the tables of earlier steps' buckets are gone. -/
def Slab.dropOldBuckets (sl : Slab) (n : DWord) : Slab :=
  { sl with engines := sl.engines.map (fun p =>
      (p.1, { p.2 with buckets := p.2.buckets.filter (fun b => decide (b.epoch = n.truncate 16))
                       staged := [] })) }

/-! ## Engine errors (R323) -/

/-- The engine holds part of the device's own work for the open window. -/
def State.ownPart (s : State) (i : SlabId) (e : Nat) : Bool :=
  let y := (s.slab i).engine e
  (s.passWindow i).isSome &&
    (!y.retained.isEmpty || y.staged.any (fun x => x.own)
      || y.buckets.any (fun b => !b.landed && b.counted.any (fun p => decide (p.1 = (s.collGroup i b.coll).rank))))

/-- REDUCE_SLOT_ERROR (R323): an uncorrectable slot resets the engine; its buckets move to engine
(b + 1) mod 16 empty and every contributor is asked for every block; a hold with code 0x0D is requested
when the engine held the device's own part of the open window. -/
def execReduceSlotError (slab : SlabId) (engine : Fin 16) (s : State) : Result :=
  if !(s.slab slab).ready then .next s
  else
    let e := engine.val
    let y := (s.slab slab).engine e
    let own := s.ownPart slab e
    let open_ := y.buckets.filter (fun b => !b.landed)
    let s := s.modSlab slab (fun sl =>
      (sl.modEngine e (fun y =>
        { y with staged := [], retained := [], resendAt := none, buckets := y.buckets.filter Bucket.landed })).modLinks
        (fun l => { l with packets := l.packets.filter (fun p => decide (p.engine ≠ e)) }))
    let s := open_.foldl (fun s b => match s.collective slab b.coll with
      | none => s
      | some co =>
        let e2 := (b.bucket + 1) % 16
        let s := s.openBucket slab e2 b.coll b.bucket b.epoch
        (List.range (s.collGroup slab b.coll).ranks.length).foldl (fun s r =>
          s.askResend slab e2 co b.bucket b.epoch r (List.range co.bb)) s) s
    .next (if own then s.raise slab 0x0D (some ⟨e % 24, Nat.mod_lt _ (by decide)⟩)
      else s.logFault slab { FaultEntry.basic 0x0D 1 with node := unitNode slab 4 e, aux := BitVec.ofNat 8 e })

/-! ## Probes and advisories (R338, R339) -/

def maxTimer : Nat := 16777216

/-- PROBE to an endpoint. -/
def State.sendProbe (s : State) (i : SlabId) (dest : Half) (awaited : Nat) : State :=
  s.modSlab i (fun sl =>
    (sl.sendCtrl dest 6 (leBytes (s.job i).step.toNat 8 ++ [BitVec.ofNat 8 awaited])).count Ctr.SUMMIT_PROBES 1)

/-- PEER_UNREACHABLE on the job function's ring, with its log entry. -/
def State.reportUnreachable (s : State) (i : SlabId) (e : Half) (awaited : Nat) : State :=
  (s.logFault i { FaultEntry.basic 0x17 1 with node := e }).event (s.jobFn i) i evtPeerUnreachable
    (leBytes e.toNat 2 ++ leBytes (s.stepNow i).toNat 8 ++ [BitVec.ofNat 8 awaited])

/-- COLL_TIMEOUT (R327, R338): a bucket has been open for its timer with a contributor incomplete; each
such contributor gets RESEND and PROBE. After three probes without an answer the peer is reported, and
then probed every 2^24 fabric cycles. -/
def execCollTimeout (slab : SlabId) (engine : Fin 16) (coll : Nat) (bucket : Half) (s : State) : Result :=
  let e := engine.val
  let b := bucket.toNat
  match (if (s.slab slab).ready then s.collective slab coll else none),
    ((s.slab slab).engine e).buckets.find? (fun x =>
      decide (x.coll = coll) && decide (x.bucket = b) && !x.complete) with
  | some co, some x =>
    if s.cycle slab < x.opened + fabric x.timeout then .next s
    else
      let g := (s.slab slab).group co.group
      let late := (List.range g.ranks.length).filter (fun r =>
        decide (r ≠ g.rank) && !(x.missing co.bb r).isEmpty)
      let s := late.foldl (fun s r =>
        let s := s.askResend slab e co b x.epoch r (x.missing co.bb r)
        let s := if x.probes = 3 then s.reportUnreachable slab (g.endpoint r) 0 else s
        s.sendProbe slab (g.endpoint r) 0) s
      .next (s.modSlab slab (fun sl => sl.modEngine e (fun y => y.modBucket coll b (fun z =>
        { z with probes := z.probes + 1, opened := sl.clocks.cycle
                 timeout := if 3 ≤ z.probes then maxTimer else z.timeout }))))
  | _, _ => .next s

/-- PROBE (R338): the device answers ALIVE with its step, its window's state and SLOW_PITCHES. -/
def execProbe (slab : SlabId) (port : Fin 16) (f : ZFrame) (_step : DWord) (_awaited : Byte) (s : State) : Result :=
  let (s, ok) := s.ctrlIn slab port.val f 6
  if !ok then .next s
  else
    let j := s.job slab
    .next (s.modSlab slab (fun sl => sl.sendCtrl (zSrc f.header) 7
      (leBytes j.step.toNat 8 ++ [if j.state = .paused then 2 else if j.window.isSome then 1 else 0] ++ leBytes sl.links.slowPitches.toNat 2)))

/-- The next value of a timer after ALIVE: doubled, or the configured one after an unreachable peer. -/
def aliveTimer (now configured probes : Nat) : Nat := if 3 < probes then configured else min maxTimer (2 * now)

/-- ALIVE (R338): a slow peer is logged, and the timers that await it start again. -/
def execAlive (slab : SlabId) (port : Fin 16) (f : ZFrame) (_step : DWord) (_windowState : Byte) (slow : Half)
    (s : State) : Result :=
  let (s, ok) := s.ctrlIn slab port.val f 7
  if !ok then .next s
  else
    let src := zSrc f.header
    let s := s.logFault slab { FaultEntry.basic 0x17 1 with node := src, detail := leBytes slow.toNat 2 }
    let awaits (x : Bucket) : Bool :=
      match s.collective slab x.coll with
      | none => false
      | some co => match ((s.slab slab).group co.group).rankOf src with
        | none => false
        | some r => !x.complete && decide (0 < x.probes) && !(x.missing co.bb r).isEmpty
    .next (s.modSlab slab (fun sl =>
      let now := sl.clocks.cycle
      let sl : Slab := { sl with engines := sl.engines.map (fun (p : Nat × Engine) =>
        (p.1, { p.2 with buckets := p.2.buckets.map (fun x =>
          if awaits x then
            { x with timeout := aliveTimer x.timeout sl.links.collTimeout x.probes, probes := 0, opened := now }
          else x) })) }
      sl.modLinks (fun l =>
        if l.summitProbes = 0 then l
        else { l with summitWait := aliveTimer l.summitWait l.summitTimeout l.summitProbes, summitProbes := 0
                      summitSince := now, unreachable := false })))

/-- The device heard of SLOW_PITCHES: it keeps the largest of the step, and its timers grow by
SLOW_PITCHES × 32,768 fabric cycles (R339). -/
def Slab.heardSlow (sl : Slab) (slow : Half) : Slab :=
  let old := sl.links.slowPitches.toNat
  let more := (slow.toNat - old) * 32768
  let sl : Slab := sl.modLinks (fun l =>
    { l with slowPitches := BitVec.ofNat 16 (max old slow.toNat), summitWait := l.summitWait + more })
  { sl with engines := sl.engines.map (fun p =>
      (p.1, { p.2 with buckets := p.2.buckets.map (fun x => { x with timeout := x.timeout + more }) })) }

/-- The neighbours of this slab in the summit tree: its parent and its children (R330). -/
def Slab.summitGroup (sl : Slab) : Option Group := (sl.links.groups.find? (fun p => p.2.summit)).map Prod.snd
def summitParent (g : Group) : Option Half := if g.rank = 0 then none else some (g.endpoint ((g.rank - 1) / 16))
def summitChildren (g : Group) : List Half :=
  ((List.range 16).map (fun k => 16 * g.rank + 1 + k)).filter (fun r => decide (r < g.ranks.length)) |>.map g.endpoint
def Slab.summitNeighbours (sl : Slab) : List Half :=
  match sl.summitGroup with
  | none => []
  | some g => (summitParent g).toList ++ summitChildren g

/-- ADVISORY sent up and down the tree, but to `skip`. -/
def Slab.sendAdvisory (sl : Slab) (step : DWord) (skip : Option Half) : Slab :=
  let slow := sl.links.slowPitches
  let peers := sl.summitNeighbours.filter (fun e => decide (some e ≠ skip))
  peers.foldl (fun sl e =>
    (sl.sendCtrl e 8 (leBytes step.toNat 8 ++ leBytes slow.toNat 2)).count Ctr.SLOW_ADVISORIES 1) sl

/-- ADVISORY (R339): the timers of the step grow, and the advisory is relayed. -/
def execAdvisory (slab : SlabId) (port : Fin 16) (f : ZFrame) (step : DWord) (slow : Half) (s : State) : Result :=
  let (s, ok) := s.ctrlIn slab port.val f 8
  if !ok then .next s
  else .next (s.modSlab slab (fun sl =>
    ((sl.heardSlow slow).count Ctr.SLOW_ADVISORIES 1).sendAdvisory step (some (zSrc f.header))))

end Sys2Proof.Machine
end

