-- ==== Sys2Proof/Machine/Multicast.lean ====
section
/-! DEFINITION. Off-module multicast (R331 to R337): packets, acknowledgement, retry, detachment and
catch-up at the source, ordered delivery at the target. -/

namespace Sys2Proof.Machine

open Sys2Proof

/-! ## The source (R331 to R333) -/

/-- A source group of a slab. -/
def Slab.mcGroup (sl : Slab) (g : Nat) : Option McastTx := alookup g sl.links.mcastTx

/-- The slab with a source group changed. -/
def Slab.modMcGroup (sl : Slab) (g : Nat) (f : McastTx → McastTx) : Slab :=
  sl.modLinks (fun l => { l with mcastTx := l.mcastTx.map (fun (p : Nat × McastTx) => if p.1 = g then (p.1, f p.2) else p) })

/-- Frames of a packet. -/
def mcFrames (n : Nat) : Nat := max 1 ((n + 639) / 640)

/-- The frames of a packet to one target. -/
def Slab.packetFrames (sl : Slab) (dest : Half) (g : Nat) (seq : Word) (cu : Bool) (payload : List Byte) : List ZFrame :=
  let n := mcFrames payload.length
  (List.range n).map (fun k =>
    let part := (payload.drop (640 * k)).take 640
    let rows := max 1 ((part.length + 63) / 64)
    mkFrame (mkZHeader 3 3 dest sl.links.endpoint (g % 256 * 2 ^ 47 + seq.toNat * 2 ^ 15 + k * 2 ^ 11
      + (rows - 1) * 2 ^ 7 + (if k + 1 = n then 64 else 0) + (if cu then 32 else 0))) part)

/-- Packets of a group that a target has not acknowledged. -/
def Slab.unackedBy (sl : Slab) (g : Nat) (t : Half) : List McPacket :=
  sl.links.packets.filter (fun p => decide (p.group = g) && decide (t ∈ p.pending))

/-- A target out of every stored packet of a group; packets with nobody left are freed. -/
def Slab.clearPending (sl : Slab) (g : Nat) (t : Half) (upTo : Word → Bool) : Slab :=
  sl.modLinks (fun l =>
    let ps := l.packets.map (fun p =>
      if p.group = g ∧ upTo p.seq then { p with pending := p.pending.filter (fun x => decide (x ≠ t)) } else p)
    { l with packets := ps.filter (fun p => !p.pending.isEmpty) })

/-- A source detaches a target that has 64 packets unacknowledged when a new one comes (R333). -/
def Slab.detachTarget (sl : Slab) (g e : Nat) (t : Half) (step : DWord) : Slab :=
  let first := match sl.unackedBy g t with
    | [] => 0
    | p :: _ => p.seq
  let sl := sl.clearPending g t (fun _ => true)
  let sl := sl.modMcGroup g (fun m =>
    { m with attached := m.attached.filter (fun x => decide (x ≠ t)), detached := m.detached ++ [(t, first, step)] })
  (sl.sendCtrl t 5 ([BitVec.ofNat 8 g] ++ leBytes t.toNat 2 ++ leBytes first.toNat 4)).modEngine e
    (fun y => y.count Ctr.MCAST_DETACHES 1)

/-- A packet sent to every attached target of a group by engine `e` (R331 to R333). -/
def State.sendPacket (s : State) (i : SlabId) (g e : Nat) (payload : List Byte) : State :=
  match (s.slab i).mcGroup g with
  | none => s
  | some m =>
    let step := (s.job i).step
    s.modSlab i (fun sl =>
      let full := m.attached.filter (fun t => decide (64 ≤ (sl.unackedBy g t).length))
      let sl := full.foldl (fun sl t => sl.detachTarget g e t step) sl
      let live := m.attached.filter (fun t => decide (t ∉ full))
      let sl := sl.modMcGroup g (fun m => { m with nextSeq := m.nextSeq + 1 })
      let sl := live.foldl (fun sl t => sl.sendFrames (sl.packetFrames t g m.nextSeq false payload)) sl
      if live.isEmpty then sl
      else sl.modLinks (fun l =>
        { l with packets := l.packets ++ [{ group := g, seq := m.nextSeq, engine := e, pending := live, payload := payload, sentAt := sl.clocks.cycle }] }))

/-- Bytes sent as consecutive packets of 8,320 bytes. -/
def State.sendPackets (s : State) (i : SlabId) (g e : Nat) (bs : List Byte) : State :=
  (chunksOf 8320 (bs.length / 8320 + 1) bs).foldl (fun s p => s.sendPacket i g e p) s

/-- MCAST_ACK (R332): the target's bit is cleared in every packet up to SEQ. -/
def execMcastAck (slab : SlabId) (port : Fin 16) (f : ZFrame) (group : Byte) (source : Half) (seq : Word) (s : State) :
    Result :=
  let (s, ok) := s.ctrlIn slab port.val f 4
  if !ok || decide (source ≠ (s.slab slab).links.endpoint) then .next s
  else .next (s.modSlab slab (fun sl => sl.clearPending group.toNat (zSrc f.header) (fun q => !later q seq)))

/-- MCAST_RETRY (R332): a packet not fully acknowledged within MCAST_RETRY goes again to the targets whose
bits are set. -/
def execMcastRetry (slab : SlabId) (engine : Fin 16) (group : Byte) (seq : Word) (s : State) : Result :=
  let g := group.toNat
  let here (p : McPacket) : Bool := decide (p.engine = engine.val) && decide (p.group = g) && decide (p.seq = seq)
  match (if (s.slab slab).ready then (s.slab slab).links.packets.find? here else none) with
  | none => .next s
  | some p =>
    if s.cycle slab < p.sentAt + fabric (s.slab slab).links.mcastRetry then .next s
    else
      .next (s.modSlab slab (fun sl =>
        let now := sl.clocks.cycle
        let sl := p.pending.foldl (fun sl t => sl.sendFrames (sl.packetFrames t g seq false p.payload)) sl
        (sl.modLinks (fun l =>
          { l with packets := l.packets.map (fun x => if here x then { x with sentAt := now } else x) })).modEngine
          engine.val (fun y => y.count Ctr.MCAST_RETRIES 1)))

/-! ## The target (R335) -/

/-- The packets a target's group entry delivers, in order from the expected SEQ on. -/
def McastRx.ready (x : McastRx) : Nat → List (Word × List Byte)
  | 0 => []
  | n + 1 =>
    match alookup x.expected x.held with
    | none => []
    | some bs =>
      (x.expected, bs) :: McastRx.ready { x with expected := x.expected + 1, held := aerase x.expected x.held } n

/-- Bytes written to a MEMORY window as to a ring. -/
def State.ringWrite (s : State) (i : SlabId) (p w off : Nat) (bs : List Byte) : State :=
  let size := max 1 ((s.slab i).window w).size
  let o := off % size
  let fit := size - o
  let s := s.windowWrite i p w o (bs.take fit)
  if (bs.drop fit).isEmpty then s else s.windowWrite i p w 0 (bs.drop fit)

/-- MCAST_ACK of a target for what it has delivered. -/
def State.ackPackets (s : State) (i : SlabId) (x : McastRx) : State :=
  s.modSlab i (fun sl =>
    let sl := sl.sendCtrl x.source 4 ([BitVec.ofNat 8 x.group] ++ leBytes x.source.toNat 2
      ++ leBytes (x.expected - 1).toNat 4)
    sl.modLinks (fun l =>
      { l with mcastRx := l.mcastRx.map (fun y =>
          if y.source = x.source ∧ y.group = x.group then { y with unacked := 0 } else y) }))

/-- One packet delivered (R335): to a window, or to the update units, which take its record as a command
of its own; and again to the relay group. -/
def State.deliverPacket (s : State) (i : SlabId) (p : Nat) (x : McastRx) (seq : Word) (bs : List Byte) : State :=
  let s := if x.toUnits then s
    else s.ringWrite i p x.window ((seq - x.first).toNat * 8320) bs
  match x.relay with
  | none => s
  | some g => s.sendPacket i g p bs

/-- A group entry replaced. -/
def Slab.setMcastRx (sl : Slab) (x : McastRx) : Slab :=
  sl.modLinks (fun l =>
    { l with mcastRx := l.mcastRx.map (fun y => if y.source = x.source ∧ y.group = x.group then x else y) })

/-- A frame put with the others of its packet; the packet when it is whole. -/
def McastRx.addFrame (x : McastRx) (f : ZFrame) : McastRx × Option (List Byte) :=
  let h := f.header
  let q := zSeq h
  let part := f.payload.take (64 * (bits h 10 7 + 1))
  let others := x.frames.filter (fun y => !(decide (y.1 = q) && decide (y.2.1 = zMcFrag h)))
  let frames := others ++ [(q, zMcFrag h, part)]
  let lastFrag := if zMcLast h then aset q (zMcFrag h) x.lastFrag else x.lastFrag
  let get (k : Nat) : Option (List Byte) :=
    (frames.find? (fun y => decide (y.1 = q) && decide (y.2.1 = k))).map (fun y => y.2.2)
  match alookup q lastFrag with
  | none => ({ x with frames := frames, lastFrag := lastFrag }, none)
  | some n =>
    let parts := (List.range (n + 1)).map get
    if parts.all Option.isSome then
      ({ x with frames := frames.filter (fun y => decide (y.1 ≠ q)), lastFrag := aerase q lastFrag },
        some (parts.flatMap (fun o => o.getD [])))
    else ({ x with frames := frames, lastFrag := lastFrag }, none)

/-- A frame at a target (R335): a packet below the expected SEQ is acknowledged again, one within the
window of 64 is held until those before it are delivered, one beyond is dropped. -/
def State.mcastFrame (s : State) (i : SlabId) (p : Nat) (f : ZFrame) : State :=
  let h := f.header
  match (s.slab i).links.mcastRx.find? (fun x => decide (x.source = zSrc h) && decide (x.group = zGroup h)) with
  | none => s
  | some x =>
    let q := zSeq h
    let d := (q - x.expected).toNat
    if later x.expected q then (if zMcLast h then s.ackPackets i x else s)
    else if 64 ≤ d then s
    else
      let (x, whole) := x.addFrame f
      let x := if zCatchup h then x else { x with attached := true }
      match whole with
      | none => s.modSlab i (fun sl => sl.setMcastRx x)
      | some bs =>
        let x := { x with held := aset q bs x.held }
        let out := x.ready 64
        let n := out.length
        let now := s.cycle i
        let x' : McastRx :=
          { x with expected := x.expected + BitVec.ofNat 32 n, held := x.held.filter (fun y => decide (y.1 ∉ out.map Prod.fst))
                   unacked := x.unacked + n, unackedAt := if x.unacked = 0 then now else x.unackedAt }
        let s := s.modSlab i (fun sl => sl.setMcastRx x')
        let s := out.foldl (fun s y => s.deliverPacket i p x' y.1 y.2) s
        if 8 ≤ x'.unacked then s.ackPackets i x' else s

/-- ZETRA_MCAST_FRAME (R335). -/
def execZetraMcastFrame (slab : SlabId) (port : Fin 16) (f : ZFrame) (s : State) : Result :=
  if zCatchup f.header then .next s
  else
    let (s, ok) := s.linkInOwn slab port.val f 3
    .next (if ok then s.mcastFrame slab port.val f else s)

/-- MCAST_ACK_TIMER (R332): deliveries unacknowledged for 1,024 fabric cycles are acknowledged. -/
def execMcastAckTimer (slab : SlabId) (source : Half) (group : Byte) (s : State) : Result :=
  match (if (s.slab slab).ready then (s.slab slab).links.mcastRx.find? (fun x =>
    decide (x.source = source) && decide (x.group = group.toNat)) else none) with
  | none => .next s
  | some x =>
    if x.unacked = 0 ∨ s.cycle slab < x.unackedAt + fabric 1024 then .next s else .next (s.ackPackets slab x)

/-- DETACH (R333): the target learns that it is detached and awaits catch-up. -/
def execDetach (slab : SlabId) (port : Fin 16) (f : ZFrame) (group : Byte) (target : Half) (_seq : Word) (s : State) :
    Result :=
  let (s, ok) := s.ctrlIn slab port.val f 5
  if !ok || decide (target ≠ (s.slab slab).links.endpoint) then .next s
  else
    .next (s.modSlab slab (fun sl => sl.modLinks (fun l =>
      { l with mcastRx := l.mcastRx.map (fun x =>
          if x.source = zSrc f.header ∧ x.group = group.toNat then { x with attached := false } else x) })))

/-! ## Catch-up (R334, R336) -/

/-- The source sends a catch-up frame, read again from the source memory, to a detached target; after the
last frame of a packet the target is attached again if the next SEQ is still stored. -/
def State.sendCatchup (s : State) (i : SlabId) (p : Nat) (f : ZFrame) : State :=
  let h := f.header
  let g := zGroup h
  let t := zDest h
  match (s.slab i).mcGroup g with
  | none => s
  | some m => match m.detached.find? (fun x => decide (x.1 = t)) with
    | none => s
    | some (_, q, _) =>
      if zSeq h ≠ q then s
      else
        let s := s.modSlab i (fun sl => sl.sendFrame (mkFrame h f.payload) false)
        if !zMcLast h then s
        else
          s.modSlab i (fun sl =>
            let next := q + 1
            let sl := sl.modEngine p (fun y => y.count Ctr.MCAST_CATCHUP_PACKETS 1)
            let stored := sl.links.packets.any (fun x => decide (x.group = g) && decide (x.seq = next))
            let caughtUp := stored || decide (next = m.nextSeq)
            let sl := sl.modMcGroup g (fun m =>
              if caughtUp then
                { m with detached := m.detached.filter (fun x => decide (x.1 ≠ t)), attached := m.attached ++ [t] }
              else { m with detached := m.detached.map (fun x => if x.1 = t then (t, next, x.2.2) else x) })
            if caughtUp then
              sl.modLinks (fun l =>
                { l with packets := l.packets.map (fun x =>
                    if x.group = g ∧ !later next x.seq then { x with pending := insertNew t x.pending } else x) })
            else sl)

/-- CATCHUP_FRAME (R334): at the source of the frame it is sent; at its target it is received and
delivered as the packet it repeats. -/
def execCatchupFrame (slab : SlabId) (port : Fin 16) (f : ZFrame) (s : State) : Result :=
  if zType f.header ≠ 3 ∨ !zCatchup f.header then .next s
  else if zSrc f.header = (s.slab slab).links.endpoint then
    if (s.slab slab).ready then .next (s.sendCatchup slab port.val f) else .next s
  else
    let (s, ok) := s.linkInOwn slab port.val f 3
    .next (if ok then s.mcastFrame slab port.val f else s)

/-- CATCHUP_ABANDON (R336): a catch-up unfinished at the end of the step after its detachment is given up;
the target is unreachable. -/
def execCatchupAbandon (slab : SlabId) (group : Byte) (target : Half) (s : State) : Result :=
  let g := group.toNat
  match (if (s.slab slab).ready then (s.slab slab).mcGroup g else none) with
  | none => .next s
  | some m => match m.detached.find? (fun x => decide (x.1 = target)) with
    | none => .next s
    | some (_, _, n) =>
      let j := s.job slab
      if n.toNat + 1 < j.step.toNat ∨ (n.toNat + 1 = j.step.toNat ∧ !j.inStep) then
        .next ((s.modSlab slab (fun sl => sl.modMcGroup g (fun m =>
          { m with detached := m.detached.filter (fun x => decide (x.1 ≠ target)) }))).reportUnreachable slab target 3)
      else .next s

end Sys2Proof.Machine
end

