-- ==== Sys2Proof/Machine/Landing.lean ====
section
/-! DEFINITION. Pass 1 of the update units (R276 to R279, R294): gradient landings, block completion and
FROZEN changes. -/

namespace Sys2Proof.Machine

open Sys2Proof

/-! ## Sums of a unit (R279) -/

/-- The square of a value in FP64. -/
def square (v : Fp) : DWord := let d := toF64 v; f64mul d d

/-- Squares of the finite values added one after another. -/
def addSquares (acc : DWord) (vs : List Fp) : DWord :=
  vs.foldl (fun a v => if v.isFinite then f64add a (square v) else a) acc

/-- A norm group's two sums with squares added: weights, then gradients. -/
def UpdateUnit.addGroup (u : UpdateUnit) (g : Nat) (ws gs : List Fp) : UpdateUnit :=
  let (w, x) := match u.groups.find? (fun p => decide (p.1 = g)) with
    | none => (0, 0)
    | some p => (p.2.1, p.2.2)
  { u with groups := aset g (addSquares w ws, addSquares x gs) u.groups }

/-- A unit's sums at the opening of a window (R277). -/
def UpdateUnit.newWindow (u : UpdateUnit) : UpdateUnit :=
  { u with gsq := 0, nonfinite := false, short := false, groups := [], landings := [] }

/-! ## Completeness (R279) -/

/-- LANDED of a complete block. -/
def ObjectEntry.fullCount (o : ObjectEntry) : Nat := 128 * o.update.accum

/-- NORM_FROZEN of an object. -/
def ObjectEntry.normFrozen (o : ObjectEntry) : Bool := decide (o.update.flags / 2 % 2 = 1)

/-- Sector 1 of a block's header belongs to window (n, r). -/
def State.inWindow (s : State) (i : SlabId) (o : ObjectEntry) (b : Nat) (n : DWord) (r : Nat) : Bool :=
  decide (s.headerField i o b 0x20 8 = n.toNat) && decide (s.headerField i o b 0x28 2 = r)

/-- Landings applied to a block in window (n, r). -/
def State.landedIn (s : State) (i : SlabId) (o : ObjectEntry) (b : Nat) (n : DWord) (r : Nat) : Nat :=
  if s.inWindow i o b n r then s.blockLanded i o b else 0

/-- A block is complete for window (n, r). -/
def State.blockComplete (s : State) (i : SlabId) (o : ObjectEntry) (b : Nat) (n : DWord) (r : Nat) : Bool :=
  (s.blockFrozen i o b && !o.normFrozen) || decide (o.fullCount ≤ s.landedIn i o b n r)

/-- What the unit reads at the completion of a block that is not frozen. -/
def State.completeBlock (s : State) (i : SlabId) (k : SlabId) (u : Nat) (o : ObjectEntry) (b : Nat) : State :=
  let vs := s.readSlot i o b
  let bad := (vs.filter (fun v => !v.isFinite)).length
  let ws := if o.update.rule = 3 then s.readField i o b 1 else []
  let s := s.readPlanes i o b ([slotPlane o.update.rule, slotPlane o.update.rule + 1] ++ if o.update.rule = 3 then [1, 2] else [])
  s.modSlab k (fun sl => sl.modUnit u (fun x =>
    let x := { x with gsq := addSquares x.gsq vs, nonfinite := x.nonfinite || decide (0 < bad) }
    let x := x.count Ctr.UPD_NONFINITE_ELEMENTS bad
    if o.update.rule = 3 then x.addGroup o.update.group.toNat ws vs else x))

/-! ## A landing (R278) -/

/-- The unit still owes a block for step `n`: its position is at or above POS of the commit word. -/
def UpdateUnit.stillOwes (u : UpdateUnit) (all : Nat) (o : ObjectEntry) (b : Nat) (n : DWord) : Bool :=
  decide (u.posFor n all ≤ o.update.firstPos + b)

/-- Whether landing of block `b` waits in window (n, _). -/
def State.landingWaits (s : State) (i k : SlabId) (u : Nat) (o : ObjectEntry) (b : Nat) (n : DWord) : Bool :=
  decide (0 < n.toNat) && ((s.slab k).stack u).unit.stillOwes (s.orderLength i) o b (n - 1)

/-- One scale group written to the slot, or added to it. -/
def State.applyGroup (s : State) (i : SlabId) (o : ObjectEntry) (b : Nat) (fresh : Nat)
    (g : Fin 128 × BitVec 512 × Byte) : State :=
  let k := slotPlane o.update.rule
  let ea := o.planeAddr b k + 64 * g.1.val
  let sa := o.planeAddr b (k + 1) + g.1.val
  if fresh.testBit g.1.val then
    let vals (es : List Byte) (sc : Byte) : List Word :=
      let a := es.toArray
      (decodeElems 8 (fun j => a.getD j 0) (fun _ => sc) 32).map (toF32 .nearestEven)
    let old := vals (s.readRangeD i ea 64) ((s.readRangeD i sa 1).headD 0)
    let sum := List.zipWith f32add old (vals (rowBytes g.2.1) g.2.2)
    let c := encodeSbf16 (fun _ => .nearestEven) 0 (sum.map Word.fp)
    ((s.unitRead i ea 64).unitWrite i ea (leBytes (packRaws 8 c.raws) 64)).unitWrite i sa c.scales
  else (s.unitWrite i ea (rowBytes g.2.1)).unitWrite i sa [g.2.2]

/-- Sector 1 of a block's header written. -/
def State.putSector1 (s : State) (i : SlabId) (o : ObjectEntry) (b : Nat) (n : DWord) (r landed fresh : Nat) : State :=
  s.unitWrite i (o.planeAddr b 0 + 32) (sector1 n r landed fresh)

/-- The values of a landing's groups. -/
def Landing.values (l : Landing) : List Fp :=
  l.groups.flatMap (fun g =>
    let a := (rowBytes g.2.1).toArray
    decodeElems 8 (fun j => a.getD j 0) (fun _ => g.2.2) 32)

/-- A LANDED above the complete value makes the unit SHORT (R279). -/
def State.noteShort (s : State) (k : SlabId) (u : Nat) (o : ObjectEntry) (old new : Nat) : State :=
  let full := o.fullCount
  if full < new then
    s.modSlab k (fun sl => sl.modUnit u (fun x =>
      { x with short := true }.count Ctr.UPD_SHORT_BLOCKS (if old ≤ full then 1 else 0)))
  else s

/-- A landing on a frozen block (R278 step 1). -/
def State.landFrozen (s : State) (i k : SlabId) (u : Nat) (o : ObjectEntry) (l : Landing) (n : DWord) (r : Nat) : State :=
  let s := s.modSlab k (fun sl => sl.modUnit u (fun x => x.count Ctr.UPD_FROZEN_DISCARDS 1))
  if !o.normFrozen then s
  else
    let old := s.landedIn i o l.block n r
    let fresh := if s.inWindow i o l.block n r then s.headerField i o l.block 0x30 16 else 0
    let new := old + l.groups.length
    let s := (s.modSlab k (fun sl => sl.modUnit u (fun x => { x with gsq := addSquares x.gsq l.values }))).putSector1 i o
      l.block n r (new % 65536) fresh
    s.noteShort k u o old new

/-- A landing applied (R278 steps 3 to 5, R279). -/
def State.landApply (s : State) (i k : SlabId) (u : Nat) (o : ObjectEntry) (l : Landing) (n : DWord) (r : Nat) : State :=
  let b := l.block
  let old := s.landedIn i o b n r
  let fresh := if s.inWindow i o b n r then s.headerField i o b 0x30 16 else 0
  let s := l.groups.foldl (fun s g => s.applyGroup i o b fresh g) s
  let fresh' := l.groups.foldl (fun x g => x ||| 2 ^ g.1.val) fresh
  let new := old + l.groups.length
  let s := s.putSector1 i o b n r (new % 65536) fresh'
  let s := s.modSlab k (fun sl => sl.modUnit u (fun x => x.count Ctr.UPD_LANDINGS 1))
  let full := o.fullCount
  let s := if old < full ∧ full ≤ new then s.completeBlock i k u o b else s
  s.noteShort k u o old new

/-- Landings of a unit put as `ls`. -/
def State.setLandings (s : State) (k : SlabId) (u : Nat) (ls : List Landing) : State :=
  s.modSlab k (fun sl => sl.modUnit u (fun x => { x with landings := ls }))

/-- The place in the queue of 64 of the first landing that no earlier one of its block holds back: not
waiting (`waiting` false), or itself waiting (`waiting` true). -/
def nextLanding (waiting : Bool) (ls : List Landing) : Option Nat :=
  (List.range (min 64 ls.length)).find? (fun j =>
    match ls[j]? with
    | none => false
    | some l => decide (l.waiting = waiting) && !(ls.take j).any (fun e =>
        e.waiting && decide (e.object = l.object) && decide (e.block = l.block)))

/-- The parameter object of a landing, when it has the block. -/
def State.landingObject (s : State) (i : SlabId) (l : Landing) : Option ObjectEntry :=
  match s.objectNo i l.object with
  | none => none
  | some o => if o.isParam && decide (l.block < o.update.nblocks) then some o else none

/-- The block header that a unit reads names its object and block; one that does not is an uncorrectable sector (R272). -/
def State.headerOk (s : State) (i : SlabId) (o : ObjectEntry) (b : Nat) : Bool :=
  decide (s.headerField i o b 0x18 4 = b) && decide (s.headerField i o b 0x1C 2 = o.object)

/-- The error of sector 0 of a block's header (R212, R272). -/
def State.headerError (s : State) (i : SlabId) (o : ObjectEntry) (b : Nat) : State :=
  let a := o.planeAddr b 0
  match s.pte i (vpnOf a) with
  | none => s
  | some (k, e) =>
    let t := s.sectorError k (vpnOf a) (a % pageBytes / 32)
    if pteProt e = 1 ∧ t.headerOk i o b = false then t.raise k 0x08 (some ⟨pteStack e % 24, Nat.mod_lt _ (by decide)⟩) else t

/-- GRADIENT_LANDING (R276 to R279): the unit takes the next landing that nothing holds back. -/
def execGradientLanding (slab : SlabId) (unit : Fin 24) (s : State) : Result :=
  let u := unit.val
  let ls := ((s.slab slab).stack u).unit.landings
  match (if (s.slab slab).ready then nextLanding false ls else none) with
  | none => .next s
  | some j => match ls[j]? with
    | none => .next s
    | some l =>
      let rest := ls.eraseIdx j
      match (s.job slab).window, s.landingObject slab l with
      | none, _ =>
        .next ((s.setLandings slab u rest).modSlab slab (fun sl => sl.modUnit u (fun x =>
          x.count Ctr.UPD_LATE_LANDINGS 1)))
      | _, none =>
        .next ((s.setLandings slab u rest).modSlab slab (fun sl => sl.modUnit u (fun x =>
          x.count Ctr.UPD_LANDING_FAULTS 1)))
      | some (n, r), some o =>
        if !s.headerOk slab o l.block then .next (s.headerError slab o l.block)
        else if s.blockFrozen slab o l.block then .next ((s.setLandings slab u rest).landFrozen slab slab u o l n r)
        else if s.landingWaits slab slab u o l.block n then
          .next ((s.setLandings slab u (ls.set j { l with waiting := true })).modSlab slab (fun sl =>
            sl.modUnit u (fun x => x.count Ctr.UPD_COMMIT_WAITS 1)))
        else .next ((s.setLandings slab u rest).landApply slab slab u o l n r)

/-- LANDING_WAIT_RELEASE (R278): a waiting landing whose block the unit no longer owes for the step before
is applied, or discarded when the block has been frozen meanwhile. -/
def execLandingWaitRelease (slab : SlabId) (unit : Fin 24) (s : State) : Result :=
  let u := unit.val
  let ls := ((s.slab slab).stack u).unit.landings
  let ok (n : DWord) (j : Nat) : Bool :=
    match ls[j]? with
    | none => false
    | some l => l.waiting && !(ls.take j).any (fun e => e.waiting && decide (e.object = l.object) && decide (e.block = l.block))
        && (match s.landingObject slab l with
          | none => false
          | some o => !s.landingWaits slab slab u o l.block n)
  match (if (s.slab slab).ready then (s.job slab).window else none) with
  | none => .next s
  | some (n, r) => match (List.range (min 64 ls.length)).find? (ok n) with
    | none => .next s
    | some j => match ls[j]? with
      | none => .next s
      | some l => match s.landingObject slab l with
        | none => .next s
        | some o =>
          let s := s.setLandings slab u (ls.eraseIdx j)
          .next (if s.blockFrozen slab o l.block then s.landFrozen slab slab u o l n r else s.landApply slab slab u o l n r)

/-! ## Frozen changes (R294) -/

/-- The FROZEN setting of STEP_CONTROL that covers a block, and its step. -/
def Job.freezeOf (j : Job) (object block : Nat) : Option (DWord × Bool) :=
  j.settings.reverse.findSome? (fun p => match p.2 with
    | .freeze o first count frozen =>
      if o = object ∧ first ≤ block ∧ block < first + count then some (p.1, frozen) else none
    | _ => none)

/-- FLAGS of a block's header with FROZEN set or cleared. -/
def State.putFrozen (s : State) (i : SlabId) (o : ObjectEntry) (b : Nat) (frozen : Bool) : State :=
  let f := s.headerField i o b 0x14 2
  s.writeRange i (o.planeAddr b 0 + 0x14) (leBytes (f / 2 * 2 + if frozen then 1 else 0) 2)

/-- FROZEN_CHANGE (R294): base camp writes a change into a block between its commit for the step before
and the first landing of the change's step. -/
def execFrozenChange (slab : SlabId) (object : Half) (block : Word) (s : State) : Result :=
  let b := block.toNat
  match (if (s.slab slab).ready then s.objectNo slab object.toNat else none),
    (s.job slab).freezeOf object.toNat b with
  | some o, some (n, frozen) => match s.blockOwner slab o b with
    | none => .next s
    | some (k, u) =>
      if !o.isParam || decide (o.update.nblocks ≤ b) || s.landingWaits slab k u o b n
          || decide ((s.job slab).step.toNat + 1 < n.toNat)
          || decide (n.toNat ≤ s.headerField slab o b 0x20 8 ∧ s.headerField slab o b 0x20 8 < 2 ^ 64 - 1) then .next s
      else .next (s.putFrozen slab o b frozen)
  | _, _ => .next s

end Sys2Proof.Machine
end

