-- ==== Sys2Proof/Machine/Summit.lean ====
section
/-! DEFINITION. The summit reduction (R280 to R285, R330): contributions, the tree of nodes, the root's
result, and its arrival at a device. -/

namespace Sys2Proof.Machine

open Sys2Proof

/-! ## Norm groups -/

/-- NGROUPS: one more than the highest norm group of the image, 0 without any. -/
def State.normGroups (s : State) (i : SlabId) : Nat :=
  (s.paramObjects i).foldl (fun n o => if o.update.group = 0xFFFF then n else max n (o.update.group.toNat + 1)) 0

/-- ETA and WD of a group: those of its lowest-numbered object (R284). -/
def State.groupRates (s : State) (i : SlabId) (g : Nat) : Word × Word :=
  let os := (s.paramObjects i).filter (fun o => decide (o.update.group.toNat = g))
  match os with
  | [] => (0, 0)
  | o :: rest =>
    let m := rest.foldl (fun m x => if x.object < m.object then x else m) o
    (m.update.eta, m.update.wd)

/-- Group sums added pairwise (R281). -/
def addGroups : List (DWord × DWord) → List (DWord × DWord) → List (DWord × DWord)
  | [], b => b
  | a, [] => a
  | a :: as, b :: bs => (f64add a.1 b.1, f64add a.2 b.2) :: addGroups as bs

/-- A contribution with a later one added to it (R281, R282, R330). -/
def Contribution.add (a b : Contribution) : Contribution :=
  let low := decide (b.source.toNat < a.source.toNat)
  { step := a.step, source := if low then b.source else a.source
    nonfinite := a.nonfinite || b.nonfinite, short := a.short || b.short, hostSkip := a.hostSkip || b.hostSkip
    slow := a.slow || b.slow, slowPitches := BitVec.ofNat 16 (max a.slowPitches.toNat b.slowPitches.toNat)
    gsq := f64add a.gsq b.gsq, lrScale := if low then b.lrScale else a.lrScale
    groups := addGroups a.groups b.groups, lrm := a.lrm || b.lrm || decide (a.lrScale ≠ b.lrScale) }

/-! ## Packets (Tables 11.5 and 11.6) -/

def boolBit (b : Bool) (n : Nat) : Nat := if b then n else 0

/-- The bytes of a contribution packet. -/
def Contribution.bytes (c : Contribution) : List Byte :=
  leBytes c.step.toNat 8 ++ leBytes c.source.toNat 2
    ++ leBytes (boolBit c.nonfinite 1 + boolBit c.short 2 + boolBit c.hostSkip 4 + boolBit c.slow 8) 2
    ++ leBytes c.groups.length 2 ++ leBytes c.slowPitches.toNat 2 ++ leBytes c.gsq.toNat 8
    ++ leBytes c.lrScale.toNat 4 ++ leBytes 0 4
    ++ c.groups.flatMap (fun g => leBytes g.1.toNat 8 ++ leBytes g.2.toNat 8)

/-- A contribution from its bytes and the LRM bit of its frames. -/
def contributionOf (bs : List Byte) (lrm : Bool) : Contribution :=
  let fl := leAt bs 10 2
  { step := BitVec.ofNat 64 (leAt bs 0 8), source := BitVec.ofNat 16 (leAt bs 8 2)
    nonfinite := fl.testBit 0, short := fl.testBit 1, hostSkip := fl.testBit 2, slow := fl.testBit 3
    slowPitches := BitVec.ofNat 16 (leAt bs 14 2), gsq := BitVec.ofNat 64 (leAt bs 16 8)
    lrScale := BitVec.ofNat 32 (leAt bs 24 4)
    groups := (List.range (leAt bs 12 2)).map (fun k =>
      (BitVec.ofNat 64 (leAt bs (32 + 16 * k) 8), BitVec.ofNat 64 (leAt bs (40 + 16 * k) 8)))
    lrm := lrm }

/-- FLAGS of a result. -/
def SummitResult.flags (r : SummitResult) : Nat :=
  boolBit r.skip 1 + boolBit r.lrMismatch 2 + boolBit r.nonfinite 4 + boolBit r.short 8 + boolBit r.hostSkip 16

/-- The bytes of a result packet. -/
def SummitResult.bytes (r : SummitResult) : List Byte :=
  leBytes r.step.toNat 8 ++ leBytes r.flags 2 ++ leBytes r.tau.length 2 ++ leBytes r.clip.toNat 4
    ++ leBytes r.lrScale.toNat 4 ++ leBytes 0 4 ++ leBytes r.gsq.toNat 8
    ++ r.tau.flatMap (fun t => leBytes t.toNat 4)

/-- A result from its bytes. -/
def resultOf (bs : List Byte) : SummitResult :=
  let fl := leAt bs 8 2
  { step := BitVec.ofNat 64 (leAt bs 0 8), skip := fl.testBit 0, lrMismatch := fl.testBit 1
    nonfinite := fl.testBit 2, short := fl.testBit 3, hostSkip := fl.testBit 4
    clip := BitVec.ofNat 32 (leAt bs 12 4), lrScale := BitVec.ofNat 32 (leAt bs 16 4)
    gsq := BitVec.ofNat 64 (leAt bs 24 8)
    tau := (List.range (leAt bs 10 2)).map (fun k => BitVec.ofNat 32 (leAt bs (32 + 4 * k) 4)) }

/-- The frames of a summit packet to an endpoint (R330). -/
def Slab.summitFrames (sl : Slab) (dest : Half) (step : DWord) (down lrm : Bool) (bs : List Byte) : List ZFrame :=
  let n := max 1 ((bs.length + 639) / 640)
  (List.range n).map (fun k =>
    mkFrame (mkZHeader 4 0 dest sl.links.endpoint (step.toNat % 65536 * 2 ^ 39 + boolBit down (2 ^ 38) + k % 256 * 2 ^ 30
      + (n - 1) % 256 * 2 ^ 22 + boolBit lrm (2 ^ 21))) ((bs.drop (640 * k)).take 640))

/-! ## The root (R282 to R284) -/

def f32one : Word := 0x3F800000

/-- τ of a norm group, formed in FP64 and rounded to FP32 (R284). -/
def trustRatio (eta wd clip : Word) (wsq gsq : DWord) : Word :=
  let w := f64sqrt wsq
  let g := f64sqrt gsq
  if (DWord.fp w).isZero || (DWord.fp g).isZero then f32one
  else
    f64to32 (f64div (f64mul (f32to64 eta) w)
      (f64add (f64mul (f32to64 clip) g) (f64mul (f32to64 wd) w)))

/-- The result of the whole job's sum. -/
def State.rootResult (s : State) (i : SlabId) (c : Contribution) : SummitResult :=
  let (maxNorm, skipNorm) := match s.image i with
    | none => (0, 0)
    | some im => (im.step.maxNorm, im.step.skipNorm)
  let norm := f64sqrt c.gsq
  let exceeds (w : Word) : Bool := Fp.lt (Word.fp w) (DWord.fp norm)
  let skip := c.nonfinite || c.short || c.hostSkip || !(DWord.fp c.gsq).isFinite
    || (Fp.lt (.fin false 0 0) (Word.fp skipNorm) && exceeds skipNorm)
  let clip := if (Word.fp maxNorm).isZero || !exceeds maxNorm then f32one
    else f64to32 (f64div (f32to64 maxNorm) norm)
  { step := c.step, skip := skip, lrMismatch := c.lrm, nonfinite := c.nonfinite, short := c.short
    hostSkip := c.hostSkip, clip := clip, lrScale := c.lrScale, gsq := c.gsq
    tau := c.groups.zipIdx.map (fun g =>
      let (eta, wd) := s.groupRates i g.2
      trustRatio eta wd clip g.1.1 g.1.2) }

/-! ## The node (R330) -/

/-- The contribution of an endpoint for step `n` that has arrived. -/
def Slab.childPart (sl : Slab) (e : Half) (n : DWord) : Option Contribution :=
  match sl.links.children.find? (fun p => decide (p.1 = e)) with
  | none => none
  | some p => if p.2.step = n then some p.2 else none

/-- Contributions in order added to a first one; none when one is missing. -/
def sumParts (c : Contribution) : List (Option Contribution) → Option Contribution
  | [] => some c
  | none :: _ => none
  | some d :: rest => sumParts (c.add d) rest

/-- The endpoints a node waits for: the other slab's in joined mode, then its children. -/
def State.awaitedParts (s : State) (i : SlabId) : List Half :=
  (match s.shared.mode with
   | .split => []
   | .joined => [s.slab1.links.endpoint])
  ++ (match (s.slab i).summitGroup with
    | none => []
    | some g => summitChildren g)

/-- A result sent to a node's children. -/
def State.forwardResult (s : State) (i : SlabId) (r : SummitResult) : State :=
  match (s.slab i).summitGroup with
  | none => s
  | some g =>
    s.modSlab i (fun sl => (summitChildren g).foldl (fun sl e =>
      sl.sendFrames (sl.summitFrames e r.step true false r.bytes)) sl)

/-- A node with its own part and all awaited ones sends the sum to its parent; the root forms the result
and sends it down. -/
def State.summitAdvance (s : State) (i : SlabId) : State :=
  match (s.slab i).links.own with
  | none => s
  | some own =>
    match sumParts own ((s.awaitedParts i).map (fun e => (s.slab i).childPart e own.step)) with
    | none => s
    | some sum =>
      match (s.slab i).summitGroup.bind summitParent with
      | some p =>
        s.modSlab i (fun sl =>
          (sl.sendFrames (sl.summitFrames p sum.step false sum.lrm sum.bytes)).modLinks (fun l =>
            { l with own := none, summitSince := sl.clocks.cycle, summitProbes := 0 }))
      | none =>
        let r := s.rootResult i sum
        let s := s.forwardResult i r
        s.modSlab i (fun sl =>
          (sl.modLinks (fun l => { l with own := none, result := some r })).count Ctr.UPD_LR_MISMATCHES
            (if r.lrMismatch then 1 else 0))

/-! ## The device's contribution (R280, R281) -/

/-- Blocks of a unit that are not complete for the window. -/
def State.incomplete (s : State) (i k : SlabId) (u : Nat) (n : DWord) (r : Nat) : Nat :=
  (s.paramObjects i).foldl (fun m o =>
    m + ((List.range o.update.nblocks).filter (fun b =>
      decide (s.blockOwner i o b = some (k, u)) && !s.blockComplete i o b n r)).length) 0

/-- A slab's combined contribution from the sums of its units, in ascending order. -/
def State.slabContribution (s : State) (k : SlabId) (n : DWord) (slow : Half) : Contribution :=
  let j := s.job k
  let sl := s.slab k
  let units := stacks24.map (fun u => (sl.stack u).unit)
  let hot := stacks24.any (fun u => (sl.stack u).hot)
  let groups := (List.range (s.normGroups k)).map (fun g =>
    units.foldl (fun acc x => match x.groups.find? (fun p => decide (p.1 = g)) with
      | none => acc
      | some p => (f64add acc.1 p.2.1, f64add acc.2 p.2.2)) ((0, 0) : DWord × DWord))
  { step := n, source := sl.links.endpoint, nonfinite := units.any (fun x => x.nonfinite)
    short := units.any (fun x => x.short)
    hostSkip := j.settings.any (fun p => decide (p.1 = n) && decide (p.2 = .skip))
    slow := hot, slowPitches := if hot then slow else 0
    gsq := units.foldl (fun a x => f64add a x.gsq) 0, lrScale := j.lrScale, groups := groups, lrm := false }

/-- SUMMIT_CONTRIBUTION_SEND (R280, R281): the units of a slab are complete, or the collectives report
every landing delivered, which makes the step short. Slab 1 of a joined device sends its part to slab 0. -/
def execSummitContributionSend (slab : SlabId) (s : State) : Result :=
  match (if (s.slab slab).ready && !(s.slab slab).links.contributed then (s.job slab).window else none) with
  | none => .next s
  | some (n, r) =>
    let lacks := stacks24.map (fun u => (u, s.incomplete slab slab u n r))
    let all := lacks.all (fun p => decide (p.2 = 0))
    let collectives := match s.image slab with
      | none => false
      | some im => !im.collectives.isEmpty
    if !all && !(collectives && (s.devSlabs slab).all (fun k => s.delivered k n)) then .next s
    else
      let s := lacks.foldl (fun s p =>
        if p.2 = 0 then s
        else s.modSlab slab (fun sl => sl.modUnit p.1 (fun x =>
          { x with short := true }.count Ctr.UPD_SHORT_BLOCKS p.2))) s
      let c := s.slabContribution slab n (Config.slowPitches s.free)
      let s := { s with free := s.free + 1 }
      let s := s.modSlab slab (fun sl =>
        (sl.modLinks (fun l => { l with contributed := true, summitSince := sl.clocks.cycle })).modCamp (fun cp =>
          cp.modLedger n (fun x => { x with phases := x.phases ||| 2 })))
      let s := if c.slow then s.modSlab slab (fun sl => sl.heardSlow c.slowPitches) else s
      if s.dev slab = slab then
        .next ((s.modSlab slab (fun sl => sl.modLinks (fun l => { l with own := some c }))).summitAdvance slab)
      else
        .next (s.modSlab slab (fun sl =>
          sl.sendFrames (sl.summitFrames s.slab0.links.endpoint n false false c.bytes)))

/-! ## Frames of the tree (R330) -/

/-- A frame put with the others of its packet; the packet's bytes when it is whole. -/
def Links.addSummitPart (l : Links) (f : ZFrame) : Links × Option (List Byte) :=
  let h := f.header
  let key := (zSrc h, zSumDir h)
  let parts := aset (zSumFrag h) f.payload (agetD [] key l.summitParts)
  let got := (List.range (zSumFrags h)).map (fun k => alookup k parts)
  if got.all Option.isSome then
    ({ l with summitParts := aerase key l.summitParts }, some (got.flatMap (fun o => o.getD [])))
  else ({ l with summitParts := aset key parts l.summitParts }, none)

/-- SUMMIT_FRAME (R330): a frame of a contribution from below or of a result from above. -/
def execSummitFrame (slab : SlabId) (port : Fin 16) (f : ZFrame) (s : State) : Result :=
  let (s, ok) := s.linkInOwn slab port.val f 4
  if !ok then .next s
  else
    let (l, whole) := (s.slab slab).links.addSummitPart f
    let s := s.modSlab slab (fun sl => { sl with links := l })
    match whole with
    | none => .next s
    | some bs =>
      if zSumDir f.header then
        let r := resultOf bs
        .next ((s.forwardResult slab r).modSlab slab (fun sl => sl.modLinks (fun l => { l with result := some r })))
      else
        let c := contributionOf bs (zSumLrm f.header)
        let s := s.modSlab slab (fun sl =>
          let sl := sl.modLinks (fun l => { l with children := aset (zSrc f.header) c l.children })
          if c.slow then sl.heardSlow c.slowPitches else sl)
        .next (s.summitAdvance slab)

/-! ## The result at the device (R277, R285, R288) -/

/-- The result of step `n` that base camp keeps. -/
def Job.resultOf (j : Job) (n : DWord) : Option SummitResult := j.results.find? (fun r => decide (r.step = n))

/-- The ledger records whether the commit position has reached the end of the update order. -/
def State.noteCommit (s : State) (i : SlabId) (n : DWord) : State :=
  let pos := s.commitPos i n
  let done := decide (s.orderLength i ≤ pos)
  s.modLedger i n (fun x =>
    { x with commitPos := BitVec.ofNat 32 pos, phases := if done then x.phases ||| 16 else x.phases })

/-- SUMMIT_RESULT (R277, R285, R288): the result of the step whose window is open reaches the device; the
window closes, base camp keeps and records it, and pass 2 starts, or a skipped step is passed at once. -/
def execSummitResult (slab : SlabId) (s : State) : Result :=
  let i := s.dev slab
  match (if (s.slab i).ready then (s.slab i).links.result else none), (s.job i).window with
  | some r, some (n, _) =>
    if r.step ≠ n then .next s
    else
      let all := s.orderLength i
      let s := s.modJob i (fun j =>
        let others := j.results.filter (fun x => decide (x.step ≠ n))
        { j with window := none, results := others.drop (others.length - 1) ++ [r] })
      let s := s.modLedger i n (fun x =>
        { x with clip := r.clip, lrScale := r.lrScale, gsq := r.gsq, phases := x.phases ||| 4
                 flags := (x.flags &&& 0xFFE0) ||| BitVec.ofNat 16 (r.flags % 32) })
      let s := s.modDev i (fun sl =>
        (sl.modLinks (fun l =>
          let later := l.children.filter (fun p => decide (n.toNat < p.2.step.toNat))
          { l with result := none, own := none, contributed := false, children := later, summitProbes := 0
                   summitWait := l.summitTimeout, slowPitches := 0, unreachable := false })).count
          Ctr.UPD_SKIPPED_STEPS (if r.skip then 1 else 0))
      let s := (s.devSlabs i).foldl (fun s k => stacks24.foldl (fun s u =>
        let s := s.modSlab k (fun sl => sl.modUnit u (fun x => { x with cstep := n, baselineUsed := 0 }))
        let pos := if r.skip then all else s.nextOwed k u 0
        s.modSlab k (fun sl => sl.modUnit u (fun x => { x with pos := pos }))) s) s
      .next (s.noteCommit i n)
  | _, _ => .next s

/-- SUMMIT_TIMEOUT (R338): the device has waited for its timer; it probes the endpoints it awaits, reports
them after three probes without an answer, and goes on waiting. -/
def execSummitTimeout (slab : SlabId) (s : State) : Result :=
  let sl := s.slab slab
  let l := sl.links
  if !sl.ready || !l.contributed || l.result.isSome || decide (s.cycle slab < l.summitSince + fabric l.summitWait) then
    .next s
  else
    let missing := match l.own with
      | some c => (s.awaitedParts slab).filter (fun e => (sl.childPart e c.step).isNone)
      | none => (sl.summitGroup.bind summitParent).toList
    if missing.isEmpty then .next s
    else
      let s := missing.foldl (fun s e =>
        let s := if l.summitProbes = 3 then s.reportUnreachable slab e 1 else s
        s.sendProbe slab e 1) s
      .next (s.modSlab slab (fun sl => sl.modLinks (fun l =>
        { l with summitProbes := l.summitProbes + 1, summitSince := sl.clocks.cycle
                 unreachable := l.unreachable || decide (l.summitProbes = 3)
                 summitWait := if 3 ≤ l.summitProbes then maxTimer else l.summitWait })))

end Sys2Proof.Machine
end

