-- ==== Sys2Proof/Machine/Rules.lean ====
section
/-! DEFINITION. The update rules (R273 to R275, R295, R296): the new contents of a block from its stored
fields, its slot, and the step's summit result. -/

namespace Sys2Proof.Machine

open Sys2Proof

/-! ## Stored fields (R82, R85 to R87, R275) -/

/-- A field as stored: its element bytes and scale bytes, stores clamped under R82, and results stored as
+0 because they are not finite. -/
structure Stored where
  field : Nat
  elems : List Byte
  scales : List Byte
  clamps : Nat
  nonfinite : Nat
  deriving DecidableEq, Repr

/-- What fixes the random bits of a block's stores. -/
structure StoreKey where
  seed : DWord
  step : DWord
  object : Nat
  block : Nat
  deriving DecidableEq, Repr

/-- FP32 results stored stochastically in a format. -/
def storeField (key : StoreKey) (field fmt : Nat) (vs : List Word) : Stored :=
  let ok (w : Word) : Bool := (Word.fp w).isFinite
  let clean := vs.map (fun w => if ok w then w else 0)
  let rm (i : Nat) : Rounding := .stochastic (stochasticBits key.seed key.step key.object key.block field i)
  let c := encodeElems fmt rm true (clean.map Word.fp)
  let past (i : Nat) (w : Word) : Bool :=
    match Word.fp w with
    | .fin _ m e => decide (bf16.maxBits < bf16.roundMag (rm i) m e)
    | _ => false
  { field := field, elems := packBytes fmt c.raws, scales := c.scales
    clamps := if fmt = 1 then ((mapFrom past 0 clean).filter (fun b => b)).length else 0
    nonfinite := (vs.filter (fun w => !ok w)).length }

/-- The FP32 values of stored bytes. -/
def storedValues (fmt : Nat) (elems scales : List Byte) : List Word :=
  let es := elems.toArray
  let ss := scales.toArray
  (decodeElems fmt (fun k => es.getD k 0) (fun k => ss.getD k 0) blockElems).map (toF32 .nearestEven)

def Stored.values (x : Stored) (fmt : Nat) : List Word := storedValues fmt x.elems x.scales

/-! ## The rules (R274) -/

/-- What a rule reads: the stored values of the weight and the state fields, the clipped slot, the step's
learning rate, τ, and t = UPDATES + 1. -/
structure RuleInput where
  desc : UpdateDesc
  key : StoreKey
  weight : List Word
  state : List (Nat × List Word)
  g : List Word
  lr : Word
  tau : Word
  t : Nat
  deriving DecidableEq, Repr

/-- What a rule gives: the fields it stores in write order, DAMP when it computed roots, damping raises
and identity roots. -/
structure RuleOutput where
  fields : List Stored
  damp : Option Nat
  raises : Nat
  identities : Nat
  deriving DecidableEq, Repr

def RuleInput.old (x : RuleInput) (f : Nat) : List Word := agetD [] f x.state

/-- w - lr × (d + wd × w). -/
def RuleInput.decayed (x : RuleInput) (ds : List Word) : List Word :=
  List.zipWith (fun w d => f32sub w (f32mul x.lr (f32add d (f32mul x.desc.wd w)))) x.weight ds

/-- a × m + (1 - a) × g. -/
def blend (a m g : Word) : Word := f32add (f32mul a m) (f32mul (f32sub f32one a) g)

/-- A value raised to the power `t`, exact. -/
def Fp.pow (v : Fp) (t : Nat) : Fp :=
  match v with
  | .nan => .nan
  | .inf neg => .inf (neg && decide (t % 2 = 1))
  | .fin neg m e => .fin (neg && decide (t % 2 = 1)) (m ^ t) (e * t)

/-- 1 - b ^ t in FP64, rounded once to FP32. DEDUCED: the power is the exact one rounded to FP64, since R274 names no multiplications. -/
def biasTerm (b : Word) (t : Nat) : Word :=
  f64to32 (f64sub (f32to64 f32one) (toF64 ((Word.fp b).pow t)))

def f32sign (a : Word) : Word :=
  match Word.fp a with
  | .nan => a
  | v => if v.isZero then 0 else if a.getLsbD 31 then 0xBF800000 else f32one

/-- A value not below +0. -/
def f32nonneg (a : Word) : Word := if a.getLsbD 31 then 0 else a

def ruleSgd (x : RuleInput) : RuleOutput :=
  { fields := [storeField x.key 1 x.desc.wfmt (x.decayed x.g)], damp := none, raises := 0, identities := 0 }

def ruleMomentum (x : RuleInput) : RuleOutput :=
  let m := storeField x.key 2 x.desc.mfmt
    (List.zipWith (fun m g => f32add (f32mul x.desc.beta1 m) g) (x.old 2) x.g)
  let w := storeField x.key 1 x.desc.wfmt (x.decayed (m.values x.desc.mfmt))
  { fields := [m, w], damp := none, raises := 0, identities := 0 }

def ruleAdamw (x : RuleInput) : RuleOutput :=
  let d := x.desc
  let m := storeField x.key 2 d.mfmt (List.zipWith (blend d.beta1) (x.old 2) x.g)
  let v := storeField x.key 3 d.mfmt (List.zipWith (fun v g =>
    f32nonneg (f32add (f32mul d.beta2 v) (f32mul (f32mul (f32sub f32one d.beta2) g) g))) (x.old 3) x.g)
  let c1 := biasTerm d.beta1 x.t
  let c2 := biasTerm d.beta2 x.t
  let dir := List.zipWith (fun m v => f32div (f32div m c1) (f32add (f32sqrt (f32div v c2)) d.eps))
    (m.values d.mfmt) (v.values d.mfmt)
  { fields := [m, v, storeField x.key 1 d.wfmt (x.decayed dir)], damp := none, raises := 0, identities := 0 }

def ruleLars (x : RuleInput) : RuleOutput :=
  let d := x.desc
  let gw := List.zipWith (fun w g => f32mul x.tau (f32add g (f32mul d.wd w))) x.weight x.g
  let m := storeField x.key 2 d.mfmt (List.zipWith (fun m g => f32add (f32mul d.beta1 m) g) (x.old 2) gw)
  let w := storeField x.key 1 d.wfmt (List.zipWith (fun w m => f32sub w (f32mul x.lr m)) x.weight (m.values d.mfmt))
  { fields := [m, w], damp := none, raises := 0, identities := 0 }

def ruleSign (x : RuleInput) : RuleOutput :=
  let d := x.desc
  let dir := List.zipWith (fun m g => f32sign (blend d.beta1 m g)) (x.old 2) x.g
  let w := storeField x.key 1 d.wfmt (x.decayed dir)
  let m := storeField x.key 2 d.mfmt (List.zipWith (blend d.beta2) (x.old 2) x.g)
  { fields := [w, m], damp := none, raises := 0, identities := 0 }

/-! ## The preconditioned rule (R295, R296) -/

/-- Row-major transpose of a 64 × 64 matrix. -/
def transpose64 (a : List Word) : List Word :=
  let x := a.toArray
  (List.range 4096).map (fun k => x.getD (64 * (k % 64) + k / 64) 0)

/-- The identity matrix. -/
def identity64 : List Word := (List.range 4096).map (fun k => if k / 64 = k % 64 then f32one else 0)

/-- The initial damping: DELTA0 × max (trace / 64, 2 ^ -126). -/
def damping (delta0 : Word) (f : List Word) : Word :=
  let m := f32div (Config.trace f) 0x42800000
  f32mul delta0 (if Fp.lt (Word.fp m) (Word.fp 0x00800000) || (Word.fp m).isNan then 0x00800000 else m)

/-- Attempts with the damping raised tenfold after each failure: raises used, and the root. -/
def dampedRoot (f : List Word) : Nat → Nat → Word → Nat × Option (List Word)
  | 0, k, d => (k, if Config.choleskyOk f d then some (Config.invRoot4 f d) else none)
  | n + 1, k, d =>
    if Config.choleskyOk f d then (k, some (Config.invRoot4 f d))
    else dampedRoot f n (k + 1) (f32mul d 0x41200000)

/-- Up to five attempts at a factor's root. -/
def factorRoot (delta0 : Word) (f : List Word) : Nat × Option (List Word) := dampedRoot f 4 0 (damping delta0 f)

/-- A factor matrix blended with a product. -/
def factorStep (b : Word) (old prod : List Word) : List Word := List.zipWith (fun a p => f32add (f32mul b a) p) old prod

def rulePrecond (x : RuleInput) : RuleOutput :=
  let d := x.desc
  let gt := transpose64 x.g
  let sc (a : List Word) : List Word := a.map (fun v => f32mul (f32sub f32one d.beta2) v)
  let lf := storeField x.key 4 d.mfmt (factorStep d.beta2 (x.old 4) (Config.matMul (sc x.g) gt))
  let rf := storeField x.key 5 d.mfmt (factorStep d.beta2 (x.old 5) (Config.matMul (sc gt) x.g))
  let root := decide (x.t % max 1 d.rootInterval = 0)
  let (kl, lr) := factorRoot d.delta0 (lf.values d.mfmt)
  let (kr, rr) := factorRoot d.delta0 (rf.values d.mfmt)
  let lq := lr.map (storeField x.key 6 d.mfmt)
  let rq := rr.map (storeField x.key 7 d.mfmt)
  let used (f : Nat) (q : Option Stored) : List Word :=
    if !root then x.old f
    else match q with
      | none => identity64
      | some y => y.values d.mfmt
  let u := Config.matMul (Config.matMul (used 6 lq) x.g) (used 7 rq)
  let m := storeField x.key 2 d.mfmt (List.zipWith (fun m u => f32add (f32mul d.beta1 m) u) (x.old 2) u)
  let w := storeField x.key 1 d.wfmt (x.decayed (m.values d.mfmt))
  let ids := (if lr.isNone then 1 else 0) + (if rr.isNone then 1 else 0)
  { fields := [lf, rf] ++ (if root then lq.toList ++ rq.toList else []) ++ [m, w]
    damp := if root then some (if 0 < ids then 0xFF else max kl kr) else none
    raises := if root then kl + kr else 0, identities := if root then ids else 0 }

/-- The rule of a descriptor. -/
def runRule (x : RuleInput) : RuleOutput :=
  match x.desc.rule with
  | 0 => ruleSgd x
  | 1 => ruleMomentum x
  | 2 => ruleAdamw x
  | 3 => ruleLars x
  | 4 => ruleSign x
  | _ => rulePrecond x

/-! ## A block's result (R287, R297) -/

/-- The stored bytes of a field of a block: elements and scales. -/
def State.fieldBytes (s : State) (i : SlabId) (o : ObjectEntry) (b f : Nat) : List Byte × List Byte :=
  let k := fieldPlane o.update.rule f
  let sizes := planeSizes o.update
  (s.readRangeD i (o.planeAddr b k) (sizes.getD k 0), s.readRangeD i (o.planeAddr b (k + 1)) (sizes.getD (k + 1) 0))

/-- XOR of equally long byte strings. -/
def xorList (a b : List Byte) : List Byte := List.zipWith (· ^^^ ·) a b

/-- The fingerprint of a block (R297): over its weights, place and step, and for REPLICA objects its state
fields. -/
def fingerprint (o : ObjectEntry) (b : Nat) (step : DWord) (weights : List Byte) (state : List Byte) : DWord :=
  crc64 (weights ++ leBytes o.object 2 ++ leBytes b 4 ++ leBytes step.toNat 8
    ++ (if o.prot = 2 then state else []))

/-- Counts that a block's computation adds to its unit: clamps, non-finite results, raises, identities. -/
abbrev RuleCounts := Nat × Nat × Nat × Nat

/-- The new contents of block `b` for step `n` with a summit result (R273 to R275, R287). -/
def State.computeBlock (s : State) (i : SlabId) (o : ObjectEntry) (b : Nat) (r : SummitResult) : BlockResult × RuleCounts :=
  let d := o.update
  let n := r.step
  let read (f : Nat) : List Word := (s.readField i o b f).map (toF32 .nearestEven)
  let updates := s.headerField i o b 0x10 4
  let x : RuleInput :=
    { desc := d, key := { seed := (s.job i).seed, step := n, object := o.object, block := b }
      weight := read 1, state := (stateFields d.rule).map (fun f => (f, read f))
      g := (s.readSlot i o b).map (fun v => f32mul (toF32 .nearestEven v) r.clip)
      lr := f32mul d.lr r.lrScale, tau := r.tau.getD d.group.toNat f32one, t := updates + 1 }
  let out := runRule x
  let stored (f : Nat) : List Byte × List Byte :=
    match out.fields.find? (fun y => decide (y.field = f)) with
    | some y => (y.elems, y.scales)
    | none => s.fieldBytes i o b f
  let both (p : List Byte × List Byte) : List Byte := p.1 ++ p.2
  let weights := both (stored 1)
  let oldWeights := both (s.fieldBytes i o b 1)
  let state := (stateFields d.rule).flatMap (fun f => both (stored f))
  let oldState := (stateFields d.rule).flatMap (fun f => both (s.fieldBytes i o b f))
  let fp := fingerprint o b n weights state
  let damp := match out.damp with
    | some v => v
    | none => s.headerField i o b 0x17 1
  let flags := s.headerField i o b 0x14 2 % 2
  ({ object := o.object, block := b, step := n
     writes := out.fields.flatMap (fun y =>
       let k := fieldPlane d.rule y.field
       (o.planeAddr b k, y.elems) :: (if y.scales.isEmpty then [] else [(o.planeAddr b (k + 1), y.scales)]))
     headerAt := o.planeAddr b 0
     header := sector0 n fp (min 0xFFFFFFFF (updates + 1)) flags d.rule damp b o.object
     wfmt := d.wfmt, fingerprint := fp, xorBits := xorList oldWeights weights, weights := weights
     stored := weights ++ state, storedXor := xorList (oldWeights ++ oldState) (weights ++ state) },
   (out.fields.foldl (fun m y => m + y.clamps) 0, out.fields.foldl (fun m y => m + y.nonfinite) 0, out.raises,
     out.identities))

end Sys2Proof.Machine
end

