-- ==== Sys2Proof/Machine/Pass2.lean ====
section
/-! DEFINITION. Pass 2 and difference records (R286 to R293, R297 to R302): the commit of a block, its
record, torn blocks, weight copies and repairs. -/

namespace Sys2Proof.Machine

open Sys2Proof

/-! ## Difference records (Table 11.7) -/

/-- A payload padded to a multiple of 32 bytes. -/
def pad32 (bs : List Byte) : List Byte := padTo ((bs.length + 31) / 32 * 32) bs

/-- The bytes of a record. -/
def recordBytes (r : DiffRecord) : List Byte :=
  let p := pad32 r.payload
  [r.kind, r.wfmt] ++ leBytes r.object.toNat 2 ++ leBytes r.block.toNat 4 ++ leBytes r.step.toNat 8
    ++ leBytes r.fingerprint.toNat 8 ++ leBytes r.seq.toNat 4 ++ leBytes r.source.toNat 2
    ++ [BitVec.ofNat 8 r.unit.val, BitVec.ofNat 8 ((p.length + 1023) / 1024)] ++ p

/-- A record of a block's result, of the given kind and sequence number. -/
def State.recordOf (s : State) (k : SlabId) (u : Nat) (x : BlockResult) (kind : Nat) (seq : Word) : DiffRecord :=
  { kind := BitVec.ofNat 8 kind, wfmt := BitVec.ofNat 8 x.wfmt, object := BitVec.ofNat 16 x.object
    block := BitVec.ofNat 32 x.block, step := x.step, fingerprint := x.fingerprint, seq := seq
    source := (s.slab k).links.endpoint, unit := ⟨u % 24, Nat.mod_lt _ (by decide)⟩
    payload := if kind = 1 then x.xorBits else if kind = 2 then x.weights
      else if kind = 3 then x.header ++ x.stored else x.storedXor }

/-! ## Weight copies (R271, R298 to R300) -/

/-- The copy object of a parameter object. -/
def State.copyOf (s : State) (i : SlabId) (o : ObjectEntry) : Option ObjectEntry :=
  if o.update.copy = 0xFFFF then none else s.objectNo i o.update.copy.toNat

/-- The blocks of a weight copy. DEDUCED: as many as both planes have room for in its SIZE, since a copy of a sharded object is larger
than its own NBLOCKS ask and R271 gives no count. -/
def copyBlocks (o c : ObjectEntry) : Nat :=
  let eb := elemBytes o.update.wfmt blockElems
  let sb := scaleBytes o.update.wfmt blockElems
  let n := c.size / (eb + sb)
  if (n * eb + 63) / 64 * 64 + n * sb ≤ c.size then n else n - 1

/-- Where elements `at_` on, `n` of them, of a copy in plain layout lie: addresses and bytes of elements and scales. -/
def copyPiece (o c : ObjectEntry) (at_ n : Nat) : Nat × Nat × Nat × Nat :=
  let f := o.update.wfmt
  let scales := (copyBlocks o c * elemBytes f blockElems + 63) / 64 * 64
  (c.base + elemBytes f at_, elemBytes f n, c.base + scales + scaleBytes f at_, scaleBytes f n)

/-- Where block `b` lies in a copy: its 4,096 elements in one piece, or for rule 0x5 the 64 rows of its sub-matrix at its tensor
position. DESIGN CHOICE: sub-matrices are numbered along the rows of the tensor; the spec gives no order. -/
def copyPlaces (o c : ObjectEntry) (b : Nat) : List (Nat × Nat × Nat × Nat) :=
  if o.update.rule = 5 then
    let w := max 1 (Config.tensorWidth o.object)
    (List.range 64).map (fun r => copyPiece o c ((64 * (b / w) + r) * (64 * w) + 64 * (b % w)) 64)
  else [copyPiece o c (4096 * b) 4096]

/-- The first byte of a copy's block. -/
def copyStart (o c : ObjectEntry) (b : Nat) : Nat := ((copyPlaces o c b).headD (c.base, 0, 0, 0)).1

/-- The weights of a copy's block: elements, then scales. -/
def State.copyWeights (s : State) (i : SlabId) (o c : ObjectEntry) (b : Nat) : List Byte :=
  let ps := copyPlaces o c b
  ps.flatMap (fun p => s.readRangeD i p.1 p.2.1) ++ ps.flatMap (fun p => s.readRangeD i p.2.2.1 p.2.2.2)

/-- A copy's block written. -/
def State.putCopy (s : State) (i : SlabId) (o c : ObjectEntry) (b : Nat) (ws : List Byte) : State :=
  let ps := copyPlaces o c b
  let n := ps.foldl (fun n p => n + p.2.1) 0
  (ps.foldl (fun (acc : State × List Byte × List Byte) p =>
    ((acc.1.unitWrite i p.1 (acc.2.1.take p.2.1)).unitWrite i p.2.2.1 (acc.2.2.take p.2.2.2), acc.2.1.drop p.2.1, acc.2.2.drop p.2.2.2))
    (s, ws.take n, ws.drop n)).1

/-- The slab and unit at whose stack an address is homed: the unit that applies records there. -/
def State.unitAt (s : State) (i : SlabId) (a : Nat) : SlabId × Nat :=
  match s.pte i (vpnOf a) with
  | none => (i, 0)
  | some (k, e) => (k, (s.slab k).unitFor (pteStack e))

/-- A mismatch found by a unit (R299): counted, logged with the stamps of both steps, and the block awaits
a repair record. -/
def State.mismatch (s : State) (i k : SlabId) (u object block : Nat) (step : DWord) : State :=
  let s := s.modSlab k (fun sl => sl.modUnit u (fun x =>
    let rs := x.repairs.filter (fun r => decide (r.1 ≠ (object, block)))
    { x with repairs := rs ++ [((object, block), step)] }.count Ctr.FINGERPRINT_MISMATCHES 1))
  let opened (n : DWord) : List Byte :=
    match (s.slab k).camp.ledgerOf n with
    | none => Stamp.zero.bytes
    | some r => r.openStamp.bytes
  let s := s.logFault k
    { FaultEntry.basic 0x15 6 with
      node := unitNode k 2 u, detail := opened step ++ opened (s.job i).step }
  s.modSlab k (fun sl => sl.modCamp (fun c => c.modLedger (s.stepNow i) (fun r =>
    { r with mismatches := addSat16 r.mismatches 1 })))

/-- The copy's block is checked against a record (R298); a REPLICA object's fingerprint also covers state
that a copy does not hold. -/
def State.checkCopy (s : State) (i : SlabId) (o c : ObjectEntry) (r : DiffRecord) : State :=
  let b := r.block.toNat
  let ws := s.copyWeights i o c b
  if o.prot = 2 ∨ fingerprint o b r.step ws [] = r.fingerprint then s
  else
    let (k, u) := s.unitAt i (copyStart o c b)
    s.mismatch i k u c.object b r.step

/-- STEP of the FULL record last applied to a copy's block (R336). -/
def UpdateUnit.fullStep (u : UpdateUnit) (object block : Nat) : Option DWord :=
  (u.full.find? (fun p => decide (p.1 = (object, block)))).map Prod.snd

/-- A record applied to the block of the device's weight copy (R300, R336). -/
def State.applyRecord (s : State) (i : SlabId) (o c : ObjectEntry) (r : DiffRecord) : State :=
  let b := r.block.toNat
  let (k, u) := s.unitAt i (copyStart o c b)
  let old := match ((s.slab k).stack u).unit.fullStep c.object b with
    | none => false
    | some n => decide (r.step.toNat ≤ n.toNat)
  if old then s
  else
    let n := elemBytes o.update.wfmt blockElems + scaleBytes o.update.wfmt blockElems
    if r.kind = 1 then
      (s.putCopy i o c b (xorList (s.copyWeights i o c b) (r.payload.take n))).checkCopy i o c r
    else if r.kind = 2 then
      ((s.putCopy i o c b (r.payload.take n)).modSlab k (fun sl => sl.modUnit u (fun x =>
        { x with full := aset (c.object, b) r.step x.full }))).checkCopy i o c r
    else if r.kind = 3 then
      (s.putCopy i o c b ((r.payload.drop 32).take n)).checkCopy i o c r
    else s

/-! ## Emission of records (R300 to R302, R337) -/

/-- The next SEQ of a unit for a destination: 0 the weight copy, 1 the all-gather, 2 the sink. -/
def State.nextSeq (s : State) (k : SlabId) (u dest : Nat) : Word × State :=
  let x := ((s.slab k).stack u).unit
  let q := agetD 0 dest x.seqs
  (q, s.modSlab k (fun sl => sl.modUnit u (fun x => { x with seqs := aset dest (q + 1) x.seqs })))

/-- WRITE frames of the checkpoint sink's window, at offsets that advance round it. -/
def Slab.sinkFrames (sl : Slab) (ep : Half) (w : Byte) (at_ : Nat) (bs : List Byte) : List ZFrame :=
  let size := max 1 (Config.sinkRows ep w)
  (chunksOf 640 (bs.length / 640 + 1) bs).zipIdx.map (fun p =>
    let rows := max 1 ((p.1.length + 63) / 64)
    mkFrame (mkZHeader 1 2 ep sl.links.endpoint (w.toNat * 2 ^ 47 + 2 ^ 31 + (at_ + 10 * p.2) % size % 2 ^ 26 * 2 ^ 5
      + (rows - 1) * 2)) p.1)

/-- A record sent to the sink, or dropped when the step's budget is used, its block marked dirty (R301). -/
def State.toSink (s : State) (k : SlabId) (u : Nat) (x : BlockResult) (kind : Nat) : State :=
  match (s.slab k).links.sink with
  | none => s
  | some (kinds, ep, w, _, budget) =>
    if !kinds.getLsbD (kind - 1) then s
    else
      let (q, s) := s.nextSeq k u 2
      let bs := recordBytes (s.recordOf k u x kind q)
      let used := (s.slab k).links.sinkUsed + bs.length
      if 1024 * budget < used then
        s.modSlab k (fun sl => sl.modUnit u (fun y =>
          { y with dirty := insertNew (x.object, x.block) y.dirty }.count Ctr.DIFF_SINK_DROPS 1))
      else
        s.modSlab k (fun sl =>
          let at_ := sl.links.sinkOffset
          let sl := sl.sendFrames (sl.sinkFrames ep w at_ bs)
          sl.modLinks (fun l => { l with sinkUsed := used, sinkOffset := at_ + (bs.length + 63) / 64 }))

/-- DIFF_GROUP of the image, when it names a group. -/
def State.diffGroup (s : State) (i : SlabId) : Option Nat :=
  match s.image i with
  | none => none
  | some im => if im.step.diffGroup = 0xFFFF then none else some im.step.diffGroup.toNat

/-- A committed block's record emitted to the weight copy, the all-gather and the sink (R300). -/
def State.emitRecord (s : State) (i k : SlabId) (u : Nat) (o : ObjectEntry) (x : BlockResult) (kinds : List Nat) : State :=
  let first := kinds.headD 1
  let s := s.modSlab k (fun sl => sl.modUnit u (fun y => y.count Ctr.DIFF_RECORDS 1))
  let s := match s.copyOf i o with
    | none => s
    | some c =>
      let (q, s) := s.nextSeq k u 0
      s.applyRecord i o c (s.recordOf k u x first q)
  let s := match s.diffGroup i with
    | none => s
    | some g =>
      let (q, s) := s.nextSeq k u 1
      s.sendPackets k g (u % 16) (recordBytes (s.recordOf k u x first q))
  kinds.foldl (fun s kind => s.toSink k u x kind) s

/-- The present contents of a committed block, as a BLOCK record carries them. -/
def State.presentBlock (s : State) (i : SlabId) (o : ObjectEntry) (b : Nat) : BlockResult :=
  let both (p : List Byte × List Byte) : List Byte := p.1 ++ p.2
  let ws := both (s.fieldBytes i o b 1)
  { object := o.object, block := b, step := s.blockStep i o b, writes := [], headerAt := o.planeAddr b 0
    header := s.readRangeD i (o.planeAddr b 0) 32, wfmt := o.update.wfmt
    fingerprint := BitVec.ofNat 64 (s.headerField i o b 8 8), xorBits := [], weights := ws
    stored := ws ++ (stateFields o.update.rule).flatMap (fun f => both (s.fieldBytes i o b f)), storedXor := [] }

/-- The blocks a unit owns, in update order. -/
def State.ownedBlocks (s : State) (k : SlabId) (u : Nat) : List (ObjectEntry × Nat) :=
  (s.paramObjects k).flatMap (fun o => ((List.range o.update.nblocks).filter (fun b =>
    decide (s.blockOwner k o b = some (k, u)))).map (fun b => (o, b)))

/-- The sink's baseline for a step (R301): BLOCK records of dirty blocks, then of the sweep, up to the
baseline rate. -/
def State.baseline (s : State) (k : SlabId) (u : Nat) : State :=
  match (s.slab k).links.sink with
  | none => s
  | some (_, _, _, rate, _) =>
    let x := ((s.slab k).stack u).unit
    let owned := s.ownedBlocks k u
    let dirty := (owned.filter (fun p => decide ((p.1.object, p.2) ∈ x.dirty))).take rate
    let n := owned.length
    let sweep := (List.range (min n (rate - dirty.length))).filterMap (fun j => owned[(x.sweep + j) % max 1 n]?)
    let s := s.modSlab k (fun sl => sl.modUnit u (fun y =>
      { y with dirty := y.dirty.filter (fun d => !dirty.any (fun p => decide ((p.1.object, p.2) = d)))
               sweep := (y.sweep + sweep.length) % max 1 n, baselineUsed := dirty.length + sweep.length }))
    (dirty ++ sweep).foldl (fun s p => s.toSink k u (s.presentBlock k p.1 p.2) 3) s

/-! ## Pass 2 (R287) -/

/-- Sector 0 of a result written: the commit; the unit passes to the next block it owes. -/
def State.commitBlock (s : State) (i k : SlabId) (u : Nat) (o : ObjectEntry) (x : BlockResult) : State :=
  let s := s.unitWrite i x.headerAt x.header
  let s := s.modSlab k (fun sl =>
    (sl.modUnit u (fun y => { y with journal := none, torn := false, result := none }.count Ctr.UPD_BLOCKS_COMMITTED 1)).modCamp
      (fun c => c.modLedger x.step (fun r => { r with committed := r.committed + 1 })))
  let next := s.nextOwed k u (o.update.firstPos + x.block + 1)
  let s := s.modSlab k (fun sl => sl.modUnit u (fun y => if y.cstep = x.step then { y with pos := next } else y))
  let s := s.emitRecord i k u o x [1, 2, 4]
  let s := if s.orderLength k ≤ next then s.baseline k u else s
  s.noteCommit k x.step

/-- The fields of a result written in order. -/
def State.writeResult (s : State) (i : SlabId) (x : BlockResult) : State :=
  x.writes.foldl (fun s w => s.unitWrite i w.1 w.2) s

/-- The block a unit is to update next, with the summit result of its step. -/
def State.pass2Next (s : State) (k : SlabId) (u : Nat) : Option (ObjectEntry × Nat × SummitResult) :=
  let x := ((s.slab k).stack u).unit
  match (s.job k).resultOf x.cstep, s.atPosition k x.pos with
  | some r, some (o, b) => if r.skip || x.torn || !s.owes k u x.pos then none else some (o, b, r)
  | _, _ => none

/-- The counts of a computed block added to its unit. -/
def UpdateUnit.ruleCounts (x : UpdateUnit) (c : RuleCounts) : UpdateUnit :=
  (((x.count Ctr.UPD_STORE_CLAMPS c.1).count Ctr.UPD_NONFINITE_RESULTS c.2.1).count Ctr.PRECOND_DAMPING_RAISES
    c.2.2.1).count Ctr.PRECOND_IDENTITY c.2.2.2

/-- PASS2_BLOCK (R286, R287): a unit reads, computes, writes and commits its next block and emits the
record. -/
def execPass2Block (slab : SlabId) (unit : Fin 24) (s : State) : Result :=
  let u := unit.val
  match (if (s.slab slab).ready then s.pass2Next slab u else none) with
  | none => .next s
  | some (o, b, r) =>
    if !s.headerOk slab o b then .next (s.headerError slab o b)
    else
    let (x, counts) := s.computeBlock slab o b r
    let s := (s.readPlanes slab o b (List.range (planeSizes o.update).length)).modSlab slab (fun sl =>
      sl.modUnit u (fun y => y.ruleCounts counts))
    .next ((s.writeResult slab x).commitBlock slab slab u o x)

/-! ## Torn blocks (R290 to R292) -/

/-- The writes of a result below field `f` and sector `j`: fields before it whole, then whole sectors. A
field's elements and scales are one run of sectors. -/
def partialWrites (rule : Nat) (x : BlockResult) (o : ObjectEntry) (f j : Nat) : List (Nat × List Byte) :=
  let order := writeOrder rule
  let parts (n : Nat) : List (Nat × List Byte) :=
    match order[n]? with
    | none => []
    | some fd =>
      let k := fieldPlane rule fd
      x.writes.filter (fun w => decide (w.1 = o.planeAddr x.block k) || decide (w.1 = o.planeAddr x.block (k + 1)))
  let cut (n : Nat) (ws : List (Nat × List Byte)) : List (Nat × List Byte) :=
    (ws.foldl (fun (acc : Nat × List (Nat × List Byte)) w =>
      (acc.1 - w.2.length, acc.2 ++ [(w.1, w.2.take acc.1)])) (n, [])).2
  (List.range f).flatMap parts ++ cut (32 * j) (parts f)

/-- The stripe of a block's page. -/
def State.blockStripe (s : State) (i : SlabId) (o : ObjectEntry) (b : Nat) : Nat :=
  (s.pte i (vpnOf (o.planeAddr b 0))).elim 0 (fun p => pteFrame p.2)

/-- A unit stops within the block it is writing (R291): the sectors issued so far are written, and the
journal and the result buffer stay. -/
def State.tear (s : State) (k : SlabId) (u f j : Nat) : State :=
  match s.pass2Next k u with
  | none => s
  | some (o, b, r) =>
    let (x, counts) := s.computeBlock k o b r
    let s := (partialWrites o.update.rule x o f j).foldl (fun s w => s.unitWrite k w.1 w.2) s
    let jr : Journal := { object := o.object, block := b, step := r.step, fieldPos := f, sector := j }
    s.modSlab k (fun sl =>
      (sl.modUnit u (fun y =>
        ({ y with journal := some jr, torn := true, result := some x }.ruleCounts counts).count Ctr.UPD_TORN_BLOCKS 1)).modCamp
        (fun c => c.modLedger r.step (fun l =>
          { l with torn := addSat16 l.torn 1
                   tornAt := l.tornAt ++ [(o.object, b, s.blockStripe k o b)] })))

/-- Frames of the parity stripes a result wrote to. -/
def State.resultFrames (s : State) (i : SlabId) (x : BlockResult) : List (SlabId × Nat) :=
  ((x.headerAt :: x.writes.map Prod.fst).filterMap (fun a => match s.pte i (vpnOf a) with
    | none => none
    | some (k, e) => if pteProt e = 1 then some (k, pteFrame e) else none)).eraseDups

/-- A torn block rolled forward and committed (R292), its stripe's parity recomputed (R211). -/
def State.completeTorn (s : State) (k : SlabId) (u : Nat) : State :=
  let y := ((s.slab k).stack u).unit
  match (if y.torn then y.result else none), y.journal with
  | some x, some jr =>
    match s.objectNo k jr.object with
    | none => s
    | some o =>
      let frames := s.resultFrames k x
      let s := (s.writeResult k x).commitBlock k k u o x
      let s := frames.foldl (fun s p => s.modSlab p.1 (fun sl => sl.recomputeParity p.2)) s
      s.modSlab k (fun sl => sl.modCamp (fun c => c.modLedger x.step (fun l =>
        { l with repaired := addSat16 l.repaired 1 })))
  | _, _ => s

/-- The stack's own copy of a torn block cannot be completed: it failed, or its controller is lost. -/
def StackState.lost : StackState → Bool
  | .failed | .controllerLost => true
  | .good | .parked => false

/-- Every torn block of the device's slabs completed, unless its stack failed or lost its controller. -/
def State.completeAllTorn (s : State) (i : SlabId) : State :=
  (s.devSlabs i).foldl (fun s k => stacks24.foldl (fun s u =>
    if ((s.slab k).stack u).state.lost then s else s.completeTorn k u) s) s

/-- UPDATE_UNIT_ERROR (R291): base camp resets the unit; the block it was writing is torn, and a hold is
requested with code 0x0C. -/
def execUpdateUnitError (slab : SlabId) (unit : Fin 24) (torn : Option (Nat × Nat)) (s : State) : Result :=
  if !(s.slab slab).ready then .next s
  else
    let s := match torn with
      | none => s
      | some (f, j) => s.tear slab unit.val f j
    .next (s.raise slab 0x0C (some unit))

/-- The weights a lost block is reset to: from the weight copy, or for a REPLICA object from the peer. -/
def State.resetWeights (s : State) (i : SlabId) (o : ObjectEntry) (b : Nat) (peer : List Byte) : Option (List Byte) :=
  match s.copyOf i o with
  | some c => some (s.copyWeights i o c b)
  | none => if o.prot = 2 then some peer else none

/-- A block reset (R293): given weights, state +0, UPDATES 0, REPAIRED set, committed with the current
step; unit `w` of slab `k` emits its BLOCK record. -/
def State.resetBlock (s : State) (i k : SlabId) (w : Nat) (o : ObjectEntry) (b : Nat) (ws : List Byte) : State :=
  let n := (s.job i).step
  let d := o.update
  let sizes := planeSizes d
  let zeros (p : Nat) : Nat × List Byte := (o.planeAddr b p, List.replicate (sizes.getD p 0) 0)
  let planes := (stateFields d.rule).flatMap (fun f => [fieldPlane d.rule f, fieldPlane d.rule f + 1])
  let state := planes.flatMap (fun p => (zeros p).2)
  let fp := fingerprint o b n ws state
  let flags := s.headerField i o b 0x14 2 % 2 + 2
  let eb := elemBytes d.wfmt blockElems
  let x : BlockResult :=
    { object := o.object, block := b, step := n
      writes := (o.planeAddr b 1, ws.take eb) :: (o.planeAddr b 2, ws.drop eb) :: planes.map zeros
      headerAt := o.planeAddr b 0, header := sector0 n fp 0 flags d.rule 0 b o.object, wfmt := d.wfmt
      fingerprint := fp, xorBits := [], weights := ws, stored := ws ++ state, storedXor := [] }
  let s := (s.writeResult i x).unitWrite i x.headerAt x.header
  let s := s.modSlab k (fun sl =>
    (sl.modUnit w (fun y => y.count Ctr.UPD_LOST_BLOCKS 1)).modCamp (fun c => c.modLedger n (fun l =>
      { l with lost := addSat16 l.lost 1 })))
  s.emitRecord i k w o x [3]

/-- LOST_BLOCK_RESET (R293, R354): a block torn on a stack that is lost takes its weights from the weight
copy or the replica peer, with its state +0; without either, its page is a lost unrestorable page. -/
def execLostBlockReset (slab : SlabId) (object : Half) (block : Word) (peerWeights : List Byte) (s : State) : Result :=
  let b := block.toNat
  let hit (u : Nat) : Bool :=
    ((s.slab slab).stack u).state.lost &&
      (match ((s.slab slab).stack u).unit.journal with
       | none => false
       | some j => ((s.slab slab).stack u).unit.torn && decide (j.object = object.toNat) && decide (j.block = b))
  match (if (s.slab slab).ready then stacks24.find? hit else none), s.objectNo slab object.toNat with
  | some u, some o =>
    let s := s.modSlab slab (fun sl => sl.modUnit u (fun y => { y with journal := none, torn := false, result := none }))
    match s.resetWeights slab o b peerWeights with
    | none =>
      let v := vpnOf (o.base + pageBytes * o.blockPage b)
      .next (s.modJob slab (fun j => { j with lostPages := insertNew v j.lostPages }))
    | some ws => .next (s.resetBlock slab slab ((s.slab slab).unitFor u) o b ws)
  | _, _ => .next s

/-! ## Records from peers (R298 to R300) -/

/-- The lowest endpoint of a REPLICA object's member group: its owner (R298). -/
def State.replicaOwner (s : State) (i : SlabId) (o : ObjectEntry) : Half :=
  ((s.slab i).group o.replicas).ranks.foldl (fun a e => if e.toNat < a.toNat then e else a)
    (s.slab i).links.endpoint

/-- DIFFERENCE_RECORD (R298, R300, R336): a record is applied to the weight copy and the fingerprint
checked; for a REPLICA object the owner's record is compared with the block's own commit. -/
def execDifferenceRecord (slab : SlabId) (r : DiffRecord) (s : State) : Result :=
  match (if (s.slab slab).ready then s.objectNo slab r.object.toNat else none) with
  | none => .next s
  | some o =>
    let b := r.block.toNat
    if !o.isParam then .next s
    else if o.prot = 2 ∧ r.source ≠ (s.slab slab).links.endpoint then
      if r.source = s.replicaOwner slab o ∧ s.blockStep slab o b = r.step
          ∧ s.headerField slab o b 8 8 ≠ r.fingerprint.toNat then
        match s.blockOwner slab o b with
        | none => .next s
        | some (k, u) => .next (s.mismatch slab k u o.object b r.step)
      else .next s
    else match s.copyOf slab o with
      | none => .next s
      | some c => .next (s.applyRecord slab o c r)

/-- Planes of a block written one after another from the bytes of a record. -/
def State.putPlanes (s : State) (i : SlabId) (o : ObjectEntry) (b : Nat) (bs : List Byte) : List Nat → State
  | [] => s
  | p :: ps =>
    let n := (planeSizes o.update).getD p 0
    (s.unitWrite i (o.planeAddr b p) (bs.take n)).putPlanes i o b (bs.drop n) ps

/-- REPAIR_RECORD (R299): the block is written from the owner's record: a FULL record into the weight copy,
a BLOCK record into a replica, which is marked REPAIRED. -/
def execRepairRecord (slab : SlabId) (r : DiffRecord) (s : State) : Result :=
  match (if (s.slab slab).ready then s.objectNo slab r.object.toNat else none) with
  | none => .next s
  | some o =>
    let b := r.block.toNat
    let done (s : State) (k : SlabId) (u no : Nat) : State :=
      s.modSlab k (fun sl => sl.modUnit u (fun x =>
        { x with repairs := x.repairs.filter (fun p => decide (p.1 ≠ (no, b))) }.count Ctr.REPAIRS_APPLIED 1))
    if r.kind = 2 then
      match s.copyOf slab o with
      | none => .next s
      | some c =>
        let n := elemBytes o.update.wfmt blockElems + scaleBytes o.update.wfmt blockElems
        let (k, u) := s.unitAt slab (copyStart o c b)
        let s := (s.putCopy slab o c b (r.payload.take n)).modSlab k (fun sl => sl.modUnit u (fun x =>
          { x with full := aset (c.object, b) r.step x.full }))
        .next (done s k u c.object)
    else if r.kind = 3 then
      match s.blockOwner slab o b with
      | none => .next s
      | some (k, u) =>
        let d := o.update
        let planes := [1, 2] ++ (stateFields d.rule).flatMap (fun f => [fieldPlane d.rule f, fieldPlane d.rule f + 1])
        let s := s.putPlanes slab o b (r.payload.drop 32) planes
        let fl := leAt r.payload 0x14 2
        let head := r.payload.take 0x14 ++ leBytes (fl / 4 * 4 + fl % 2 + 2) 2 ++ (r.payload.drop 0x16).take 10
        .next (done (s.unitWrite slab (o.planeAddr b 0) head) k u o.object)
    else .next s

end Sys2Proof.Machine
end

