-- ==== Sys2Proof/Machine/Stacks.lean ====
section
/-! DEFINITION. Shelf stacks that leave service (R213, R352 to R356): failure, parking, a lost controller,
and the rebuilding of their pages. -/

namespace Sys2Proof.Machine

open Sys2Proof

/-! ## Pages (R352) -/

/-- The object a page belongs to. -/
def State.pageObject (s : State) (i : SlabId) (v : Nat) : Option ObjectEntry := s.objectAt i (v * pageBytes)

/-- A page is restorable: STEP, REPLICA, or of a parameter object with a weight copy. -/
def State.restorable (s : State) (i : SlabId) (v : Nat) : Bool :=
  match s.pageObject i v with
  | none => false
  | some o => decide (o.cls = 1) || decide (o.prot = 2) || (o.isParam && decide (o.update.copy ≠ 0xFFFF))

/-- A page of a STEP object. -/
def State.stepPage (s : State) (i : SlabId) (v : Nat) : Bool :=
  match s.pageObject i v with
  | none => false
  | some o => decide (o.cls = 1)

/-- The contents of a page can be had from its home or its stripe. -/
def Slab.pageReadable (sl : Slab) (e : DWord) : Bool := (sl.frameCells (pteStack e) (pteFrame e)).isSome

/-! ## Leaving service -/

/-- Stripes whose parity frame lies on the stack become unprotected (R213). -/
def Slab.unprotect (sl : Slab) (k : Nat) : Slab :=
  (sl.modMem (fun m =>
    { m with stripes := m.stripes.map (fun p =>
        if parityStack p.1 = k ∧ p.2 = .parity then (p.1, .unprotected) else p) })).modStack k
    (fun st => { st with deltas := [] })

/-- A stack's state changed, with the stamp that the fault map keeps. -/
def State.setStack (s : State) (i : SlabId) (k : Nat) (st : StackState) : State :=
  let now := s.stamp i
  (s.modSlab i (fun sl =>
    ((sl.modStack k (fun x => { x with state := st, changed := some now })).unprotect k).mapChanged)).modSlab i
    (fun sl => sl.count Ctr.STACK_EVENTS 1)

/-- Unrestorable pages that no stripe can give any more are lost (R356). -/
def State.noteLostPages (s : State) (i : SlabId) : State :=
  let sl := s.slab i
  let gone := (sl.mem.pages.filter (fun p =>
    !sl.stackUp (pteStack p.2) && !sl.pageReadable p.2 && !s.restorable i p.1)).map Prod.fst
  if gone.isEmpty then s else s.modJob i (fun j => { j with lostPages := gone.foldl (fun l v => insertNew v l) j.lostPages })

/-- The entry of a stack event. -/
def State.stackEntry (s : State) (i : SlabId) (k : Nat) (cls : Byte) : State :=
  s.logFault i { FaultEntry.basic cls 5 with node := unitNode i 1 k, aux := BitVec.ofNat 8 k, map := true, hold := true }

/-- STACK_FAILURE (R213, R353): a stack fails; its pages are served degraded, and a hold is raised with
code 0x0A. -/
def execStackFailure (slab : SlabId) (stack : Fin 24) (s : State) : Result :=
  let k := stack.val
  if !(s.slab slab).ready || ((s.slab slab).stack k).state.lost then .next s
  else
    let s := s.setStack slab k .failed
    let s := s.modSlab slab (fun sl => sl.count Ctr.STACK_PARKS 1)
    .next ((s.noteLostPages slab).raise slab 0x0A (some stack))

/-- A page takes a new home without its contents (R355). -/
def State.rehome (s : State) (i : SlabId) (v : Nat) (e : DWord) : State :=
  let st := pteStack e
  let f := pteFrame e
  let parity := decide (pteProt e = 1)
  match (s.slab i).findHome parity ((st + 1 + f % 23) % 24) (some st) with
  | none => s
  | some (k, g) =>
    (s.modSlab i (fun sl => (sl.takeFrame parity k g v).dropFrame st f)).setPte i i v (pteWithHome e k g)

/-- STACK_PARK (R213, R289, R355): in the hold at a step boundary the unit commits the block it is writing, the STEP pages of a critical
stack take new homes, and the stack is parked in self-refresh. -/
def execStackPark (slab : SlabId) (stack : Fin 24) (s : State) : Result :=
  let k := stack.val
  let sl := s.slab slab
  let asked := (s.root slab).causes.any (fun c => decide (c.code = 0x09) && decide (c.slab = slab)
    && decide (c.unit = some stack))
  if !sl.ready || !(s.root slab).inHold || !asked || !sl.stackUp k then .next s
  else
    let s := s.completeTorn slab k
    let s := (sl.pagesOn k).foldl (fun s p => if s.stepPage slab p.1 then s.rehome slab p.1 p.2 else s) s
    let s := s.setStack slab k .parked
    .next ((s.modSlab slab (fun sl =>
      (sl.modStack k (fun x => { x with selfRefresh := true })).count Ctr.STACK_PARKS 1)).stackEntry slab k 0x09)

/-! ## Rebuilding (R213, R353) -/

/-- Where a page of a stack out of service goes: a frame of the spread target stack or the next one, else
the parity frame of its own stripe. The last part says whether it is that parity frame. -/
def Slab.rebuildTarget (sl : Slab) (e : DWord) : Option (Nat × Nat × Bool) :=
  let st := pteStack e
  let f := pteFrame e
  let parity := decide (pteProt e = 1)
  match sl.findHome parity ((st + 1 + f % 23) % 24) (some st) with
  | some (k, g) => some (k, g, false)
  | none =>
    let p := parityStack f
    if parity ∧ sl.stackUp p ∧ alookup f sl.mem.stripes = some .parity then some (p, f, true) else none

/-- Pages on stacks out of service that no host restore is needed for and that are unrestorable. -/
def State.unrestorableWaiting (s : State) (i : SlabId) : Bool :=
  let sl := s.slab i
  sl.mem.pages.any (fun p => !sl.stackUp (pteStack p.2) && !s.restorable i p.1 && sl.pageReadable p.2)

/-- The contents a rebuild gives a page: those of its stripe, the peer's for a REPLICA page; none for the
pages that are written again or reset. DESIGN CHOICE: the peer's copy of a REPLICA page holds the bytes that the home held. -/
def State.rebuiltCells (s : State) (i : SlabId) (e : DWord) : Cells :=
  let sl := s.slab i
  match sl.frameCells (pteStack e) (pteFrame e) with
  | some cs => cs
  | none => if pteProt e = 2 then Cells.frame sl.mem.shelf (pteStack e) (pteFrame e) else []

/-- The traffic of a rebuild: the target takes a page, and the other stacks in service give the page's stripe. -/
def Slab.rebuildWork (sl : Slab) (e : DWord) (k : Nat) : Slab :=
  let sl := sl.addWork k (campWork .remote pageBytes)
  if pteProt e = 1 then stacks24.foldl (fun sl j =>
    if j = pteStack e ∨ sl.stackUp j = false then sl else sl.addWork j (campWork .remote pageBytes)) sl
  else sl

/-- The page moved to its rebuild target with the given contents; its old frame counts as zero in its
stripe. -/
def State.moveRebuilt (s : State) (i : SlabId) (v : Nat) (e : DWord) (cs : Cells) (tgt : Nat × Nat × Bool) : State :=
  let (k, g, own) := tgt
  let st := pteStack e
  let f := pteFrame e
  let s := s.modSlab i (fun sl =>
    let sl := sl.rebuildWork e k
    if own then
      (sl.dropDeltas f |>.modMem (fun m =>
        { m with frames := aset (k, g) (.data v) (aerase (st, f) m.frames), stripes := aset f .unprotected m.stripes })).setFrame
        k g cs
    else
      let sl := (sl.takeFrame (decide (pteProt e = 1)) k g v).fillFrame k g cs
      let p := parityStack f
      let sl := if alookup f sl.mem.stripes = some .parity ∧ sl.stackUp p then
        sl.setFrame p f (Cells.xor (Cells.frame sl.mem.shelf p f) cs) else sl
      (sl.setFrame st f []).freeFrame st f)
  (s.setPte i i v (pteWithHome e k g)).passOwnership i v ((s.slab i).unitFor st) ((s.slab i).unitFor k)

/-- The blocks of a parameter page reset from the weight copy (R352). -/
def State.resetPage (s : State) (i : SlabId) (v : Nat) : State :=
  match s.pageObject i v with
  | none => s
  | some o =>
    let p := blocksPerPage o.update
    let first := (v * pageBytes - o.base) / pageBytes * p
    (List.range p).foldl (fun s j =>
      let b := first + j
      if o.update.nblocks ≤ b then s
      else match s.resetWeights i o b [] with
        | none => s
        | some ws => match s.blockOwner i o b with
          | none => s
          | some (k, w) => s.resetBlock i k w o b ws) s

/-- Sectors of a page that a rebuild took from its stripe, counted. -/
def State.countRebuild (s : State) (i : SlabId) (st : Nat) (readable : Bool) : State :=
  s.modSlab i (fun sl => sl.modStack st (fun x => x.count Ctr.PARITY_REBUILDS (if readable then 65536 else 0)))

/-- PAGE_REBUILD (R213, R352, R353): base camp rebuilds a page of a stack out of service into another
stack, unrestorable pages first. A page whose data are withheld has its home rewritten with the peer's copy (R212). -/
def execPageRebuild (slab : SlabId) (vpn : BitVec 27) (s : State) : Result :=
  let v := vpn.toNat
  let sl := s.slab slab
  match (if sl.ready then alookup v sl.mem.pages else none) with
  | none => .next s
  | some e =>
    let readable := sl.pageReadable e
    let rest := s.restorable slab v
    if sl.stackUp (pteStack e) ∧ v ∈ sl.mem.withheld then
      .next (s.modSlab slab (fun sl => sl.modMem (fun m => { m with withheld := m.withheld.filter (fun x => decide (x ≠ v)) })))
    else if sl.stackUp (pteStack e) || (!readable && !rest) || (rest && s.unrestorableWaiting slab) then .next s
    else match sl.rebuildTarget e with
      | none => .next s
      | some tgt =>
        let s := s.modSlab slab (fun sl => (sl.flushFrame (pteStack e) (pteFrame e)).modMem (fun m =>
          { m with withheld := m.withheld.filter (fun x => decide (x ≠ v)) }))
        let t := (s.moveRebuilt slab v e (s.rebuiltCells slab e) tgt).countRebuild slab (pteStack e) readable
        let param := match s.pageObject slab v with
          | none => false
          | some o => o.isParam && decide (o.prot ≠ 2)
        .next (if !readable && param then t.resetPage slab v else t)

/-! ## A lost controller (R354) -/

/-- The next stack in service after `k`, modulo 24. -/
def Slab.nextStack (sl : Slab) (k : Nat) : Option (Fin 24) :=
  (((List.range 23).map (fun j => (k + 1 + j) % 24)).find? sl.stackUp).map
    (fun t => ⟨t % 24, Nat.mod_lt _ (by decide)⟩)

/-- SHELF_CONTROLLER_LOST (R354): the controller and unit of the next stack in service stand in; a hold is
raised with code 0x0B. -/
def execShelfControllerLost (slab : SlabId) (stack : Fin 24) (s : State) : Result :=
  let k := stack.val
  if !(s.slab slab).ready || ((s.slab slab).stack k).state = .controllerLost then .next s
  else
    let s := s.setStack slab k .controllerLost
    let s := s.modSlab slab (fun sl =>
      match sl.nextStack k with
      | none => sl
      | some t =>
        let u := (sl.stack k).unit
        let sl := stacks24.foldl (fun sl j =>
          if j = k ∨ (sl.stack j).unit.standIn = some stack then
            sl.modUnit j (fun x => { x with standIn := some t, landings := [] })
          else sl) sl
        sl.modUnit t.val (fun x =>
          { x with landings := x.landings ++ u.landings
                   pos := if x.cstep = u.cstep then min x.pos u.pos else x.pos }))
    .next ((s.noteLostPages slab).raise slab 0x0B (some stack))

end Sys2Proof.Machine
end

