-- ==== Sys2Proof/Machine/Streams.lean ====
section
/-! DEFINITION. Stream descriptors that read (R223 to R231, R236 to R245): fetches, returns, delivery,
gathers, and bivouac service (R200, R201). -/

namespace Sys2Proof.Machine

open Sys2Proof

/-! ## Passes and schedule (R227, R228) -/

/-- A pass of a descriptor: its descriptor, arm record, number within the record and delivery index within
the step. -/
structure Pass where
  desc : StreamDesc
  arm : ArmRecord
  j : Nat
  at_ : Nat
  deriving DecidableEq, Repr

/-- Pass `n` of a step of descriptor `d`. -/
def State.passOf (s : State) (i : SlabId) (d n : Nat) : Option Pass :=
  match s.placement i with
  | none => none
  | some p => match p.stream d, (p.passes d)[n]? with
    | some sd, some (a, j, x) => (p.arm d a).map (fun r => { desc := sd, arm := r, j := j, at_ := x })
    | _, _ => none

/-- Passes of a descriptor in a step. -/
def State.passCount (s : State) (i : SlabId) (d : Nat) : Nat :=
  match s.placement i with
  | none => 0
  | some p => (p.passes d).length

/-- Image pitches of a step in the placement in force. -/
def State.stepLength (s : State) (i : SlabId) : Nat :=
  match s.placement i with
  | none => 0
  | some p => p.stepLength

/-- The number by which the job lists a descriptor whose passes are primed. -/
def primeKey (i : SlabId) (d : Nat) : Nat := d + 16384 * i.num

/-- The next pass and its step after pass `n` of step `st`. -/
def State.nextPass (s : State) (i : SlabId) (d st n : Nat) : Nat × Nat :=
  if n + 1 < s.passCount i d then (st, n + 1) else (st + 1, 0)

/-- Element-plane bytes of a block, 1 for unscaled formats (R225). -/
def e32 (fmt : Nat) : Nat := if fmtScaled fmt then elemBytes fmt 32 else 1

/-- Addresses of run `k`: element plane, scale plane, and the scale bytes of a run. -/
def Pass.runAddr (p : Pass) (k : Nat) : Nat × Nat × Nat :=
  let off := p.j * p.arm.padv + k * p.desc.rstride
  let e := e32 p.desc.memFmt
  (p.arm.ebase + off, p.arm.sbase + off / e, if fmtScaled p.desc.memFmt then p.desc.runBytes / e else 0)

/-- Rows and scale bytes are shifted by DFLIP in odd passes. -/
def Pass.flip (p : Pass) : Nat := if p.j % 2 = 1 then p.desc.dflip else 0

/-- The descriptor's engine reads: READ, GATHER or MCAST_OUT. -/
def StreamDesc.reads (sd : StreamDesc) : Bool := decide (sd.mode = 0 ∨ sd.mode = 2 ∨ sd.mode = 10)

/-- Runs, or gather requests of 64 indices, that a fetch returns. -/
def StreamDesc.returns (sd : StreamDesc) : Nat := if sd.mode = 2 then (sd.runs + 63) / 64 else sd.runs

/-! ## Order of service (R229) -/

/-- The first of two lists of numbers in lexicographic order. -/
def lexLess : List Nat → List Nat → Bool
  | a :: as, b :: bs => decide (a < b) || (decide (a = b) && lexLess as bs)
  | [], _ :: _ => true
  | _, _ => false

/-- The place of a pass in the order in which one engine serves its descriptors: delivery index, DSTART, descriptor number. -/
def State.passKey (s : State) (i : SlabId) (d st : Nat) (p : Pass) : List Nat := [st * s.stepLength i + p.at_, p.desc.dstart, d]

/-- The pitch in progress belongs to step `st` or an earlier one: no work of a step runs in a later step's pitches (R248). -/
def State.withinStep (s : State) (i : SlabId) (st : Nat) : Bool := decide ((s.root i).schedIndex.toNat < (st + 1) * s.stepLength i)

/-! ## Maintenance (R61, R241) -/

/-- Tasks of base camp in maintenance pitches (R61). -/
def taskLinks : Nat := 0
def taskRefresh : Nat := 2
def taskMigration : Nat := 3

/-- The shelf stacks are under maintenance in the pitch in progress. DESIGN CHOICE: retraining of the PHYs (task 1) and changes of refresh
rates take every stack of the device; R61 does not say how many one pitch takes. -/
def State.stacksBusy (s : State) (i : SlabId) : Bool :=
  let r := s.root i
  decide (r.kind = .maint) && !r.inHold && decide (r.task = 1 ∨ r.task = taskRefresh)

/-- Streams that read issue nothing: in a maintenance pitch outside a hold (R241). -/
def State.readsPause (s : State) (i : SlabId) : Bool := decide ((s.root i).kind = .maint) && !(s.root i).inHold

/-! ## Fetches (R229, R239, R245) -/

/-- A hold stops the fetches of streams until base camp primes them (R237, R239). -/
def State.streamsStopped (s : State) (i : SlabId) : Bool := (s.root i).inHold && !(s.root i).takenOver

/-- The pitch of the fetch has come: it is an image pitch at or after index d - DEPTH and not of a later step, and in that pitch
phase belay WAITPH is released; or the pass is primed, in a hold that base camp has taken over or from the first idle pitch after
a job command on. -/
def State.fetchDue (s : State) (i : SlabId) (d : Nat) (p : Pass) (st : Nat) : Bool :=
  let r := s.root i
  let target := st * s.stepLength i + p.at_
  let primed := decide (primeKey i d ∈ (s.job i).primed) && decide (p.at_ < p.desc.depth)
  if primed then (decide (r.kind = .idle ∨ r.kind = .gate) && (s.job i).idleSinceStart) || r.inHold
  else
    decide (r.kind = .image) && !r.inHold && s.withinStep i st &&
      (decide (target < r.schedIndex.toNat + p.desc.depth) ||
        (decide (target = r.schedIndex.toNat + p.desc.depth) && decide (p.desc.waitph ≤ r.releasedPhases)))

/-- The descriptor's next pass waits for the begin of its fetch: its place in the order. -/
def State.fetchWaiting (s : State) (i : SlabId) (d : Nat) : Option (List Nat) :=
  let st := (s.slab i).stream d
  match s.passOf i d st.fetchPass with
  | none => none
  | some p =>
    if decide (st.state ≠ 0) && !st.fetching && !st.held && p.desc.reads && s.fetchDue i d p st.fetchStep then
      some (s.passKey i d st.fetchStep p)
    else none

/-- No other descriptor of the same engine comes first in the order of `wait`. -/
def State.firstOf (s : State) (i : SlabId) (d : Nat) (key : List Nat) (wait : Nat → Option (List Nat)) : Bool :=
  (s.slab i).streams.all (fun x =>
    decide (x.1 = d) || decide (streamTile i x.1 ≠ streamTile i d) || (match wait x.1 with
      | none => true
      | some k => !lexLess k key))

/-- The fetch waits under COMMIT. -/
def State.commitBlocks (s : State) (i : SlabId) (p : Pass) (st : Nat) : Bool :=
  p.desc.commit && !s.commitReady i p.desc.object st

/-- The traffic of a fetch waits for read positions (R243): the runs, or the index list of a gather. -/
def State.fetchWork (s : State) (i : SlabId) (d : Nat) (p : Pass) : State :=
  (List.range p.desc.returns).foldl (fun s k =>
    if p.desc.mode = 2 then
      s.addWork i (p.arm.sbase + 4 * p.desc.runs * p.j + 256 * k) (4 * min 64 (p.desc.runs - 64 * k)) .read false (some (primeKey i d, k))
    else
      let a := p.runAddr k
      (s.addWork i a.1 p.desc.runBytes .read false (some (primeKey i d, k))).addWork i a.2.1 a.2.2 .read false (some (primeKey i d, k))) s

/-- The fetch of the next pass begins. -/
def State.beginFetch (s : State) (i : SlabId) (d : Nat) (p : Pass) : State :=
  let now := s.cycle i
  let st := (s.slab i).stream d
  let waited := match st.heldAt with
    | none => 0
    | some c => now - c
  let ep := (s.job i).epoch
  ((s.modSlab i (fun sl => sl.modStream d (fun st =>
    { st with state := 2, held := false, heldAt := none, epoch := ep, fetching := true, returned := []
              bufferWait := none }))).modTile (streamTile i d) (fun tl =>
      tl.count Ctr.STREAM_COMMIT_WAITS waited)).fetchWork i d p

/-- STREAM_FETCH_START (R229, R245): the fetch of a descriptor's next pass begins at its pitch, when it is the first of its engine's
in the order, or is held under COMMIT. -/
def execStreamFetchStart (slab : SlabId) (d : Fin 16384) (s : State) : Result :=
  let st := (s.slab slab).stream d.val
  if !(s.slab slab).ready || s.streamsStopped slab then .next s
  else match s.passOf slab d.val st.fetchPass, s.fetchWaiting slab d.val with
    | some p, some key =>
      if !s.firstOf slab d.val key (s.fetchWaiting slab) then .next s
      else if s.commitBlocks slab p st.fetchStep then
        let now := s.cycle slab
        .next (s.modSlab slab (fun sl => sl.modStream d.val (fun st => { st with held := true, heldAt := some now })))
      else .next (s.beginFetch slab d.val p)
    | _, _ => .next s

/-- COMMIT_WAIT_RELEASE (R245, R253): a held fetch begins once its blocks are committed. -/
def execCommitWaitRelease (slab : SlabId) (d : Fin 16384) (s : State) : Result :=
  let st := (s.slab slab).stream d.val
  if !(s.slab slab).ready || s.streamsStopped slab || s.readsPause slab || !st.held then .next s
  else match s.passOf slab d.val st.fetchPass with
    | none => .next s
    | some p => if s.commitBlocks slab p st.fetchStep then .next s else .next (s.beginFetch slab d.val p)

/-- The fetch of a pass is over; the descriptor's next pass is the next to fetch. -/
def State.endFetch (s : State) (i : SlabId) (d : Nat) : State :=
  let st := (s.slab i).stream d
  let (n, k) := s.nextPass i d st.fetchStep st.fetchPass
  let s := s.modSlab i (fun sl => sl.modStream d (fun st =>
    { st with state := if st.delivering then 2 else 1, fetching := false, returned := [], fetchStep := n, fetchPass := k }))
  let more := match s.passOf i d k with
    | none => false
    | some p => decide (n = st.fetchStep) && decide (p.at_ < p.desc.depth)
  if more then s
  else s.modJob i (fun j => { j with primed := j.primed.filter (fun x => decide (x ≠ primeKey i d)) })

/-- STREAM_FETCH_END (R229): every run of the pass has returned. -/
def execStreamFetchEnd (slab : SlabId) (d : Fin 16384) (s : State) : Result :=
  let st := (s.slab slab).stream d.val
  match (if (s.slab slab).ready && st.fetching then s.passOf slab d.val st.fetchPass else none) with
  | none => .next s
  | some p => if st.returned.length < p.desc.returns then .next s else .next (s.endFetch slab d.val)

/-! ## Translated reads (R191, R231) -/

/-- Every page of a range is in the tile's translation cache. -/
def Tile.translated (t : Tile) (a n : Nat) : Bool := (pieces a n).all (fun p => (t.cached p.1).isSome)

/-- A range used by a stream: its translations become recent, and one that passes the middle of a page
fetches the translation of the next. -/
def State.useXlate (s : State) (t : TileId) (a n : Nat) : State :=
  (pieces a n).foldl (fun s p =>
    let v := p.1
    let s := s.modTile t (fun tl => tl.touch v)
    if p.2.1 ≤ 1048576 ∧ 1048576 < p.2.1 + p.2.2.2 ∧ ((s.tile t).cached (v + 1)).isNone then
      let e := match s.pte t.slab (v + 1) with
        | none => 0
        | some (_, e) => e
      s.modTile t (fun tl => tl.cache (v + 1) e)
    else s) s

/-- Pages of a range that have no entry: an access to each faults. -/
def State.faultsIn (s : State) (i : SlabId) (a n : Nat) : Nat :=
  ((pieces a n).filter (fun p => (s.pte i p.1).isNone)).length

/-- A page of the range is withheld until the peer's copy has come (R212). -/
def State.withholds (s : State) (i : SlabId) (a n : Nat) : Bool :=
  (pieces a n).any (fun p => match s.pte i p.1 with
    | none => false
    | some (w, _) => decide (p.1 ∈ (s.slab w).mem.withheld))

/-- The tile that holds the residence copy of an entry of slab `w`. -/
def State.residenceTile (s : State) (w : SlabId) (e : DWord) : TileId := tileId w (pteRX e) (pteRY e)

/-- The tile lends and can be reached: its field lives and no hole holds it (R199). -/
def State.canLend (s : State) (t : TileId) : Bool := (s.tile t).lending && s.routed t

/-- Sectors of a range on stacks out of service, rebuilt from their stripes as they are read (R213, R215). -/
def State.countDegraded (s : State) (i : SlabId) (a n : Nat) : State :=
  (pieces a n).foldl (fun s p => match s.pte i p.1 with
    | none => s
    | some (w, e) =>
      if (s.slab w).stackUp (pteStack e) then s
      else s.modSlab w (fun sl => sl.modStack (pteStack e) (fun x => x.count Ctr.PARITY_REBUILDS ((p.2.2.2 + 31) / 32)))) s

/-- A read that a lending tile has served: counted, with its LAST_USE (R200). -/
def State.served (s : State) (l : TileId) (frame : Nat) : State :=
  let pitch := (s.root l.slab).pitch
  let used := (gx s.shared.mode l, l.y.val, frame)
  (s.modTile l (fun x => { x with lastUse := pitch }.count Ctr.BIVOUAC_READS 1)).modSlab l.slab (fun sl => sl.modMem (fun m =>
    { m with residence := m.residence.map (fun p => if p.1 = used then (p.1, p.2.1, pitch) else p) }))

/-- Reads whose bytes the requesting engine itself puts together (scale planes, gathers, multicast packets) of pages in bivouac frames:
their residence tiles serve them (R192). DEDUCED: the bytes return to the engine, since rows of several runs share them. -/
def State.readLent (s : State) (i : SlabId) (a n : Nat) : State :=
  (pieces a n).foldl (fun s p => match s.pte i p.1 with
    | none => s
    | some (w, e) =>
      let l := s.residenceTile w e
      if 2 ≤ pteRes e ∧ s.canLend l = true then s.served l (pteRFrame e) else s) s

/-! ## The stream buffer (R230) -/

/-- The tile of a stack's portal group that holds and injects run `k` (R231). -/
def groupTile (i : SlabId) (st k : Nat) : TileId :=
  { slab := i, x := ⟨(8 + 8 * (st % 12) + k % 8) % 112, Nat.mod_lt _ (by decide)⟩, y := if st < 12 then 0 else 95 }

/-- The tile whose buffer holds a piece of run `k` that lies on a page with entry `e` of slab `w`. -/
def holderOf (i : SlabId) (d mode k : Nat) (w : SlabId) (e : DWord) : TileId :=
  if mode = 10 ∨ (w = i ∧ d < 12288 ∧ pteStack e = d / 512) then streamTile i d else groupTile w (pteStack e) k

/-- A fetched piece before it has its buffer rows: the tile, the data, and the record without rows. -/
abbrev Fetched := List Row × BufferedRun

/-- The rows of a range of `n` bytes by the page in which each begins: page, first row, rows, and whether the last row goes on into
the next page. -/
def rowGroups (a n : Nat) : List (Nat × Nat × Nat × Bool) :=
  (pieces a n).filterMap (fun q =>
    let first := (q.2.2.1 + 63) / 64
    let count := (q.2.2.1 + q.2.2.2 + 63) / 64 - first
    if count = 0 then none else some (q.1, first, count, decide (q.2.2.1 + q.2.2.2 < 64 * (first + count))))

/-- Rows `first` on of a run, read from their home; none when it cannot be read now. -/
def State.homePiece (s : State) (i : SlabId) (d k : Nat) (p : Pass) (st : StreamState) (a v first count : Nat) : Option Fetched :=
  let h := match s.pte i v with
    | none => streamTile i d
    | some (w, e) => holderOf i d p.desc.mode k w e
  (s.readRange i (a + 64 * first) (64 * count)).map (fun bs =>
    (rowsOf bs, { step := st.fetchStep, pass := st.fetchPass, run := k, epoch := st.epoch, offset := first, rows := [], scaleBytes := 0
                  holder := h, lent := none }))

/-- Rows of one page of a run: those on a lent page are left to the lending tile, but for one that goes on into the next page. -/
def State.fetchPiece (s : State) (i : SlabId) (d k : Nat) (p : Pass) (st : StreamState) (a : Nat)
    (g : Nat × Nat × Nat × Bool) : List (Option Fetched) :=
  let (v, first, count, cut) := g
  let lent := match s.pte i v with
    | none => false
    | some (_, e) => decide (2 ≤ pteRes e) && decide (p.desc.mode = 0)
  if !lent then [s.homePiece i d k p st a v first count]
  else
    let n := if cut then count - 1 else count
    (if n = 0 then [] else
      [some ([], { step := st.fetchStep, pass := st.fetchPass, run := k, epoch := st.epoch, offset := first, rows := [], scaleBytes := 0
                   holder := streamTile i d, lent := some (v, (a + 64 * first) % pageBytes, n) })])
      ++ (if cut then [s.homePiece i d k p st a v (first + n) 1] else [])

/-- Bytes as rows, the last padded with zeros. -/
def paddedRows (bs : List Byte) : List Row := rowsOf (padTo ((bs.length + 63) / 64 * 64) bs)

/-- The scale bytes of run `k` as a piece of the executing tile's buffer. -/
def scalePiece (i : SlabId) (d k : Nat) (st : StreamState) (bs : List Byte) : List Fetched :=
  if bs.isEmpty then []
  else [(paddedRows bs, { step := st.fetchStep, pass := st.fetchPass, run := k, epoch := st.epoch, offset := 0, rows := []
                          scaleBytes := bs.length, holder := streamTile i d, lent := none })]

/-- The pieces of a run; none when a home cannot be read now. -/
def State.fetchRun (s : State) (i : SlabId) (d k : Nat) (p : Pass) (st : StreamState) : Option (List Fetched) :=
  let a := p.runAddr k
  let got := (rowGroups a.1 p.desc.runBytes).flatMap (s.fetchPiece i d k p st a.1)
  match (if got.all Option.isSome then s.readRange i a.2.1 a.2.2 else none) with
  | none => none
  | some scales => some (got.filterMap id ++ scalePiece i d k st scales)

/-- Buffer rows in use at a tile. -/
def State.bufferUsed (s : State) (t : TileId) : List Nat :=
  let of (sl : Slab) : List Nat := sl.streams.flatMap (fun p => (p.2.buffer.filter (fun b => decide (b.holder = t))).flatMap (fun b => b.rows))
  of s.slab0 ++ of s.slab1

/-- The free rows of the stream buffer of a tile, from BUFBASE on. -/
def State.bufferFree (s : State) (t : TileId) : List Nat :=
  match (s.tile t).entry with
  | none => []
  | some e =>
    let used := s.bufferUsed t
    (rowsFrom e.bufBase e.bufRows).filter (fun r => decide (r ∉ used))

/-- New pieces fit the buffers of their holders, and leave room there for `missing` earlier runs that have still to return. -/
def State.fits (s : State) (fs : List Fetched) (missing : Nat) : Bool :=
  fs.all (fun f =>
    let need := (fs.filter (fun x => decide (x.2.holder = f.2.holder))).foldl (fun n x => n + x.1.length) 0
    decide (need + missing * (fs.foldl (fun n x => n + x.1.length) 2) ≤ (s.bufferFree f.2.holder).length)
      || (decide (missing = 0) && decide (need ≤ (s.bufferFree f.2.holder).length)))

/-- A piece put into free rows of its holder's buffer. -/
def State.bufferPiece (s : State) (i : SlabId) (d : Nat) (f : Fetched) : State :=
  let rows := (s.bufferFree f.2.holder).take f.1.length
  let s := s.modTile f.2.holder (fun tl =>
    (rows.zip f.1).foldl (fun tl x => tl.putBytes (isPortal f.2.holder) x.1 0 (rowBytes x.2)) tl)
  s.modSlab i (fun sl => sl.modStream d (fun st => { st with buffer := st.buffer ++ [{ f.2 with rows := rows }] }))

/-- Pieces put into the buffers, as return number `k` of the fetch. -/
def State.bufferPieces (s : State) (i : SlabId) (d k : Nat) (fs : List Fetched) (bytes faults : Nat) : State :=
  let now := s.cycle i
  let st := (s.slab i).stream d
  let waited := match st.bufferWait with
    | none => 0
    | some c => now - c
  let s := (fs.foldl (fun s f => s.bufferPiece i d f) s).doneWork i (primeKey i d, k)
  (s.modSlab i (fun sl => sl.modStream d (fun st =>
    { st with returned := st.returned ++ [k], bufferWait := none
              fault := st.fault || decide (0 < faults) }))).modTile (streamTile i d) (fun tl =>
      ((tl.xlateFault faults).count Ctr.STREAM_READ_BYTES bytes).count Ctr.STREAM_BUFFER_WAITS waited)

/-- A return that finds no free buffer rows waits. -/
def State.waitBuffer (s : State) (i : SlabId) (d : Nat) : State :=
  let now := s.cycle i
  s.modSlab i (fun sl => sl.modStream d (fun st =>
    if st.bufferWait.isSome then st else { st with bufferWait := some now }))

/-- A read with a stale epoch is dropped (R236). -/
def State.dropRead (s : State) (i : SlabId) (d bytes : Nat) : State :=
  s.modTile (streamTile i d) (fun tl =>
    (tl.count Ctr.STREAM_READ_BYTES bytes).count Ctr.STREAM_DISCARD_BYTES bytes)

/-- Runs below `k` that have still to return. -/
def StreamState.missing (st : StreamState) (k : Nat) : Nat := ((List.range k).filter (fun j => decide (j ∉ st.returned))).length

/-! ## Delivery (R225, R229) -/

/-- The cycles of the present pitch that have passed at a tile. -/
def State.localCycle (s : State) (t : TileId) : Nat := s.cycle t.slab - (s.tile t).localStart

def StreamDesc.target (sd : StreamDesc) (row : Nat) : RowTarget :=
  { mcast := sd.mcast, ctr := sd.ctr, row := row, x0 := sd.x0, y0 := sd.y0, x1 := sd.x1, y1 := sd.y1 }

/-- The first destination row of a piece. -/
def Pass.destRow (p : Pass) (b : BufferedRun) : Nat := p.desc.drow + p.flip + b.run * p.desc.dstride + b.offset

/-- A lent piece asked of its lending tile (R200); when the page is no longer there, or the tile cannot lend or be reached, the engine
reads the rows from the home and injects them (R201). -/
def State.askLender (s : State) (t : TileId) (p : Pass) (b : BufferedRun) : State :=
  match b.lent with
  | none => s
  | some (v, off, n) =>
    let g := p.desc.target (p.destRow b)
    let home (s : State) : State := s.injectRows t g (rowsOf (s.readRangeD t.slab (v * pageBytes + off) (64 * n))) true
    match s.pte t.slab v with
    | none => home s
    | some (w, e) =>
      let l := s.residenceTile w e
      if pteRes e < 2 ∨ s.canLend l = false then home s
      else
        let r : LoadReq :=
          { requester := t, vpn := v, offset := off, frame := pteRFrame e, row := off / 64, count := n, mcast := g.mcast
            ctr := g.ctr, drow := g.row, x0 := g.x0, y0 := g.y0, x1 := g.x1, y1 := g.y1 }
        s.modTile l (fun tl => { tl with loads := tl.loads ++ [r] })

/-- A piece leaves the buffer: its rows are free. -/
def State.freePiece (s : State) (i : SlabId) (d : Nat) (b : BufferedRun) : State :=
  s.modSlab i (fun sl => sl.modStream d (fun st => { st with buffer := st.buffer.erase b }))

/-- The errors of the buffer rows of a piece. -/
def StreamState.pieceErrs (st : StreamState) (b : BufferedRun) : List RowError :=
  (st.errs.filter (fun e => decide (e.1 = b.holder) && decide (e.2.row ∈ b.rows))).map Prod.snd

/-- The rows of a piece as the router slots of its holder read them (R150), the errors recorded; none when one is uncorrectable. -/
def State.readPiece (s : State) (st : StreamState) (b : BufferedRun) : State × Option (List Row) :=
  let es := st.pieceErrs b
  let tl := s.tile b.holder
  let rows := b.rows.map (fun r => fixRow es r (tl.engRow (isPortal b.holder) r))
  let s := if es.isEmpty then s
    else (s.modTile b.holder (fun tl => tl.recordRowErrors (isPortal b.holder) false 3 es)).tileErrorIf (rowsUncorrectable es) b.holder
  (s, if rowsUncorrectable es then none else some rows)

/-- The scale bytes of the pass that fill whole rows delivered from DSBASE on; at the end of the pass also the rest, padded with
zeros (R225). -/
def State.flushScales (s : State) (i : SlabId) (d : Nat) (p : Pass) (all : Bool) : State :=
  let st := (s.slab i).stream d
  let n := if all then (st.tail.length + 63) / 64 else st.tail.length / 64
  let rows := paddedRows (st.tail.take (64 * n))
  (s.injectRows (streamTile i d) (p.desc.target (p.desc.dsbase / 64 + p.flip + st.tailRow)) rows true).modSlab i (fun sl =>
    sl.modStream d (fun st => { st with tail := st.tail.drop (64 * n), tailRow := st.tailRow + n }))

/-- A piece delivered: element rows to their destinations, scale bytes to the row being filled, a lent piece by its lending tile. -/
def State.deliverPiece (s : State) (i : SlabId) (d : Nat) (p : Pass) (b : BufferedRun) : State :=
  let st := (s.slab i).stream d
  if b.lent.isSome then (s.askLender (streamTile i d) p b).freePiece i d b
  else
    let (s, got) := s.readPiece st b
    let s := s.freePiece i d b
    match got with
    | none => s
    | some rows =>
      if b.scaleBytes = 0 then s.injectRows b.holder (p.desc.target (p.destRow b)) rows true
      else (s.modSlab i (fun sl => sl.modStream d (fun st =>
        { st with tail := st.tail ++ (rows.flatMap rowBytes).take b.scaleBytes }))).flushScales i d p false

/-- The pass has been delivered: the stream goes on to its next pass or has ended for the step. -/
def State.endPass (s : State) (i : SlabId) (d : Nat) : State :=
  let st := (s.slab i).stream d
  let (n, k) := s.nextPass i d st.step st.pass
  s.modSlab i (fun sl => sl.modStream d (fun x =>
    { x with step := n, pass := k, run := 0, delivering := false, tail := [], tailRow := 0, errs := []
             state := if n ≠ st.step then 3 else if x.fetching then 2 else 1
             buffer := x.buffer.filter (fun b => !(decide (b.step = st.step) && decide (b.pass = st.pass))) }))

/-- Run `k` of the pass being delivered has been fetched. -/
def StreamState.fetched (st : StreamState) (k : Nat) : Bool :=
  decide (st.step < st.fetchStep) || (decide (st.step = st.fetchStep) && (decide (st.pass < st.fetchPass)
    || (decide (st.pass = st.fetchPass) && decide (k ∈ st.returned))))

/-- The next piece of the run being delivered: its elements in order of their rows, then its scale bytes. -/
def StreamState.nextPiece (st : StreamState) : Option BufferedRun :=
  let bs := st.buffer.filter (fun b => decide (b.step = st.step) && decide (b.pass = st.pass) && decide (b.run = st.run))
  let es := bs.filter (fun b => decide (b.scaleBytes = 0))
  match es.find? (fun b => es.all (fun c => decide (b.offset ≤ c.offset))) with
  | some b => some b
  | none => bs.head?

/-- A run of a MCAST_OUT pass, sent as multicast packets. -/
def State.sendRun (s : State) (i : SlabId) (d : Nat) (p : Pass) : State :=
  let st := (s.slab i).stream d
  let bs := st.buffer.filter (fun b => decide (b.step = st.step) && decide (b.pass = st.pass) && decide (b.run = st.run))
  let bytes := bs.flatMap (fun b => ((s.readPiece st b).2.getD []).flatMap rowBytes)
  let s := bs.foldl (fun s b => (s.readPiece st b).1.freePiece i d b) s
  (s.sendPackets i (p.arm.sbase % 256) ((d - 12288) / 256) bytes).modSlab i (fun sl => sl.modStream d (fun st => { st with run := st.run + 1 }))

/-- The pass being delivered goes on as far as its rows have been fetched and its tiles may send: one piece or run for each unit of
fuel, in ascending run order (R221, R229). -/
def State.deliverRuns (s : State) (i : SlabId) (d : Nat) (p : Pass) : Nat → State
  | 0 => s
  | n + 1 =>
    let st := (s.slab i).stream d
    let t := streamTile i d
    if p.desc.returns ≤ st.run then
      if st.tail.isEmpty then s.endPass i d
      else if maxUnacked ≤ (s.tile t).unacked then s
      else (s.flushScales i d p true).endPass i d
    else if !st.fetched st.run then s
    else if p.desc.mode = 10 then
      if engineSlots ≤ s.slotsUsed i ((d - 12288) / 256) then s else (s.sendRun i d p).deliverRuns i d p n
    else match st.nextPiece with
      | none => (s.modSlab i (fun sl => sl.modStream d (fun st => { st with run := st.run + 1 }))).deliverRuns i d p n
      | some b =>
        if maxUnacked ≤ (s.tile b.holder).unacked then s else (s.deliverPiece i d p b).deliverRuns i d p n

/-- Deliveries go on: in an image pitch of the pass's step, outside a hold. -/
def State.mayDeliver (s : State) (i : SlabId) (st : StreamState) : Bool :=
  st.delivering && !(s.root i).inHold && decide ((s.root i).kind = .image) && s.withinStep i st.step

/-- The delivery of a descriptor goes on. -/
def State.deliverOn (s : State) (i : SlabId) (d : Nat) : State :=
  let st := (s.slab i).stream d
  match (if s.mayDeliver i st then s.passOf i d st.pass else none) with
  | none => s
  | some p => s.deliverRuns i d p (st.buffer.length + p.desc.returns + 1)

/-- The descriptors of a slab whose passes are being delivered, in the order of R229. -/
def State.deliverOrder (s : State) (i : SlabId) : List Nat :=
  let ks := (s.slab i).streams.filterMap (fun x => if x.2.delivering then (s.passOf i x.1 x.2.pass).map (fun p => s.passKey i x.1 x.2.step p) else none)
  let put (l : List (List Nat)) (k : List Nat) : List (List Nat) := l.filter (fun x => lexLess x k) ++ [k] ++ l.filter (fun x => !lexLess x k)
  (ks.foldl put []).map (fun k => k.getLastD 0)

/-- Every delivery of a slab goes on. -/
def State.deliver (s : State) (i : SlabId) : State := (s.deliverOrder i).foldl (fun s d => s.deliverOn i d) s

/-- The delivery of the descriptor's pass may begin now: its place in the order. -/
def State.deliveryWaiting (s : State) (i : SlabId) (d : Nat) : Option (List Nat) :=
  let st := (s.slab i).stream d
  let r := s.root i
  match s.passOf i d st.pass with
  | none => none
  | some p =>
    let due := st.step * s.stepLength i + p.at_
    if !r.inHold && decide (r.kind = .image) && p.desc.reads && decide (st.state ≠ 0) && !st.delivering && s.withinStep i st.step
        && (decide (due < r.schedIndex.toNat) || (decide (due = r.schedIndex.toNat) && decide (p.desc.dstart ≤ s.localCycle (streamTile i d)))) then
      some (s.passKey i d st.step p)
    else none

/-- STREAM_DELIVERY_START (R229): at local cycle DSTART of its delivery pitch the delivery of a pass begins, in the order of its
engine; rows that are not yet fetched are waited for. A MCAST_OUT pass is sent as multicast packets. -/
def execStreamDeliveryStart (slab : SlabId) (d : Delivery) (s : State) : Result :=
  let errs := d.errs
  let d := d.stream
  match (if (s.slab slab).ready then s.deliveryWaiting slab d.val else none) with
  | none => .next s
  | some key =>
    if !s.firstOf slab d.val key (s.deliveryWaiting slab) then .next s
    else .next ((s.modSlab slab (fun sl => sl.modStream d.val (fun st => { st with delivering := true, state := 2, errs := errs }))).deliver slab)

/-! ## Returns (R231, R236) -/

/-- STREAM_READ_RETURN (R231, R236): a run's data return and are buffered, piece by piece, or dropped when
their epoch is stale. -/
def execStreamReadReturn (slab : SlabId) (d : Fin 16384) (epoch : Half) (run : Nat) (s : State) : Result :=
  let st := (s.slab slab).stream d.val
  match (if (s.slab slab).ready then s.passOf slab d.val st.fetchPass else none) with
  | none => .next s
  | some p =>
    let a := p.runAddr run
    let n := p.desc.runBytes
    if p.desc.mode = 2 ∨ !p.desc.reads then .next s
    else if epoch ≠ (s.job slab).epoch then .next (s.dropRead slab d.val (n + a.2.2))
    else if !st.fetching || decide (p.desc.runs ≤ run) || decide (run ∈ st.returned) || s.readsPause slab
        || s.withholds slab a.1 n || s.withholds slab a.2.1 a.2.2 then .next s
    else
      let t := streamTile slab d.val
      if !((s.tile t).translated a.1 n && (s.tile t).translated a.2.1 a.2.2) then .next s
      else match s.fetchRun slab d.val run p st with
        | none => .next s
        | some fs =>
          if s.fits fs (st.missing run) then
            let s := (s.useXlate t a.1 n).useXlate t a.2.1 a.2.2
            let s := (s.countDegraded slab a.1 n).countDegraded slab a.2.1 a.2.2
            let s := (if p.desc.mode = 10 then s.readLent slab a.1 n else s).readLent slab a.2.1 a.2.2
            .next ((s.bufferPieces slab d.val run fs (n + a.2.2) (s.faultsIn slab a.1 n + s.faultsIn slab a.2.1 a.2.2)).deliver slab)
          else .next (s.waitBuffer slab d.val)

/-! ## Gathers (R197, R231) -/

/-- Index `x` of a pass: a 32-bit number from its index list. -/
def State.indexAt (s : State) (i : SlabId) (p : Pass) (x : Nat) : Nat :=
  leNat (s.readRangeD i (p.arm.sbase + 4 * p.desc.runs * p.j + 4 * x) 4)

/-- A gather item that is not naturally aligned. -/
def Pass.badItem (p : Pass) (a : Nat) : Bool := decide (a % max 1 p.desc.runBytes ≠ 0)

/-- The addresses of the items of request `req` of a gather pass. -/
def State.gatherAddrs (s : State) (i : SlabId) (p : Pass) (req : Nat) : List Nat :=
  (List.range (min 64 (p.desc.runs - 64 * req))).map (fun x =>
    p.arm.ebase + p.j * p.arm.padv + s.indexAt i p (64 * req + x) * p.desc.rstride)

/-- The items of a gather request, packed in request order; a misaligned item reads as zero. -/
def State.gatherData (s : State) (i : SlabId) (p : Pass) (addrs : List Nat) : List Byte :=
  addrs.flatMap (fun a => if p.badItem a then List.replicate p.desc.runBytes 0 else s.readRangeD i a p.desc.runBytes)

/-- An item served by the slice of its home, whose line it allocates (R194, R197). -/
def State.gatherItem (s : State) (i : SlabId) (t : TileId) (p : Pass) (a : Nat) : State :=
  let size := p.desc.runBytes
  let s := if p.badItem a then s else s.allocLines i a size
  let s := match s.pte i (vpnOf a) with
    | none => s
    | some (w, e) => s.modSlab w (fun sl => sl.modStack (pteStack e) (fun x =>
        (x.count Ctr.GATHER_ITEMS 1).count Ctr.ATOMIC_FAULTS (if p.badItem a then 1 else 0)))
  (s.useXlate t a size).readLent i a size

/-- GATHER_REQUEST (R197, R231): the slices serve up to 64 items of a gather pass. -/
def execGatherRequest (slab : SlabId) (d : Fin 16384) (epoch : Half) (req : Nat) (s : State) : Result :=
  let st := (s.slab slab).stream d.val
  match (if (s.slab slab).ready then s.passOf slab d.val st.fetchPass else none) with
  | none => .next s
  | some p =>
    let n := min 64 (p.desc.runs - 64 * req)
    let size := p.desc.runBytes
    let list := p.arm.sbase + 4 * p.desc.runs * p.j + 256 * req
    if p.desc.mode ≠ 2 ∨ p.desc.runs ≤ 64 * req then .next s
    else if epoch ≠ (s.job slab).epoch then .next (s.dropRead slab d.val (n * size))
    else if !st.fetching || decide (req ∈ st.returned) || s.readsPause slab || s.withholds slab list (4 * n) then .next s
    else
      let t := streamTile slab d.val
      let addrs := s.gatherAddrs slab p req
      if !((s.tile t).translated list (4 * n) && addrs.all (fun a => (s.tile t).translated a size)) || addrs.any (fun a => s.withholds slab a size) then
        .next s
      else
        let f : Fetched := (paddedRows (s.gatherData slab p addrs),
          { step := st.fetchStep, pass := st.fetchPass, run := req, epoch := st.epoch, offset := req * size, rows := [], scaleBytes := 0
            holder := t, lent := none })
        if !s.fits [f] (st.missing req) then .next (s.waitBuffer slab d.val)
        else
          let s := addrs.foldl (fun s a => s.gatherItem slab t p a) ((s.useXlate t list (4 * n)).readLent slab list (4 * n))
          let faults := addrs.foldl (fun m a => m + s.faultsIn slab a size) (s.faultsIn slab list (4 * n))
          .next ((s.bufferPieces slab d.val req [f] (n * size) faults).deliver slab)

/-! ## Bivouac service (R200, R201) -/

/-- `n` rows of a lent frame from a byte offset on. -/
def Tile.frameRows (t : Tile) (portal : Bool) (frame off n : Nat) : List Row :=
  rowsOf ((List.range (64 * n)).map (fun k =>
    if frame = 64 then t.engByte portal (off + k) else Cells.read t.overlay (frame * pageBytes + off + k)))

/-- The target of a load request. -/
def LoadReq.target (r : LoadReq) : RowTarget :=
  { mcast := r.mcast, ctr := r.ctr, row := r.drow, x0 := r.x0, y0 := r.y0, x1 := r.x1, y1 := r.y1 }

/-- The frame still holds the page of the request. -/
def State.holdsPage (s : State) (l : TileId) (r : LoadReq) : Bool :=
  match s.pte r.requester.slab r.vpn with
  | none => false
  | some (w, e) => decide (2 ≤ pteRes e) && decide (s.residenceTile w e = l) && decide (pteRFrame e = r.frame)

/-- Errors that a bivouac read finds: recorded and counted at the lending tile (R153, R154, R186). -/
def Tile.lentErrors (t : Tile) (portal : Bool) (frame : Nat) (es : List RowError) : Tile :=
  if frame = 64 then t.recordRowErrors portal false 2 es
  else
    let lost := (es.filter (fun e => decide (1 < e.weight))).length
    (t.count Ctr.OVL_CORRECTED (es.length - lost)).count Ctr.OVL_UNCORRECTABLE lost

/-- STREAM_DESCRIPTOR_LOAD (R200, R201): a lending tile serves the oldest read of its frames, when it may send another message
(R221); with an uncorrectable row, or when it cannot serve the page any more, the requester reads the same rows from the page's
home. -/
def execStreamDescriptorLoad (lender : TileId) (errs : List RowError) (s : State) : Result :=
  match (if (s.slab lender.slab).ready && bit (s.tile lender).gate gateStream then (s.tile lender).loads else []) with
  | [] => .next s
  | r :: rest =>
    let tl := s.tile lender
    let portal := isPortal lender
    let fromHome (s : State) : State :=
      s.injectRows r.requester r.target (rowsOf (s.readRangeD r.requester.slab (r.vpn * pageBytes + r.offset) (64 * r.count))) true
    let done := s.modTile lender (fun x => { x with loads := rest })
    if !s.canLend lender || !s.holdsPage lender r then .next (fromHome done)
    else if maxUnacked ≤ tl.unacked then .next s
    else
      let base := if r.frame = 64 then r.offset / 64 else r.frame * 32768 + r.offset / 64
      let mine := errs.filter (fun e => decide (base ≤ e.row) && decide (64 * e.row < 64 * base + r.offset % 64 + 64 * r.count)
        && decide (0 < e.weight))
      let bad := if r.frame = 64 then rowsUncorrectable mine else mine.any (fun e => decide (1 < e.weight))
      let s := done.modTile lender (fun x => x.lentErrors portal r.frame mine)
      if !bad then
        let view := if r.frame = 64 then tl.delivered mine else tl
        .next ((s.served lender r.frame).injectRows lender r.target (view.frameRows portal r.frame r.offset r.count) true)
      else
        let key := (gx s.shared.mode lender, lender.y.val, r.frame)
        let s := s.modTile lender (fun x => x.count Ctr.BIVOUAC_READ_ERRORS 1)
        let s := s.modSlab lender.slab (fun sl => sl.modMem (fun m => { m with dropping := insertNew key m.dropping }))
        .next (fromHome (if r.frame = 64 then s.tileFault lender 0x02 else s.tileDegraded lender))

end Sys2Proof.Machine
end

