-- ==== Sys2Proof/Machine/Portal.lean ====
section
/-! DEFINITION. Stream descriptors that accept portal flits (R232 to R234, R276, R317): WRITE, ATOMIC,
COLLECT and WINDOW_OUT. -/

namespace Sys2Proof.Machine

open Sys2Proof

/-! ## Sources and cursors (R232) -/

/-- The descriptor accepts portal flits: WRITE, ATOMIC, COLLECT or WINDOW_OUT. -/
def StreamDesc.accepts (sd : StreamDesc) : Bool := decide (sd.mode ∈ [1, 3, 8, 9])

/-- The number of a source within the rectangle, along x first and then along y. -/
def StreamDesc.sourceNo (sd : StreamDesc) (x y : Nat) : Option Nat :=
  if sd.x0 ≤ x ∧ x ≤ sd.x1 ∧ sd.y0 ≤ y ∧ y ≤ sd.y1 then some (x - sd.x0 + (y - sd.y0) * (sd.x1 - sd.x0 + 1)) else none

/-- Sources of the descriptor. -/
def StreamDesc.sources (sd : StreamDesc) : Nat := (sd.x1 - sd.x0 + 1) * (sd.y1 - sd.y0 + 1)

/-- The engine converts the blocks of a WRITE (R233). -/
def StreamDesc.converts (sd : StreamDesc) : Bool := decide (sd.mode = 1) && decide (sd.meshFmt ≠ sd.memFmt)

/-- The class of its writes (Table 9.8). -/
def StreamDesc.writeClass (sd : StreamDesc) : ShareClass := if sd.remote then .remote else .write

/-- Elements of a WRITE run. -/
def StreamDesc.runElems (sd : StreamDesc) : Nat := sd.runBytes * 8 / fmtBits sd.memFmt

/-- Bytes a source sends for one run. -/
def StreamDesc.runLength (sd : StreamDesc) : Nat :=
  if sd.mode = 3 then sd.runs * sd.runBytes
  else if sd.converts then sd.runElems * fmtBits sd.meshFmt / 8
  else if sd.mode = 1 then sd.runBytes + (if fmtScaled sd.memFmt then sd.runBytes / e32 sd.memFmt else 0)
  else sd.runBytes

/-- The cursor of a source: the pass of its open run and the bytes of it accepted. -/
def StreamState.cursor (st : StreamState) (k : Nat) : Nat × Nat := agetD (0, 0) k st.fill

/-- Passes whose run source `k` has not filled begin at this one. -/
def StreamState.lowestPass (st : StreamState) (sources : Nat) : Nat :=
  (List.range sources).foldl (fun m k => min m (st.cursor k).1) (st.cursor 0).1

/-- The stream after a flit of source `k` brought it to `pos` of its run. -/
def StreamState.advance (st : StreamState) (sd : StreamDesc) (passes k pass pos : Nat) (epoch : Half)
    (rest : List Byte) : StreamState :=
  let full := decide (sd.runLength ≤ pos)
  let st := { st with fill := aset k (if full then (pass + 1, 0) else (pass, pos)) st.fill
                      partial_ := if full ∨ rest.isEmpty then aerase k st.partial_ else aset k rest st.partial_
                      epoch := epoch }
  let low := st.lowestPass sd.sources
  let done := ((List.range sd.sources).filter (fun x => decide (low < (st.cursor x).1))).length
  let runs := if sd.mode = 3 then (st.cursor k).2 / max 1 sd.runBytes else done
  { st with state := if passes ≤ low then 3 else 2, pass := low, run := runs }

/-! ## Discards (R234) -/

/-- A portal flit is discarded: it is still acknowledged. -/
def State.dropPortal (s : State) (t : TileId) (f : Flit) : State :=
  let s := s.modTile t (fun tl => (tl.setFlags flagOpndFault).count Ctr.STREAM_DROPS 1)
  let s := s.modSlab t.slab (fun sl => sl.modStream f.queue (fun st => { st with fault := true }))
  if f.last then s.sendAck t f.ack else s

/-- Accesses that fault set FAULT of the descriptor (R191). -/
def State.streamFaults (s : State) (i : SlabId) (d n : Nat) : State :=
  if n = 0 then s else s.modSlab i (fun sl => sl.modStream d (fun st => { st with fault := true }))

/-! ## WRITE (R225, R232, R233) -/

/-- Pieces of a range that take no stream write. -/
def State.writeFaults (s : State) (i : SlabId) (a n : Nat) : Nat :=
  ((pieces a n).filter (fun p => !s.pageWritable i (a + p.2.2.1))).length

/-- What data of a run become in memory: element bytes at an offset of the element plane, scale bytes at an
offset of the scale plane, and the bytes kept for an incomplete block; with the elements saturated and
whether a conversion was invalid. -/
structure Placed where
  elemAt : Nat
  elems : List Byte
  scaleAt : Nat
  scales : List Byte
  rest : List Byte
  sat : Nat
  invalid : Bool
  deriving DecidableEq, Repr

/-- Bytes from position `pos` of a run; `kept` are bytes of an incomplete block before it. -/
def StreamDesc.place (sd : StreamDesc) (ovf : Bool) (pos : Nat) (kept data : List Byte) : Placed :=
  if sd.converts then
    let bs := kept ++ data
    let unit := 32 * fmtBits sd.meshFmt / 8
    let first := (pos - kept.length) / unit
    let n := if sd.runLength ≤ pos + data.length then bs.length * 8 / fmtBits sd.meshFmt else 32 * (bs.length / unit)
    let used := n * fmtBits sd.meshFmt / 8
    let a := bs.toArray
    let vs := decodeElems sd.meshFmt (fun j => a.getD j 0) (fun _ => 0) n
    let rm : Rounding := if sd.towardZero then .towardZero else .nearestEven
    let c := encodeElems sd.memFmt (fun _ => rm) ovf vs
    { elemAt := first * (32 * fmtBits sd.memFmt / 8), elems := packBytes sd.memFmt c.raws, scaleAt := first
      scales := c.scales, rest := bs.drop used, sat := c.sat, invalid := c.invalid }
  else
    let n := sd.runBytes - pos
    { elemAt := pos, elems := data.take n, scaleAt := pos - sd.runBytes, scales := data.drop n, rest := []
      sat := 0, invalid := false }

/-- The flags of a conversion on the engine's own tile (R233). -/
def Tile.convFlags (t : Tile) (p : Placed) : Tile :=
  (t.setFlagIf (decide (0 < p.sat)) flagSatS).setFlagIf p.invalid flagInvalidS

/-- The home of a page is on another stack than that of the engine's group (R233). -/
def foreignHome (i : SlabId) (d : Nat) (w : SlabId) (e : DWord) : Bool := !(decide (w = i) && decide (d < 12288) && decide (pteStack e = d / 512))

/-- The pieces of a range on pages of other stacks that take stream writes, in lengths of a flit, each with the tile of that stack's
group. -/
def State.foreignPieces (s : State) (i : SlabId) (d k a n : Nat) : List (TileId × Nat × Nat × Nat) :=
  (pieces a n).flatMap (fun q => match s.pte i q.1 with
    | none => []
    | some (w, e) =>
      if foreignHome i d w e = true ∧ s.pageWritable i (a + q.2.2.1) = true then
        (List.range ((q.2.2.2 + 127) / 128)).map (fun j =>
          (groupTile w (pteStack e) k, a + q.2.2.1 + 128 * j, q.2.2.1 + 128 * j, min 128 (q.2.2.2 - 128 * j)))
      else [])

/-- Up to 128 bytes for an address on another stack leave as a portal flit for a tile of that stack's group, a message of its own that
belongs to the message of flit `f` (R233). The flit carries the address beside its header: DESIGN CHOICE, R233 gives no layout. -/
def State.forwardFlit (s : State) (t : TileId) (f : Flit) (cls : ShareClass) (dst : TileId) (a : Nat) (bs : List Byte) : State :=
  let m := s.shared.mode
  let now := s.cycle t.slab
  let hdr := mkHeader 2 (s.tileReleases t % 4) true (decide (bs.length ≤ 64)) 0 0 (gx m dst) dst.y.val (f.queue * 2) (gx m t) t.y.val
  s.modTile t (fun tl =>
    let r := tl.router
    let g : Flit :=
      { header := hdr, data := BitVec.ofNat 1024 (leNat bs), msg := r.nextMsg, reached := now, detours := [], trail := [], heading := none, col := 0
        tagHeld := false, forward := some { addr := a, bytes := bs.length, remote := decide (cls = .remote) } }
    { tl with unacked := tl.unacked + 1, forwards := aset r.nextMsg (f.sx, f.sy, f.msg) tl.forwards
              router := { r.setInput .loc false (r.input .loc false ++ [g]) with nextMsg := r.nextMsg + 1 } })

/-- Bytes of a run written: pieces homed on the engine's own stack at once, others forwarded. -/
def State.streamWrite (s : State) (t : TileId) (f : Flit) (p : Pass) (k a : Nat) (bs : List Byte) : State :=
  let s₀ := s
  let s := (pieces a bs.length).foldl (fun s q =>
    let foreign := match s₀.pte t.slab q.1 with
      | none => false
      | some (w, e) => foreignHome t.slab f.queue w e && s₀.pageWritable t.slab (a + q.2.2.1)
    if foreign then s else s.portalWrite t p.desc.writeClass (a + q.2.2.1) ((bs.drop q.2.2.1).take q.2.2.2)) s
  (s₀.foreignPieces t.slab f.queue k a bs.length).foldl (fun s q =>
    s.forwardFlit t f p.desc.writeClass q.1 q.2.1 ((bs.drop q.2.2.1).take q.2.2.2)) s

/-- The message of a flit has `n` more parts outstanding, and its LAST flit has come when `last` holds; a
message with none outstanding is acknowledged with its LAST flit. -/
def State.noteParts (s : State) (t : TileId) (f : Flit) (n : Nat) : State :=
  let same (w : AtomicWait) : Bool := w.sx = f.sx && w.sy = f.sy && w.msg = f.msg
  let ws := (s.tile t).atomicWaits
  let old := match ws.find? same with
    | none => 0
    | some w => w.remaining
  let rest := ws.filter (fun w => !same w)
  if f.last ∧ old + n = 0 then
    (s.modTile t (fun tl => { tl with atomicWaits := rest })).sendAck t f.ack
  else
    let w : AtomicWait := { sx := f.sx, sy := f.sy, msg := f.msg, remaining := old + n, last := f.last, trail := f.trail }
    s.modTile t (fun tl => { tl with atomicWaits := rest ++ [w] })

/-- Data of a WRITE run written to memory. -/
def State.acceptWrite (s : State) (t : TileId) (d : Nat) (p : Pass) (f : Flit) (k pos : Nat) (kept data : List Byte) :
    Option (State × List Byte) :=
  let (ea, sa, _) := p.runAddr k
  let x := p.desc.place (s.fp8Nan t.slab) pos kept data
  let tl := s.tile t
  let away := (s.foreignPieces t.slab d k (ea + x.elemAt) x.elems.length ++ s.foreignPieces t.slab d k (sa + x.scaleAt) x.scales.length).length
  if !(tl.translated (ea + x.elemAt) x.elems.length && tl.translated (sa + x.scaleAt) x.scales.length)
      || (decide (0 < away) && decide (maxUnacked < tl.unacked + away)) then none
  else
    let faults := s.writeFaults t.slab (ea + x.elemAt) x.elems.length + s.writeFaults t.slab (sa + x.scaleAt) x.scales.length
    let s := s.modTile t (fun tl => tl.convFlags x)
    let s := (s.useXlate t (ea + x.elemAt) x.elems.length).useXlate t (sa + x.scaleAt) x.scales.length
    let s := (s.streamWrite t f p k (ea + x.elemAt) x.elems).streamWrite t f p k (sa + x.scaleAt) x.scales
    some ((s.streamFaults t.slab d faults).noteParts t f away, x.rest)

/-! ## Landings through a WRITE descriptor (R276) -/

/-- The parameter object whose gradient-slot planes run `k` of a pass writes. -/
def State.landingTarget (s : State) (i : SlabId) (p : Pass) (k : Nat) : Option ObjectEntry :=
  match s.objectNo i p.desc.object with
  | none => none
  | some o =>
    let (ea, _, _) := p.runAddr k
    if o.isParam && (o.locate ea (slotPlane o.update.rule)).isSome then some o else none

/-- The scale groups of a run, each with its block and its number in it; none when the run covers part of a
group or is not SBF16. -/
def landingOf (o : ObjectEntry) (fmt ea sa : Nat) (elems scales : List Byte) :
    Option (List (Nat × Fin 128 × BitVec 512 × Byte)) :=
  let k := slotPlane o.update.rule
  let one (g : Nat) : Option (Nat × Fin 128 × BitVec 512 × Byte) :=
    match o.locate (ea + 64 * g) k, o.locate (sa + g) (k + 1) with
    | some (b, off), some (b', m) =>
      if b = b' ∧ off = 64 * m ∧ b < o.update.nblocks then
        some (b, ⟨m % 128, Nat.mod_lt _ (by decide)⟩, rowOfBytes ((elems.drop (64 * g)).take 64), scales.getD g 0)
      else none
    | _, _ => none
  if fmt = 8 ∧ elems.length % 64 = 0 ∧ scales.length = elems.length / 64 then
    let gs := (List.range scales.length).map one
    if gs.all Option.isSome then some (gs.filterMap id) else none
  else none

/-- The landings of a list of groups: one for each stretch of groups of one block. -/
def groupLandings (object : Nat) (gs : List (Nat × Fin 128 × BitVec 512 × Byte)) : List Landing :=
  gs.foldr (fun g ls =>
    let one : Landing := { object := object, block := g.1, groups := [g.2], waiting := false, coll := none }
    match ls with
    | [] => [one]
    | l :: rest => if l.block = g.1 then { l with groups := g.2 :: l.groups } :: rest else one :: ls) []

/-- The units of the landings have room for them (R276). -/
def State.landingRoom (s : State) (i : SlabId) (o : ObjectEntry) (ls : List Landing) : Bool :=
  ls.all (fun l => match s.blockOwner i o l.block with
    | none => true
    | some (k, u) =>
      let used := ((s.slab k).stack u).unit.landings.length
      let mine := (ls.filter (fun x => decide (s.blockOwner i o x.block = some (k, u)))).length
      decide (used = 0) || decide (used + mine ≤ 64))

/-- A landing that is not a landing: FAULT, counted at the unit of the run's page. -/
def State.landingFault (s : State) (i : SlabId) (d a : Nat) : State :=
  let s := s.streamFaults i d 1
  match s.pte i (vpnOf a) with
  | none => s
  | some (k, e) => s.modSlab k (fun sl => sl.modUnit (sl.unitFor (pteStack e)) (fun u => u.count Ctr.UPD_LANDING_FAULTS 1))

/-- Data of a run into gradient slots: they wait for the whole run, which then lands. -/
def State.acceptLanding (s : State) (t : TileId) (d : Nat) (p : Pass) (o : ObjectEntry) (k pos : Nat)
    (kept data : List Byte) : Option (State × List Byte) :=
  if pos + data.length < p.desc.runLength then some (s, kept ++ data)
  else
    let (ea, sa, sn) := p.runAddr k
    let x := p.desc.place (s.fp8Nan t.slab) 0 [] (kept ++ data)
    let tl := s.tile t
    if !(tl.translated ea p.desc.runBytes && tl.translated sa sn) then none
    else match landingOf o p.desc.memFmt ea sa x.elems x.scales with
      | none => some ((s.modTile t (fun tl => tl.convFlags x)).landingFault t.slab d ea, [])
      | some gs =>
        let ls := groupLandings o.object gs
        if !s.landingRoom t.slab o ls then none
        else
          let s := s.modTile t (fun tl => tl.convFlags x)
          let s := (s.useXlate t ea p.desc.runBytes).useXlate t sa sn
          some (ls.foldl (fun s l => s.giveLanding t.slab l) s, [])

/-! ## ATOMIC (R232, R233) -/

/-- The sectors of a flit's data as (address, operand). -/
def State.atomicSectors (s : State) (i : SlabId) (p : Pass) (pos : Nat) (data : List Byte) : List (Nat × BitVec 256) :=
  (List.range (data.length / 32)).map (fun j =>
    let at_ := pos + 32 * j
    let x := at_ / max 1 p.desc.runBytes
    (p.arm.ebase + p.j * p.arm.padv + s.indexAt i p x * p.desc.rstride + at_ % max 1 p.desc.runBytes,
      sectorOf ((data.drop (32 * j)).take 32)))

/-- Data of an ATOMIC pass handed to the slices as sector atomics with every mask bit set. -/
def State.acceptAtomic (s : State) (t : TileId) (d : Nat) (p : Pass) (f : Flit) (pos : Nat) (data : List Byte) :
    Option State :=
  let list := p.arm.sbase + 4 * p.desc.runs * p.j + pos / max 1 p.desc.runBytes * 4
  let n := 4 * ((pos + data.length - 1) / max 1 p.desc.runBytes + 1 - pos / max 1 p.desc.runBytes)
  let tl := s.tile t
  if !tl.translated list n then none
  else
    let xs := s.atomicSectors t.slab p pos data
    if !xs.all (fun x => tl.translated x.1 32) then none
    else
      let bad (x : Nat × BitVec 256) : Bool := !s.pageWritable t.slab x.1
      let good := xs.filter (fun x => !bad x)
      let faults := (xs.filter bad).length
      let s := xs.foldl (fun s x => s.useXlate t x.1 32) (s.useXlate t list n)
      let s := good.foldl (fun s x => match s.pte t.slab (vpnOf x.1) with
        | none => s
        | some (w, e) =>
          let a : Atomic :=
            { op := BitVec.ofNat 4 p.desc.atomop, addr := x.1, sector := true, mask := 0xFFFF, operand := x.2
              compare := 0, tile := t, sx := f.sx, sy := f.sy, msg := f.msg }
          let held := (((s.slab w).stack (pteStack e)).lineAt (pteFrame e) (x.1 % pageBytes / 128)).isSome
          let s := if held then s else s.addWork t.slab x.1 32 p.desc.writeClass false none
          s.modSlab w (fun sl => sl.modStack (pteStack e) (fun st => { st with atomics := st.atomics ++ [a] }))) s
      let s := (s.modTile t (fun tl => tl.xlateFault faults)).streamFaults t.slab d faults
      some (s.noteParts t f good.length)

/-! ## COLLECT and WINDOW_OUT (R317, R327) -/

/-- Bytes of a block in wire form. -/
def wireBlock : Nat := 8320

/-- The block with linear number `lin` of a pass has been contributed. -/
def StreamState.sentBlock (st : StreamState) (sd : StreamDesc) (pass lin : Nat) : Bool :=
  let per := max 1 (sd.runBytes / wireBlock)
  let (q, pos) := st.cursor (lin / per)
  decide (pass < q) || (decide (pass = q) && decide ((lin % per + 1) * wireBlock ≤ pos))

/-- Data of a COLLECT run: each whole block is the device's contribution to its bucket. -/
def State.acceptCollect (s : State) (t : TileId) (d : Nat) (p : Pass) (k pos : Nat) (kept data : List Byte) :
    Option (State × List Byte) :=
  let bs := kept ++ data
  if bs.length < wireBlock then some (s, bs)
  else
    let c := p.desc.object
    let bb := max 1 (s.collBB t.slab c)
    let per := max 1 (p.desc.runBytes / wireBlock)
    let lin := k * per + (pos - kept.length) / wireBlock
    let total := per * p.desc.sources
    let b := p.arm.ebase % 2 ^ 32 + p.j * p.arm.padv + lin / bb
    let st := (s.slab t.slab).stream d
    let q := (st.cursor k).1
    let last := (List.range bb).all (fun x =>
      let l := lin / bb * bb + x
      decide (l = lin) || decide (total ≤ l) || st.sentBlock p.desc q l)
    (s.contribute t.slab ((d - 12288) / 256) c (s.job t.slab).step b (lin % bb) last (bs.take wireBlock)).map
      (fun s => (s, bs.drop wireBlock))

/-- Data of a WINDOW_OUT run, sent as one WRITE frame. -/
def State.acceptWindowOut (s : State) (t : TileId) (p : Pass) (k pos : Nat) (data : List Byte) : State :=
  let off := (p.arm.ebase % 2 ^ 32 + p.j * p.arm.padv + k * p.desc.rstride + pos) / 64
  let rows := (data.length + 63) / 64
  let dest : Half := BitVec.ofNat 16 p.arm.sbase
  let win := p.arm.sbase / 2 ^ 16 % 256
  let ep := (s.job t.slab).step.toNat % 2 ^ 16
  s.modSlab t.slab (fun sl => sl.sendFrames [mkFrame (mkZHeader 1 2 dest sl.links.endpoint
    (win * 2 ^ 47 + ep * 2 ^ 31 + off % 2 ^ 26 * 2 ^ 5 + (rows - 1) % 16 * 2)) data])

/-! ## Acceptance -/

/-- The data of a flit accepted for a source's open run; none when they must wait, as writes to stacks under maintenance do (R241). -/
def State.acceptData (s : State) (t : TileId) (f : Flit) (p : Pass) (k pos : Nat) (kept data : List Byte) :
    Option (State × List Byte) :=
  let d := f.queue
  if s.stacksBusy t.slab && decide (p.desc.mode = 1 ∨ p.desc.mode = 3) then none
  else if p.desc.mode = 3 then (s.acceptAtomic t d p f pos data).map (fun s => (s, []))
  else if p.desc.mode = 8 then s.acceptCollect t d p k pos kept data
  else if p.desc.mode = 9 then some (s.acceptWindowOut t p k pos data, [])
  else match s.landingTarget t.slab p k with
    | some o => s.acceptLanding t d p o k pos kept data
    | none => s.acceptWrite t d p f k pos kept data

/-- A flit for pass `pass` of source `k`: accepted, or left to wait. -/
def State.acceptFlit (s : State) (t : TileId) (f : Flit) (p : Pass) (k pass pos : Nat) : State :=
  let st := (s.slab t.slab).stream f.queue
  let data := (f.rows.flatMap rowBytes).take (p.desc.runLength - pos)
  match s.acceptData t f p k pos (agetD [] k st.partial_) data with
  | none => s
  | some (s, rest) =>
    let ep := (s.job t.slab).epoch
    let n := s.passCount t.slab f.queue
    let s := s.modRouter t (fun r => { r with portal := r.portal.drop 1 })
    let s := s.modTile t (fun tl => tl.count Ctr.STREAM_WRITE_BYTES data.length)
    let s := s.modSlab t.slab (fun sl => sl.modStream f.queue (fun st =>
      st.advance p.desc n k pass (pos + data.length) ep rest))
    let wrote := decide (p.desc.mode = 3) || (decide (p.desc.mode = 1) && (s.landingTarget t.slab p k).isNone)
    if f.last && !wrote then s.sendAck t f.ack else s

/-- A forwarded write at a tile of the home's group: its controller takes it, and the forwarding engine is acknowledged (R233). -/
def State.takeForward (s : State) (t : TileId) (f : Flit) (w : Forward) : State :=
  let bs := (f.rows.flatMap rowBytes).take w.bytes
  let s := s.modRouter t (fun r => { r with portal := r.portal.drop 1 })
  ((s.writeRange t.slab w.addr bs).addWork t.slab w.addr w.bytes (if w.remote then .remote else .write) false none).sendAck t f.ack

/-- PORTAL_FLIT_ACCEPT (R232 to R234, R237): the oldest portal flit at a portal tile is accepted for the open
run of its source, waits for a translation or a queue, or is discarded; a forwarded one is written. -/
def execPortalFlitAccept (t : TileId) (s : State) : Result :=
  match (if (s.slab t.slab).ready && !(s.root t.slab).inHold && bit (s.tile t).gate gateStream then
      (s.tile t).router.portal else []) with
  | [] => .next s
  | f :: rest =>
    let st := (s.slab t.slab).stream f.queue
    let gone := (s.modRouter t (fun r => { r with portal := rest })).dropPortal t f
    match f.forward with
    | some w => .next (if s.stacksBusy t.slab then s else s.takeForward t f w)
    | none =>
    match (s.placement t.slab).bind (fun p => p.stream f.queue) with
    | none => .next gone
    | some sd =>
      match (if isPortal t && decide (streamTile t.slab f.queue = t) && sd.accepts && decide (st.state ≠ 0)
        then sd.sourceNo f.sx f.sy else none) with
      | none => .next gone
      | some k =>
        let (pass, pos) := st.cursor k
        match s.passOf t.slab f.queue pass with
        | none => .next gone
        | some p => .next (s.acceptFlit t f p k pass pos)

end Sys2Proof.Machine
end

