-- ==== Sys2Proof/Machine/Repair.lean ====
section
/-! DEFINITION. Repairs and placements (R16 to R20, R94, R155, R157, R175, R202, R346 to R348, R364): field
repairs by shifts, merged holes, the choice of a placement, and the loading of tiles. -/

namespace Sys2Proof.Machine

open Sys2Proof

/-! ## The repair of a field (R16 to R18) -/

/-- A physical tile of a field: column, row. -/
abbrev PhysTile := Fin 17 × Fin 17

/-- The spare column lies east in field columns 0 to 3, the spare row north in field rows 0 to 2. -/
def spareEast (c : Nat) : Bool := decide (c ≤ 3)
def spareNorth (r : Nat) : Bool := decide (r ≤ 2)

/-- A position of the 16 × 16 array of a field without shifts. -/
def inArray (c r : Nat) (p : PhysTile) : Bool :=
  decide (p.1.val ≠ (if spareEast c then 16 else 0)) && decide (p.2.val ≠ (if spareNorth r then 16 else 0))

/-- `b` lies at or beyond `a` on the way to the spare line. -/
def onward (up : Bool) (a b : Fin 17) : Bool := if up then decide (a ≤ b) else decide (b ≤ a)

/-- The tile of a field stands on the slab's west or east boundary, or its south or north boundary, in a
field without shifts. -/
def onWestEast (c : Nat) (p : PhysTile) : Bool := (decide (c = 0) && decide (p.1.val = 0)) || (decide (c = 6) && decide (p.1.val = 16))
def onSouthNorth (r : Nat) (p : PhysTile) : Bool := (decide (r = 0) && decide (p.2.val = 0)) || (decide (r = 5) && decide (p.2.val = 16))

/-- A row shift from a failed tile is possible: no failed tile lies beyond it in its row, and it is no tile
of the west or east boundary (R18). -/
def rowShiftOk (c r : Nat) (bad : List PhysTile) (p : PhysTile) : Bool :=
  !onWestEast c p && decide (r < 6)
    && bad.all (fun q => decide (q = p) || decide (q.2 ≠ p.2) || !onward (spareEast c) p.1 q.1)

/-- A column shift likewise; a tile of the south or north boundary takes one only in a corner. -/
def colShiftOk (c r : Nat) (bad : List PhysTile) (p : PhysTile) : Bool :=
  (!onSouthNorth r p || onWestEast c p)
    && bad.all (fun q => decide (q = p) || decide (q.1 ≠ p.1) || !onward (spareNorth r) p.2 q.2)

/-- A row shift from `p` and a column shift from `q` displace no tile twice (R17). -/
def shiftsApart (c r : Nat) (p q : PhysTile) : Bool := !(onward (spareEast c) p.1 q.1 && onward (spareNorth r) q.2 p.2)

/-- Shifts for the failed tiles of the array, chosen one after another: row shifts and column shifts by
their first tile. None when no choice is valid. -/
def chooseShifts (c r : Nat) (bad : List PhysTile) :
    List PhysTile → List PhysTile → List PhysTile → Option (List PhysTile × List PhysTile)
  | rows, cols, [] => some (rows, cols)
  | rows, cols, p :: ps =>
    let asRow := if rowShiftOk c r bad p && cols.all (shiftsApart c r p) then chooseShifts c r bad (p :: rows) cols ps else none
    match asRow with
    | some x => some x
    | none => if colShiftOk c r bad p && rows.all (fun q => shiftsApart c r q p) then chooseShifts c r bad rows (p :: cols) ps else none

/-- A valid repair for failed tiles `bad` (R17). -/
def repairFor (c r : Nat) (bad : List PhysTile) : Option (List PhysTile × List PhysTile) :=
  chooseShifts c r bad [] [] (bad.filter (inArray c r))

/-- Tiles to leave out of the array: those of `bad`, and each of `more` in turn that a valid repair can leave out too. -/
def avoided (c r : Nat) (bad more : List PhysTile) : List PhysTile :=
  more.foldl (fun b p => if p ∉ b ∧ (repairFor c r (b ++ [p])).isSome then b ++ [p] else b) bad

/-- The field with a repair set (R19). -/
def Field.setRepair (f : Field) (x : List PhysTile × List PhysTile) : Field :=
  { f with rowShift := x.1.map (fun p => (p.2, p.1)), colShift := x.2.map (fun p => (p.1, p.2)), repairPending := false
           state := if x.1.isEmpty ∧ x.2.isEmpty then 0 else 1 }

/-- The logical tiles of a field, slab-local. -/
def fieldTiles (n : Nat) : List (Nat × Nat) :=
  (List.range 16).flatMap (fun y => (List.range 16).map (fun x => (16 * (n % 7) + x, 16 * (n / 7) + y)))

/-- The logical tile that stands on a physical tile of a field, slab-local. -/
def Field.logicalAt (f : Field) (n : Nat) (p : PhysTile) : Option (Nat × Nat) :=
  (fieldTiles n).find? (fun t => decide (physicalOf f (n % 7) (n / 7) (t.1 % 16) (t.2 % 16) = p))

/-- The degraded tiles that stand in the array. -/
def Field.degradedIn (f : Field) (n : Nat) : List PhysTile := f.degradedTiles.filter (fun p => (f.logicalAt n p).isSome)

/-- The repair that base camp sets: it leaves out the failed tiles and, where a valid repair can, the degraded ones that a spare has
replaced; when an image is `load`ed also the others (R152, R346, R364). -/
def Field.repair (f : Field) (n : Nat) (load : Bool) : Option (List PhysTile × List PhysTile) :=
  let more := f.degradedTiles.filter (fun p => load || (f.logicalAt n p).isNone)
  repairFor (n % 7) (n / 7) (avoided (n % 7) (n / 7) f.failedTiles more)

/-! ## Lost fields and holes (R20, R175) -/

/-- A rectangle of fields: columns from, to, rows from, to. -/
abbrev FieldRect := Nat × Nat × Nat × Nat

/-- Two rectangles share an edge or a corner, or overlap. -/
def rectsTouch (a b : FieldRect) : Bool :=
  decide (a.1 ≤ b.2.1 + 1) && decide (b.1 ≤ a.2.1 + 1) && decide (a.2.2.1 ≤ b.2.2.2 + 1) && decide (b.2.2.1 ≤ a.2.2.2 + 1)

/-- The bounding rectangle of two. -/
def rectJoin (a b : FieldRect) : FieldRect := (min a.1 b.1, max a.2.1 b.2.1, min a.2.2.1 b.2.2.1, max a.2.2.2 b.2.2.2)

/-- A rectangle put among others that do not touch each other; `fuel` is at least their number. -/
def mergeRect : Nat → FieldRect → List FieldRect → List FieldRect
  | 0, a, rs => a :: rs
  | n + 1, a, rs =>
    match rs.find? (rectsTouch a) with
    | none => a :: rs
    | some b => mergeRect n (rectJoin a b) (rs.filter (fun x => decide (x ≠ b)))

/-- The merged rectangles of lost fields, as (column, row) on the device's grid of fields. -/
def mergeHoles (fs : List (Nat × Nat)) : List FieldRect :=
  fs.foldl (fun rs f => mergeRect rs.length (f.1, f.1, f.2, f.2) rs) []

/-- A field lies in a rectangle. -/
def inRect (c r : Nat) (a : FieldRect) : Bool := decide (a.1 ≤ c) && decide (c ≤ a.2.1) && decide (a.2.2.1 ≤ r) && decide (r ≤ a.2.2.2)

/-- The column of a field of slab `k` on the device's grid. -/
def deviceColumn (m : Mode) (k : SlabId) (n : Nat) : Nat :=
  match m with
  | .split => n % 7
  | .joined => n % 7 + 7 * k.num

/-- The lost fields of the device, as (column, row). -/
def State.lostGrid (s : State) (i : SlabId) : List (Nat × Nat) :=
  (s.devSlabs i).flatMap (fun k => (s.slab k).lostFields.map (fun n => (deviceColumn s.shared.mode k n, n / 7)))

/-- The fields of a slab that given merged rectangles cover. -/
def holeFields (m : Mode) (k : SlabId) (rects : List FieldRect) : List Nat :=
  (List.range 42).filter (fun n => rects.any (inRect (deviceColumn m k n) (n / 7)))

/-- The hole map of every router written from the lost fields. -/
def State.setHoles (s : State) (i : SlabId) : State :=
  let rects := mergeHoles (s.lostGrid i)
  let m := s.shared.mode
  (s.devSlabs i).foldl (fun s k => s.modSlab k (fun sl => { sl with hole := holeFields m k rects })) s

/-- The bit of a field in DECLARED_LOST and COVERS. -/
def fieldBit (m : Mode) (k : SlabId) (n : Nat) : Nat :=
  match m with
  | .split => n
  | .joined => n % 7 + 7 * k.num + 14 * (n / 7)

/-- The device's lost fields as bits. -/
def State.lostBits (s : State) (i : SlabId) : Nat :=
  (s.devSlabs i).foldl (fun x k => (s.slab k).lostFields.foldl (fun x n => x ||| 2 ^ fieldBit s.shared.mode k n) x) 0

/-- A field is lost (R20): recorded in the fault map with the state that says why, counted, its stage off. -/
def State.loseField (s : State) (k : SlabId) (n why : Nat) : State :=
  if n ∈ (s.slab k).lostFields then s
  else
    let st := s.stamp k
    s.modSlab k (fun sl =>
      ((({ sl with lostFields := sl.lostFields ++ [n] }).modField n (fun f =>
        { f with state := why, lostPowerOn := st.powerOn, lostPitch := st.pitch, powered := false, clamped := true })).mapChanged).count
        Ctr.FIELDS_LOST 1)

/-! ## The choice of a placement (R348, R350, R364) -/

/-- Fields lost since the image was compiled, as bits. -/
def State.lostSince (s : State) (i : SlabId) (im : Image) : Nat :=
  let x := s.lostBits i
  x ^^^ (x &&& im.declaredLost)

/-- The number of the placement that covers exactly the fields lost since the image was compiled. -/
def State.choosePlacement (s : State) (i : SlabId) (im : Image) : Option Nat :=
  let x := s.lostSince i im
  if x = 0 then some 0 else (im.placements.find? (fun p => decide (p.covers = x) && decide (p.number ≠ 0))).map (fun p => p.number)

/-! ## Loading tiles (R94, R121, R155, R157, R375) -/

/-- A sequencer with a store image, its program counter and registers at 0; without one it holds NOPs. -/
def Sequencer.load (ws : Option (List IWord)) : Sequencer :=
  match ws with
  | none => .reset
  | some l =>
    { Sequencer.reset with
      loaded := true
      store := (l.zipIdx.filter (fun p => decide (p.1 ≠ 0))).map (fun p => (p.2, p.1)) }

/-- The store image of a program number. -/
def Placement.storeImage (p : Placement) (n : Word) : Option (List IWord) := p.stores[n.toNat]?

/-- The tile entry of a device-wide coordinate. -/
def Placement.entryAt (p : Placement) (x y : Nat) : Option TileEntry := p.entries.find? (fun e => decide (e.x = x) && decide (e.y = y))

/-- The resident rows of a tile. -/
def Placement.residentAt (p : Placement) (x y : Nat) : List (Nat × Row) :=
  (p.resident.filter (fun r => decide (r.1 = x) && decide (r.2.1 = y))).map (fun r => r.2.2)

/-- What a placement gives a tile: its entry apart from the numbers of its programs, the programs, and its
resident rows. -/
def Placement.content (p : Placement) (x y : Nat) : Option (TileEntry × List (Option (List IWord)) × List (Nat × Row)) :=
  (p.entryAt x y).map (fun e =>
    ({ e with progFwd := 0, progBwd := 0, progSvc := 0, resident := 0 },
      [p.storeImage e.progFwd, p.storeImage e.progBwd, p.storeImage e.progSvc], p.residentAt x y))

/-- The tile's stores written by base camp: sequencers start afresh and vector registers are 0. -/
def Tile.loadStores (t : Tile) (p : Placement) (e : TileEntry) : Tile :=
  { t with entry := some e, fwd := .load (p.storeImage e.progFwd), bwd := .load (p.storeImage e.progBwd)
           svc := .load (p.storeImage e.progSvc), matrix := { MatrixEngine.reset with bank0 := t.matrix.bank0, bank1 := t.matrix.bank1 }
           vector := .reset, fills := [], port := .reset, arrivals := [], released := [] }

/-- The tile's banks cleared and powered by its mask, and its resident rows written. -/
def Tile.loadBanks (t : Tile) (p : Placement) (e : TileEntry) : Tile :=
  let rows := p.residentAt e.x e.y
  { t with powered := e.banks
           scratch := rows.foldl (fun m r => Cells.writeN m (64 * r.1) (rowBytes r.2)) [] }

/-- A tile that runs no program: nothing loaded, its banks off. -/
def Tile.idle (t : Tile) : Tile :=
  { t with entry := none, fwd := .reset, bwd := .reset, svc := .reset, matrix := .reset, vector := .reset, fills := []
           port := .reset, sends := [], powered := 0, scratch := [], arrivals := [], released := [] }

/-! ## Residence of pages at tiles (R188, R202) -/

/-- The residence frames of a tile reclaimed: their entries, translations and records, counted on the
tile's slab. -/
def State.reclaimTile (s : State) (k : SlabId) (x y : Nat) : State :=
  let gone := (s.slab k).mem.residence.filter (residenceAt x y)
  if gone.isEmpty then s
  else (s.leaveAll k (residenceAt x y)).modSlab k (fun sl => sl.count Ctr.BIVOUAC_RECLAIMS gone.length)

/-- A residence frame filled from a page's home; `res` is its code of RES, 1 a local frame. Another copy of the page, and what
the frame held, leave residence first (R188). The banks of frame 64 are cleared when they get power (R157). DESIGN CHOICE:
LAST_USE of a frame that has served no read is the pitch of its fill, on which R205 is silent. -/
def State.fillResidence (s : State) (i : SlabId) (k : SlabId) (lx ly frame v res : Nat) : State :=
  match s.pte i v with
  | none => s
  | some (w, e) =>
    match (s.slab w).homeBytes (pteStack e) (pteFrame e) 0 pageBytes with
    | none => s
    | some bs =>
      let x := if s.shared.mode = .joined then lx + 112 * k.num else lx
      let s := (s.leavePage i v).leaveResidence k (x, ly, frame)
      let s := s.modSlab k (fun sl => sl.modTile lx ly (fun t =>
        if frame = 64 then { t with scratch := Cells.writeN [] 0 bs, powered := BitVec.allOnes 24 }
        else { t with overlay := Cells.writeN t.overlay (frame * pageBytes) bs }))
      let pitch := (s.root i).pitch
      let s := s.modSlab k (fun sl => sl.modMem (fun m => { m with residence := aset (x, ly, frame) (v, pitch) m.residence }))
      s.setPte i w v (pteWithRes e res lx ly frame)

/-- The hint of an object in force: PLACE_HINT's, else its entry's; with its priority. -/
def Slab.hintOf (sl : Slab) (o : ObjectEntry) : Nat × Nat :=
  match sl.mem.hints.find? (fun h => decide (h.1 = o.object)) with
  | some h => h.2
  | none => (o.hint, o.flags / 2 % 8)

/-- LOCAL objects filled into the local frames of active tiles, at job start and after a placement
switch; `only` limits the tiles (Table 8.6). -/
def State.fillLocal (s : State) (i : SlabId) (number : Nat) (only : Nat → Nat → Bool) : State :=
  (s.devSlabs i).foldl (fun s k =>
    ((s.slab k).mem.objects.filter (fun o => decide (((s.slab k).hintOf o).1 = 2) && decide (o.cls = 2))).foldl (fun s o =>
      (Config.localFrames number o.object).foldl (fun s f =>
        match tileAt s.shared.mode i f.1 f.2.1 with
        | none => s
        | some t => match (s.tile t).entry with
          | none => s
          | some e =>
            if only f.1 f.2.1 && decide (e.stack ≤ f.2.2.1) && decide (f.2.2.1 < 64) && decide (f.2.2.2 < o.pages) then
              s.fillResidence i t.slab t.x.val t.y.val f.2.2.1 (o.base / pageBytes + f.2.2.2) 1
            else s) s) s) s

/-! ## Switching a placement in (R94, R157, R202, R218, R348) -/

/-- The tiles of a slab loaded from a placement: every active tile's stores, and the banks of those whose
contents differ from `old` or that `fresh` names. -/
def Slab.loadTiles (sl : Slab) (m : Mode) (k : SlabId) (old : Option Placement) (p : Placement)
    (fresh : Nat → Nat → Bool) : Slab :=
  let dx := if m = .joined then 112 * k.num else 0
  let sl := sl.mapTiles (fun x y t => if (p.entryAt (x + dx) y).isSome then t else if t.entry.isSome then t.idle else t)
  p.entries.foldl (fun sl e =>
    sl.modTile (e.x - dx) e.y (fun t =>
      let changed := fresh (e.x - dx) e.y || decide (old.bind (fun q => q.content e.x e.y) ≠ p.content e.x e.y)
      if changed then (t.loadStores p e).loadBanks p e else { t with entry := some e })) sl

/-- Every stream descriptor of a slab in the state in which a step with base number `n` begins (R238). -/
def Slab.resetStreams (sl : Slab) (p : Placement) (n : Nat) : Slab :=
  let live := p.streams.zipIdx.filter (fun x => decide (0 < x.1.runs))
  { sl with streams := live.map (fun x =>
      (x.2, { StreamState.reset with state := 1, fault := (sl.stream x.2).fault, epoch := (sl.stream x.2).epoch
                                     step := n, fetchStep := n })) }

/-- The placement of a number switched in on the device: tiles, residence frames at tiles that become
active, and gates. `fresh` names tiles that must be loaded whatever the old placement gave them. -/
def State.switchPlacement (s : State) (i : SlabId) (im : Image) (number : Nat) (all : Bool)
    (fresh : SlabId → Nat → Nat → Bool) : State :=
  let old (k : SlabId) : Option Placement := if all then none else s.placement k
  let was := (s.devSlabs i).map (fun k => (k, old k))
  let s := s.modJob i (fun j => { j with placement := number })
  was.foldl (fun s w =>
    match im.placements.find? (fun p => decide (p.number = number) && decide (p.slab = w.1)) with
    | none => s
    | some p =>
      let m := s.shared.mode
      let dx := if m = .joined then 112 * w.1.num else 0
      let s := p.entries.foldl (fun s e =>
        if ((s.slab w.1).tile (e.x - dx) e.y).entry.isNone || fresh w.1 (e.x - dx) e.y then s.reclaimTile w.1 e.x e.y else s) s
      s.modSlab w.1 (fun sl => (sl.loadTiles m w.1 w.2 p (fresh w.1)).setPlacementGates w.1)) s

end Sys2Proof.Machine
end

