-- ==== Sys2Proof/Machine/Steps.lean ====
section
/-! DEFINITION. Steps of a job (R227, R239, R247, R252, R262, R277, R319, R360, R378): how a step begins and
ends, its windows, feeds, gate and primed fetches, and the pitch that is due next. -/

namespace Sys2Proof.Machine

open Sys2Proof

/-! ## Parameters in force (R35, R374) -/

/-- A pitch field of a placement, or the image's when it is 0. -/
def orElse0 (a b : Nat) : Nat := if a = 0 then b else a

/-- Length and stretch limit of image pitches of the device. -/
def State.pitchLength (s : State) (i : SlabId) : Nat :=
  match s.image i, s.placement (s.dev i) with
  | some im, some p => orElse0 p.pitchLength im.pitch.length
  | some im, none => im.pitch.length
  | none, _ => 65536
def State.stretchOf (s : State) (i : SlabId) : Nat :=
  match s.image i, s.placement (s.dev i) with
  | some im, some p => orElse0 p.stretchLimit im.pitch.stretchLimit
  | some im, none => im.pitch.stretchLimit
  | none, _ => 0

/-- Length and interval of maintenance pitches (Table 2.1). -/
def State.maintLength (s : State) (i : SlabId) : Nat := (s.image i).elim 65536 (fun im => orElse0 im.pitch.maintLength 65536)
def State.maintInterval (s : State) (i : SlabId) : Nat := 2 ^ (s.image i).elim 12 (fun im => orElse0 im.pitch.maintIntervalLog2 12)

/-- The step length T of the placement in force. -/
def State.stepPitches (s : State) (i : SlabId) : Nat := s.stepLength (s.dev i)

/-! ## Feed slots (R378) -/

/-- Ring slot `k` of step `n`. -/
def FeedQueue.slotOf (q : FeedQueue) (n : DWord) (k : Nat) : Nat := (n.toNat * q.entry.perStep + k) % max 1 q.entry.slots

/-- A slot holds all its rows. -/
def FeedQueue.slotFull (q : FeedQueue) (slot : Nat) : Bool := decide (q.entry.slotBytes / 64 ≤ agetD 0 slot q.rows)

/-- Every slot of step `n` is full. -/
def FeedQueue.fullFor (q : FeedQueue) (n : DWord) : Bool := (List.range q.entry.perStep).all (fun k => q.slotFull (q.slotOf n k))

/-- The slots of step `n` released. -/
def FeedQueue.release (q : FeedQueue) (n : DWord) : FeedQueue :=
  let slots := (List.range q.entry.perStep).map (q.slotOf n)
  let full := (slots.filter q.slotFull).length
  { q with rows := q.rows.filter (fun p => decide (p.1 ∉ slots)), released := q.released + BitVec.ofNat 64 q.entry.perStep
           filled := q.filled - full }

/-- A feed counter counted on the device's slab. -/
def State.countFeed (s : State) (i : SlabId) (q id : Nat) : State :=
  s.modSlab (s.dev i) (fun sl =>
    { sl with feedCounters := aset q (Counters.bump (agetD [] q sl.feedCounters) id 1) sl.feedCounters })

/-! ## The gate (R252, R378, R382) -/

/-- The commit position of the units of one slab. -/
def State.slabCommitPos (s : State) (i k : SlabId) (n : DWord) : Nat :=
  let all := s.orderLength i
  stacks24.foldl (fun m u => if (s.slab k).unitCounts u then min m (((s.slab k).stack u).unit.posFor n all) else m) all

/-- Slab 1's commit position as its base camp last reported it over the col. -/
def State.reportedPos (s : State) (n : DWord) : Nat :=
  let g := s.slab0.camp.peerGate
  if g.1 = n then g.2 else if n.toNat < g.1.toNat then s.orderLength .s0 else 0

/-- The step that begins next: the one after the step in progress. -/
def Job.comingStep (j : Job) : DWord := if j.inStep then j.step + 1 else j.step

/-- The units have finished the first `g` blocks of pass 2 of the step before the coming one. -/
def State.gateBlocks (s : State) (i : SlabId) : Bool :=
  let d := s.dev i
  let n := (s.job i).comingStep
  match s.image i with
  | none => true
  | some im =>
    decide (n = 0) || decide (im.step.gate ≤ s.slabCommitPos i d (n - 1))
      && (match s.shared.mode with
          | .split => true
          | .joined => decide (im.step.gate ≤ s.reportedPos (n - 1)))

/-- Every slot of the coming step is full. -/
def State.feedsReady (s : State) (i : SlabId) : Bool := (s.job i).feeds.all (fun q => q.fullFor (s.job i).comingStep)

/-! ## Ledger records -/

/-- A record of step `n` opened at a stamp. -/
def LedgerRec.open_ (n : DWord) (st : Stamp) (placement : Nat) (slow : Bool) : LedgerRec :=
  { step := n, openStamp := st, endPitch := 0, voidFirst := allOnes64, voidLast := allOnes64, replayPitch := allOnes64
    replays := 0, phases := 0, flags := if slow then 0x20 else 0, cause := 0, placement := BitVec.ofNat 16 placement, clip := 0
    lrScale := 0, commitPos := 0, gsq := 0, committed := 0, torn := 0, repaired := 0, lost := 0, mismatches := 0
    bucketsRetried := 0, gatePitches := 0, logFirst := allOnes64, logCount := 0, tornAt := [], valid := true }

/-- The record of step `n` of the device. -/
def State.ledgerOf (s : State) (i : SlabId) (n : DWord) : Option LedgerRec := (s.slab (s.dev i)).camp.ledgerOf n

/-- The record of a step is final: CLOSED, with its event (Tables 13.3, 15.14). -/
def State.closeStep (s : State) (i : SlabId) (n : DWord) : State :=
  let s := s.modLedger i n (fun r => { r with phases := r.phases ||| 32 })
  match s.ledgerOf i n with
  | none => s
  | some r =>
    s.event (s.jobFn i) (s.dev i) evtStepClosed
      (leBytes n.toNat 8 ++ leBytes r.phases.toNat 2 ++ leBytes r.replays.toNat 2 ++ [r.cause])

/-- Committed records of steps before the one in progress closed, when `all` also the latest one's. -/
def State.closeSteps (s : State) (i : SlabId) (all : Bool) : State :=
  let j := s.job i
  ((s.slab (s.dev i)).camp.ledger.filter (fun r =>
    bit r.phases 4 && !bit r.phases 5 && decide (r.step.toNat < j.step.toNat) && (j.inStep || all))).foldl
    (fun s r => s.closeStep i r.step) s

/-! ## Primed fetches (R239) -/

/-- Descriptors of a slab that have a primed pass. -/
def Placement.primedOf (p : Placement) : List Nat :=
  (p.streams.zipIdx.filter (fun x =>
    decide (x.1.mode = 0 ∨ x.1.mode = 2) && decide (0 < x.1.depth)
      && (p.passes x.2).any (fun y => decide (y.2.2 < x.1.depth)))).map Prod.snd

/-- Every descriptor of the placement in force at the start of the step to come, and its primed passes to
fetch (R238, R239). -/
def State.resetDescriptors (s : State) (i : SlabId) : State :=
  let n := (s.job i).step.toNat
  let s := (s.devSlabs i).foldl (fun s k =>
    match s.placement k with
    | none => s
    | some p => s.modSlab k (fun sl => sl.resetStreams p n)) s
  let keys := (s.devSlabs i).flatMap (fun k => (s.placement k).elim [] (fun p => p.primedOf.map (primeKey k)))
  s.modJob i (fun j => { j with primed := keys })

/-- The stream epoch incremented on the device (R236, R237, R383). -/
def State.nextEpoch (s : State) (i : SlabId) : State :=
  let ep := (s.job i).epoch + 1
  s.modDev i (fun sl => (sl.modJob (fun j => { j with epoch := ep })).count Ctr.STREAM_CANCELS 1)

/-! ## Windows of the step (R319) -/

/-- MEMORY and TILE windows as OPEN_AT and CLOSE_AT give them at image pitch `x` of step `n`. -/
def Links.setWindows (l : Links) (n : DWord) (x : Nat) : Links :=
  { l with windows := l.windows.map (fun p =>
      if p.2.kind = 1 ∨ p.2.kind = 4 then
        let on := decide (p.2.openAt ≤ x) && decide (x < p.2.closeAt)
        (p.1, { p.2 with opened := on, epoch := if on then n.truncate 16 else p.2.epoch })
      else p) }

/-- Every window closed (R384). -/
def Links.closeWindows (l : Links) : Links :=
  { l with windows := l.windows.map (fun p => (p.1, { p.2 with opened := false })) }

/-! ## The pass-1 window (R277) -/

/-- The pass-1 window of step `n` opened with a replay number: the units' sums start again, and landings left of a window that is gone
are dropped; those of a replayed window land again (R277, R329). -/
def State.openWindow (s : State) (i : SlabId) (n : DWord) (r : Nat) : State :=
  let s := s.modJob i (fun j => { j with window := some (n, r) })
  s.modDev i (fun sl =>
    (stacks24.foldl (fun sl u => sl.modUnit u UpdateUnit.newWindow) sl).modLinks (fun l =>
      { l with own := none, contributed := false }))

/-- The pass-1 window closed without a contribution (R359, R384). -/
def State.closeWindow (s : State) (i : SlabId) : State :=
  let s := s.modJob i (fun j => { j with window := none })
  s.modDev i (fun sl => sl.modLinks (fun l => { l with own := none, contributed := false, result := none }))

/-! ## A step begins (R252, R277, R360, R385) -/

/-- A stream that reads at the start of step `n`: one that had ended waits again, and passes left of an earlier step are given up
with what they buffered. DESIGN CHOICE: R248 lets no such pass go on, and does not say what becomes of it. -/
def StreamState.readStep (st : StreamState) (n : Nat) : StreamState :=
  let st := if st.fetchStep < n then { st with fetchStep := n, fetchPass := 0, fetching := false, held := false, heldAt := none, returned := []
                                               bufferWait := none } else st
  let st := if st.step < n then
      { st with step := n, pass := 0, run := 0, delivering := false, tail := [], tailRow := 0, errs := []
                state := if st.fetching then 2 else 1, buffer := st.buffer.filter (fun b => decide (n ≤ b.step)) }
    else st
  { st with state := if st.state = 3 then (if st.fetching then 2 else 1) else st.state }

/-- A stream at the start of a step: WRITE and ATOMIC cursors stand at their first pass. -/
def StreamState.newStep (st : StreamState) (sd : StreamDesc) (n : Nat) : StreamState :=
  if sd.reads then st.readStep n
  else if sd.accepts then { st with state := 1, run := 0, step := n, pass := 0, fill := [], partial_ := [] }
  else st

/-- The streams of a slab at the start of step `n`. -/
def Slab.newStepStreams (sl : Slab) (p : Placement) (n : Nat) : Slab :=
  { sl with streams := sl.streams.map (fun x =>
      match p.stream x.1 with
      | none => x
      | some sd => (x.1, x.2.newStep sd n)) }

/-- A pending EXPORT_CONFIG takes effect: the sink in force, its ring from the start when it changes. -/
def Links.takeSink (l : Links) : Links :=
  match l.sinkNext with
  | none => { l with sinkUsed := 0, retried := [] }
  | some x => { l with sink := x, sinkNext := none, sinkOffset := if l.sink = x then l.sinkOffset else 0, sinkUsed := 0
                       retried := [] }

/-- Settings of STEP_CONTROL that step `n` takes: the learning-rate scale in force from it. -/
def Job.takeSettings (j : Job) (n : DWord) : Job :=
  let lr := j.settings.foldl (fun v p => match p.2 with
    | .lrScale x => if p.1 = n then x else v
    | _ => v) j.lrScale
  { j with lrScale := lr
           settings := j.settings.filter (fun p => decide (n.toNat ≤ p.1.toNat) || (match p.2 with
             | .freeze _ _ _ _ => true
             | _ => false)) }

/-- The descriptors of the device set for step `n`. -/
def State.stepStreams (s : State) (i : SlabId) (n : DWord) : State :=
  (s.devSlabs i).foldl (fun (s : State) k =>
    match s.placement k with
    | none => s
    | some p => s.modSlab k (fun sl => sl.newStepStreams p n.toNat)) s

/-- The ledger record of step `n`: opened for its first replay, else its replay noted (R360). -/
def State.openRecord (s : State) (i : SlabId) (n : DWord) (replay : Nat) (pitch : DWord) (placement : Nat) : State :=
  match (if replay = 0 then none else s.ledgerOf i n) with
  | none => (s.devSlabs i).foldl (fun (s : State) (k : SlabId) =>
      let hot := stacks24.any (fun u => ((s.slab k).stack u).hot)
      let st := s.rootStamp k
      s.modSlab k (fun sl => sl.modCamp (fun c => c.openLedger (LedgerRec.open_ n st placement hot)))) s
  | some _ => s.modLedger i n (fun x =>
      { x with replays := sat16 replay, replayPitch := pitch, placement := BitVec.ofNat 16 placement })

/-- The step to come begins with its first image pitch, whose tick release has just been issued. -/
def State.beginStep (s : State) (i : SlabId) : State :=
  let j := s.job i
  let n := j.step
  let r := j.replay
  let pitch := (s.root i).pitch
  let s := s.modJob i (fun j => { (j.takeSettings n) with inStep := true, gateMet := false, feedPitches := 0 })
  let s := s.modDev i (fun sl => (if r = 0 then sl.dropOldBuckets n else sl).modLinks Links.takeSink)
  let s := s.openWindow i n r
  let s := if r = 0 then s else (s.devSlabs i).foldl (fun s k => s.reland k n) s
  let s := ((s.stepStreams i n).openRecord i n r pitch j.placement).closeSteps i false
  if j.settings.any (fun p => decide (p.1 = n) && decide (p.2 = .pauseAfter)) ∧ j.state = .running then
    s.setJobState i .pausing .host
  else s

/-! ## A step ends -/

/-- The last image pitch of the step has ended: PITCHES, the feed slots released, the step after it next. -/
def State.endStep (s : State) (i : SlabId) : State :=
  let n := (s.job i).step
  let pitch := (s.root i).pitch
  let s := s.modLedger i n (fun r => { r with phases := r.phases ||| 1, endPitch := pitch })
  let s := s.modJob i (fun j =>
    { j with inStep := false, step := n + 1, replay := 0, overruns := 0, ranOut := true
             feeds := j.feeds.map (fun q => q.release n) })
  let s := s.modRoot i (fun r => { r with stretchLimit := s.stretchOf i })
  let s := (s.job i).feeds.foldl (fun s q =>
    s.event (s.jobFn i) (s.dev i) evtFeed (BitVec.ofNat 8 q.entry.queue :: leBytes q.released.toNat 8)) s
  s.noteCommit i n

/-! ## The pitch that is due (R58, R61, R239, R253, R351, R380) -/

/-- The number of the next pitch falls due for maintenance (R61). -/
def State.maintDue (s : State) (i : SlabId) : Bool :=
  let r := s.root i
  decide (r.firstPitch ≠ 0) && decide ((r.pitch.toNat + 1 - r.firstPitch.toNat + 1) % s.maintInterval i = 0)

/-- A probe of the device is outstanding (R351). -/
def State.probing (s : State) (i : SlabId) : Bool :=
  (s.devSlabs i).any (fun k =>
    decide (0 < (s.slab k).links.summitProbes) || (s.slab k).engines.any (fun e => e.2.buckets.any (fun b =>
      !b.complete && decide (0 < b.probes))))

/-- The kind of the next pitch. -/
def State.nextKind (s : State) (i : SlabId) : PitchKind :=
  let j := s.job i
  match j.state with
  | .empty | .loaded => .idle
  | .paused => if s.maintDue i then .maint else .idle
  | .running | .pausing | .stopping =>
    if s.maintDue i then .maint
    else if !j.idleSinceStart then .idle
    else if j.inStep then
      if 5 ≤ j.overruns ∧ (s.root i).indexInStep = 0 ∧ s.probing i then .idle else .image
    else if j.state = .running && j.gateMet && j.primed.isEmpty then .image
    else .gate

/-! ## Tick releases at the tiles (R42, R98, R100, R262) -/

/-- Every context empty; with `check` a context that was not empty is a fault (R262). -/
def Tile.emptyStacks (t : Tile) (check : Bool) : Tile :=
  let full := (t.ctxs.filter (fun c => decide (0 < ctxSP c.2))).length
  let t := { t with ctxs := [] }
  if check && decide (0 < full) then (t.setFlags flagOpndFault).count Ctr.STACK_FAULTS full else t

/-- The tick release reaches a tile at cycle `at_`: counters and slips are 0, and when the tile takes part
its sequencers go on. -/
def Tile.tick (t : Tile) (at_ : Nat) (image : Bool) : Tile :=
  let go (q : Sequencer) : Sequencer :=
    let q := { q with slip := 0, spans := [] }
    match q.state with
    | .notLoaded | .held => if image && q.loaded then { q with state := .issuing, nextIssue := at_ } else q
    | _ => q
  let t := t.mapSeqs go
  let r := t.router
  { t with ac := .zero, localStart := at_, releasedAt := at_, arrivals := if image then [] else t.arrivals
           released := if image && t.entry.isSome then [{ ch := 0, seenAt := at_ - 1 }] else t.released
           router := { r with outs := r.outs.map (fun o => (o.1, { o.2 with retries := 0 })) } }

/-- The cycle at which a release issued at cycle `now` reaches the `k`-th place: a free value within the bounds of Table 2.2. A tick
reaches a tile when bank 0 serves the matrix slot, one cycle in four (R141). -/
def releaseCycle (m : Mode) (tick : Bool) (now free k : Nat) : Nat :=
  let b := releaseBounds m
  let v := Config.freeNat (free + k)
  if tick then
    let first := slotFrom 0 0 (now + b.1)
    first + 4 * (v % ((now + b.2 - first) / 4 + 1))
  else now + b.1 + v % (b.2 - b.1 + 1)

/-- `f` on every tile in use of the device, with the cycle at which a release issued now reaches it; base camp has its own. -/
def State.releaseTiles (s : State) (i : SlabId) (tick : Bool) (f : Nat → Tile → Tile) : State :=
  let m := s.shared.mode
  let k := s.free
  let n := (s.devSlabs i).foldl (fun n d => n + (s.slab d).tiles.length) 0
  let s := s.modDev i (fun sl =>
    let now := sl.clocks.cycle
    { sl with tiles := sl.tiles.zipIdx.map (fun (p : ((Nat × Nat) × Tile) × Nat) => (p.1.1, f (releaseCycle m tick now k p.2) p.1.2)) }.modCamp (fun c =>
      { c with releasedAt := releaseCycle m false now k n }))
  { s with free := k + n + 1 }

/-! ## A pitch ends and the next begins (R42, R44, R57) -/

/-- Slip counts of an image pitch that ends, by field and for the root. -/
def State.gatherSlips (s : State) (i : SlabId) : State :=
  let worst := (s.devSlabs i).foldl (fun m k =>
    (s.slab k).tiles.foldl (fun m p => if p.2.entry.isSome then max m p.2.slipCount else m) m) 0
  let s := s.modDev i (fun sl =>
    sl.tiles.foldl (fun sl p =>
      let n := p.2.slipCount
      if p.2.entry.isNone || n = 0 then sl
      else sl.modField (fieldOf p.1.1 p.1.2) (fun f => (f.count Ctr.SLIP_EVENTS 1).count Ctr.SLIP_CYCLES n)) sl)
  s.modRoot i (fun r => { r with lastSlip := sat16 worst })

/-- Lanes retrained in a maintenance pitch rejoin at its end when they pass training (R308, R363), which is a free value, and the
other end hears of it. -/
def State.retrainPort (s : State) (i : SlabId) (p : Nat) : State :=
  let x := (s.slab i).port p
  let ask := ~~~x.working ||| x.marginal
  if !x.up || decide (ask = 0) then s
  else
    let (v, s) := s.takeFree 256
    let pass := ask &&& BitVec.ofNat 8 v
    let w := x.working ||| pass
    let form := laneForm w
    let back := ((List.range 8).filter (fun l => !x.working.getLsbD l && pass.getLsbD l)).length
    let s := s.modSlab i (fun sl => (sl.modPort p (fun x =>
      { x with working := w, lanes := form, marginal := x.marginal &&& ~~~pass }.count Ctr.ZETRA_LANE_RESTORES back)).mapChanged)
    if back = 0 then s
    else (s.modSlab i (fun sl => sl.modPort p (fun x => x.give sl.clocks.cycle
      (mkFrame (mkZHeader 5 0 x.neighbour sl.links.endpoint (9 * 2 ^ 47)) [BitVec.ofNat 8 form.toNat])))).linkEvent i p

/-- Every port of the device retrained. -/
def State.retrainLanes (s : State) (i : SlabId) : State :=
  (s.devSlabs i).foldl (fun s k => (s.slab k).ports.foldl (fun s p => s.retrainPort k p.1) s) s

/-- The pitch in progress is over. -/
def State.endPitch (s : State) (i : SlabId) : State :=
  let r := s.root i
  if r.kind = .maint then (if r.task = 0 then s.retrainLanes i else s)
  else if r.kind = .image then
    let s := s.gatherSlips i
    if (s.job i).inStep && decide (s.stepPitches i ≤ r.indexInStep) then s.endStep i else s
  else s

/-- Length of a pitch of a kind. -/
def State.kindLength (s : State) (i : SlabId) : PitchKind → Nat
  | .image => s.pitchLength i
  | .maint => s.maintLength i
  | _ => 65536

/-- The coming step has waited for a feed through one more gate pitch. Once that is as long as the three probes of R338 and
their timers take, the device reports the queues that are not full with their FEED records (R379). -/
def State.feedWaited (s : State) (i : SlabId) : State :=
  let j := s.job i
  let short := j.feeds.filter (fun q => !q.fullFor j.step)
  let n := if short.isEmpty then 0 else j.feedPitches + 1
  let limit := 4 * fabric (s.slab (s.dev i)).links.summitTimeout
  let s := s.modJob i (fun j => { j with feedPitches := n })
  if 65536 * j.feedPitches < limit ∧ limit ≤ 65536 * n then
    short.foldl (fun s q =>
      s.event (s.jobFn i) (s.dev i) evtFeed (BitVec.ofNat 8 q.entry.queue :: leBytes q.released.toNat 8)) s
  else s

/-- What a gate pitch counts (R253, R388). -/
def State.countGate (s : State) (i : SlabId) : State :=
  let j := s.job i
  let s := s.modSlab (s.dev i) (fun sl => sl.count Ctr.GATE_PITCHES 1)
  let s := if 0 < j.step.toNat then s.modLedger i (j.step - 1) (fun r => { r with gatePitches := r.gatePitches + 1 }) else s
  let s := s.feedWaited i
  j.feeds.foldl (fun s q => if q.fullFor j.step then s else s.countFeed i q.entry.queue Ctr.FEED_WAIT_PITCHES) s

/-- The tick release that begins a pitch of a kind. -/
def State.beginPitch (s : State) (i : SlabId) (kind : PitchKind) : State :=
  let now := s.cycle (s.dev i)
  let j := s.job i
  let image := decide (kind = .image)
  let first := image && (!j.inStep || decide ((s.root i).indexInStep = 0))
  let fresh := image && !j.inStep
  let len := s.kindLength i kind
  let t := s.stepPitches i
  let s := s.modRoot i (fun r =>
    let x := if fresh then 0 else r.indexInStep
    { r with pitch := r.pitch + 1, phase := 0, kind := kind, issued := now, length := len, deadline := len, stretched := 0
             releases := r.releases + 1, releasedPhases := 0, before := (r.pitch, r.phase, r.kind)
             schedIndex := if image then BitVec.ofNat 64 (j.step.toNat * t + x) else r.schedIndex
             indexInStep := if image then x + 1 else r.indexInStep
             firstPitch := if image && decide (r.firstPitch = 0) then r.pitch + 1 else r.firstPitch
             midStep := decide (kind = .maint) && j.inStep && decide (0 < r.indexInStep) })
  let s := if image then s.modJob i (fun j => { j with ran := true }) else s
  let s := s.releaseTiles i true (fun at_ t => let t := t.tick at_ image; if first then t.emptyStacks (fresh && j.ranOut) else t)
  let s := if fresh then s.beginStep i else s
  let s := if image then
      let x := (s.root i).indexInStep - 1
      s.modDev i (fun sl => sl.modLinks (fun l => l.setWindows j.step x))
    else s
  if kind = .gate then s.countGate i
  else if kind = .idle then s.modJob i (fun j => { j with idleSinceStart := true })
  else s

end Sys2Proof.Machine
end

