-- ==== Sys2Proof/Machine/Coordination.lean ====
section
/-! DEFINITION. The coordination messages of the two base camps over the col (R28, R31, R32, R180, R252), and packets that a receiver
has held for a phase tag (R53). -/

namespace Sys2Proof.Machine

open Sys2Proof

/-- A message of base camp `src` at the other base camp. A gate report carries the commit position of its own units (R252). -/
def State.colArrive (s : State) (src : SlabId) (m : ColMsg) : State :=
  let peer (g : Camp → Camp) : State := s.modSlab src.other (fun sl => sl.modCamp g)
  match m with
  | .modeRecord md => peer (fun c => { c with peerMode := md })
  | .firmwareVersion v => peer (fun c => { c with peerVersion := v })
  | .supply mV mA => { s with shared := { s.shared with supplyMv := mV, supplyMa := mA } }
  | .temperature v => peer (fun c => { c with peerMilliC := v })
  | .gateReport n =>
    let pos := s.slabCommitPos src src n
    peer (fun c => { c with peerGate := (n, pos) })

/-- COL_COORDINATION (R28, R31, R32, R180): a message of one base camp reaches the other, which holds it while its phase tag is one
ahead (in joined mode, where one root counts for both). -/
def execColCoordination (src : SlabId) (m : Heard ColMsg) (s : State) : Result :=
  let dst := src.other
  if !((s.slab src).ready && (s.slab dst).ready && s.shared.colControl) then .next s
  else if m.chk = .uncorrectable then .next (s.ctrlDiscard (s.campPort dst))
  else if decide (s.shared.mode = .joined) && s.campAhead dst (s.campReleases src) then .next (s.ctrlHold dst 0 (.col m.what))
  else .next (s.colArrive src m.what)

/-- The release that a held packet waits for has reached its receiver. -/
def State.heldDue (s : State) (i : SlabId) (p : CtrlPacket) : Bool :=
  match p.tile? with
  | some t => decide ((s.tile t).releasedAt ≤ s.cycle i)
  | none => decide ((s.slab i).camp.releasedAt ≤ s.cycle i)

/-- Held packets of a slab whose release has come take place in order (R53). -/
def State.releaseHeld (s : State) (i : SlabId) : State :=
  let due := (s.slab i).camp.ctrlHeld.filter (fun e => s.heldDue i e.2)
  if due.isEmpty then s
  else
    let s := s.modSlab i (fun sl => sl.modCamp (fun c => { c with ctrlHeld := c.ctrlHeld.filter (fun e => decide (e ∉ due)) }))
    due.foldl (fun s e => match e.2 with
      | .col m => s.colArrive i.other m
      | p => s.ctrlArrive i e.1 p) s

end Sys2Proof.Machine
end

