-- ==== Sys2Proof/Machine/Pitch.lean ====
section
/-! DEFINITION. The pitch and the belay network (R38 to R49, R58 to R63, R252, R253): heartbeats, checks and
releases of the tick, phase and region belays, and idle, gate and maintenance pitches. -/

namespace Sys2Proof.Machine

open Sys2Proof

/-! ## Heartbeats (R47 to R49) -/

/-- The last toggle of a physical tile. DESIGN CHOICE: the first window (R47, which names only toggles) runs from the restart of the
clocks, or from the cycle at which the field's stage came on when that is later. -/
def Slab.lastToggle (sl : Slab) (n : Nat) (p : PhysTile) : Nat :=
  max (agetD 0 p (sl.field n).toggles) (max sl.clocks.since (sl.field n).since)

/-- HEARTBEAT_TOGGLE (R47): a router toggles its heartbeat wire. -/
def execHeartbeatToggle (f : FieldId) (pr pc : Fin 17) (s : State) : Result :=
  let n := fieldNum f
  let fd := (s.slab f.slab).field n
  if !(s.slab f.slab).ready || !fd.powered || (pc, pr) ∈ fd.dead then .next s
  else .next (s.modSlab f.slab (fun sl => sl.modField n (fun x => { x with toggles := aset (pc, pr) sl.clocks.cycle x.toggles })))

/-- A spare tile that dies is recorded, and causes no hold (R347). -/
def State.spareDeath (s : State) (k : SlabId) (n : Nat) (p : PhysTile) : State :=
  (s.modSlab k (fun sl => sl.tileFailed n p)).logFault k
    { FaultEntry.basic 0x01 0 with field := BitVec.ofNat 8 (fieldIndex s.shared.mode k (n % 7) (n / 7)), map := true }

/-- HEARTBEAT_DEATH (R47, R48): no toggle for 2,048 fabric cycles; the tile is declared dead. -/
def execHeartbeatDeath (f : FieldId) (pr pc : Fin 17) (s : State) : Result :=
  let n := fieldNum f
  let sl := s.slab f.slab
  let fd := sl.field n
  let p : PhysTile := (pc, pr)
  if !sl.ready || fd.clamped || !fd.powered || p ∈ fd.dead || sl.clocks.cycle < sl.lastToggle n p + 4096 then .next s
  else
    let s := s.modSlab f.slab (fun sl => sl.modField n (fun x =>
      { x with dead := x.dead ++ [p] }.count Ctr.HEARTBEAT_DEATHS 1))
    match fd.logicalAt n p with
    | none => .next (s.spareDeath f.slab n p)
    | some (x, y) =>
      let t := tileId f.slab x y
      let s := s.modTile t (fun tl => { tl with failed := true })
      .next (s.tileFault t 0x01)

/-! ## The root's checks (R42, R45, R46) -/

/-- The slabs of the device have their clocks, and the root issues pitches. -/
def State.rootReady (s : State) (i : SlabId) : Bool :=
  (s.devSlabs i).all (fun k => (s.slab k).ready) && (s.root i).running

/-- The root's count of arithmetic cycles since it issued the release. -/
def State.rootCount (s : State) (i : SlabId) : Nat := s.cycle (s.dev i) - (s.root i).issued

/-- The arrival of the tile at a slab-local place had reached the root by root count `c`. A clamped field never counts as arrived
(R48). -/
def State.arrivedBy (s : State) (i k : SlabId) (p : (Nat × Nat) × Tile) (ch c : Nat) : Bool :=
  !((s.slab k).field (fieldOf p.1.1 p.1.2)).clamped && p.2.arrivals.any (fun a => decide (a.ch.val = ch) && decide (a.seenAt + s.cycle (s.dev i) ≤ (s.root i).issued + c + s.cycle k))

/-- Tiles that take part in the pitch. -/
def Slab.participants (sl : Slab) : List ((Nat × Nat) × Tile) := sl.tiles.filter (fun p => p.2.entry.isSome)

/-- A tick arrival is missing at root count `c`. -/
def State.tickMissing (s : State) (i : SlabId) (c : Nat) : Bool :=
  decide ((s.root i).kind = .image) && (s.devSlabs i).any (fun k => (s.slab k).participants.any (fun p => !s.arrivedBy i k p 0 c))

/-- TICK_CHECK (R42): an arrival is missing at the check, and the pitch stretches by 64 cycles, up to S. -/
def execTickCheck (slab : SlabId) (s : State) : Result :=
  let r := s.root slab
  if s.rootReady slab && !r.inHold && decide (r.deadline ≤ s.rootCount slab) && s.tickMissing slab r.deadline
      && decide (r.deadline < r.length + r.stretchLimit) then
    .next ((s.modRoot slab (fun r => { r with deadline := r.deadline + 64, stretched := r.stretched + 64 })).modSlab
      (s.dev slab) (fun sl => (sl.count Ctr.STRETCH_INCREMENTS 1).count Ctr.STRETCHED_PITCHES (if r.stretched = 0 then 1 else 0)))
  else .next s

/-- PITCH_OVERRUN (R45, R46): an arrival is missing at root count L + S; it is a cause only when the pitch has
no other. -/
def execPitchOverrun (slab : SlabId) (s : State) : Result :=
  let r := s.root slab
  if s.rootReady slab && !r.inHold && decide (r.length + r.stretchLimit ≤ r.deadline) && decide (r.deadline ≤ s.rootCount slab)
      && s.tickMissing slab r.deadline && r.causes.isEmpty then
    .next (s.raiseCause { code := 0x05, slab := s.dev slab, field := none, tile := none, unit := none, stamp := s.rootStamp (s.dev slab) })
  else .next s

/-! ## Tick releases -/

/-- The root may not issue the next release: it has a cause, or a park waits for the boundary between two steps that is reached
(R355). -/
def Root.stopped (r : Root) (boundary : Bool) : Bool := !r.causes.isEmpty || (boundary && !r.parks.isEmpty)

/-- The pitch in progress can end now: its length has passed and no arrival is missing. -/
def State.pitchOver (s : State) (i : SlabId) : Bool :=
  let r := s.root i
  s.rootReady i && !r.inHold && decide (r.deadline ≤ s.rootCount i) && !s.tickMissing i r.deadline

/-- The module after the end of the pitch in progress, and the kind of the pitch due next; none when no
release can be issued. -/
def State.nextPitch (s : State) (i : SlabId) : Option (State × PitchKind) :=
  if s.pitchOver i then
    let t := s.endPitch i
    if (t.root i).stopped (!(t.job i).inStep) then none else some (t, t.nextKind i)
  else none

/-- The hold is recovered, and its ending release can be issued. -/
def State.holdOver (s : State) (i : SlabId) : Bool :=
  let r := s.root i
  s.rootReady i && r.inHold && r.takenOver && r.causes.isEmpty && (s.job i).primed.isEmpty

/-! ## Maintenance pitches (R61, R151, R152, R205 to R207) -/

/-- The client number of stream slots. -/
def streamClient : Nat := 2

/-- The rows that a tile's scrub reads in cycle `now`: those of the group of 24 at `scrubAt` whose banks serve the stream slot, six
rows a cycle (R151). -/
def Tile.scrubRows (t : Tile) (now : Nat) : List Nat :=
  (rowsFrom (t.scrubAt / 24 * 24) 24).filter (fun r => decide (slotFrom r streamClient now = now))

/-- The scrub reads in cycle `now`. -/
def Tile.scrubs (t : Tile) (now : Nat) : Bool :=
  !t.failed && decide (t.localStart ≤ now) && decide (t.scrubNext ≤ now) && decide (t.scrubAt < spRows)
    && decide (now % 4 = t.scrubAt / 6 % 4)

/-- The errors that the scrub finds in cycle `now`. -/
def Tile.scrubFound (t : Tile) (portal : Bool) (now : Nat) : List RowError :=
  t.scrubErrs.filter (fun e => decide (e.row ∈ t.scrubRows now) && t.rowPowered portal e.row && decide (0 < e.symbols))

/-- The row has a persistent symbol error: the scrub corrects a symbol that the scrub before it had corrected and rewritten
(R152). -/
def Tile.persistent (t : Tile) (e : RowError) : Bool := e.places.any (fun p => decide (p ∈ agetD [] e.row t.scrubbed))

/-- The scrub's reads of cycle `now`: errors recorded, and a corrected row rewritten in its bank's next stream slot, one turn for
each rewrite (R151). -/
def Tile.scrubRead (t : Tile) (portal : Bool) (now : Nat) : Tile :=
  let rows := t.scrubRows now
  let es := t.scrubFound portal now
  let fixed := es.filter (fun e => decide (e.symbols ≤ 3))
  { t.recordRowErrors portal true streamClient es with
    scrubbed := t.scrubbed.filter (fun p => decide (p.1 ∉ rows))
    scrubAt := t.scrubAt + 6
    scrubNext := now + 1 + 4 * fixed.length
    rewrites := t.rewrites ++ fixed.map (fun e => (e.row, slotFrom e.row streamClient (now + 1), e)) }

/-- What base camp takes of the errors a tile's scrub found: an uncorrectable one is an error of the tile, a persistent one degrades
it (R150, R152). -/
def State.scrubFinds (s : State) (t : TileId) (es : List RowError) (again : Bool) : State :=
  let s := s.tileErrorIf (rowsUncorrectable es) t
  if again then s.tileDegraded t else s

/-- The tiles of a slab that have power scrub in cycle `now`. -/
def Slab.scrubTiles (sl : Slab) (k : SlabId) (now : Nat) : Slab :=
  sl.mapTiles (fun x y t =>
    if !(sl.field (fieldOf x y)).clamped && t.scrubs now then t.scrubRead (isPortal (tileId k x y)) now else t)

/-- One arithmetic cycle of the scrub of slab `k` in a maintenance pitch. -/
def State.scrubCycle (s : State) (k : SlabId) : State :=
  let r := s.root k
  let sl := s.slab k
  if decide (r.kind = .maint) && !r.inHold && sl.powered && sl.clocks.running then
    let now := sl.clocks.cycle
    let found := sl.tiles.filterMap (fun p =>
      let es := p.2.scrubFound (isPortal (tileId k p.1.1 p.1.2)) now
      if !(sl.field (fieldOf p.1.1 p.1.2)).clamped && p.2.scrubs now && !es.isEmpty then
        some (tileId k p.1.1 p.1.2, es, es.any (fun e => decide (e.symbols ≤ 3) && p.2.persistent e)) else none)
    found.foldl (fun s f => s.scrubFinds f.1 f.2.1 f.2.2) (s.modSlab k (fun sl => sl.scrubTiles k now))
  else s

/-- The scrub of a maintenance pitch begins: a tile's first row, or the next one where a hold had stopped it; `errs` are the errors
in the rows. -/
def State.startScrub (s : State) (i : SlabId) (errs : List (TileId × RowError)) : State :=
  (s.devSlabs i).foldl (fun s k => s.modSlab k (fun sl => sl.mapTiles (fun x y t =>
    { t with scrubAt := if spRows ≤ t.scrubAt then 0 else t.scrubAt, scrubNext := 0
             scrubErrs := (errs.filter (fun e => decide (e.1 = tileId k x y))).map Prod.snd }))) s

/-- What a tile's scrub of 1/64 of its overlay slice finds (R186): the frame of local rows it covers leaves residence and the tile is
degraded, or a row of the stack region is uncorrectable. -/
def State.scrubOverlay (s : State) (t : TileId) (errs : List RowError) : State :=
  let tl := s.tile t
  let frame := tl.ovlScrub.val
  let es := errs.filter (fun e => decide (e.row / 32768 = frame) && decide (0 < e.weight))
  let lost := es.filter (fun e => decide (1 < e.weight))
  let s := s.modTile t (fun tl => ({ tl with ovlScrub := tl.ovlScrub + 1 }.count Ctr.OVL_CORRECTED (es.length - lost.length)).count
    Ctr.OVL_UNCORRECTABLE lost.length)
  if lost.isEmpty then s
  else match tl.entry with
    | none => (s.leaveResidence t.slab (gx s.shared.mode t, t.y.val, frame)).tileDegraded t
    | some e =>
      if frame < e.stack then s.tileFault t 0x02
      else (s.leaveResidence t.slab (gx s.shared.mode t, t.y.val, frame)).tileDegraded t

/-- The overlay scrub of the device's powered slices. -/
def State.scrubOverlays (s : State) (i : SlabId) (errs : List (TileId × RowError)) : State :=
  (s.devSlabs i).foldl (fun s k => (s.slab k).tiles.foldl (fun (s : State) (p : (Nat × Nat) × Tile) =>
    if p.2.failed || ((s.slab k).field (fieldOf p.1.1 p.1.2)).clamped then s
    else s.scrubOverlay (tileId k p.1.1 p.1.2) ((errs.filter (fun e => decide (e.1 = tileId k p.1.1 p.1.2))).map Prod.snd)) s) s

/-- Frames that leave residence now (R201, R347). -/
def State.dropFrames (s : State) (k : SlabId) : State :=
  ((s.slab k).mem.dropping.foldl (fun s key => s.leaveResidence k key) s).modSlab k (fun sl => sl.modMem (fun m => { m with dropping := [] }))

/-- Objects by ascending number. -/
def insertObject (o : ObjectEntry) : List ObjectEntry → List ObjectEntry
  | [] => [o]
  | x :: xs => if o.object ≤ x.object then o :: x :: xs else x :: insertObject o xs

/-- NEAR pages of a slab without residence, by higher priority, then (object, page) (R205): priority and page. -/
def Slab.nearPages (sl : Slab) : List (Nat × Nat) :=
  let os := (sl.mem.objects.filter (fun o => decide (o.cls = 2) && decide ((sl.hintOf o).1 = 1))).foldr insertObject []
  (List.range 8).flatMap (fun q =>
    (os.filter (fun o => decide ((sl.hintOf o).2 = 7 - q))).flatMap (fun o =>
      ((List.range o.pages).map (fun p => o.base / pageBytes + p)).filterMap (fun v =>
        match alookup v sl.mem.pages with
        | none => none
        | some e => if pteRes e = 0 then some (7 - q, v) else none)))

/-- A free bivouac frame of a slab: slab-local coordinates. DESIGN CHOICE: the lowest (x, y, frame); R203 does not say which free
frame a page is filled into. -/
def Slab.freeBivouac (sl : Slab) (dx : Nat) : Option (Nat × Nat × Nat) :=
  sl.tiles.findSome? (fun p =>
    if p.2.lending then
      ((List.range 65).find? (fun f => (alookup (p.1.1 + dx, p.1.2, f) sl.mem.residence).isNone)).map (fun f => (p.1.1, p.1.2, f))
    else none)

/-- The NEAR priority of the object a page belongs to. -/
def Slab.nearPriority (sl : Slab) (v : Nat) : Nat :=
  match sl.mem.objects.find? (fun o => decide (o.base ≤ v * pageBytes) && decide (v * pageBytes < o.base + o.size)) with
  | none => 0
  | some o => (sl.hintOf o).2

/-- The place of a residence copy in the order of eviction: priority, LAST_USE, then (x, y, frame). -/
def Slab.evictKey (sl : Slab) (p : (Nat × Nat × Nat) × Nat × DWord) : List Nat :=
  [sl.nearPriority p.2.1, p.2.2.toNat, p.1.1, p.1.2.1, p.1.2.2]

/-- The bivouac copy that goes first when a frame is needed for a page of priority `q` (R205). DESIGN CHOICE: base camp needs a frame
only for a page whose priority is higher than the copy's; R205 does not say when it needs one. -/
def Slab.victim (sl : Slab) (q : Nat) : Option ((Nat × Nat × Nat) × Nat) :=
  let bivouac (v : Nat) : Bool := match alookup v sl.mem.pages with
    | none => false
    | some e => decide (2 ≤ pteRes e)
  let cands := sl.mem.residence.filter (fun p => bivouac p.2.1 && decide (sl.nearPriority p.2.1 < q))
  (cands.foldl (fun (acc : Option ((Nat × Nat × Nat) × Nat × DWord)) p => match acc with
    | none => some p
    | some b => if lexLess (sl.evictKey p) (sl.evictKey b) then some p else acc) none).map (fun p => (p.1, p.2.1))

/-- A bivouac frame for priority `q`: when none is free a copy of lower priority is evicted (R205). -/
def State.makeRoom (s : State) (k : SlabId) (dx q : Nat) : State :=
  match (s.slab k).freeBivouac dx with
  | some _ => s
  | none => match (s.slab k).victim q with
    | none => s
    | some (key, _) =>
      (s.leaveResidence k key).modSlab k (fun sl => sl.count Ctr.BIVOUAC_EVICTIONS 1)

/-- One NEAR page filled into the lowest free bivouac frame (R203). -/
def State.fillOne (s : State) (k : SlabId) (dx v : Nat) : State :=
  match (s.slab k).freeBivouac dx with
  | none => s
  | some (x, y, f) => s.fillResidence k k x y f v (if f = 64 then 3 else 2)

/-- `n` NEAR pages filled into bivouac frames (R203, R205). -/
def State.fillNear (s : State) (k : SlabId) : Nat → State
  | 0 => s
  | n + 1 =>
    let dx := if s.shared.mode = .joined then 112 * k.num else 0
    match (s.slab k).nearPages with
    | [] => s
    | (q, v) :: _ => ((s.makeRoom k dx q).fillOne k dx v).fillNear k n

/-- The blocks on a page are between their commit for the latest step and the first landing of the next
(R207); a page without blocks is always so. -/
def State.pageQuiet (s : State) (i : SlabId) (v : Nat) : Bool :=
  match s.pageObject i v with
  | none => true
  | some o =>
    if !o.isParam then true
    else
      let p := blocksPerPage o.update
      let first := (v - o.base / pageBytes) * p
      let n := (s.job i).step
      let blocks := (List.range p).filter (fun j => decide (first + j < o.update.nblocks))
      blocks.all (fun j =>
        (decide (n = 0) || decide ((s.blockStep i o (first + j)) = n - 1) || s.blockFrozen i o (first + j))
          && (match (s.job i).window with
              | none => true
              | some (m, r) => decide (s.landedIn i o (first + j) m r = 0)))

/-- The copy of a home to another stack begins (R206). -/
def State.startMigration (s : State) (k : SlabId) (v st : Nat) : State :=
  let sl := s.slab k
  match alookup v sl.mem.pages with
  | none => s
  | some e =>
    let ok := sl.stackUp st && decide (st < 24) && decide (st ≠ pteStack e) && sl.stackUp (pteStack e)
      && sl.mem.moving.all (fun m => decide (m.vpn ≠ v)) && s.pageQuiet k v
    match (if ok then sl.lowestFrame (decide (pteProt e = 1)) st else none) with
    | none => s
    | some f =>
      s.modSlab k (fun sl => (((sl.takeFrame (decide (pteProt e = 1)) st f v).modMem (fun m =>
        { m with moving := m.moving ++ [{ vpn := v, toStack := st, toFrame := f }] })).addWork (pteStack e)
          (campWork .remote pageBytes)).addWork st (campWork .remote pageBytes))

/-- MIGRATION_COPY_DONE (R206): in a maintenance pitch with that task the copy of a page completes; base camp writes the new entry,
invalidates its translations and frees the source frame. In a hold the page stays at its source, and a page of parameter
blocks outside its window waits there (R207). -/
def execMigrationCopyDone (slab : SlabId) (vpn : BitVec 27) (s : State) : Result :=
  let v := vpn.toNat
  let sl := s.slab slab
  let r := s.root slab
  match (if sl.ready && !r.inHold && decide (r.kind = .maint) && decide (r.task = taskMigration) && s.pageQuiet slab v then
      sl.mem.moving.find? (fun m => m.vpn = v) else none),
    alookup v sl.mem.pages with
  | some mv, some e =>
    let s := s.modSlab slab (fun sl => sl.flushFrame (pteStack e) (pteFrame e))
    match (s.slab slab).frameCells (pteStack e) (pteFrame e) with
    | none => .next s
    | some cs =>
      let s := s.modSlab slab (fun sl =>
        let sl := (sl.fillFrame mv.toStack mv.toFrame cs).dropFrame (pteStack e) (pteFrame e)
        (sl.modMem (fun m => { m with moving := m.moving.filter (fun x => x.vpn ≠ v) })).count
          Ctr.PAGES_MIGRATED 1)
      .next ((s.setPte slab slab v (pteWithHome e mv.toStack mv.toFrame)).passOwnership slab v ((s.slab slab).unitFor (pteStack e))
        ((s.slab slab).unitFor mv.toStack))
  | _, _ => .next s

/-- A link has a lane to be retrained in the next maintenance pitch (R308). -/
def State.lanesMarginal (s : State) (i : SlabId) : Bool :=
  (s.devSlabs i).any (fun k => (s.slab k).ports.any (fun p => p.2.up && decide (p.2.marginal ≠ 0)))

/-- The task of a maintenance pitch (R61): 0 link adaptation, 1 retraining of shelf PHYs, 2 refresh rates, 3 migration with
residence. DESIGN CHOICE: marginal lanes come first, then a migration not yet finished; otherwise the choice is a free value. -/
def State.chooseTask (s : State) (i : SlabId) : State :=
  let (v, s) := s.takeFree 4
  let task := if s.lanesMarginal i then taskLinks
    else if (s.devSlabs i).any (fun k => !(s.slab k).mem.moving.isEmpty) then taskMigration else v
  s.modRoot i (fun r => { r with task := task })

/-- Residence and migration in a maintenance pitch; how much of it one pitch holds is a free value. -/
def State.migrate (s : State) (i : SlabId) : State :=
  (s.devSlabs i).foldl (fun s k =>
    let (n, s) := s.takeFree ((s.slab k).nearPages.length + 1)
    let s := s.fillNear k n
    let free := s.free
    let s := { s with free := free + 1 }
    (Config.migrations free).foldl (fun s m => s.startMigration k m.1 m.2) s) s

/-- Refresh rates set: doubled for stacks that are hot (R458). -/
def State.setRefresh (s : State) (i : SlabId) : State :=
  s.modDev i (fun sl => stacks24.foldl (fun sl u => sl.modStack u (fun st => { st with doubled := st.hot })) sl)

/-- Base camp's task of a maintenance pitch; frames that leave residence do so in each (R201). -/
def State.maintain (s : State) (i : SlabId) : State :=
  let s := ((s.devSlabs i).foldl (fun s k => s.dropFrames k) s).chooseTask i
  if (s.root i).task = taskMigration then s.migrate i
  else if (s.root i).task = taskRefresh then s.setRefresh i
  else s

/-! ## Tick releases -/

/-- A pitch of a kind begins; in a maintenance pitch the tiles scrub, rows having the errors that `scrub` and `ovl` name, and base
camp runs its task. -/
def State.openPitch (s : State) (i : SlabId) (kind : PitchKind) (scrub ovl : List (TileId × RowError)) : State :=
  let s := s.beginPitch i kind
  if kind = .maint then (((s.startScrub i scrub).scrubOverlays i ovl).maintain i) else s

/-- The tick release that ends a hold. -/
def State.endHold (s : State) (i : SlabId) (scrub ovl : List (TileId × RowError)) : State :=
  let s := s.modRoot i (fun r => { r with inHold := false, takenOver := false, routersEmpty := false, kind := .none })
  s.openPitch i (s.nextKind i) scrub ovl

/-- TICK_RELEASE (R42, R59): the root issues the release that ends the pitch, or the hold, and begins the pitch
that is due. -/
def execTickRelease (slab : SlabId) (s : State) : Result :=
  if s.holdOver slab then .next (s.endHold slab [] [])
  else match s.nextPitch slab with
    | none => .next s
    | some (t, k) => .next (t.openPitch slab k [] [])

/-- A release that begins a pitch of one kind, and ends the hold where one is recovered. -/
def State.releaseOf (s : State) (i : SlabId) (kind : PitchKind) (scrub ovl : List (TileId × RowError)) : State :=
  if s.holdOver i then (if s.nextKind i = kind then s.endHold i scrub ovl else s)
  else match s.nextPitch i with
    | none => s
    | some (t, k) => if k = kind then t.openPitch i k scrub ovl else s

/-- IDLE_PITCH (R58): the root issues an idle pitch of 65,536 cycles. -/
def execIdlePitch (slab : SlabId) (s : State) : Result := .next (s.releaseOf slab .idle [] [])

/-- GATE_PITCH (R253): the root issues a gate pitch while the gate is not met. -/
def execGatePitch (slab : SlabId) (s : State) : Result := .next (s.releaseOf slab .gate [] [])

/-- MAINTENANCE_PITCH (R61, R151): the root issues a maintenance pitch; the tiles scrub, and base camp runs its task. -/
def execMaintenancePitch (slab : SlabId) (scrub : ScrubErrors) (s : State) : Result :=
  .next (s.releaseOf slab .maint scrub.rows scrub.ovl)

/-! ## The step gate (R252) -/

/-- STEP_GATE_MET (R252, R378): base camp lets the coming step begin. -/
def execStepGateMet (slab : SlabId) (s : State) : Result :=
  let d := s.dev slab
  let j := s.job slab
  let last := !j.inStep || decide (s.stepPitches slab ≤ (s.root slab).indexInStep)
  if (s.slab d).ready && decide ((s.slab d).camp.firmware = .running) && decide (j.state = .running) && last && !j.gateMet
      && s.gateBlocks slab && s.feedsReady slab then
    let n := j.comingStep
    let s := s.modJob slab (fun j => { j with gateMet := true })
    .next (if n = 0 then s else s.modLedger slab (n - 1) (fun r => { r with phases := r.phases ||| 8 }))
  else .next s

/-! ## Phase and region belays (R40) -/

/-- PHASE_BELAY_RELEASE (R40): every participant has arrived; the phase goes up by 1. -/
def execPhaseBelayRelease (slab : SlabId) (s : State) : Result :=
  let r := s.root slab
  let c := s.rootCount slab
  let all := (s.devSlabs slab).all (fun k => (s.slab k).participants.all (fun p => s.arrivedBy slab k p 1 c))
  let some_ := (s.devSlabs slab).any (fun k => !(s.slab k).participants.isEmpty)
  if s.rootReady slab && !r.inHold && decide (r.kind = .image) && all && some_ then
    let s := s.modRoot slab (fun r =>
      { r with phase := r.phase + 1, releases := r.releases + 1, releasedPhases := r.releasedPhases + 1, before := (r.pitch, r.phase, r.kind) })
    .next (s.releaseTiles slab false (fun at_ t =>
      { t with arrivals := t.arrivals.filter (fun a => decide (a.ch ≠ 1)), releasedAt := at_
               released := if t.entry.isSome then t.released ++ [{ ch := 1, seenAt := at_ }] else t.released }))
  else .next s

/-- The members of a region belay on a slab, slab-local. -/
def State.regionMembers (s : State) (k : SlabId) (ch : Nat) : List (Nat × Nat) :=
  let dx := if s.shared.mode = .joined then 112 * k.num else 0
  match s.placement k with
  | none => []
  | some p => (p.members.filter (fun m => decide (m.ch = ch))).map (fun m => (m.x - dx, m.y))

/-- REGION_BELAY_RELEASE (R40, R64): every member has arrived; the release leaves the lowest common node. -/
def execRegionBelayRelease (slab : SlabId) (ch : Fin 64) (s : State) : Result :=
  let r := s.root slab
  let c := s.rootCount slab
  let members (k : SlabId) := s.regionMembers k ch.val
  let all := (s.devSlabs slab).all (fun k => (members k).all (fun p => s.arrivedBy slab k (p, (s.slab k).tile p.1 p.2) ch.val c))
  let some_ := (s.devSlabs slab).any (fun k => !(members k).isEmpty)
  let one := s.regionInField slab ch.val
  if s.rootReady slab && !r.inHold && decide (2 ≤ ch.val) && all && some_ then
    let k := s.free
    let b := if one then (0, 48) else releaseBounds s.shared.mode
    let lat (j : Nat) : Nat := b.1 + Config.freeNat (k + j) % (b.2 - b.1 + 1)
    let s := (s.devSlabs slab).foldl (fun s d => ((members d).zipIdx).foldl (fun s p =>
      s.modSlab d (fun sl => sl.modTile p.1.1 p.1.2 (fun t =>
        { t with arrivals := t.arrivals.filter (fun a => decide (a.ch ≠ ch))
                 released := t.released ++ [{ ch := ch, seenAt := sl.clocks.cycle + lat p.2 }] }))) s) s
    .next { s with free := k + (s.devSlabs slab).foldl (fun n d => n + (members d).length) 0 }
  else .next s

end Sys2Proof.Machine
end

