-- ==== Sys2Proof/Machine/Wheel.lean ====
section
/-! DEFINITION. The wheel of a shelf controller and its three shares (R242, R243). -/

namespace Sys2Proof.Machine

open Sys2Proof

/-- The shares of a split: read and write sixteenths; the rest is remote. -/
def defaultSplit : Half := 0x0349

/-- The split in force: the image's, or the default. -/
def State.split (s : State) (i : SlabId) : Half :=
  match (s.job i).image with
  | none => defaultSplit
  | some im => im.step.split

/-- The class a position of the wheel belongs to. -/
def shareAt (split : Half) (p : Nat) : ShareClass :=
  let r := bits split 3 0
  if p < r then .read else if p < r + bits split 7 4 then .write else .remote

/-- The counter of a class's idle positions. -/
def ShareClass.idle : ShareClass → Nat
  | .read => Ctr.SHARE_IDLE_READ
  | .write => Ctr.SHARE_IDLE_WRITE
  | .remote => Ctr.SHARE_IDLE_REMOTE

/-- Bytes that a position grants. -/
def positionBytes : Nat := 2048

/-- Up to `n` bytes of the traffic that `ok` admits served in order of arrival; what stays, and the bytes left over. -/
def serveWork (ok : ShelfWork → Bool) : Nat → List ShelfWork → List ShelfWork × Nat
  | n, [] => ([], n)
  | n, w :: ws =>
    if ok w then
      let (rest, left) := serveWork ok (n - w.bytes) ws
      if w.bytes ≤ n then (rest, left) else ({ w with bytes := w.bytes - n } :: rest, left)
    else
      let (rest, left) := serveWork ok n ws
      (w :: rest, left)

/-- A position of class `c` granted: to streams first, the update unit taking what they leave; an idle one is counted. -/
def Stack.grant (x : Stack) (c : ShareClass) : Stack :=
  if x.work.any (fun w => decide (w.cls = c)) then
    let (ws, n) := serveWork (fun w => decide (w.cls = c) && (decide (c = .remote) || !w.unit)) positionBytes x.work
    { x with work := (serveWork (fun w => decide (w.cls = c) && !decide (c = .remote) && w.unit) n ws).1 }
  else x.count c.idle 1

/-- One fabric cycle of a stack's wheel; a hot stack's position lasts two, and a stack under maintenance serves nothing. -/
def Stack.turn (x : Stack) (split : Half) (maintained : Bool) : Stack :=
  if x.state ≠ .good then x
  else if x.hot && !x.wheelHalf then { x with wheelHalf := true }
  else
    let x := { x with wheelHalf := false, wheel := x.wheel + 1 }
    if maintained then x else x.grant (shareAt split x.wheel.val)

/-- One fabric cycle of the wheels of a slab. -/
def State.turnWheels (s : State) (i : SlabId) : State :=
  let split := s.split i
  let busy := s.stacksBusy i
  s.modSlab i (fun sl => stacks24.foldl (fun sl k => sl.modStack k (fun x => x.turn split busy)) sl)

end Sys2Proof.Machine
end

