-- ==== Sys2Proof/Machine/Clock.lean ====
section
/-! DEFINITION. The passage of one arithmetic cycle. -/

namespace Sys2Proof.Machine

open Sys2Proof

/-- A tile as arithmetic cycle `now` finds it: flags may be cleared again (R136), and scrub rewrites whose slot
has passed are done, a wrong correction among them (R148, R151). -/
def Tile.settle (t : Tile) (now : Nat) : Tile :=
  let done := t.rewrites.filter (fun (r : Nat × Nat × RowError) => decide (r.2.1 < now))
  { t.delivered (done.map (fun (r : Nat × Nat × RowError) => r.2.2)) with
    flagsNow := 0, rewrites := t.rewrites.filter (fun r => decide (now ≤ r.2.1))
    scrubbed := t.scrubbed ++ done.map (fun (r : Nat × Nat × RowError) => (r.1, r.2.2.places)) }.count Ctr.SP_SCRUB_REWRITES done.length

/-- What a tile's stream and router slots do in cycle `now`: the overlay port's rows, the IFILLs, and the message being
injected, which a hold stops (R99, R178, R220, R260). -/
def Tile.slots (t : Tile) (m : Mode) (id : TileId) (inHold : Bool) (now : Nat) : Tile :=
  let p := isPortal id
  let t := (t.moveFills p now).movePort p now
  if inHold then t else t.inject (gx m id) id.y.val p now

/-- One arithmetic cycle of a tile. -/
def Tile.passCycle (t : Tile) (m : Mode) (id : TileId) (inHold : Bool) (now : Nat) : Tile :=
  (t.settle now).slots m id inHold now

/-- Every counter of a slab as the next management cycle finds it. -/
def Slab.settleCounters (sl : Slab) : Slab :=
  { sl with
    tiles := sl.tiles.map (fun p => (p.1, { p.2 with counters := p.2.counters.settle }))
    fields := sl.fields.map (fun p => (p.1, { p.2 with counters := p.2.counters.settle }))
    stackList := sl.stackList.map (fun p =>
      (p.1, { p.2 with counters := p.2.counters.settle, unit := { p.2.unit with counters := p.2.unit.counters.settle } }))
    ports := sl.ports.map (fun p =>
      (p.1, { p.2 with counters := p.2.counters.settle, laneCounters := p.2.laneCounters.map (fun l => (l.1, l.2.settle)) }))
    engines := sl.engines.map (fun p => (p.1, { p.2 with counters := p.2.counters.settle }))
    links := { sl.links with windowCounters := sl.links.windowCounters.map (fun w => (w.1, w.2.settle)) }
    feedCounters := sl.feedCounters.map (fun f => (f.1, f.2.settle))
    counters := sl.counters.settle }

/-- Arithmetic cycles of a management cycle (Table 0.3). -/
def managementCycle : Nat := 4

/-- A management cycle begins with this arithmetic cycle of the slab. -/
def Slab.manages (sl : Slab) : Bool := decide (sl.clocks.cycle % managementCycle = 0)

/-- One arithmetic cycle of a slab whose divided clocks run (R442); an unpowered or stopped slab
keeps its count, and a tile of a field without power stands still. -/
def Slab.passCycle (sl : Slab) (m : Mode) (i : SlabId) (inHold : Bool) : Slab :=
  if sl.powered && sl.clocks.running then
    let now := sl.clocks.cycle + 1
    let sl := { sl with clocks := { sl.clocks with cycle := now } }.mapTiles (fun x y t =>
      if (sl.field (fieldOf x y)).clamped then t else t.passCycle m (tileId i x y) inHold now)
    if sl.manages then sl.settleCounters else sl
  else sl

/-- A function's counters as the next management cycle finds them. -/
def Func.settleCounters (f : Func) : Func := { f with counters := f.counters.settle }

/-- Counters of the functions and of the module when a management cycle begins, by slab 0's clock. -/
def State.settleShared (s : State) : State :=
  if s.slab0.manages then
    { s with fn0 := s.fn0.settleCounters, fn1 := s.fn1.settleCounters
             shared := { s.shared with counters := s.shared.counters.settle } }
  else s

/-- What the wheels of a slab's shelf controllers and the deliveries of its streams do in a cycle of running clocks: a fabric cycle
lasts two arithmetic cycles (Table 0.3, R229, R243). -/
def State.passTraffic (s : State) (i : SlabId) : State :=
  if (s.slab i).powered && (s.slab i).clocks.running then
    (if (s.slab i).clocks.cycle % 2 = 0 then s.turnWheels i else s).deliver i
  else s

/-- One arithmetic cycle of a slab, with its scrub, its traffic and the packets whose release has come. -/
def State.passSlab (s : State) (i : SlabId) : State :=
  let h := (s.root i).inHold
  (((s.modSlab i (fun sl => sl.passCycle s.shared.mode i h)).scrubCycle i).passTraffic i).releaseHeld i

/-- One arithmetic cycle of the module. -/
def State.passCycle (s : State) : State := ((s.passSlab .s0).passSlab .s1).settleShared

end Sys2Proof.Machine
end

