-- ==== Sys2Proof/Machine/Holds.lean ====
section
/-! DEFINITION. Holds (R46, R59, R62, R118, R178, R237, R342 to R351, R355, R359, R475, R476): how a hold is
requested and entered, and how base camp recovers it. -/

namespace Sys2Proof.Machine

open Sys2Proof

/-! ## Causes (R46) -/

/-- Codes of causes by precedence. R46 does not list the loss of the col (R359), which comes last (DESIGN CHOICE). -/
def causeOrder : List Byte := [0x03, 0x04, 0x01, 0x02, 0x13, 0x08, 0x0A, 0x0B, 0x0C, 0x0D, 0x09, 0x19, 0x05, 0x0F]

/-- The code of highest precedence. -/
def topCause (cs : List Byte) : Byte := (causeOrder.find? (fun c => decide (c ∈ cs))).getD (cs.headD 0)

def Root.codes (r : Root) : List Byte := r.causes.map (fun c => c.code)

/-! ## Entering a hold (R118, R178, R237, R329) -/

/-- A tile when the root enters a hold at cycle `now`: sequencers stop, queues are discarded, and the banks, the transpose buffers
and the vector registers become undefined, as free values from `n` on. The sequencers of a tile that has stopped keep their
condition (R119). -/
def Tile.hold (t : Tile) (now n : Nat) : Tile :=
  let t := (t.settleSlips now).mapSeqs (fun x => if x.loaded && !t.failed then { x with state := .held, late := none, locked := none } else x)
  let t := { t with matrix := { t.matrix with queue := [], undrained := [] }
                    vector := { t.vector with queue := [], writeAt := [], bankRead := [] }
                    fills := [], port := { t.port with queue := [] }, sends := [], arrivals := [], released := [], loads := []
                    atomicWaits := [], forwards := [], router := { t.router with portal := [] } }.count Ctr.HOLD_DISCARDS t.router.portal.length
  if t.entry.isSome then
    { t with matrix := { t.matrix with bank0 := .undefined n, bank1 := .undefined (n + 1), transA := .undefined (n + 3)
                                       transB := .undefined (n + 4) }
             vector := { t.vector with regs := .undefined (n + 2) } }
  else t

/-- The stream engines of a slab discard every buffered row and issue nothing. -/
def Slab.holdStreams (sl : Slab) (i : SlabId) : Slab :=
  sl.streams.foldl (fun sl p =>
    let n := p.2.buffer.foldl (fun n b => n + (if b.scaleBytes = 0 then 64 * b.rows.length else b.scaleBytes)) 0
    let t := streamTile i p.1
    let sl := sl.modStream p.1 (fun st =>
      { st with buffer := [], delivering := false, tail := [], tailRow := 0, errs := [], fetching := false, held := false, heldAt := none, bufferWait := none, returned := []
                partial_ := [], state := if st.state = 2 then 1 else st.state })
    if n = 0 then sl else sl.modTile t.x.val t.y.val (fun tl => tl.count Ctr.STREAM_DISCARD_BYTES n)) sl

/-- A sequencer waits for data or acknowledgements from outside its tile (R351). -/
def Sequencer.waiting (q : Sequencer) : Bool :=
  !q.loaded || (match q.state with
    | .waitArr _ _ _ _ | .inBelay _ => true
    | .stalled c => decide (c = 5 ∨ c = 6)
    | _ => false)

/-- Base camp's check of a pitch that overruns with a stretch limit of L in a replay: every missing tile that
does not wait is failed with code 0x02 (R351). -/
def State.failStragglers (s : State) (i : SlabId) : State :=
  let r := s.root i
  if 0x05 ∈ r.codes ∧ 0 < (s.job i).overruns ∧ r.length ≤ r.stretchLimit then
    (s.devSlabs i).foldl (fun s k =>
      ((s.slab k).participants.filter (fun p =>
        !s.arrivedBy i k p 0 r.deadline && !(p.2.fwd.waiting && p.2.bwd.waiting && p.2.svc.waiting))).foldl
        (fun (s : State) (p : (Nat × Nat) × Tile) => s.tileFault (tileId k p.1.1 p.1.2) 0x02) s) s
  else s

/-- A hold stops the tiles and streams of a slab (R118, R237); each tile takes five free values for what its engines then hold. -/
def State.holdSlab (s : State) (k : SlabId) : State :=
  let n := s.free
  let s := s.modSlab k (fun sl =>
    (({ sl with tiles := sl.tiles.zipIdx.map (fun (p : ((Nat × Nat) × Tile) × Nat) => (p.1.1, p.1.2.hold sl.clocks.cycle (n + 5 * p.2))) }.holdStreams k).discardOwnStaged))
  { s with free := n + 5 * (s.slab k).tiles.length }

/-- The root enters a hold in a pitch of a kind. Between two steps the parks that wait for it are causes too (R355). -/
def State.enterHold (s : State) (i : SlabId) (kind : PitchKind) (mid : Bool) : State :=
  let s := s.failStragglers i
  let between := !(s.job i).inStep
  let past := decide (topCause (s.root i).codes = 0x05)
  let s := s.modRoot i (fun r =>
    { r with inHold := true, holdKind := kind, holdMidStep := mid, takenOver := false, routersEmpty := false
             causes := if between then r.causes ++ r.parks else r.causes, parks := if between then [] else r.parks })
  let s := (s.devSlabs i).foldl State.holdSlab s
  s.modSlab (s.dev i) (fun sl => (sl.count Ctr.HOLDS 1).count Ctr.PITCH_OVERRUNS (if past then 1 else 0))

/-- HOLD_ENTRY (R59, R46, R355): the root enters a hold for the causes reported to it. A park alone waits for
the tick that ends a step's last image pitch, or comes between steps. -/
def execHoldEntry (slab : SlabId) (s : State) : Result :=
  let r := s.root slab
  if !(s.slab (s.dev slab)).ready || !r.running || r.inHold || (r.causes.isEmpty && r.parks.isEmpty) then .next s
  else if r.causes.isEmpty then
    if s.pitchOver slab then
      let t := s.endPitch slab
      if (t.job slab).inStep then .next s else .next (t.enterHold slab .gate false)
    else .next s
  else .next (s.enterHold slab r.kind r.midStep)

/-- The fault code of a request. -/
def holdCodeByte : HoldCode → Byte
  | .sectorNone => 0x08
  | .stackPark => 0x09
  | .stackFailure => 0x0A
  | .controllerLost => 0x0B
  | .unitError => 0x0C
  | .engineSlot => 0x0D
  | .forcedStop => 0x19

/-- A park that waits for the boundary between two steps (R355). -/
def State.requestPark (s : State) (i : SlabId) (u : Fin 24) : State :=
  let c : Cause := { code := 0x09, slab := i, field := none, tile := none, unit := some u, stamp := s.stamp i }
  s.modRoot i (fun r => { r with parks := r.parks ++ [c] })

/-- HOLD_REQUEST (R46, R59): base camp requests a hold for a shelf or unit fault, a park, or a forced stop. -/
def execHoldRequest (slab : SlabId) (code : HoldCode) (unit : Fin 24) (s : State) : Result :=
  let sl := s.slab slab
  let st := sl.stack unit.val
  let cause := match code with
    | .stackPark => st.critical && decide (st.state = .good)
    | .stackFailure => decide (st.state = .failed)
    | .controllerLost => decide (st.state = .controllerLost)
    | .forcedStop => (s.job slab).stopAsked
    | _ => true
  let u := if code = .forcedStop then none else some unit
  let r := s.root slab
  let known := (r.causes ++ r.parks).any (fun c => decide (c.code = (holdCodeByte code)) && decide (c.slab = slab) && decide (c.unit = u))
  if sl.ready && decide (sl.camp.firmware = .running) && cause && !known then
    .next (if code = .stackPark then s.requestPark slab unit else s.raise slab (holdCodeByte code) u)
  else .next s

/-! ## Empty routers (R178) -/

/-- Every flit on the network that a router holds: what its local port has not injected yet is not. -/
def Router.flits (r : Router) : List Flit :=
  (r.inputs.filter (fun e => decide (e.1.1 ≠ .loc))).flatMap Prod.snd ++ r.eject
    ++ (r.outs.flatMap (fun o => o.2.pending)).map Prod.snd

/-- A router emptied; messages of the tile await no acknowledgement any more. -/
def Tile.emptyRouter (t : Tile) : Tile :=
  let n := t.router.flits.length
  { t with unacked := 0
           router := { t.router with inputs := [], eject := [], portal := [], acks := [], combine := []
                                     outs := t.router.outs.map (fun (o : Dir × LinkOut) => (o.1, { o.2 with pending := [] })) } }.count
    Ctr.HOLD_DISCARDS n

/-- ROUTERS_EMPTY (R178): every router has delivered what it could, discards the rest and reports empty. -/
def execRoutersEmpty (slab : SlabId) (s : State) : Result :=
  let done := (s.devSlabs slab).all (fun k => (s.slab k).tiles.all (fun p =>
    s.routerDead (tileId k p.1.1 p.1.2) || (p.2.router.eject.isEmpty && p.2.router.flits.all (s.discarded (tileId k p.1.1 p.1.2)))))
  if s.rootReady slab && (s.root slab).inHold && !(s.root slab).routersEmpty && done then
    .next ((s.modDev slab (fun sl => sl.mapTiles (fun _ _ t => t.emptyRouter))).modRoot slab (fun r => { r with routersEmpty := true }))
  else .next s

/-! ## Repairs in a hold (R346 to R348, R350, R364) -/

/-- The logical tile stands on another physical tile than in state `old`. -/
def State.displaced (old s : State) (k : SlabId) (x y : Nat) : Bool := decide (old.physical (tileId k x y) ≠ s.physical (tileId k x y))

/-- A tile that moved to another physical tile: its overlay slice has no contents (R22), and an idle one's banks are cleared
(R157). -/
def Tile.moved (t : Tile) : Tile :=
  { t.idleBanks with overlay := [], port := { t.port with moves := [] }, failed := false, router := { t.router with failed := [] } }

/-- The field awaits a repair; when an image is loaded a degraded tile in the array is a reason too (R152). -/
def Field.due (f : Field) (n : Nat) (load : Bool) : Bool := f.repairPending || (load && !(f.degradedIn n).isEmpty)

/-- The pending repair of a field set, when it is valid. -/
def State.repairField (s : State) (k : SlabId) (n : Nat) (load : Bool) : State :=
  let fd := (s.slab k).field n
  match (if fd.due n load && !fd.clamped && decide (n ∉ (s.slab k).lostFields) then fd.repair n load else none) with
  | none => s
  | some x =>
    let t := s.modSlab k (fun sl => (sl.modField n (fun f => f.setRepair x)).mapChanged)
    let gone := (fieldTiles n).filter (fun p => s.displaced t k p.1 p.2)
    let fixed := (gone.filter (fun p =>
      decide (s.physical (tileId k p.1 p.2) ∈ fd.failedTiles ∨ s.physical (tileId k p.1 p.2) ∈ fd.degradedTiles))).length
    let t := gone.foldl (fun (t : State) p => t.reclaimTile k (gx t.shared.mode (tileId k p.1 p.2)) p.2) t
    t.modSlab k (fun sl => (sl.mapTiles (fun x y t => if (x, y) ∈ gone then t.moved else t)).count Ctr.SPARE_REMAPS fixed)

/-- Every pending repair of the device that is valid. -/
def State.repairFields (s : State) (i : SlabId) (load : Bool) : State :=
  (s.devSlabs i).foldl (fun s k => (List.range 42).foldl (fun s n => s.repairField k n load) s) s

/-- The number of the placement the device's lost fields ask for: the one in force when none covers them. -/
def State.nextPlacement (s : State) (i : SlabId) (im : Image) : Nat := (s.choosePlacement i im).getD (s.job i).placement

/-- The field's repair is not valid: it is still pending, and the field is not lost. -/
def State.unrepaired (s : State) (k : SlabId) (n : Nat) : Bool :=
  let fd := (s.slab k).field n
  fd.repairPending && !fd.clamped && decide (n ∉ (s.slab k).lostFields)

/-- Fields in which a tile that ran an image program has stopped or failed, and whose repair is not valid (R20, R346). -/
def State.causeBroken (s : State) (i : SlabId) : List (SlabId × Nat) :=
  ((s.root i).causes.filterMap (fun c => match c.field with
    | none => none
    | some f => if (c.code = 0x01 ∨ c.code = 0x02) ∧ s.unrepaired c.slab (f.1.val + 7 * f.2.val) then some (c.slab, f.1.val + 7 * f.2.val)
      else none)).eraseDups

/-- Fields whose repair is not valid and of which the coming placement uses a failed position. -/
def State.brokenFields (s : State) (i : SlabId) : List (SlabId × Nat) :=
  match s.image i with
  | none => []
  | some im =>
    let number := s.nextPlacement i im
    (s.devSlabs i).flatMap (fun k =>
      match im.placements.find? (fun p => decide (p.number = number) && decide (p.slab = k)) with
      | none => []
      | some p =>
        ((List.range 42).filter (fun n =>
          s.unrepaired k n && ((s.slab k).field n).failedTiles.any (fun q =>
            match ((s.slab k).field n).logicalAt n q with
            | none => false
            | some t => (p.entryAt (gx s.shared.mode (tileId k t.1 t.2)) t.2).isSome))).map (fun n => (k, n)))

/-- A field whose repair is not valid is lost with code 0x04: base camp opens its fuse (R346). -/
def State.breakField (s : State) (k : SlabId) (n : Nat) : State :=
  let s := (s.loseField k n 3).modSlab k (fun sl => (sl.modField n (fun f => { f with fuseOpen := true })).count Ctr.FUSE_OPENS 1)
  s.raiseCause { code := 0x04, slab := k, field := some (⟨n % 7, Nat.mod_lt _ (by decide)⟩, ⟨n / 7 % 6, Nat.mod_lt _ (by decide)⟩)
                 tile := none, unit := none, stamp := s.stamp k }

/-- Broken fields lost until the placement uses none. -/
def State.settleFields (s : State) (i : SlabId) : Nat → State
  | 0 => s
  | m + 1 =>
    match s.brokenFields i with
    | [] => s
    | b :: bs => ((b :: bs).foldl (fun s x => s.breakField x.1 x.2) s).settleFields i m

/-- Fields that lost power, recorded as lost (R48, R363). -/
def State.losePowered (s : State) (i : SlabId) : State :=
  (s.root i).causes.foldl (fun s c =>
    match (if c.code = 0x03 then c.field else none) with
    | none => s
    | some f => s.loseField c.slab (f.1.val + 7 * f.2.val) 2) s

/-- Sequencers of every active tile set for the replay: program counters, registers, descriptors and
stores. -/
def State.reloadSequencers (s : State) (i : SlabId) : State :=
  (s.devSlabs i).foldl (fun s k =>
    match s.placement k with
    | none => s
    | some p =>
      let dx := if s.shared.mode = .joined then 112 * k.num else 0
      s.modSlab k (fun sl => p.entries.foldl (fun sl e => sl.modTile (e.x - dx) e.y (fun t =>
        { t with fwd := .load (p.storeImage e.progFwd), bwd := .load (p.storeImage e.progBwd)
                 svc := .load (p.storeImage e.progSvc) })) sl)) s

/-- Repairs, holes, the placement and the tiles of the device after faults; the number of switches is
counted. With an image that no placement of covers the lost fields, the placement stays and the lack is
noted. -/
def State.repairDevice (s : State) (i : SlabId) : State :=
  let old := s
  let s := s.losePowered i
  let s := s.repairFields i false
  let s := ((s.causeBroken i).foldl (fun s x => s.breakField x.1 x.2) s).settleFields i 84
  let s := s.setHoles i
  let fresh (k : SlabId) (x y : Nat) : Bool := old.displaced s k x y
  match s.image i with
  | none => s
  | some im =>
    let now := (s.job i).placement
    let s := s.modJob i (fun j => { j with missingPlacement := (s.choosePlacement i im).isNone })
    let number := s.nextPlacement i im
    let t := s.switchPlacement i im number false fresh
    let t := if number = now then t else t.modSlab (t.dev i) (fun sl => sl.count Ctr.FALLBACK_SWITCHES 1)
    let t := t.reloadSequencers i
    t.fillLocal i number (fun x y => decide (number ≠ now) || (match tileAt t.shared.mode i x y with
      | none => false
      | some q => fresh q.slab q.x.val q.y.val))

/-! ## Fault-log entries of a hold (R362, R475) -/

/-- The type code of the unit that a class names (Table 7.3). -/
def classUnit (code : Byte) : Nat := if code = 0x0C then 2 else if code = 0x0D then 4 else 1

/-- Object, block, journal field and sector of a torn block. -/
def Journal.detail (j : Journal) : List Byte := leBytes j.object 2 ++ leBytes j.block 4 ++ leBytes j.fieldPos 1 ++ leBytes j.sector 2

/-- The entry of a cause, without its action. -/
def State.causeEntry (s : State) (c : Cause) : FaultEntry :=
  let fieldByte := match c.field with
    | none => 0xFF
    | some f => BitVec.ofNat 8 (fieldIndex s.shared.mode c.slab f.1.val f.2.val)
  let base := { FaultEntry.basic c.code 0 with hold := true, field := fieldByte }
  match c.tile, c.field with
  | some p, some f =>
    let n := f.1.val + 7 * f.2.val
    match ((s.slab c.slab).field n).logicalAt n p with
    | none => { base with map := true }
    | some t => { s.tileEntry (tileId c.slab t.1 t.2) c.code 0 with hold := true }
  | _, _ => match c.unit with
    | none => { base with map := decide (c.code = 0x03 ∨ c.code = 0x04) }
    | some u =>
      let x := ((s.slab c.slab).stack u.val).unit
      { base with node := unitNode c.slab (classUnit c.code) u.val, aux := BitVec.ofNat 8 u.val
                  map := decide (c.code = 0x0A ∨ c.code = 0x0B)
                  detail := if c.code = 0x0C ∧ x.torn then x.journal.elim [] Journal.detail else [] }

/-- Entries of blocks torn by a reference loss. -/
def State.tornEntries (s : State) (i : SlabId) : List (SlabId × FaultEntry) :=
  if 0x13 ∈ (s.root i).codes then
    (s.devSlabs i).flatMap (fun k => stacks24.filterMap (fun u =>
      let x := ((s.slab k).stack u).unit
      if x.torn then x.journal.map (fun j =>
        (k, { FaultEntry.basic 0x13 4 with hold := true, node := unitNode k 2 u, detail := j.detail })) else none))
  else []

/-- The action of a cause: `t` is the device after repairs, and what the hold ended in. -/
def State.actionOf (s t : State) (i : SlabId) (switched replays paused : Bool) (c : Cause) : Byte :=
  let n := match c.field with
    | none => 42
    | some f => f.1.val + 7 * f.2.val
  let lost := decide (n ∈ (t.slab c.slab).lostFields)
  let fieldAction : Byte := if paused then 7 else if switched then 3 else 0
  if c.code = 0x01 ∨ c.code = 0x02 then
    if lost then (if n ∈ (s.slab c.slab).lostFields then 0 else fieldAction) else 2
  else if c.code = 0x19 ∨ (t.image i).isNone then 0
  else if c.code = 0x03 ∨ c.code = 0x04 then fieldAction
  else if paused then 7
  else if c.code = 0x0A ∨ c.code = 0x0B then 5
  else if replays then 4 else 0

/-- The entries of a hold's causes; a park and a lost col have theirs already. -/
def State.logCauses (s old : State) (i : SlabId) (causes : List Cause) (switched replays paused : Bool) : State :=
  let s := (causes.filter (fun c => decide (c.code ≠ 0x09 ∧ c.code ≠ 0x0F))).foldl (fun (s : State) c =>
    let e := old.causeEntry c
    s.logFaultAt c.slab c.stamp { e with action := old.actionOf s i switched replays paused c }) s
  (old.tornEntries i).foldl (fun s p => s.logFault p.1 p.2) s

/-! ## The pause for the host (R359, R387, R476) -/

/-- The device lacks what only the host can supply. -/
def Job.needsHost (j : Job) : Bool := j.missingPlacement || j.colLost || !j.lostPages.isEmpty

/-- The reason it pauses with. -/
def Job.hostReason (j : Job) : Reason := if j.missingPlacement || j.colLost then .recompileNeeded else .restoreNeeded

/-- The fault log names the lost pages, one entry each, and the records for the host are posted. -/
def State.askHost (s : State) (i : SlabId) (step : DWord) : State :=
  let j := s.job i
  let d := s.dev i
  let s := if j.missingPlacement || j.colLost then
      s.event (s.jobFn i) d evtRecompile (leBytes step.toNat 8 ++ leBytes (s.lostBits i) 16)
    else s
  if j.lostPages.isEmpty then s
  else
    let first := (s.slab d).camp.logSeq
    let s := j.lostPages.foldl (fun s v =>
      let stripe := match s.pte d v with
        | none => 0
        | some (_, e) => pteFrame e
      s.logFault d { FaultEntry.basic 0x18 7 with detail := leBytes v 8 ++ leBytes stripe 8 }) s
    s.event (s.jobFn i) d evtRestore (leBytes step.toNat 8 ++ leBytes first.toNat 8 ++ leBytes j.lostPages.length 4)

/-- The attempt in progress is void: pitches from its first to the present one (Table 13.2). -/
def LedgerRec.void (x : LedgerRec) (pitch : DWord) : LedgerRec :=
  { x with voidFirst := if x.replays = 0 then x.openStamp.pitch else x.replayPitch, voidLast := pitch }

/-- The step in progress is abandoned: its window closes without a contribution, and it runs again from its
start with the next replay number. -/
def State.abandonStep (s : State) (i : SlabId) : State :=
  let j := s.job i
  let pitch := (s.root i).pitch
  let own := match j.window with
    | none => false
    | some w => decide (w.1 = j.step)
  let s := if own then s.closeWindow i else s
  if j.inStep then
    let s := s.modLedger i j.step (fun x => x.void pitch)
    let s := s.modJob i (fun j => { j with inStep := false, replay := j.replay + 1, overruns := 0, ranOut := false, gateMet := false })
    let lim := s.stretchOf i
    s.modRoot i (fun r => { r with indexInStep := 0, stretchLimit := lim })
  else s

/-- A pause for the host: of a running job through PAUSING, of a paused or stopped one at once. -/
def State.pauseForHost (s : State) (i : SlabId) : State :=
  let d := s.dev i
  match (s.job i).state with
  | .running | .pausing =>
    let s := s.logFault d { FaultEntry.basic 0x18 7 with hold := true }
    let s := s.modSlab d (fun sl => sl.count Ctr.HOST_PAUSES 1)
    let s := s.modJob i (fun j => { j with hostPause := true })
    s.setJobState i .pausing (s.job i).hostReason
  | .paused => (s.setJobState i .paused (s.job i).hostReason).askHost i allOnes64
  | .empty | .loaded => s.askHost i allOnes64
  | .stopping => s

/-! ## The replay (R238, R277, R348, R351, R360) -/

/-- The pass-1 window of the step reopened with the next replay number, and logged landings landed again. -/
def State.reopenWindow (s : State) (i : SlabId) (n : DWord) (r : Nat) : State :=
  match (s.job i).window with
  | none => s
  | some _ =>
    let s := s.openWindow i n r
    (s.devSlabs i).foldl (fun s k => s.reland k n) s

/-- The step in progress set back to its start cairn. -/
def State.replayStep (s : State) (i : SlabId) (past : Bool) : State :=
  let j := s.job i
  let n := j.step
  let r := j.replay + 1
  let pitch := (s.root i).pitch
  let o := if past then j.overruns + 1 else 0
  let lim := min (s.pitchLength i) (max (s.stretchOf i) 64 * 2 ^ o)
  let s := s.modJob i (fun j => { j with replay := r, overruns := o, ranOut := false })
  let index := BitVec.ofNat 64 (n.toNat * s.stepPitches i)
  let s := s.modRoot i (fun x => { x with indexInStep := 0, schedIndex := index, stretchLimit := if past then lim else x.stretchLimit })
  let s := s.reopenWindow i n r
  let s := s.modLedger i n (fun x => { x.void pitch with replays := sat16 r, replayPitch := pitch + 1 })
  (s.modDev i (fun sl => sl.count Ctr.STEP_REPLAYS 1)).modSlab (s.dev i) (fun sl =>
    sl.count Ctr.OVERRUN_REPLAYS (if past then 1 else 0))

/-! ## Recovery (R343, R345) -/

/-- The hold replays the step: it fell in an image pitch, or in a maintenance pitch within a step. -/
def Root.holdReplays (r : Root) : Bool := decide (r.holdKind = .image) || (decide (r.holdKind = .maint) && r.holdMidStep)

/-- Base camp can recover the hold: its firmware serves, the routers are empty, every stack to be parked is,
and no block torn on a lost stack waits for its reset. -/
def State.canRecover (s : State) (i : SlabId) : Bool :=
  let r := s.root i
  s.rootReady i && r.inHold && r.routersEmpty
    && (s.devSlabs i).all (fun k => decide ((s.slab k).camp.firmware = .running)
      && stacks24.all (fun u => !(((s.slab k).stack u).state.lost && ((s.slab k).stack u).unit.torn)))
    && r.causes.all (fun c => decide (c.code ≠ 0x09) || (match c.unit with
      | none => true
      | some u => !(s.slab c.slab).stackUp u.val))

/-- One recovery of the hold's causes by base camp, up to the release that ends the hold. DESIGN CHOICE: the management belays of
a hold raise the phase (R59) but not the count of slab-scope releases that tags packets, which R53 does not settle; no tile sends
while they are issued. -/
def State.recover (s : State) (i : SlabId) : State :=
  let old := s
  let fresh := !(s.root i).takenOver
  let codes0 := (s.root i).codes
  let s := s.completeAllTorn i
  let number := (s.job i).placement
  let s := s.repairDevice i
  let causes := (s.root i).causes
  let switched := decide ((s.job i).placement ≠ number)
  let (m, s) := s.takeFree 4096
  let s := s.modRoot i (fun r => { r with phase := addSat16 r.phase m })
  let j := s.job i
  let stop := decide (j.state = .stopping) && (j.stopAsked || j.needsHost)
  let running := decide (j.state = .running ∨ j.state = .pausing ∨ j.state = .stopping)
  let paused := running && j.needsHost && decide (j.state ≠ .stopping)
  let replays := j.inStep && (s.root i).holdReplays && !stop && !paused
  let cause := topCause ((if fresh then [] else ((s.ledgerOf i j.step).map (fun x => x.cause)).toList) ++ causes.map (fun c => c.code))
  let s := if j.inStep then s.modLedger i j.step (fun x => { x with cause := cause, placement := BitVec.ofNat 16 j.placement }) else s
  let s := s.nextEpoch i
  let s := if replays && fresh then s.replayStep i (decide (0x05 ∈ codes0))
    else if stop || paused then s.abandonStep i else s
  let s := if j.needsHost && (paused || !running) then s.pauseForHost i else s
  let s := if running && !stop && !paused then s.resetDescriptors i else s.modJob i (fun j => { j with primed := [] })
  let s := causes.foldl (fun s c =>
    if c.code = 0x13 then s.modSlab c.slab (fun sl => sl.count Ctr.REFERENCE_LOSSES 1) else s) s
  let s := s.logCauses old i causes switched replays (paused || (j.needsHost && !running))
  s.modRoot i (fun r => { r with causes := [], takenOver := true })

/-- HOLD_RECOVERY (R343): base camp takes over the hold and recovers it; once its primed fetches have ended,
the release that ends the hold is issued. -/
def execHoldRecovery (slab : SlabId) (s : State) : Result :=
  if !s.canRecover slab then .next s
  else if !(s.root slab).causes.isEmpty || !(s.root slab).takenOver then .next (s.recover slab)
  else if s.holdOver slab then .next (s.endHold slab [] [])
  else .next s

end Sys2Proof.Machine
end

