-- ==== Sys2Proof/Machine/Words.lean ====
section
/-! DEFINITION. The validation of tile instruction words in an image (R76, R78, R95, R97, R105, R108, R109,
R124, R126, R128, R220, R222, R258). -/

namespace Sys2Proof.Machine

open Sys2Proof

/-- Bits [hi:lo] are 0. -/
def clearBits (w : IWord) (hi lo : Nat) : Bool := decide (bits w hi lo = 0)

/-- A format code that Table 3.1 defines. -/
def fmtCode (f : Nat) : Bool := decide (f ≤ 8)

/-- FP8 codes, and MXFP8 codes. -/
def fmtIsFp8 (f : Nat) : Bool := decide (f = 2 ∨ f = 3)
def fmtIsMxfp8 (f : Nat) : Bool := decide (f = 4 ∨ f = 5)

/-- A pair of formats in one order of Table 3.3. -/
def pairListed (a b : Nat) : Bool :=
  (fmtIsFp8 a && fmtIsFp8 b) || (fmtIsMxfp8 a && (fmtIsMxfp8 b || fmtIsFp8 b)) || (decide (a = 6) && (decide (b = 6) || fmtIsMxfp8 b))
    || decide (a = 7 ∧ b = 7) || decide (a = 1 ∧ b = 1) || decide (a = 7 ∧ b = 1)

/-- The operand pair of an MMA is allowed (R76). -/
def pairOk (a b : Nat) : Bool := pairListed a b || pairListed b a

/-- Control words (Table 4.2). -/
def controlOk (w : IWord) : Bool :=
  let imm := clearBits w 79 0
  match opOf w with
  | 0x00 => clearBits w 119 0
  | 0x01 => clearBits w 119 112 && imm && decide (ctlImm w ≠ 0)
  | 0x02 => clearBits w 115 112 && imm
  | 0x03 => imm
  | 0x04 => clearBits w 115 112 && imm
  | 0x05 => imm
  | 0x08 => clearBits w 119 92 && imm
  | 0x09 => clearBits w 115 92 && imm
  | 0x0C => (fillSeq w).isSome && clearBits w 116 96 && imm
  | 0x10 => clearBits w 119 86 && imm
  | _ => false

/-- Matrix words (Tables 4.3 to 4.5). -/
def matrixOk (w : IWord) : Bool :=
  match opOf w with
  | 0x40 => pairOk (mmaFmtA w) (mmaFmtB w) && clearBits w 73 0
  | 0x41 | 0x42 => clearBits w 98 0
  | 0x48 =>
    let d := mdescValue w
    decide (d.base.toNat < spRows) && decide (d.pitch ≠ 0) && decide (d.sbase.toNat < spBytes) && (d.t || !d.half) && clearBits w 44 0
  | _ => false

/-- Vector words (Tables 5.2 to 5.4). -/
def vectorOk (w : IWord) : Bool :=
  let op := opOf w
  if op = 0x80 then
    decide (vaccFirst w + vaccRows w ≤ 32) && decide (vaccOff w % 32 = 0) && decide (vaccOff w + 32 * vaccRows w ≤ 4096) && clearBits w 92 0
  else if vIsMem w then
    fmtCode (vmFmt w) && decide (vmBase w < spRows) && decide (vmOff w + vmNm1 w + 1 ≤ 4096) && decide (vmSbase w < spBytes)
      && decide (vmRm w ≤ (if op = 0xB1 then 1 else 0)) && clearBits w 35 0
  else if op = 0xB9 then clearBits w 119 112 && clearBits w 79 0
  else
    decide (vSeg w ≤ 12) && decide (vCmode w ≠ 3) && decide (vRm w ≤ 1) && clearBits w 72 0
      && (decide (op ∉ [0x98, 0x99, 0x9A]) || decide (vRm w = 0))
      && (decide (op ≠ 0xA9 ∧ op ≠ 0xAA) || (decide (vRm w = 0) && !vPrec w))
      && (decide (op ≠ 0xA8) || (decide (vD w ≠ vA w ∧ vD w ≠ vB w) && decide (vBmode w = 0)))

/-- Service words (Tables 9.3, 9.4, 10.4). -/
def serviceOk (w : IWord) : Bool :=
  let tail := clearBits w 42 0
  match opOf w with
  | 0x20 =>
    decide (sendKind w ≠ 3) && decide (sendSrow w < spRows) && (decide (sendKind w = 1) || decide (sendX1 w = 0 ∧ sendY1 w = 0))
      && (decide (sendKind w = 2) || decide (sendQueue w = 0)) && clearBits w 17 0
  | 0x24 => clearBits w 62 0
  | 0x28 | 0x29 => decide (stkRow w < spRows) && clearBits w 80 43 && tail
  | 0x2A => decide (stkRow w < spRows) && clearBits w 59 43 && tail
  | 0x2B => clearBits w 112 93 && clearBits w 80 43 && tail
  | 0x2C => clearBits w 112 60 && tail
  | _ => false

/-- A word of a store image keeps every condition of R95 that does not depend on its sequencer. -/
def wordOk (w : IWord) : Bool :=
  match opClass (opOf w) with
  | .control | .fill => controlOk w
  | .matrix => matrixOk w
  | .vector => vectorOk w
  | .service => serviceOk w
  | .reserved => false

/-- The context that a stack instruction names. -/
def wordContext (w : IWord) : Option Nat := if 0x28 ≤ opOf w ∧ opOf w ≤ 0x2C then some (stkCtx w) else none

/-- The channel that a BELAY names. -/
def wordChannel (w : IWord) : Option Nat := if opOf w = 0x10 then some (belayChannel w).val else none

end Sys2Proof.Machine
end

