-- ==== Sys2Proof/Machine/Ezmel.lean ====
section
/-! DEFINITION. The Ezmel image as bytes (R366 to R377): header, section table and the entries of its sections. -/

namespace Sys2Proof.Machine

open Sys2Proof

/-! ## Header and section table (Tables 14.1, 14.2) -/

/-- An entry of the section table, with its place in it. -/
structure Section where
  index : Nat
  type : Nat
  placement : Nat
  slab : Nat
  offset : Nat
  bytes : Nat
  count : Nat
  reserved : Nat
  deriving DecidableEq, Repr

/-- A number of `n` bytes at an offset of an image. -/
def imMagic (bs : List Byte) : Nat := leAt bs 0 4
def imVersion (bs : List Byte) : Nat := leAt bs 4 2
def imFlags (bs : List Byte) : Nat := leAt bs 6 2
def imLength (bs : List Byte) : Nat := leAt bs 8 8
def imSections (bs : List Byte) : Nat := leAt bs 16 4
def imTable (bs : List Byte) : Nat := leAt bs 20 4
def imDeclared (bs : List Byte) : Nat := leAt bs 32 16
def imPairs (bs : List Byte) : Nat := leAt bs 48 4
def imJoined (bs : List Byte) : Bool := decide (imFlags bs % 2 = 1)
def imSigned (bs : List Byte) : Bool := decide (imFlags bs / 2 % 2 = 1)

/-- Bytes of the image that its signature and its digest cover (R369, R372). -/
def imBody (bs : List Byte) : List Byte := if imSigned bs then bs.take (imLength bs - 160) else bs

/-- Entry `k` of the section table. -/
def imSection (bs : List Byte) (k : Nat) : Section :=
  let e := (bs.drop (imTable bs + 32 * k)).take 32
  { index := k, type := leAt e 0 2, placement := leAt e 2 2, slab := leAt e 4 1, offset := leAt e 8 8, bytes := leAt e 16 8
    count := leAt e 24 4, reserved := leAt e 5 3 + leAt e 28 4 }

/-- The section table. -/
def imTableEntries (bs : List Byte) : List Section := (List.range (imSections bs)).map (imSection bs)

/-- The contents of a section. -/
def Section.body (x : Section) (bs : List Byte) : List Byte := (bs.drop x.offset).take x.bytes

/-- Its entries of `n` bytes. -/
def Section.entries (x : Section) (bs : List Byte) (n : Nat) : List (List Byte) :=
  (List.range x.count).map (fun k => (bs.drop (x.offset + n * k)).take n)

/-- Bytes of an entry of a section type; 0 when entries have no fixed size. -/
def entrySize (type : Nat) : Nat :=
  match type with
  | 0x01 => 32
  | 0x02 => 64
  | 0x03 => 128
  | 0x04 => 2
  | 0x05 => 8
  | 0x06 => 32
  | 0x07 => 32
  | 0x08 => 32
  | 0x10 => 64
  | 0x11 => 32
  | 0x12 => 65536
  | 0x13 => 4
  | 0x14 => 64
  | 0x15 => 32
  | _ => 0

/-- Reserved bytes of an entry, as (offset, size). -/
def reservedBytes (type : Nat) : List (Nat × Nat) :=
  match type with
  | 0x01 => [(20, 12)]
  | 0x02 => [(0x15, 1), (0x1A, 38)]
  | 0x03 => [(6, 2), (0x20, 32)]
  | 0x05 => [(3, 5)]
  | 0x06 => [(0x12, 14)]
  | 0x07 => [(6, 2)]
  | 0x08 => [(1, 1), (0x0C, 20)]
  | 0x10 => [(2, 2), (0x28, 24)]
  | 0x11 => [(2, 2), (7, 1), (9, 1), (0x0E, 2)]
  | 0x14 => [(0x16, 2), (0x2E, 2), (0x38, 8)]
  | 0x15 => [(6, 2), (0x0E, 2), (0x17, 1), (0x1C, 4)]
  | _ => []

/-- Every reserved byte of an entry is 0. -/
def reservedZero (type : Nat) (e : List Byte) : Bool := (reservedBytes type).all (fun p => decide (leAt e p.1 p.2 = 0))

/-! ## Entries -/

/-- Table 2.1. -/
def parsePitch (e : List Byte) : PitchParams :=
  { length := leAt e 0 4, margin := leAt e 4 4, stretchLimit := leAt e 8 4, maintLength := leAt e 12 4
    maintIntervalLog2 := leAt e 16 1, joined := decide (leAt e 17 1 % 2 = 1), flagsReserved := leAt e 17 1 / 2
    phaseBelays := leAt e 18 2, reserved := leAt e 20 12 }

/-- Table 14.4. -/
def parseStep (e : List Byte) : StepSection :=
  { stepLength := leAt e 0 4, microbatches := leAt e 4 2, split := BitVec.ofNat 16 (leAt e 6 2), gate := leAt e 8 4
    maxNorm := BitVec.ofNat 32 (leAt e 12 4), skipNorm := BitVec.ofNat 32 (leAt e 16 4), fp8Overflow := leAt e 20 1
    feeds := leAt e 22 2, diffGroup := BitVec.ofNat 16 (leAt e 24 2), reserved := leAt e 21 1 + leAt e 26 38 }

/-- Table 11.1. -/
def parseUpdate (e : List Byte) : UpdateDesc :=
  let f (o : Nat) : Word := BitVec.ofNat 32 (leAt e o 4)
  { rule := leAt e 0 1, wfmt := leAt e 1 1, mfmt := leAt e 2 1, flags := leAt e 3 1, group := BitVec.ofNat 16 (leAt e 4 2)
    accum := leAt e 6 1, lr := f 8, wd := f 12, beta1 := f 16, beta2 := f 20, eps := f 24, eta := f 28, delta0 := f 32
    rootInterval := leAt e 36 2, copy := BitVec.ofNat 16 (leAt e 38 2), firstPos := leAt e 40 4, nblocks := leAt e 44 4
    reserved := leAt e 7 1 + leAt e 48 16 }

/-- Table 14.7. -/
def parseObject (e : List Byte) : ObjectEntry :=
  { object := leAt e 0 2, cls := leAt e 2 1, prot := leAt e 3 1, hint := leAt e 4 1, flags := leAt e 5 1, base := leAt e 8 8
    size := leAt e 16 8, stack0 := leAt e 24 2, replicas := leAt e 26 2, dataOffset := leAt e 28 4
    reserved := leAt e 6 2 + leAt e 32 32, update := parseUpdate (e.drop 64) }

/-- Table 10.1. -/
def parseContext (e : List Byte) : ContextEntry :=
  { valid := decide (leAt e 0 1 % 2 = 1), segBase := leAt e 1 1, segFrames := leAt e 2 1
    reserved := leAt e 0 1 / 2 + leAt e 3 5 }

/-- Table 12.12. -/
def parseCollective (e : List Byte) : Collective :=
  { object := leAt e 0 2, bb := leAt e 2 1, window := leAt e 3 1, nbuckets := leAt e 4 4, bpr := leAt e 8 4
    group := leAt e 12 2, log := leAt e 14 2, land := leAt e 16 2, reserved := leAt e 18 14 }

/-- Table 12.11. -/
def parseWindow (e : List Byte) : WindowEntry :=
  { kind := leAt e 0 1, opened := decide (leAt e 1 1 % 2 = 1), flagsReserved := leAt e 1 1 / 2
    epoch := BitVec.ofNat 16 (leAt e 2 2), object := leAt e 4 2, base := leAt e 8 8, size := leAt e 16 8
    openAt := leAt e 24 4, closeAt := leAt e 28 4, reserved := leAt e 6 2 }

/-- Table 14.8. -/
def parseFeed (e : List Byte) : FeedEntry :=
  { queue := leAt e 0 1, object := leAt e 2 2, slotBytes := leAt e 4 4, slots := leAt e 8 2, perStep := leAt e 10 2
    reserved := leAt e 1 1 + leAt e 12 20 }

/-- Table 9.5. -/
def parseStream (e : List Byte) : StreamDesc :=
  let fl := leAt e 2 1
  { mode := leAt e 0 1 % 16, memFmt := leAt e 1 1 % 16, meshFmt := leAt e 1 1 / 16, mcast := decide (fl % 2 = 1)
    towardZero := decide (fl / 2 % 2 = 1), remote := decide (fl / 4 % 2 = 1), commit := decide (fl / 8 % 2 = 1)
    depth := leAt e 3 1, object := leAt e 4 2, ctr := leAt e 6 1 % 16, atomop := leAt e 7 1 % 16, runBytes := leAt e 8 4
    runs := leAt e 12 4, rstride := leAt e 16 6, x0 := leAt e 24 1, y0 := leAt e 25 1, x1 := leAt e 26 1, y1 := leAt e 27 1
    drow := leAt e 28 2, dstride := leAt e 30 2, dsbase := leAt e 32 4, dflip := leAt e 36 2, waitph := leAt e 38 2
    dstart := leAt e 40 4, arm0 := leAt e 44 2, start0 := leAt e 48 8
    reserved := leAt e 0 1 / 16 + fl / 16 + leAt e 6 1 / 16 + leAt e 7 1 / 16 + leAt e 22 2 + leAt e 46 2 + leAt e 56 8 }

/-- Table 9.6. -/
def parseArm (e : List Byte) : ArmRecord :=
  { ebase := leAt e 0 6, sbase := leAt e 8 6, padv := leAt e 16 4, npass := leAt e 20 2, period := leAt e 22 1
    gap := leAt e 24 2, next := leAt e 26 2, reserved := leAt e 6 2 + leAt e 14 2 + leAt e 23 1 + leAt e 28 4 }

/-- Belay membership (R375). -/
def parseMember (e : List Byte) : Member :=
  let v := leAt e 0 4
  { ch := v / 2 ^ 24 % 64, x := v / 2 ^ 16 % 256, y := v / 2 ^ 9 % 128, seqs := BitVec.ofNat 3 v
    reserved := v / 2 ^ 3 % 64 + v / 2 ^ 30 }

/-- Table 14.6. -/
def parseTile (e : List Byte) : TileEntry :=
  { x := leAt e 0 1, y := leAt e 1 1, banks := BitVec.ofNat 24 (leAt e 4 3), stack := leAt e 8 1, bufRows := leAt e 10 2
    bufBase := leAt e 12 2, progFwd := BitVec.ofNat 32 (leAt e 16 4), progBwd := BitVec.ofNat 32 (leAt e 20 4)
    progSvc := BitVec.ofNat 32 (leAt e 24 4), resident := BitVec.ofNat 32 (leAt e 28 4) }

/-- A store image: words 0 to 4,095. -/
def parseStore (e : List Byte) : List IWord := (List.range 4096).map (fun k => BitVec.ofNat 128 (leAt e (16 * k) 16))

/-- Runs of resident rows one after another: first row and row count of 4 bytes each, then the rows. -/
def parseRuns : Nat → List Byte → List (Nat × List Row)
  | 0, _ => []
  | _ + 1, [] => []
  | k + 1, b :: bs =>
    let e := b :: bs
    let n := leAt e 4 4
    (leAt e 0 4, (List.range n).map (fun j => rowOfBytes ((e.drop (8 + 64 * j)).take 64))) :: parseRuns k (e.drop (8 + 64 * n))

/-- The runs that belong to a tile: from its first one up to the first one of another tile. -/
def tileRuns (starts : List Nat) (first count : Nat) : List Nat :=
  let end_ := starts.foldl (fun m x => if first < x ∧ x < m then x else m) count
  (List.range (end_ - first)).map (first + ·)

/-- The resident rows of a placement, by tile. -/
def residentRows (es : List TileEntry) (runs : List (Nat × List Row)) : List (Nat × Nat × Nat × Row) :=
  let starts := (es.filter (fun e => decide (e.resident ≠ BitVec.allOnes 32))).map (fun e => e.resident.toNat)
  es.flatMap (fun e =>
    if e.resident = BitVec.allOnes 32 then []
    else (tileRuns starts e.resident.toNat runs.length).flatMap (fun k => match runs[k]? with
      | none => []
      | some r => r.2.zipIdx.map (fun p => (e.x, e.y, r.1 + p.2, p.1))))

/-! ## The whole image -/

/-- The first section of a type, for image scope, or of a placement and slab. -/
def imFind (ss : List Section) (type : Nat) : Option Section := ss.find? (fun x => decide (x.type = type))
def imFindOf (ss : List Section) (type placement slab : Nat) : Option Section :=
  ss.find? (fun x => decide (x.type = type) && decide (x.placement = placement) && decide (x.slab = slab))

/-- The entries of an optional section. -/
def optEntries (x : Option Section) (bs : List Byte) (n : Nat) : List (List Byte) := x.elim [] (fun x => x.entries bs n)

/-- A placement from its header's section. `fn` is the slab of a split-mode image. -/
def parsePlacement (bs : List Byte) (ss : List Section) (joined : Bool) (fn : SlabId) (h : Section) : Placement :=
  let e := (bs.drop h.offset).take 64
  let of (t : Nat) : Option Section := imFindOf ss t h.placement h.slab
  let es := (optEntries (of 0x11) bs 32).map parseTile
  let runs := (of 0x16).elim [] (fun x => parseRuns x.count (x.body bs))
  let mine := ss.filter (fun x => decide (0x10 ≤ x.type) && decide (x.placement = h.placement))
  { number := h.placement, slab := if joined then (if h.slab = 1 then .s1 else .s0) else fn, stepLength := leAt e 4 4
    pitchLength := leAt e 8 4, margin := leAt e 12 4, stretchLimit := leAt e 16 4, tiles := leAt e 20 4, covers := leAt e 24 16
    reserved := leAt e 2 2 + leAt e 40 24, entries := es, stores := (optEntries (of 0x12) bs 65536).map parseStore
    members := (optEntries (of 0x13) bs 4).map parseMember, streams := (optEntries (of 0x14) bs 64).map parseStream
    arms := (optEntries (of 0x15) bs 32).map parseArm, resident := residentRows es runs
    digest := Config.shake256 (mine.flatMap (fun x => x.body bs)) }

/-- The image that bytes spell. -/
def parseImage (bs : List Byte) (fn : SlabId) : Image :=
  let ss := imTableEntries bs
  let one (t n : Nat) : List Byte := ((optEntries (imFind ss t) bs n).head?).getD []
  { joined := imJoined bs, signed := imSigned bs
    keyId := if imSigned bs then (bs.drop (imLength bs - 160)).take 16 else List.replicate 16 0
    declaredLost := imDeclared bs, pairs := imPairs bs, pitch := parsePitch (one 1 32), step := parseStep (one 2 64)
    objects := (optEntries (imFind ss 3) bs 128).map parseObject
    updateList := (optEntries (imFind ss 4) bs 2).map (fun e => leAt e 0 2)
    contexts := (optEntries (imFind ss 5) bs 8).map parseContext
    collectives := (optEntries (imFind ss 6) bs 32).map parseCollective
    windows := (optEntries (imFind ss 7) bs 32).map parseWindow, feeds := (optEntries (imFind ss 8) bs 32).map parseFeed
    data := (imFind ss 9).elim [] (fun x => x.body bs)
    placements := (ss.filter (fun x => decide (x.type = 0x10))).map (parsePlacement bs ss (imJoined bs) fn)
    digest := Config.shake256 (imBody bs) }

end Sys2Proof.Machine
end

