-- ==== Sys2Proof/Machine/FlashStore.lean ====
section
/-! DEFINITION. Flash records (R424 to R426), the persistent fault map as bytes (R363, R402) and its commit, and
the settings that records hold (Tables 16.6, 17.3). -/

namespace Sys2Proof.Machine

open Sys2Proof

/-! ## Records -/

/-- The record of a type in force: the committed one with the highest SEQ in either region (R425). -/
def Flash.record (fl : Flash) (type : Nat) : Option FlashRec :=
  (fl.regionA ++ fl.regionB).foldl (fun b r =>
    if r.committed && decide (r.type.toNat = type) then
      match b with
      | none => some r
      | some x => if x.seq.toNat ≤ r.seq.toNat then some r else b
    else b) none

/-- Bytes a record takes: its header and its payload padded to 64 bytes. -/
def FlashRec.size (r : FlashRec) : Nat := 32 + (r.payload.length + 63) / 64 * 64

/-- The SEQ of the next record. -/
def Flash.nextSeq (fl : Flash) : DWord :=
  (fl.regionA ++ fl.regionB).foldl (fun (n : DWord) r => if n.toNat ≤ r.seq.toNat then r.seq + 1 else n) 0

/-- The region to which records are appended. -/
def Flash.active (fl : Flash) : List FlashRec := if fl.activeB then fl.regionB else fl.regionA

/-- A committed record appended to the active region. -/
def Flash.append (fl : Flash) (type : Nat) (payload : List Byte) : Flash :=
  let r : FlashRec := { type := BitVec.ofNat 16 type, seq := fl.nextSeq, payload := payload, committed := true }
  if fl.activeB then { fl with regionB := fl.regionB ++ [r] } else { fl with regionA := fl.regionA ++ [r] }

/-- Fewer than 64 KiB remain in the active region (R426). -/
def Flash.nearFull (fl : Flash) : Bool := decide (4194304 < (fl.active.map FlashRec.size).foldl (· + ·) 0 + 65536)

/-- The types that have a record in force. -/
def Flash.types (fl : Flash) : List Nat :=
  (fl.regionA ++ fl.regionB).foldl (fun ts r => if r.committed then insertNew r.type.toNat ts else ts) []

/-- Compaction: the other region erased, the record in force of every type copied there, the old region
erased last (R426). -/
def Flash.compact (fl : Flash) : Flash :=
  let kept := fl.types.filterMap (fun t => (fl.record t).map (fun r => (t, r.payload)))
  let start := fl.nextSeq
  let copies := kept.zipIdx.map (fun p =>
    ({ type := BitVec.ofNat 16 p.1.1, seq := start + BitVec.ofNat 64 p.2, payload := p.1.2, committed := true } : FlashRec))
  if fl.activeB then { fl with regionA := copies, regionB := [], activeB := false }
  else { fl with regionA := [], regionB := copies, activeB := true }

/-- A record written to a slab's flash and committed, with the compaction that it brings on. -/
def Slab.writeRecord (sl : Slab) (type : Nat) (payload : List Byte) : Slab :=
  let fl := sl.camp.flash.append type payload
  let full := fl.nearFull
  let sl := (sl.modCamp (fun c => { c with flash := if full then fl.compact else fl })).count Ctr.FLASH_RECORDS_WRITTEN
    (if full then 1 + fl.types.length else 1)
  sl.count Ctr.FLASH_COMPACTIONS (if full then 1 else 0)

/-- The committed mode (R4, R32). -/
def Flash.mode (fl : Flash) : Mode :=
  match fl.record 2 with
  | none => .split
  | some r => if leAt r.payload 0 1 = 1 then .joined else .split

/-- The minimum firmware security version. -/
def Flash.minSvn (fl : Flash) : Nat := (fl.record 6).elim 0 (fun r => leAt r.payload 0 4)

/-- The security-settings payload in force (Table 17.3); none when no record exists. -/
def Flash.settings (fl : Flash) : Option (List Byte) := (fl.record 4).map (fun r => r.payload)

/-- REQUIRE of the settings. -/
def settingsRequire (bs : List Byte) : Bool := decide (leAt bs 0 1 % 2 = 1)

/-- A settings payload that R439 calls unreadable: it requires a signature that no key can satisfy. -/
def settingsUnreadable (bs : List Byte) : Bool :=
  let keys := leAt bs 1 1
  (settingsRequire bs && decide (keys = 0)) || decide (8 < keys) || decide (leAt bs 0 1 / 2 ≠ 0) || decide (leAt bs 2 14 ≠ 0)
    || (List.range keys).any (fun k => decide (leAt bs (0x59 + 80 * k) 7 ≠ 0))

/-- The public key enrolled under a KEY_ID. -/
def settingsKey (bs : List Byte) (id : List Byte) : Option (List Byte) :=
  ((List.range (leAt bs 1 1)).find? (fun k => decide ((bs.drop (0x10 + 80 * k)).take 16 = id))).map
    (fun k => (bs.drop (0x20 + 80 * k)).take 57)

/-! ## The persistent fault map (Tables 13.5, 13.8, R402) -/

/-- Shift starts as bytes, 0xFF where there is none. -/
def shiftBytes (l : List (Fin 17 × Fin 17)) : List Byte :=
  (List.range 17).map (fun k => match l.find? (fun p => decide (p.1.val = k)) with
    | none => 0xFF
    | some p => BitVec.ofNat 8 p.2.val)

/-- Physical tiles as a bitmap: bit 17 r + c. -/
def tileBitmap (ts : List PhysTile) : List Byte := leBytes (ts.foldl (fun n p => n ||| 2 ^ (17 * p.2.val + p.1.val)) 0) 37

/-- The entry of a field. -/
def Field.mapEntry (f : Field) : List Byte :=
  [BitVec.ofNat 8 f.state, if f.factory then 1 else 0, 0, 0] ++ leBytes f.lostPowerOn.toNat 4 ++ leBytes f.lostPitch.toNat 8
    ++ shiftBytes f.rowShift ++ shiftBytes f.colShift ++ [0, 0] ++ tileBitmap f.failedTiles ++ tileBitmap f.degradedTiles ++ [0, 0]

/-- The code of a stack's state in the map. -/
def StackState.mapCode : StackState → Nat
  | .good => 0
  | .parked => 1
  | .failed => 2
  | .controllerLost => 3

/-- The entry of a stack. -/
def Stack.mapEntry (st : Stack) : List Byte :=
  BitVec.ofNat 8 st.state.mapCode :: List.replicate 15 0 ++ (st.changed.elim (List.replicate 16 0) Stamp.bytes)

/-- The number of a mesh port in the map. -/
def dirMapCode : Dir → Nat
  | .west => 0
  | .east => 1
  | .south => 2
  | .north => 3

/-- The failed mesh links of a slab, by physical coordinate, field and port. -/
def Slab.failedLinks (sl : Slab) : List (PhysTile × Nat × Dir) :=
  sl.tiles.flatMap (fun p =>
    let n := fieldOf p.1.1 p.1.2
    let ph := physicalOf (sl.field n) (p.1.1 / 16) (p.1.2 / 16) (p.1.1 % 16) (p.1.2 % 16)
    p.2.router.failed.map (fun d => (ph, n, d)))

/-- The persistent fault map of slab `k` in the order of R402. -/
def State.mapBytes (s : State) (k : SlabId) : List Byte :=
  let sl := s.slab k
  let links := sl.failedLinks
  (List.range 42).flatMap (fun n => (sl.field n).mapEntry) ++ stacks24.flatMap (fun n => (sl.stack n).mapEntry)
    ++ (List.range 16).map (fun p => ~~~(sl.port p).working)
    ++ leBytes (s.shared.colLanes.foldl (fun n l => n ||| 2 ^ l.val) 0) 12 ++ leBytes links.length 4
    ++ links.flatMap (fun l => [BitVec.ofNat 8 (dirMapCode l.2.2), BitVec.ofNat 8 l.2.1, BitVec.ofNat 8 l.1.2.val, BitVec.ofNat 8 l.1.1.val])

/-- The shift starts that bytes spell. -/
def parseShifts (bs : List Byte) : List (Fin 17 × Fin 17) :=
  (List.range 17).filterMap (fun k =>
    let v := leAt bs k 1
    if v < 17 then some (⟨k % 17, Nat.mod_lt _ (by decide)⟩, ⟨v % 17, Nat.mod_lt _ (by decide)⟩) else none)

/-- The physical tiles that a bitmap names. -/
def parseBitmap (bs : List Byte) : List PhysTile :=
  let n := leNat (bs.take 37)
  (List.range 289).filterMap (fun j =>
    if n.testBit j then some (⟨j % 17, Nat.mod_lt _ (by decide)⟩, ⟨j / 17 % 17, Nat.mod_lt _ (by decide)⟩) else none)

/-- A field as its entry records it, in the state it has at a start: its stage off and its fuse armed unless it is lost. -/
def parseField (e : List Byte) : Field :=
  { Field.reset with
    state := leAt e 0 1, factory := decide (leAt e 1 1 % 2 = 1), lostPowerOn := BitVec.ofNat 32 (leAt e 4 4)
    lostPitch := BitVec.ofNat 64 (leAt e 8 8), rowShift := parseShifts (e.drop 0x10), colShift := parseShifts (e.drop 0x21)
    failedTiles := parseBitmap (e.drop 0x34), degradedTiles := parseBitmap (e.drop 0x59)
    fuseOpen := decide (2 ≤ leAt e 0 1), clamped := decide (2 ≤ leAt e 0 1) }

/-- A stamp from its bytes (Table 2.5). -/
def parseStamp (e : List Byte) : Stamp :=
  { powerOn := BitVec.ofNat 32 (leAt e 0 4), phase := BitVec.ofNat 16 (leAt e 4 2), slab := if leAt e 6 1 = 1 then .s1 else .s0
    maint := decide (leAt e 7 1 % 2 = 1), hold := decide (leAt e 7 1 / 2 % 2 = 1), idle := decide (leAt e 7 1 / 4 % 2 = 1)
    pitch := BitVec.ofNat 64 (leAt e 8 8) }

/-- A stack as its entry records it. -/
def parseStack (e : List Byte) : Stack :=
  { Stack.reset with
    state := (match leAt e 0 1 with | 0 => .good | 1 => .parked | 2 => .failed | _ => .controllerLost)
    changed := if (e.drop 16).take 16 = List.replicate 16 0 then none else some (parseStamp (e.drop 16)) }

/-- The map in force at a start: the flash record, or the factory fault map, which is empty when the identity
record or the map's digest fails (R433, R434). -/
def Flash.map (fl : Flash) : List Byte :=
  match fl.record 3 with
  | some r => r.payload
  | none => if Config.shake256 fl.factoryMap = (fl.identity.drop 0x80).take 64 then fl.factoryMap else []

/-- The identity record fails its MAGIC or CRC (R434). -/
def Flash.identityFails (fl : Flash) : Bool :=
  decide (leAt fl.identity 0 4 ≠ 0x44495A58) || decide (leAt fl.identity 0x6FC 4 ≠ (crc32 (fl.identity.take 0x6FC)).toNat)

/-- Fields, stacks, ports and failed links of a slab as a map records them. -/
def Slab.readMap (sl : Slab) (bs : List Byte) : Slab :=
  if bs = [] then sl
  else
    let links := 42 * 128 + 24 * 32 + 16 + 12
    let sl := { sl with fields := (List.range 42).map (fun n => (n, parseField (bs.drop (128 * n))))
                        stackList := stacks24.map (fun n => (n, parseStack (bs.drop (42 * 128 + 32 * n)))) }
    let sl := { sl with lostFields := (List.range 42).filter (fun n => decide (2 ≤ (sl.field n).state)) }
    let sl := (List.range 16).foldl (fun (sl : Slab) p =>
      sl.modPort p (fun q => { q with working := ~~~(BitVec.ofNat 8 (leAt bs (42 * 128 + 24 * 32 + p) 1)) })) sl
    (List.range (leAt bs links 4)).foldl (fun (sl : Slab) j =>
      let e := (bs.drop (links + 4 + 4 * j)).take 4
      let n := leAt e 1 1
      let d : Dir := match leAt e 0 1 with | 0 => .west | 1 => .east | 2 => .south | _ => .north
      match (sl.field n).logicalAt n (⟨leAt e 3 1 % 17, Nat.mod_lt _ (by decide)⟩, ⟨leAt e 2 1 % 17, Nat.mod_lt _ (by decide)⟩) with
      | none => sl
      | some t => sl.modTile t.1 t.2 (fun tl => { tl with router := { tl.router with failed := insertNew d tl.router.failed } })) sl

/-- The failed col lanes that a map records. -/
def mapColLanes (bs : List Byte) : List (Fin 96) :=
  let n := leAt bs (42 * 128 + 24 * 32 + 16) 12
  (List.range 96).filterMap (fun l => if n.testBit l then some ⟨l % 96, Nat.mod_lt _ (by decide)⟩ else none)

/-- FAULT_MAP_COMMIT: while the firmware runs, a changed map is written as a flash record, commit word last. -/
def execFaultMapCommit (slab : SlabId) (s : State) : Result :=
  let c := (s.slab slab).camp
  if decide (c.firmware = .running) && c.mapPending then
    let bs := s.mapBytes slab
    .next (s.modSlab slab (fun sl => (sl.writeRecord 3 bs).modCamp (fun c => { c with mapPending := false })))
  else .next s

end Sys2Proof.Machine
end

