-- ==== Sys2Proof/Machine/Mailbox.lean ====
section
/-! DEFINITION. The mailbox as the firmware serves it (R392 to R401): the request header, the checks before a
command runs, responses and completion records. -/

namespace Sys2Proof.Machine

open Sys2Proof

/-! ## Requests (Table 15.3) -/

/-- A request: the fields of its header and its inline payload. -/
structure Request where
  opcode : Nat
  flags : Nat
  tag : Half
  length : Nat
  hostAddr : Nat
  hostLen : Nat
  reserved : Nat
  payload : List Byte
  deriving DecidableEq, Repr

def Request.force (r : Request) : Bool := r.flags.testBit 0
def Request.hostbuf (r : Request) : Bool := r.flags.testBit 1
def Request.bar2 (r : Request) : Bool := r.flags.testBit 2
def Request.unload (r : Request) : Bool := r.flags.testBit 3

/-- The number of `n` bytes at an offset of the payload. -/
def Request.arg (r : Request) (off n : Nat) : Nat := leAt r.payload off n

/-- The request in a mailbox's request buffer. -/
def Mailbox.take (m : Mailbox) : Request :=
  let h := Cells.readN m.request 0 32
  { opcode := leAt h 0 2, flags := leAt h 2 2, tag := BitVec.ofNat 16 (leAt h 4 2), length := leAt h 8 4, hostAddr := leAt h 16 8
    hostLen := leAt h 24 4, reserved := leAt h 6 2 + leAt h 12 4 + leAt h 28 4
    payload := Cells.readN m.request 32 (min (leAt h 8 4) 4064) }

/-- Mailbox `m` of a function. -/
def Func.mailbox (f : Func) (m : Fin 4) : Mailbox :=
  match m with
  | 0 => f.m0
  | 1 => f.m1
  | 2 => f.m2
  | 3 => f.m3

/-- The function with mailbox `m` changed. -/
def Func.modMailbox (f : Func) (m : Fin 4) (g : Mailbox → Mailbox) : Func :=
  match m with
  | 0 => { f with m0 := g f.m0 }
  | 1 => { f with m1 := g f.m1 }
  | 2 => { f with m2 := g f.m2 }
  | 3 => { f with m3 := g f.m3 }

/-- The four mailboxes. -/
def mailboxes : List (Fin 4) := [0, 1, 2, 3]

/-! ## Status codes (Table 15.6) -/

def stOk : Byte := 0x00
def stAccepted : Byte := 0x01
def stDeferred : Byte := 0x02
def stBusy : Byte := 0x10
def stRefusedState : Byte := 0x11
def stBadOpcode : Byte := 0x12
def stBadArg : Byte := 0x13
def stNoSpace : Byte := 0x14
def stNotFound : Byte := 0x15
def stAuthFail : Byte := 0x20
def stImageInvalid : Byte := 0x21
def stInternal : Byte := 0x30

/-! ## The command table (Tables 15.5, 14.10; R31) -/

/-- The mailboxes on which an opcode may be sent; none for an opcode the table does not list. -/
def commandMailboxes (op : Nat) : Option (List Nat) :=
  if op ∈ [0x01, 0x02] then some [0, 1, 2, 3]
  else if op ∈ [0x10, 0x11, 0x20, 0x21, 0x22, 0xA0, 0xC0] then some [1]
  else if op ∈ [0x30, 0x31, 0x32, 0x33, 0x34] then some [0, 1]
  else if op ∈ [0x40, 0x41, 0x42, 0x50] then some [2]
  else if op ∈ [0x43, 0x80, 0x81] then some [2, 3]
  else if op ∈ [0x60, 0x61, 0x70, 0x71, 0x72, 0x90, 0xB0] then some [3]
  else none

/-- Commands that take bulk input. -/
def takesBulk (op : Nat) : Bool := decide (op ∈ [0x10, 0x11, 0x20, 0x71, 0xB0])

/-- Commands that a joined device accepts on function 0 only (R31). -/
def isJobCommand (op : Nat) : Bool := decide (op ∈ [0x10, 0x11, 0x20, 0x21, 0x22, 0x30, 0x31, 0x32, 0x33, 0x34, 0xC0])

/-- Commands that Table 14.10 restricts by state. -/
def isRestricted (op : Nat) : Bool := decide (op ∈ [0x10, 0x20, 0x21, 0x22, 0x30, 0x31, 0x32, 0x33, 0x34, 0xC0, 0x90])

/-- Table 14.10. -/
def stateAllows (op : Nat) (st : JobState) : Bool :=
  if op = 0x10 ∨ op = 0x20 ∨ op = 0x21 then decide (st = .empty ∨ st = .loaded ∨ st = .paused)
  else if op = 0x22 ∨ op = 0xC0 then decide (st ≠ .empty)
  else if op = 0x30 then decide (st = .loaded)
  else if op = 0x31 then decide (st = .running ∨ st = .pausing ∨ st = .paused)
  else if op = 0x32 ∨ op = 0x34 then decide (st = .running ∨ st = .pausing ∨ st = .paused)
  else if op = 0x33 then decide (st ≠ .empty)
  else true

/-- The inline payload length that a command's payload defines (R398). -/
def payloadLength (r : Request) : Nat :=
  let op := r.opcode
  if op = 0x10 ∨ op = 0x11 ∨ op = 0x41 ∨ op = 0xA0 then 16
  else if op = 0x20 then 128
  else if op = 0x21 then 2
  else if op = 0x22 ∨ op = 0x70 ∨ op = 0xC0 then 4
  else if op = 0x30 then 8
  else if op = 0x34 then 24
  else if op = 0x40 then 10
  else if op = 0x42 ∨ op = 0x43 then 6 + 2 * r.arg 4 2
  else if op = 0x50 then 2 + 2 * r.arg 0 2
  else if op = 0x60 ∨ op = 0x61 ∨ op = 0x72 ∨ op = 0x81 ∨ op = 0x90 then 1
  else if op = 0x71 then if r.hostbuf || r.bar2 then 8 else 8 + r.arg 4 4
  else if op = 0x80 then 64
  else if op = 0xB0 then 44
  else 0

/-- The header breaks R398, or sets a reserved bit. -/
def Request.headerBad (r : Request) : Bool :=
  let op := r.opcode
  (r.hostbuf && r.bar2) || (r.bar2 && !takesBulk op) || (r.force && decide (op ≠ 0x60 ∧ op ≠ 0x61 ∧ op ≠ 0x33))
    || (r.unload && decide (op ≠ 0x10)) || decide (16 ≤ r.flags) || decide (r.reserved ≠ 0) || decide (4064 < r.length)
    || decide (r.length ≠ payloadLength r)

/-! ## Take-up -/

/-- A deferred operation is due at the job boundary that the slab has reached: no command is taken up before it
begins (R409). -/
def State.deferredDue (s : State) (i : SlabId) : Bool :=
  decide ((s.job i).state = .paused ∨ (s.job i).state = .loaded)
    && (s.slab i).camp.operations.any (fun o => o.deferred && !o.running)

/-- The firmware of the slab takes up mailbox `m` next: mailbox 0 first, the others in the order in which their
doorbells were rung (R395). -/
def State.takesUp (s : State) (fn : SlabId) (m : Fin 4) : Bool :=
  let f := s.func fn
  let mine := f.mailbox m
  decide ((s.slab fn).camp.firmware = .running) && mine.pending && !s.deferredDue fn
    && (decide (m = 0) || mailboxes.all (fun k =>
          let o := f.mailbox k
          decide (k = m) || !o.pending || (decide (k ≠ 0) && decide (mine.rung ≤ o.rung))))

/-- The tag belongs to a command outstanding at the function, or to one rung before this one and not yet taken up
(R394). -/
def State.tagInUse (s : State) (fn : SlabId) (m : Fin 4) (tag : Half) : Bool :=
  let f := s.func fn
  f.outstanding.any (fun o => decide (o.tag = tag))
    || mailboxes.any (fun k =>
        let o := f.mailbox k
        decide (k ≠ m) && o.pending && decide (o.rung < (f.mailbox m).rung) && decide (o.take.tag = tag))

/-- Commands outstanding at the functions of the device. -/
def State.devOutstanding (s : State) (i : SlabId) : List Outstanding := (s.devSlabs i).flatMap (fun k => (s.func k).outstanding)

/-- A LOAD_IMAGE, MAP_OBJECT or SET_MODE of the device is outstanding (R396). -/
def State.jobBusy (s : State) (i : SlabId) : Bool :=
  (s.job i).incoming.isSome || s.shared.setMode.isSome
    || (s.devOutstanding i).any (fun o => decide (o.opcode.toNat ∈ [0x10, 0x20, 0x90]))

/-- A self-test or calibration runs on the device while it is PAUSED (R396). -/
def State.testRuns (s : State) (i : SlabId) : Bool :=
  decide ((s.job i).state = .paused) && (s.devSlabs i).any (fun k => (s.slab k).camp.operations.any (fun o => o.running))

/-- FW_COMMIT of the slab is outstanding (R428). -/
def State.commitBusy (s : State) (fn : SlabId) : Bool := (s.slab fn).camp.session.any (fun x => x.committing)

/-- The status with which a request is turned away before its command is looked at (R394 to R398, R31, R33, R381,
R415, R419, R428); none when the command runs. -/
def State.refusal (s : State) (fn : SlabId) (m : Fin 4) (r : Request) : Option Byte :=
  let op := r.opcode
  if s.tagInUse fn m r.tag then some stBadArg
  else if 64 ≤ ((s.func fn).mailbox m).outstanding then some stBusy
  else if !(commandMailboxes op).any (fun ms => decide (m.val ∈ ms)) then some stBadOpcode
  else if isJobCommand op && decide (s.dev fn ≠ fn) then some stRefusedState
  else if r.headerBad then some stBadArg
  else if isJobCommand op && decide (s.shared.mode = .joined ∧ (s.slab fn.other).camp.firmware ≠ .running) then some stInternal
  else if r.hostbuf && (!(s.func fn).busMaster || (s.func fn).d3hot) then some stBadArg
  else if r.bar2 && decide (0xF0000000 < r.hostAddr + r.hostLen) then some stBadArg
  else if isRestricted op && s.jobBusy fn then some stBusy
  else if decide (op = 0x32) && s.testRuns fn then some stBusy
  else if decide (op ∈ [0x70, 0x71, 0x90, 0x30]) && s.commitBusy fn then some stBusy
  else if !stateAllows op (s.job fn).state then some stRefusedState
  else none

/-! ## Responses and completions -/

/-- A vector signalled, unless the function cannot issue messages (R415, R417). -/
def Func.signalIf (f : Func) (v : Nat) : Func := if f.busMaster && !f.d3hot then f.signal v else f

/-- The 32 bytes of a response header (Table 15.4). -/
def responseHeader (r : Request) (status : Byte) (n out : Nat) (st : Stamp) : List Byte :=
  leBytes r.opcode 2 ++ [status, 0] ++ leBytes r.tag.toNat 2 ++ [0, 0] ++ leBytes n 4 ++ leBytes out 4 ++ st.bytes

/-- The function's error counters for a status. -/
def Func.countStatus (f : Func) (status : Byte) : Func :=
  (f.count Ctr.MBX_ERRORS (if 16 ≤ status.toNat then 1 else 0)).count Ctr.MBX_INTERNAL (if status = stInternal then 1 else 0)

/-- A response written: buffer, DONE set, PENDING cleared, LAST_TAG, the mailbox's vector (R392, R407). -/
def State.writeResponse (s : State) (fn : SlabId) (m : Fin 4) (r : Request) (status : Byte) (payload : List Byte) (out : Nat) : State :=
  let bs := responseHeader r status payload.length out (s.stamp fn) ++ payload
  s.modFunc fn (fun f =>
    ((f.modMailbox m (fun b => { b with response := Cells.writeN b.response 0 bs, done := true, pending := false, lastTag := r.tag })).countStatus
      status).signalIf m.val)

/-- A command taken up and answered. -/
def State.respond (s : State) (fn : SlabId) (m : Fin 4) (r : Request) (status : Byte) (payload : List Byte) : State :=
  (s.modFunc fn (fun f => f.count Ctr.MBX_COMMANDS 1)).writeResponse fn m r status payload 0

/-- A command answered ACCEPTED or DEFERRED, outstanding until its completion record; `detail` is the response
payload that the record will carry (R394, R401). -/
def State.accept (s : State) (fn : SlabId) (m : Fin 4) (r : Request) (status : Byte) (committed : Bool) (detail : List Byte) : State :=
  (s.respond fn m r status []).modFunc fn (fun f =>
    { f.modMailbox m (fun b => { b with outstanding := b.outstanding + 1 }) with
        outstanding := f.outstanding ++ [{ tag := r.tag, opcode := BitVec.ofNat 16 r.opcode, mailbox := m, committed := committed
                                           deferred := decide (status = stDeferred), detail := detail }] })

/-- The completion record of an outstanding command; `i` gives its stamp. Nothing is posted for a tag that is no longer
outstanding (R416). -/
def State.complete (s : State) (fn : SlabId) (tag : Half) (status : Byte) (detail : List Byte) : State :=
  match (s.func fn).outstanding.find? (fun o => decide (o.tag = tag)) with
  | none => s
  | some o =>
    let s := s.modFunc fn (fun f =>
      { (f.modMailbox o.mailbox (fun b => { b with outstanding := b.outstanding - 1 })).countStatus status with
          outstanding := f.outstanding.filter (fun x => decide (x.tag ≠ tag)) })
    s.post fn { stamp := s.stamp fn, type := evtCompletion, status := status, mailbox := BitVec.ofNat 8 o.mailbox.val, tag := tag
                opcode := o.opcode, detail := detail }

/-- Every outstanding command of an opcode at a function completed with OK and its own payload. -/
def State.completeAll (s : State) (fn : SlabId) (op : Nat) : State :=
  ((s.func fn).outstanding.filter (fun o => decide (o.opcode.toNat = op))).foldl (fun s o => s.complete fn o.tag stOk o.detail) s

/-- An answer OK with a fixed payload and bulk output: inline, or the bulk at HOST_ADDR; output that does not fit is
BAD_ARG and nothing is written. -/
def State.answer (s : State) (fn : SlabId) (m : Fin 4) (r : Request) (head bulk : List Byte) : State :=
  let s := s.modFunc fn (fun f => f.count Ctr.MBX_COMMANDS 1)
  if r.hostbuf then
    if r.hostLen < bulk.length then s.writeResponse fn m r stBadArg [] 0
    else ({ s with hostMem := Cells.writeN s.hostMem r.hostAddr bulk }).writeResponse fn m r stOk head bulk.length
  else if 4064 < head.length + bulk.length then s.writeResponse fn m r stBadArg [] 0
  else s.writeResponse fn m r stOk (head ++ bulk) 0

/-- `n` bytes of a command's bulk input: from staging with BAR2, else as the DMA read returned them from host memory;
none when they are not all there. -/
def State.bulkIn (s : State) (fn : SlabId) (r : Request) (bulk : List Byte) (n : Nat) : Option (List Byte) :=
  if r.bar2 then
    if n ≤ r.hostLen ∧ r.hostAddr + n ≤ 0xF0000000 then some (Cells.readN (s.slab fn).mem.staging r.hostAddr n) else none
  else if r.hostbuf then if n ≤ r.hostLen ∧ n ≤ bulk.length then some (bulk.take n) else none
  else none

/-- A command's row: the firmware takes up the request in mailbox `m` of the function when it names opcode `op` and
`pick` holds of it, turns it away, or runs it. -/
def State.serve (s : State) (fn : SlabId) (m : Fin 4) (op : Nat) (pick : Request → Bool) (run : State → Request → State) : Result :=
  let r := ((s.func fn).mailbox m).take
  if s.takesUp fn m && decide (r.opcode = op) && pick r then
    match s.refusal fn m r with
    | some st => .next (s.respond fn m r st [])
    | none => .next (run s r)
  else .next s

/-- Any request of the opcode. -/
def anyRequest (_ : Request) : Bool := true

end Sys2Proof.Machine
end

