-- ==== Sys2Proof/Machine/Validate.lean ====
section
/-! DEFINITION. Authentication and validation of an image (R36, R66, R95, R155, R226, R230, R242, R255, R266, R268 to
R271, R317, R318, R324, R349, R364, R366 to R369, R373 to R377, R439). -/

namespace Sys2Proof.Machine

open Sys2Proof

/-! ## Authentication (R369, R439) -/

/-- The image's signature verifies under a key enrolled on the slab. -/
def signatureOk (settings : Option (List Byte)) (bs : List Byte) : Bool :=
  let t := bs.drop (imLength bs - 160)
  match settings.bind (fun x => settingsKey x (t.take 16)) with
  | none => false
  | some key => Config.ed448Verify key [] (imBody bs) ((t.drop 16).take 114)

/-- Stage 1 of R370 passes. -/
def imageAuthentic (settings : Option (List Byte)) (bs : List Byte) : Bool :=
  !(settings.any settingsUnreadable)
    && (if imSigned bs then signatureOk settings bs else !(settings.any settingsRequire))

/-! ## Checks -/

/-- A check of an image: the section and image byte at fault when it fails, and whether it holds. -/
abbrev Check := Nat × Nat × Bool

/-- The section number of a check that concerns no section, and the byte of one that concerns no byte. -/
def noSection : Nat := 0xFFFFFFFF
def noOffset : Nat := 2 ^ 64 - 1

/-- Checks of every entry of `n` bytes of a section; `f` gives, for the entry's number and bytes, byte offsets in the
entry and what must hold. -/
def Section.checks (x : Section) (bs : List Byte) (n : Nat) (f : Nat → List Byte → List (Nat × Bool)) : List Check :=
  (x.entries bs n).zipIdx.flatMap (fun p => (f p.2 p.1).map (fun c => (x.index, x.offset + n * p.2 + c.1, c.2)))

/-- The same for a section that may be absent. -/
def optChecks (x : Option Section) (bs : List Byte) (n : Nat) (f : Nat → List Byte → List (Nat × Bool)) : List Check :=
  x.elim [] (fun x => x.checks bs n f)

/-- No two elements are equal. -/
def noRepeats {α : Type} [DecidableEq α] : List α → Bool
  | [] => true
  | a :: l => decide (a ∉ l) && noRepeats l

/-! ## Header and section table (R36, R367, R368) -/

/-- Checks of the header; `size` is IMAGE_BYTES of the request. -/
def headerChecks (m : Mode) (bs : List Byte) (size : Nat) : List Check :=
  let at_ (o : Nat) (ok : Bool) : Check := (noSection, o, ok)
  let fields := match m with | .split => 42 | .joined => 84
  [ at_ 0 (decide (imMagic bs = 0x4D495A58)), at_ 4 (decide (imVersion bs = 1)), at_ 6 (decide (imFlags bs < 4)),
    at_ 6 (decide (imJoined bs = decide (m = .joined))),
    at_ 8 (decide (imLength bs % 64 = 0 ∧ imLength bs ≤ 2 ^ 34 ∧ imLength bs = size ∧ bs.length = size ∧ 96 ≤ size)),
    at_ 16 (decide (1 ≤ imSections bs ∧ imSections bs ≤ 65535)),
    at_ 20 (decide (imTable bs % 64 = 0 ∧ 96 ≤ imTable bs ∧ imTable bs + 32 * imSections bs ≤ (imBody bs).length)),
    at_ 32 (decide (imDeclared bs < 2 ^ fields)), at_ 48 (decide (imPairs bs ≤ 3486)), at_ 52 (decide (leAt bs 52 44 = 0)),
    at_ (imLength bs - 30) (!imSigned bs || decide (leAt (bs.drop (imLength bs - 30)) 0 30 = 0)) ]

/-- Two byte ranges, as (start, length), share a byte. -/
def rangesMeet (a b : Nat × Nat) : Bool :=
  decide (0 < a.2) && decide (0 < b.2) && decide (a.1 < b.1 + b.2) && decide (b.1 < a.1 + a.2)

/-- The place of a table entry in the image. -/
def tableAt (bs : List Byte) (k : Nat) : Nat := imTable bs + 32 * k

/-- Checks of one entry of the section table. -/
def sectionChecks (m : Mode) (bs : List Byte) (ss : List Section) (x : Section) : List Check :=
  let at_ (o : Nat) (ok : Bool) : Check := (x.index, tableAt bs x.index + o, ok)
  let image := decide (x.type < 0x10)
  let n := entrySize x.type
  [ at_ 0 (decide (1 ≤ x.type ∧ x.type ≤ 9 ∨ 0x10 ≤ x.type ∧ x.type ≤ 0x16)), at_ 5 (decide (x.reserved = 0)),
    at_ 2 (!image || decide (x.placement = 0)),
    at_ 4 (decide (x.slab = 0) || (!image && decide (m = .joined) && decide (x.slab = 1))),
    at_ 8 (decide (x.offset % 64 = 0 ∧ 96 ≤ x.offset ∧ x.offset + x.bytes ≤ (imBody bs).length)
      && !rangesMeet (x.offset, x.bytes) (imTable bs, 32 * ss.length)
      && ss.all (fun y => decide (y.index = x.index) || !rangesMeet (x.offset, x.bytes) (y.offset, y.bytes))),
    at_ 24 (decide (n = 0) || decide (x.bytes = n * x.count)) ]

/-- Sections of a type with a placement number and slab. -/
def countOf (ss : List Section) (type placement slab : Nat) : Nat :=
  (ss.filter (fun x => decide (x.type = type) && decide (x.placement = placement) && decide (x.slab = slab))).length

/-- Checks of the counts of Table 14.3. -/
def countChecks (m : Mode) (bs : List Byte) (ss : List Section) : List Check :=
  let total (t : Nat) : Nat := (ss.filter (fun x => decide (x.type = t))).length
  let whole (ok : Bool) : Check := (noSection, imTable bs, ok)
  let placement := ss.filter (fun x => decide (0x10 ≤ x.type))
  [1, 2, 3, 4, 5].map (fun t => whole (decide (total t = 1))) ++ [6, 7, 8, 9].map (fun t => whole (decide (total t ≤ 1)))
    ++ placement.map (fun x => ((x.index, tableAt bs x.index, decide (countOf ss 0x10 x.placement x.slab = 1)) : Check))
    ++ (placement.filter (fun x => decide (x.type = 0x10))).flatMap (fun x =>
      [0x11, 0x12, 0x13, 0x14, 0x15].map (fun t => ((x.index, tableAt bs x.index, decide (countOf ss t x.placement x.slab = 1)) : Check))
        ++ [((x.index, tableAt bs x.index, decide (countOf ss 0x16 x.placement x.slab ≤ 1)) : Check),
            (x.index, tableAt bs x.index, decide (m = .split) || decide (countOf ss 0x10 x.placement (1 - x.slab) = 1))])

/-- Checks of the reserved bytes of every entry. -/
def reservedChecks (bs : List Byte) (ss : List Section) : List Check :=
  ss.flatMap (fun x =>
    if (reservedBytes x.type).isEmpty then []
    else x.checks bs (entrySize x.type) (fun _ e => (reservedBytes x.type).map (fun p => (p.1, decide (leAt e p.1 p.2 = 0)))))

/-! ## Pitch and step (R36, R242, R373) -/

/-- The belay lead A of Table 2.2. -/
def belayLead (m : Mode) : Nat := match m with | .split => 512 | .joined => 576

/-- L, M and S satisfy Table 2.1 and R36. -/
def pitchOk (m : Mode) (l mg st : Nat) : Bool :=
  decide (l % 64 = 0 ∧ 8192 ≤ l ∧ l ≤ 67108864 ∧ l ≤ 64 * mg ∧ belayLead m + 64 ≤ mg ∧ mg < l ∧ st % 64 = 0 ∧ st ≤ l)
    && (decide (m = .split) || decide (64 ≤ st))

/-- Checks of the pitch parameter block, as byte offsets in it. -/
def pitchChecks (m : Mode) (p : PitchParams) : List (Nat × Bool) :=
  [ (0, pitchOk m p.length p.margin p.stretchLimit),
    (12, decide (p.maintLength % 64 = 0) && (decide (p.maintLength = 0) || decide (32768 ≤ p.maintLength ∧ p.maintLength ≤ 67108864))),
    (16, decide (p.maintIntervalLog2 = 0) || decide (10 ≤ p.maintIntervalLog2 ∧ p.maintIntervalLog2 ≤ 16)),
    (17, decide (p.joined = decide (m = .joined)) && decide (p.flagsReserved = 0)), (18, decide (p.phaseBelays ≤ 61440)),
    (20, decide (p.reserved = 0)) ]

/-- The shares of the shelf bandwidth split (R242). -/
def splitOk (v : Half) : Bool :=
  let r := v.toNat % 16
  let w := v.toNat / 16 % 16
  let x := v.toNat / 256 % 16
  decide (1 ≤ r ∧ r ≤ 14 ∧ 1 ≤ w ∧ w ≤ 14 ∧ 1 ≤ x ∧ x ≤ 14 ∧ r + w + x = 16 ∧ v.toNat < 4096)

/-- Checks of the step section; `order` is the length of the update order and `feeds` the entries of the feed section. -/
def stepChecks (x : StepSection) (primary order feeds : Nat) : List (Nat × Bool) :=
  [ (0, decide (1 ≤ x.stepLength ∧ x.stepLength ≤ 2 ^ 31 ∧ x.stepLength = primary)), (4, decide (1 ≤ x.microbatches)),
    (6, splitOk x.split), (8, decide (x.gate ≤ order)), (0x14, decide (x.fp8Overflow ≤ 1)),
    (0x16, decide (x.feeds ≤ 16 ∧ x.feeds = feeds)), (0x18, decide (x.diffGroup.toNat ≤ 255 ∨ x.diffGroup = 0xFFFF)) ]

/-! ## Objects (R189, R268, R269, R271, R373, R376) -/

/-- Class, protection and hint combine as in Table 8.2. -/
def classOk (o : ObjectEntry) : Bool :=
  decide (o.prot ≤ 2 ∧ o.hint ≤ 2)
    && (match o.cls with
        | 0 => decide (o.prot ≠ 0 ∧ o.hint = 0)
        | 1 => decide (o.prot ≠ 2 ∧ o.hint = 0)
        | 2 => decide (o.prot ≠ 0)
        | _ => false)

/-- An FP32 value greater than 0; one from 0 to below 1. -/
def f32Positive (w : Word) : Bool := decide (0 < w.toNat ∧ w.toNat ≤ 0x7F800000)
def f32Fraction (w : Word) : Bool := decide (w.toNat < 0x3F800000 ∨ w.toNat = 0x80000000)

/-- Conditions of an object entry by itself, as byte offsets (Tables 8.2, 14.7); also those of MAP_OBJECT. -/
def objectChecks (m : Mode) (o : ObjectEntry) : List (Nat × Bool) :=
  [ (0, decide (1 ≤ o.object ∧ o.object ≤ 65534)), (2, classOk o), (5, decide (o.flags < 64)),
    (5, decide (m = .joined) || decide (o.flags / 16 % 2 = 0)), (8, decide (o.base % pageBytes = 0 ∧ pageBytes ≤ o.base)),
    (16, decide (o.size % 64 = 0 ∧ 0 < o.size ∧ o.base + o.size ≤ 2 ^ 48)), (0x18, decide (o.stack0 < 24 ∨ o.stack0 = 0xFFFF)),
    (0x1A, if o.prot = 2 then decide (o.replicas ≤ 15) else decide (o.replicas = 0xFFFF)), (6, decide (o.reserved = 0)) ]

/-- Two objects' ranges overlap. -/
def objectsMeet (a b : ObjectEntry) : Bool := rangesMeet (a.base, a.size) (b.base, b.size)

/-- The pages that R269 gives a parameter object. -/
def paramPages (u : UpdateDesc) : Nat := (u.nblocks + blocksPerPage u - 1) / blocksPerPage u

/-- Bytes of a weight copy's two planes (R271). -/
def copyBytes (u : UpdateDesc) : Nat :=
  let n := u.nblocks * 4096
  (elemBytes u.wfmt n + 63) / 64 * 64 + scaleBytes u.wfmt n

/-- The COPY of an update descriptor keeps R271. -/
def copyOk (os : List ObjectEntry) (o : ObjectEntry) : Bool :=
  let u := o.update
  decide (u.copy = 0xFFFF)
    || (match os.find? (fun c => decide (c.object = u.copy.toNat)) with
        | none => false
        | some c => decide (c.cls = 0) && !c.isParam && decide (copyBytes u ≤ c.size)
            && os.all (fun x => decide (x.object = o.object) || !x.isParam || decide (x.update.copy ≠ u.copy)))

/-- Checks of an update descriptor, as byte offsets in the object entry (Table 11.1, R268). -/
def updateChecks (os : List ObjectEntry) (o : ObjectEntry) : List (Nat × Bool) :=
  let u := o.update
  [ (0x40, decide (u.rule ≤ 5)), (0x41, decide (u.wfmt = 7 ∨ u.wfmt = 4 ∨ u.wfmt = 1)), (0x42, decide (u.mfmt = 1 ∨ u.mfmt = 7)),
    (0x43, decide (u.flags < 4)), (0x44, if u.rule = 3 then decide (u.group.toNat ≤ 1023) else decide (u.group = 0xFFFF)),
    (0x44, os.all (fun x => !x.isParam || decide (u.group = 0xFFFF) || decide (x.update.group ≠ u.group)
      || (decide (x.update.eta = u.eta) && decide (x.update.wd = u.wd)))),
    (0x46, decide (1 ≤ u.accum)), (0x50, f32Fraction u.beta1), (0x54, f32Fraction u.beta2), (0x58, f32Positive u.eps),
    (0x60, f32Positive u.delta0), (0x64, decide (1 ≤ u.rootInterval)), (0x66, copyOk os o), (0x6C, decide (1 ≤ u.nblocks)),
    (0x47, decide (u.reserved = 0)), (2, decide (o.cls = 0)), (16, decide (o.size = paramPages u * pageBytes)) ]

/-- Blocks of the objects before place `k` of the update list. -/
def blocksBefore (os : List ObjectEntry) (list : List Nat) (k : Nat) : Nat :=
  (list.take k).foldl (fun n j => n + ((os.find? (fun o => decide (o.object = j))).elim 0 (fun o => o.update.nblocks))) 0

/-- Checks of the object table. -/
def objectTableChecks (m : Mode) (im : Image) (k : Nat) (e : List Byte) : List (Nat × Bool) :=
  let o := parseObject e
  objectChecks m o
    ++ [ (0, (im.objects.take k).all (fun x => decide (x.object ≠ o.object))), (8, (im.objects.take k).all (fun x => !objectsMeet x o)),
         (0x1C, decide (o.flags / 32 % 2 = 0) || decide (o.dataOffset % 64 = 0 ∧ o.dataOffset + o.size ≤ im.data.length)) ]
    ++ (if o.isParam then
          updateChecks im.objects o
            ++ [(0x68, im.updateList.zipIdx.any (fun p => decide (p.1 = o.object) && decide (o.update.firstPos = blocksBefore im.objects im.updateList p.2)))]
        else [(0x40, decide (leAt e 64 64 = 0))])

/-- A place of the update list names a parameter object, once. -/
def updateListChecks (im : Image) (k : Nat) (e : List Byte) : List (Nat × Bool) :=
  let n := leAt e 0 2
  [(0, im.objects.any (fun o => decide (o.object = n) && o.isParam) && decide (n ∉ im.updateList.take k))]

/-! ## Contexts, collectives, windows, feeds (R255, R318, R324, R266, R377) -/

/-- Checks of a context entry. -/
def contextChecks (im : Image) (k : Nat) (e : List Byte) : List (Nat × Bool) :=
  let c := parseContext e
  [ (0, decide (c.reserved = 0)), (2, !c.valid || decide (1 ≤ c.segFrames ∧ c.segBase + c.segFrames ≤ 64)),
    (1, !c.valid || (im.contexts.take k).all (fun x => !x.valid || !rangesMeet (x.segBase, x.segFrames) (c.segBase, c.segFrames))) ]

/-- Checks of a collective entry. -/
def collectiveChecks (im : Image) (k : Nat) (e : List Byte) : List (Nat × Bool) :=
  let c := parseCollective e
  [ (0, im.objects.any (fun o => decide (o.object = c.object) && o.isParam)), (0, (im.collectives.take k).all (fun x => decide (x.object ≠ c.object))),
    (2, decide (1 ≤ c.bb ∧ c.bb ≤ 128)), (4, decide (1 ≤ c.nbuckets ∧ c.nbuckets ≤ 65536)), (8, decide (1 ≤ c.bpr)), (12, decide (c.group ≤ 15)),
    (14, im.objects.any (fun o => decide (o.object = c.log) && decide (o.cls = 1))), (16, decide (c.land < 12288)) ]

/-- Checks of a window entry. -/
def windowChecks (im : Image) (k : Nat) (e : List Byte) : List (Nat × Bool) :=
  let w := parseWindow e
  [ (0, decide (k < 256) && decide (w.kind ∈ [0, 1, 2, 4])), (1, !w.opened && decide (w.flagsReserved = 0)), (2, decide (w.epoch = 0)),
    (4, match w.kind with
        | 1 => im.objects.any (fun o => decide (o.object = w.object) && decide (o.base ≤ w.base) && decide (w.base + w.size ≤ o.base + o.size))
        | 2 => decide (w.object < im.collectives.length)
        | _ => true),
    (8, decide (w.kind ≠ 1) || decide (w.base % 64 = 0)), (16, decide (w.size % 64 = 0 ∧ w.size ≤ 2 ^ 32)) ]

/-- A feed queue's conditions of R377. -/
def feedChecks (im : Image) (k : Nat) (e : List Byte) : List (Nat × Bool) :=
  let f := parseFeed e
  [ (0, decide (f.queue ≤ 15) && (im.feeds.take k).all (fun x => decide (x.queue ≠ f.queue))),
    (2, im.objects.any (fun o => decide (o.object = f.object) && decide (o.cls = 0) && decide (o.prot = 1) && !o.isParam && decide (o.hint = 0)
      && decide (f.slots * f.slotBytes ≤ o.size))),
    (4, decide (f.slotBytes % 64 = 0 ∧ 0 < f.slotBytes)), (10, decide (1 ≤ f.perStep ∧ f.perStep ≤ 32767)), (8, decide (2 * f.perStep ≤ f.slots)) ]

/-! ## Placements (R155, R183, R230, R349, R364, R366, R374, R375) -/

/-- Set bits of a number below 2^84. -/
def bitsOf (n : Nat) : List Nat := (List.range 84).filter (fun j => n.testBit j)

/-- The fields of a device. -/
def fieldCount (m : Mode) : Nat := match m with | .split => 42 | .joined => 84

/-- L, M and S in force under a placement. -/
def Placement.pitch (p : Placement) (im : Image) : Nat × Nat × Nat :=
  let eff (a b : Nat) : Nat := if a = 0 then b else a
  (eff p.pitchLength im.pitch.length, eff p.margin im.pitch.margin, eff p.stretchLimit im.pitch.stretchLimit)

/-- The primary placement. -/
def Image.primary (im : Image) : Option Placement := im.placements.find? (fun p => decide (p.number = 0))

/-- R349 for a fallback that covers `k` fields of `f`: both sides multiplied by 50 f. -/
def fallbackFast (t l tf lf k f : Nat) : Bool := decide (tf * lf * (50 * f - 50 * k - k * f) ≤ t * l * (50 * f))

/-- The placement's number is one that its covered fields give (Table 13.2). -/
def numberOk (m : Mode) (im : Image) (p : Placement) : Bool :=
  let cs := bitsOf p.covers
  if p.number = 0 then decide (p.covers = 0)
  else if p.number < 256 then decide (cs = [p.number - 1]) && decide (p.number ≤ fieldCount m)
  else decide (p.number - 256 < im.pairs) && decide (cs.length = 2) && decide (p.covers < 2 ^ fieldCount m)

/-- Checks of a placement header. -/
def placementChecks (m : Mode) (im : Image) (p : Placement) (e : List Byte) : List (Nat × Bool) :=
  let (l, mg, st) := p.pitch im
  let k := (bitsOf p.covers).length
  [ (0, decide (leAt e 0 2 = p.number)), (2, decide (p.reserved = 0)), (4, decide (1 ≤ p.stepLength ∧ p.stepLength ≤ 2 ^ 31)),
    (8, pitchOk m l mg st), (0x14, decide (p.tiles = p.entries.length)), (0x18, numberOk m im p && decide (p.covers < 2 ^ fieldCount m)),
    (4, decide (p.number = 0) || im.primary.all (fun q => fallbackFast q.stepLength (q.pitch im).1 p.stepLength l k (fieldCount m))),
    (0, im.placements.all (fun q => decide (q.number ≠ p.number) || decide (q.stepLength = p.stepLength ∧ q.pitchLength = p.pitchLength
      ∧ q.margin = p.margin ∧ q.stretchLimit = p.stretchLimit ∧ q.covers = p.covers))) ]

/-- The image carries the primary placement, a fallback for every field not declared lost, and its pair fallbacks
(R366). -/
def coverageChecks (m : Mode) (im : Image) : List Check :=
  let has (n : Nat) : Bool := im.placements.any (fun p => decide (p.number = n))
  ((noSection, noOffset, has 0) : Check) ::
    ((List.range (fieldCount m)).map (fun n => ((noSection, 32, im.declaredLost.testBit n || has (n + 1)) : Check))
      ++ (List.range im.pairs).map (fun n => ((noSection, 48, has (256 + n)) : Check)))

/-- The fields that a placement treats as holes, with their merged rectangles (R375). -/
def Placement.holes (p : Placement) (m : Mode) (im : Image) : List FieldRect :=
  let w := match m with | .split => 7 | .joined => 14
  mergeHoles ((bitsOf (p.covers ||| im.declaredLost)).map (fun b => (b % w, b / w)))

/-- The slab-local tile of a device-wide coordinate of a placement's slab. -/
def Placement.tileOf (p : Placement) (m : Mode) (x y : Nat) : Option TileId :=
  match tileAt m p.slab x y with
  | none => none
  | some t => if t.slab = p.slab then some t else none

/-- The program numbers of a tile entry, by sequencer. -/
def TileEntry.programs (e : TileEntry) : List (SeqId × Word) := [(.fwd, e.progFwd), (.bwd, e.progBwd), (.svc, e.progSvc)]

/-- Checks of a tile entry. -/
def tileChecks (m : Mode) (im : Image) (p : Placement) (runs : Nat) (k : Nat) (e : List Byte) : List (Nat × Bool) :=
  let t := parseTile e
  let ones : Word := BitVec.allOnes 32
  let progs := t.programs
  [ (0, (p.tileOf m t.x t.y).isSome && (p.entries.take k).all (fun x => decide (x.x ≠ t.x ∨ x.y ≠ t.y))),
    (0, !(p.holes m im).any (inRect (t.x / 16) (t.y / 16))), (8, decide (t.stack ≤ 64)),
    (4, !((p.tileOf m t.x t.y).any isPortal) || decide (t.banks = BitVec.allOnes 24)),
    (10, if (p.tileOf m t.x t.y).any isPortal then decide (t.bufRows % 2 = 0 ∧ t.bufRows ≤ 32768 ∧ t.bufBase + t.bufRows ≤ spRows)
         else decide (t.bufRows = 0 ∧ t.bufBase = 0)),
    (16, progs.all (fun g => decide (g.2 = ones) || decide (g.2.toNat < p.stores.length)) && progs.any (fun g => decide (g.2 ≠ ones))),
    (0x1C, decide (t.resident = ones) || decide (t.resident.toNat < runs)) ]

/-- The stack size of a tile covers every context that its programs name, and those are valid (R255). -/
def contextsOk (m : Mode) (im : Image) (stack : Option Nat) (ws : List IWord) : Bool :=
  (ws.filterMap wordContext).all (fun c =>
    match im.contexts[c]? with
    | none => false
    | some x => decide (c < (match m with | .split => 64 | .joined => 128)) && x.valid && stack.all (fun a => decide (x.segBase + x.segFrames ≤ a)))

/-- A region belay that a program names is one that names its sequencer on the tile (R100). -/
def channelsOk (p : Placement) (e : TileEntry) (q : SeqId) (ws : List IWord) : Bool :=
  (ws.filterMap wordChannel).all (fun c => decide (c ≤ 1)
    || p.members.any (fun b => decide (b.ch = c ∧ b.x = e.x ∧ b.y = e.y)
      && b.seqs.getLsbD (match q with | .fwd => 0 | .bwd => 1 | .svc => 2)))

/-- Checks of a store image: every word, and every word under each sequencer as which a tile entry names it. -/
def storeChecks (m : Mode) (im : Image) (p : Placement) (k : Nat) (e : List Byte) : List (Nat × Bool) :=
  let ws := parseStore e
  ws.zipIdx.map (fun w => (16 * w.2, wordOk w.1 && contextsOk m im none [w.1]))
    ++ p.entries.flatMap (fun t => (t.programs.filter (fun g => decide (g.2.toNat = k))).flatMap (fun g =>
      ws.zipIdx.map (fun w => (16 * w.2, classAllowed g.1 (opClass (opOf w.1)) && contextsOk m im (some t.stack) [w.1] && channelsOk p t g.1 [w.1]))))

/-- Checks of a membership entry. -/
def memberChecks (p : Placement) (_ : Nat) (e : List Byte) : List (Nat × Bool) :=
  let b := parseMember e
  [(0, decide (2 ≤ b.ch ∧ b.reserved = 0 ∧ b.seqs ≠ 0)
    && (match p.entryAt b.x b.y with
        | none => false
        | some t => t.programs.zipIdx.all (fun g => !b.seqs.getLsbD g.2 || decide (g.1.2 ≠ BitVec.allOnes 32))))]

/-- The runs of resident rows fill their section exactly and lie in the scratchpad. -/
def residentOk (x : Section) (bs : List Byte) : Bool :=
  let runs := parseRuns x.count (x.body bs)
  decide (runs.length = x.count) && runs.all (fun r => decide (r.1 + r.2.length ≤ spRows))
    && decide (runs.foldl (fun n r => n + 8 + 64 * r.2.length) 0 = x.bytes)

/-! ## Program segments (R94, R95, R375) -/

/-- Checks of the words of program segments: every check of a store image but the class check. -/
def segmentChecks (m : Mode) (im : Image) (x : Section) : List Check :=
  (im.objects.filter (fun o => decide (o.cls = 2) && decide (o.flags / 32 % 2 = 1))).flatMap (fun o =>
    ((parseStore ((im.data.drop o.dataOffset).take o.size)).zipIdx.filter (fun w => Config.programSegment o.object w.2)).map (fun w =>
      (x.index, x.offset + o.dataOffset + 16 * w.2, wordOk w.1 && contextsOk m im none [w.1])))

/-! ## Streams (R226, R270, R317) -/

/-- The records of a group's table that are present. -/
def groupRecords (d : Nat) : Nat := if d < 12288 then 4096 else 2048

/-- A chain stays in the group's table and passes no record twice. -/
def Placement.chainOk (p : Placement) (d : Nat) : Nat → List Nat → Nat → Bool
  | 0, _, _ => false
  | n + 1, seen, a =>
    decide (a < groupRecords d) && decide (a ∉ seen)
      && (match p.arm d a with
          | none => false
          | some r => if r.next = 0xFFFF then true else p.chainOk d n (a :: seen) r.next)

/-- The records of a descriptor's chain, the first marked. -/
def Placement.records (p : Placement) (d : Nat) (sd : StreamDesc) : List (ArmRecord × Bool) :=
  let go := (p.chain d 4096 sd.arm0 0).map (fun x => x.1)
  let nums := go.foldl (fun l a => if a ∈ l then l else l ++ [a]) []
  nums.filterMap (fun a => (p.arm d a).map (fun r => (r, decide (a = sd.arm0))))

/-- The fields of an arm record lie in their ranges (Table 9.6). -/
def armOk (r : ArmRecord) (first : Bool) : Bool :=
  decide (r.reserved = 0) && decide (1 ≤ r.npass) && decide (1 ≤ r.period) && (first || decide (1 ≤ r.gap))

/-- A descriptor that the image leaves unused: all zero. -/
def StreamDesc.unused (sd : StreamDesc) : Bool := decide (sd = parseStream [])

/-- Bytes `n` from `a` lie in an object. -/
def ObjectEntry.covers (o : ObjectEntry) (a n : Nat) : Bool := decide (o.base ≤ a ∧ a + n ≤ o.base + o.size)

/-- Every pass of a record lies in the object's extent. Addresses rise with pass and run, so the first and last tell. -/
def extentOk (o : ObjectEntry) (sd : StreamDesc) (r : ArmRecord) : Bool :=
  let last := (r.npass - 1) * r.padv
  if sd.mode = 2 ∨ sd.mode = 3 then o.covers r.ebase sd.runBytes && o.covers (r.ebase + last) sd.runBytes
  else
    let off := last + (sd.runs - 1) * sd.rstride
    o.covers r.ebase sd.runBytes && o.covers (r.ebase + off) sd.runBytes
      && (!fmtScaled sd.memFmt || decide (sd.mode = 10)
        || (let e := e32 sd.memFmt
            o.covers r.sbase (sd.runBytes / e) && o.covers (r.sbase + off / e) (sd.runBytes / e)))

/-- Bytes `n` from `a` lie in plane `k` of a page of a parameter object. -/
def ObjectEntry.inPlane (o : ObjectEntry) (k a n : Nat) : Bool :=
  let starts := planeStarts (blocksPerPage o.update) 0 (planeSizes o.update)
  let off := (a - o.base) % pageBytes
  decide (starts.getD k 0 ≤ off) && decide (off + n ≤ starts.getD (k + 1) 0)

/-- What a stream writes to a parameter object lies in its gradient-slot planes (R270). -/
def slotsOnly (o : ObjectEntry) (sd : StreamDesc) (r : ArmRecord) : Bool :=
  !o.isParam
    || (decide (sd.mode = 1)
      && (List.range r.npass).all (fun j => (List.range sd.runs).all (fun k =>
        let off := j * r.padv + k * sd.rstride
        let sp := slotPlane o.update.rule
        let e := e32 sd.memFmt
        o.inPlane sp (r.ebase + off) sd.runBytes
          && (!fmtScaled sd.memFmt || o.inPlane (sp + 1) (r.sbase + off / e) (sd.runBytes / e)))))

/-- Conditions of R226 that a record adds to its descriptor. -/
def recordOk (im : Image) (sd : StreamDesc) (r : ArmRecord) (first : Bool) : Bool :=
  let e := e32 sd.memFmt
  let obj := im.objects.find? (fun o => decide (o.object = sd.object))
  armOk r first
    && (match sd.mode with
        | 0 | 1 | 10 => decide (r.ebase % 64 = 0) && (decide (sd.mode = 10) || decide (r.sbase % 64 = 0)) && decide (r.padv % e = 0)
        | 2 | 3 => decide (r.padv % e = 0)
        | 8 => (im.collectives[sd.object]?).any (fun c => decide (r.ebase % 2 ^ 32 + (r.npass - 1) * r.padv < c.nbuckets))
        | 9 => decide (r.ebase % 2 ^ 32 % 64 = 0) && decide (r.sbase < 2 ^ 24)
        | _ => true)
    && (decide (sd.mode ∉ [0, 1, 2, 3, 10]) || obj.any (fun o => extentOk o sd r))
    && (decide (sd.mode ≠ 1 ∧ sd.mode ≠ 3) || obj.any (fun o => slotsOnly o sd r))

/-- Tiles of a descriptor's rectangle. -/
def StreamDesc.area (sd : StreamDesc) : Nat := (sd.x1 + 1 - sd.x0) * (sd.y1 + 1 - sd.y0)

/-- Conditions of R226 and R317 on a descriptor by itself, as byte offsets. -/
def streamFieldChecks (m : Mode) (im : Image) (p : Placement) (d : Nat) (sd : StreamDesc) : List (Nat × Bool) :=
  let e := e32 sd.memFmt
  let (l, mg, _) := p.pitch im
  let obj := im.objects.find? (fun o => decide (o.object = sd.object))
  [ (0, decide (sd.mode ≤ 3) || (decide (8 ≤ sd.mode ∧ sd.mode ≤ 11) && decide (12288 ≤ d))), (0, decide (sd.reserved = 0)),
    (1, fmtValid sd.memFmt && fmtValid sd.meshFmt && (decide (sd.meshFmt = sd.memFmt) || (decide (sd.mode = 1) && decide (sd.meshFmt ≤ 1)))),
    (3, decide (sd.depth ≤ 3) && (decide (sd.depth = 0) || decide (sd.mode = 0 ∨ sd.mode = 2))),
    (4, decide (sd.mode ∉ [0, 1, 2, 3, 10]) || obj.isSome),
    (4, (decide (sd.mode ≠ 1 ∧ sd.mode ≠ 3) || obj.all (fun o => decide (o.cls ≠ 2))) && (decide (sd.mode ≠ 3) || obj.all (fun o => decide (o.cls = 1)))),
    (4, decide (sd.mode ≠ 8) || decide (sd.object < im.collectives.length)), (7, decide (sd.mode ≠ 3) || decide (sd.atomop ≤ 9)),
    (8, match sd.mode with
        | 0 | 1 | 10 | 11 => decide (sd.runBytes % 64 = 0 ∧ sd.runBytes % e = 0)
        | 2 => decide (sd.runBytes = 8 ∨ sd.runBytes = 16)
        | 3 => decide (sd.runBytes % 32 = 0 ∧ 32 ≤ sd.runBytes ∧ sd.runBytes ≤ 2048)
        | 8 => decide (sd.runBytes % 8320 = 0)
        | _ => decide (sd.runBytes % 64 = 0)),
    (12, decide (1 ≤ sd.runs ∧ sd.runs ≤ 65535) && (decide (sd.mode ≠ 1) || decide (sd.runs = sd.area))),
    (16, match sd.mode with
         | 2 => decide (sd.rstride % sd.runBytes = 0) && decide (sd.rstride % e = 0)
         | 3 => decide (sd.rstride % 32 = 0) && decide (sd.rstride % e = 0)
         | 0 | 1 | 10 => decide (sd.rstride % e = 0)
         | _ => true),
    (0x18, decide (sd.x0 ≤ sd.x1 ∧ sd.y0 ≤ sd.y1 ∧ sd.x1 < gridWidth m ∧ sd.y1 < 96) && (decide (sd.mode ≠ 3) || decide (sd.area = 1))),
    (0x1E, decide (sd.mode ∉ [0, 2, 11]) || decide (1 ≤ sd.dstride ∧ sd.dstride ≤ 4095)), (0x20, decide (sd.dsbase % 64 = 0)),
    (0x26, decide (sd.waitph ≤ im.pitch.phaseBelays)), (0x28, decide (sd.dstart < l - mg)) ]

/-- Checks of a stream descriptor with its chain. -/
def streamChecks (m : Mode) (im : Image) (p : Placement) (d : Nat) (e : List Byte) : List (Nat × Bool) :=
  let sd := parseStream e
  if sd.unused then []
  else
    streamFieldChecks m im p d sd
      ++ [ (0x2C, p.chainOk d (groupRecords d + 1) [] sd.arm0), (0x2C, (p.records d sd).all (fun r => recordOk im sd r.1 r.2)),
           (0x30, decide (sd.mode ∉ [0, 2, 10]) || (p.passes d).all (fun x => decide (x.2.2 < p.stepLength))) ]

/-- The gradient slots that the landing descriptors of a collective write: object and block (R266, R328). -/
def Placement.landingBlocks (p : Placement) (im : Image) (c : Collective) : List (Nat × Nat) :=
  (List.range 16).flatMap (fun x => match p.stream (c.land + x) with
    | none => []
    | some sd => match im.objects.find? (fun o => decide (o.object = sd.object) && o.isParam && decide (sd.mode = 1)) with
      | none => []
      | some o => (p.records (c.land + x) sd).flatMap (fun r => (List.range r.1.npass).flatMap (fun j =>
          (List.range sd.runs).flatMap (fun k => (List.range (sd.runBytes / 64)).filterMap (fun g =>
            (o.locate (r.1.ebase + j * r.1.padv + k * sd.rstride + 64 * g) (slotPlane o.update.rule)).map (fun b => (o.object, b.1)))))))

/-- No two layers land on the same block (R266). -/
def untied (im : Image) (p : Placement) : Bool :=
  (List.range im.collectives.length).all (fun a => (List.range a).all (fun b => match im.collectives[a]?, im.collectives[b]? with
    | some x, some y => (p.landingBlocks im x).all (fun z => decide (z ∉ p.landingBlocks im y))
    | _, _ => true))

/-- Checks of a window of kind TILE against the descriptors of a placement. -/
def tileWindowOk (im : Image) (p : Placement) : Bool :=
  im.windows.all (fun w => decide (w.kind ≠ 4) || (p.streams[w.object]?).any (fun sd => decide (sd.mode = 11)))

/-- All checks of one placement. -/
def placementAll (m : Mode) (im : Image) (bs : List Byte) (ss : List Section) (h : Section) (p : Placement) : List Check :=
  let of (t : Nat) : Option Section := imFindOf ss t h.placement h.slab
  let runs := (of 0x16).elim 0 (fun x => x.count)
  h.checks bs 64 (fun k e => if k = 0 then placementChecks m im p e else [])
    ++ [(h.index, h.offset, decide (h.count = 1) && decide (p.streams.length ≤ 16384) && decide (p.arms.length ≤ 131072) && tileWindowOk im p && untied im p)]
    ++ optChecks (of 0x11) bs 32 (tileChecks m im p runs) ++ optChecks (of 0x12) bs 65536 (storeChecks m im p)
    ++ optChecks (of 0x13) bs 4 (memberChecks p) ++ optChecks (of 0x14) bs 64 (streamChecks m im p)
    ++ (of 0x16).elim [] (fun x => [(x.index, x.offset, residentOk x bs)])

/-! ## The whole image -/

/-- All checks of an image, in the order in which a fault is looked for. -/
def imageChecks (m : Mode) (im : Image) (bs : List Byte) : List Check :=
  let ss := imTableEntries bs
  let one (t n : Nat) (f : Nat → List Byte → List (Nat × Bool)) : List Check := optChecks (imFind ss t) bs n f
  let order := blocksBefore im.objects im.updateList im.updateList.length
  ss.flatMap (sectionChecks m bs ss) ++ countChecks m bs ss ++ reservedChecks bs ss
    ++ one 1 32 (fun _ e => pitchChecks m (parsePitch e))
    ++ one 2 64 (fun _ e => stepChecks (parseStep e) (im.primary.elim 0 (fun p => p.stepLength)) order im.feeds.length)
    ++ one 3 128 (objectTableChecks m im) ++ one 4 2 (updateListChecks im) ++ one 5 8 (contextChecks im)
    ++ [(noSection, noOffset, decide (im.contexts.length = (match m with | .split => 64 | .joined => 128)))]
    ++ (imFind ss 9).elim [] (segmentChecks m im)
    ++ one 6 32 (collectiveChecks im) ++ one 7 32 (windowChecks im) ++ one 8 32 (feedChecks im) ++ coverageChecks m im
    ++ (ss.filter (fun x => decide (x.type = 0x10))).flatMap (fun h =>
      match im.placements.find? (fun p => decide (p.number = h.placement) && decide (m = .split ∨ p.slab.num = h.slab)) with
      | none => []
      | some p => placementAll m im bs ss h p)

/-- The first fault of an image, as FAIL_SECTION and FAIL_OFFSET report it; the header is looked at first. -/
def imageFault (m : Mode) (im : Image) (bs : List Byte) (size : Nat) : Option (Nat × Nat) :=
  match (headerChecks m bs size).find? (fun c => !c.2.2) with
  | some c => some (c.1, c.2.1)
  | none => ((imageChecks m im bs).find? (fun c => !c.2.2)).map (fun c => (c.1, c.2.1))

end Sys2Proof.Machine
end

