-- ==== Sys2Proof/Machine/Objects.lean ====
section
/-! DEFINITION. Mapping and unmapping of objects (R203, R204, R209, R353, R371, R376), hints, and the host's writes of
whole pages (R387). -/

namespace Sys2Proof.Machine

open Sys2Proof

/-! ## Mapping -/

/-- Page `n` of an object takes a home, filled with zero bytes (R209). -/
def State.mapPage (s : State) (i k : SlabId) (o : ObjectEntry) (n : Nat) : Option State :=
  let parity := decide (o.prot = 1)
  let start := ((if o.stack0 = 0xFFFF then o.object else o.stack0) + n) % 24
  match (s.slab k).findHome parity start none with
  | none => none
  | some (st, f) =>
    let v := o.base / pageBytes + n
    some ((s.modSlab k (fun sl => (sl.takeFrame parity st f v).fillFrame st f [])).setPte i k v (mkPte (decide (k = .s1)) o.prot st f))

/-- An object mapped with zero contents; none when a page finds no home (R204). -/
def State.mapObject (s : State) (i : SlabId) (o : ObjectEntry) : Option State :=
  let k := s.objectSlab i o
  let s := s.modSlab k (fun sl => sl.modMem (fun m => { m with objects := m.objects ++ [o] }))
  (List.range o.pages).foldl (fun (a : Option State) n => a.bind (fun s => s.mapPage i k o n)) (some s)

/-- Frames of a stack in service that a PARITY page could take. -/
def Slab.parityRoom (sl : Slab) (st : Nat) : Nat :=
  if sl.stackUp st then ((List.range 32768).filter (fun f => sl.frameFor true st f)).length else 0

/-- Unrestorable pages homed on a stack. -/
def State.unrestorableOn (s : State) (i k : SlabId) (st : Nat) : Nat :=
  ((s.slab k).pagesOn st).foldl (fun n p => if s.restorable i p.1 then n else n + 1) 0

/-- The reserve of R353 holds on slab `k`: for every stack, the others have room for its unrestorable pages. -/
def State.reserveOk (s : State) (i k : SlabId) : Bool :=
  let room := stacks24.map (s.slab k).parityRoom
  let all := room.foldl (· + ·) 0
  stacks24.all (fun st => decide (s.unrestorableOn i k st + room.getD st 0 ≤ all))

/-- Objects mapped one after another, with the reserve of R353 kept on every slab of the device. -/
def State.mapObjects (s : State) (i : SlabId) (os : List ObjectEntry) : Option State :=
  match os.foldl (fun (a : Option State) o => a.bind (fun s => s.mapObject i o)) (some s) with
  | none => none
  | some s => if (s.devSlabs i).all (s.reserveOk i) then some s else none

/-- Initial contents of a mapped object: its data, and its blocks' headers (R371). -/
def State.fillObject (s : State) (i : SlabId) (o : ObjectEntry) (data : List Byte) : State :=
  let s := s.writeRange i o.base data
  if o.isParam then (List.range o.update.nblocks).foldl (fun s b => s.writeRange i (o.planeAddr b 0) (newHeader o b)) s else s

/-! ## Unmapping -/

/-- A page unmapped: its residence, its entry with every translation, and its home frame. -/
def State.unmapPage (s : State) (i : SlabId) (v : Nat) : State :=
  match s.pte i v with
  | none => s
  | some (k, e) =>
    let s := (s.leavePage i v).modDev i (fun sl =>
      ((sl.mem.moving.filter (fun x => decide (x.vpn = v))).foldl (fun sl x => sl.dropFrame x.toStack x.toFrame) sl).modMem (fun m =>
        { m with moving := m.moving.filter (fun x => decide (x.vpn ≠ v)) }))
    (s.modSlab k (fun sl => sl.dropFrame (pteStack e) (pteFrame e))).setPte i k v 0

/-- An object unmapped. -/
def State.unmapObject (s : State) (i : SlabId) (o : ObjectEntry) : State :=
  let first := o.base / pageBytes
  let s := (List.range o.pages).foldl (fun s n => s.unmapPage i (first + n)) s
  let s := s.modDev i (fun sl => sl.modMem (fun m =>
    { m with objects := m.objects.filter (fun x => decide (x.object ≠ o.object)), hints := m.hints.filter (fun h => decide (h.1 ≠ o.object)) }))
  s.modJob i (fun j => { j with lostPages := j.lostPages.filter (fun v => !(decide (first ≤ v) && decide (v < first + o.pages))) })

/-- The objects mapped on the device. -/
def State.mappedObjects (s : State) (i : SlabId) : List ObjectEntry := (s.devSlabs i).flatMap (fun k => (s.slab k).mem.objects)

/-- The loaded image names an object number. -/
def State.imageNames (s : State) (i : SlabId) (n : Nat) : Bool := (s.image i).any (fun im => im.objects.any (fun o => decide (o.object = n)))

/-! ## MAP_OBJECT, UNMAP_OBJECT, PLACE_HINT -/

/-- Parity frames in use on the device. -/
def State.parityFrames (s : State) (i : SlabId) : Nat :=
  (s.devSlabs i).foldl (fun n k => n + ((s.slab k).mem.frames.filter (fun f => decide (f.2 = .parity))).length) 0

/-- An object entry that MAP_OBJECT accepts: it keeps the table's conditions, its number is not mapped and its range
overlaps no mapped object (R189, R376). -/
def State.mapArgOk (s : State) (i : SlabId) (o : ObjectEntry) (e : List Byte) : Bool :=
  let os := s.mappedObjects i
  (objectChecks s.shared.mode o).all (fun c => c.2) && os.all (fun x => decide (x.object ≠ o.object)) && os.all (fun x => !objectsMeet x o)
    && (if o.isParam then (updateChecks (os ++ [o]) o).all (fun c => c.2) else decide (leAt e 64 64 = 0))

/-- The contents that MAP_OBJECT brings: none without DATA. -/
def State.mapData (s : State) (fn : SlabId) (r : Request) (bulk : List Byte) (o : ObjectEntry) : Option (List Byte) :=
  if o.flags / 32 % 2 = 0 then some [] else if o.size < r.hostLen then none else s.bulkIn fn r bulk r.hostLen

/-- MAP_OBJECT (R376): pages reserved, mapped and filled; its completion follows. -/
def execMapObject (fn : SlabId) (m : Fin 4) (bulk : List Byte) (s : State) : Result :=
  s.serve fn m 0x20 anyRequest (fun s r =>
    let o := parseObject r.payload
    (if s.mapArgOk fn o r.payload then s.mapData fn r bulk o else none).elim (s.respond fn m r stBadArg []) (fun data =>
      (s.mapObjects fn [o]).elim (s.respond fn m r stNoSpace []) (fun t =>
        (t.fillObject fn o data).accept fn m r stAccepted true
          (leBytes o.pages 4 ++ leBytes (t.parityFrames fn - s.parityFrames fn) 4))))

/-- MAP_OBJECT_COMPLETE: the completion record of the mapping. -/
def execMapObjectComplete (fn : SlabId) (s : State) : Result :=
  if (s.slab fn).camp.firmware = .running then .next (s.completeAll fn 0x20) else .next s

/-- UNMAP_OBJECT (R381): an object that the loaded image does not name is unmapped. -/
def execUnmapObject (fn : SlabId) (m : Fin 4) (s : State) : Result :=
  s.serve fn m 0x21 anyRequest (fun s r =>
    match s.objectNo fn (r.arg 0 2) with
    | none => s.respond fn m r stNotFound []
    | some o => if s.imageNames fn o.object then s.respond fn m r stRefusedState [] else (s.unmapObject fn o).respond fn m r stOk [])

/-- Residence copies that an object's hint no longer asks for leave residence in the next maintenance pitch (R203): bivouac copies
need NEAR, local ones LOCAL. -/
def State.dropUnhinted (s : State) (i : SlabId) (o : ObjectEntry) (hint : Nat) : State :=
  let mine (v : Nat) : Bool := decide (o.base ≤ v * pageBytes) && decide (v * pageBytes < o.base + o.size)
  let kept (v : Nat) : Bool := match s.pte i v with
    | none => false
    | some (_, e) => decide (pteRes e = 1 ∧ hint = 2) || decide (2 ≤ pteRes e ∧ hint = 1)
  s.modDev i (fun sl => sl.modMem (fun m =>
    { m with dropping := ((m.residence.filter (fun p => mine p.2.1 && !kept p.2.1)).map Prod.fst).foldl (fun l k => insertNew k l) m.dropping }))

/-- PLACE_HINT (R203, R189): an object's hint from the next maintenance pitch on. -/
def execPlaceHint (fn : SlabId) (m : Fin 4) (s : State) : Result :=
  s.serve fn m 0x22 anyRequest (fun s r =>
    match s.objectNo fn (r.arg 0 2) with
    | none => s.respond fn m r stNotFound []
    | some o =>
      let h := r.arg 2 1
      let p := r.arg 3 1
      if classOk { o with hint := h } && decide (p ≤ 7) then
        ((s.modSlab (s.objectSlab fn o) (fun sl => sl.modMem (fun x =>
          { x with hints := x.hints.filter (fun y => decide (y.1 ≠ o.object)) ++ [(o.object, h, p)] }))).dropUnhinted fn o h).respond fn m r stOk []
      else s.respond fn m r stBadArg [])

/-! ## Host writes of pages (Table 8.2, R381, R387) -/

/-- The host may write the page now: a page that the job lost, while the job is paused, or one of a CONST object before
JOB_START or while the job is paused. -/
def State.hostMayWrite (s : State) (i : SlabId) (v : Nat) : Bool :=
  let j := s.job i
  let quiet := decide (j.state = .empty ∨ j.state = .loaded ∨ j.state = .paused)
  quiet && (decide (v ∈ j.lostPages) || (s.pageObject i v).any (fun o => decide (o.cls = 2)))

/-- Once every lost page is rewritten, the reason RESTORE_NEEDED is cleared (R387). -/
def State.restored (s : State) (i : SlabId) : State :=
  let j := s.job i
  if j.state = .paused ∧ j.reason = .restoreNeeded ∧ j.lostPages = [] then
    s.setJobState i .paused (if j.needsHost then j.hostReason else .host)
  else s

/-- A residence copy of a page filled again from its home, which has changed (R188). -/
def State.refill (s : State) (i : SlabId) (v : Nat) : State :=
  (s.devSlabs i).foldl (fun s k => ((s.slab k).mem.residence.filter (fun p => decide (p.2.1 = v))).foldl (fun (s : State) p =>
    match s.pte i v with
    | none => s
    | some (_, e) => s.fillResidence i k (s.localX k p.1.1) p.1.2.1 p.1.2.2 v (pteRes e)) s) s

/-- HOST_PAGE_WRITE: a whole page written by the host; it clears the page's mark. A page whose home cannot be read takes
a new one first. -/
def execHostPageWrite (fn : SlabId) (vpn : BitVec 27) (data : List Byte) (s : State) : Result :=
  let v := vpn.toNat
  if decide (s.dev fn = fn) && decide (data.length = pageBytes) && decide ((s.slab fn).camp.firmware = .running) && s.hostMayWrite fn v then
    let s := match s.pte fn v with
      | none => s
      | some (k, e) => if (s.slab k).stackUp (pteStack e) then s else s.rehome k v e
    .next ((((s.writeRange fn (v * pageBytes) data).refill fn v).modJob fn (fun j =>
      { j with lostPages := j.lostPages.filter (fun x => decide (x ≠ v)) })).restored fn)
  else .next s

end Sys2Proof.Machine
end

