-- ==== Sys2Proof/Machine/Images.lean ====
section
/-! DEFINITION. Loading images (R364, R370 to R372, R381): LOAD_IMAGE with its three stages, UNLOAD and
VERIFY_IMAGE. -/

namespace Sys2Proof.Machine

open Sys2Proof

/-! ## Stage 2: placement, kept objects, space -/

/-- Fields that a load would find lost: those recorded, and those whose pending repair is not valid (R347). -/
def State.lostAtLoad (s : State) (i : SlabId) : Nat :=
  (s.devSlabs i).foldl (fun x k =>
    (List.range 42).foldl (fun x n =>
      let f := (s.slab k).field n
      if f.repairPending && !f.clamped && (f.repair n true).isNone then x ||| 2 ^ fieldBit s.shared.mode k n else x) x) (s.lostBits i)

/-- The starting placement of an image for a set of lost fields (R364). -/
def Image.startFor (im : Image) (lost : Nat) : Option Nat :=
  let x := lost ^^^ (lost &&& im.declaredLost)
  if x = 0 then some 0 else (im.placements.find? (fun p => decide (p.covers = x) && decide (p.number ≠ 0))).map (fun p => p.number)

/-- A mapped object keeps its mapping and contents for an object of the new image (R371). -/
def objectKept (m : Mode) (a b : ObjectEntry) : Bool :=
  decide (a.object = b.object ∧ a.cls = b.cls ∧ a.prot = b.prot ∧ a.base = b.base ∧ a.size = b.size)
    && (decide (m = .split) || decide (a.flags / 16 % 2 = b.flags / 16 % 2)) && decide (a.isParam = b.isParam)
    && (!a.isParam || decide (a.update.rule = b.update.rule ∧ a.update.wfmt = b.update.wfmt ∧ a.update.mfmt = b.update.mfmt
      ∧ a.update.nblocks = b.update.nblocks))

/-- The mapped objects that a load unmaps: those of the image it replaces, or that the new image names, when they are
not kept. -/
def State.dropsAtLoad (s : State) (i : SlabId) (im : Image) : List ObjectEntry :=
  (s.mappedObjects i).filter (fun o =>
    !im.objects.any (objectKept s.shared.mode o) && (s.imageNames i o.object || im.objects.any (fun x => decide (x.object = o.object))))

/-- The objects of the new image that keep no mapping. -/
def State.newAtLoad (s : State) (i : SlabId) (im : Image) : List ObjectEntry :=
  im.objects.filter (fun o => !(s.mappedObjects i).any (fun x => objectKept s.shared.mode x o))

/-- In PAUSED every object of the new image is kept and every mapped object appears in it (R371). -/
def State.continues (s : State) (i : SlabId) (im : Image) : Bool :=
  decide ((s.job i).state ≠ .paused)
    || ((s.newAtLoad i im).isEmpty && (s.mappedObjects i).all (fun o => im.objects.any (objectKept s.shared.mode o)))

/-- No object of the new image overlaps an object that stays mapped from outside it (R376). -/
def State.clearOfMapped (s : State) (i : SlabId) (im : Image) : Bool :=
  let gone := (s.dropsAtLoad i im).map (fun o => o.object)
  (s.mappedObjects i).all (fun o => decide (o.object ∈ gone) || im.objects.all (fun x => decide (x.object = o.object) || !objectsMeet x o))

/-- What a load does to mappings: those not kept unmapped, new ones mapped and filled. None when space is lacking. -/
def State.remap (s : State) (i : SlabId) (im : Image) : Option State :=
  let new := s.newAtLoad i im
  let t := (s.dropsAtLoad i im).foldl (fun t o => t.unmapObject i o) s
  let keep := im.objects.filter (fun o => decide (o ∉ new))
  let t := t.modDev i (fun sl => sl.modMem (fun m =>
    { m with objects := m.objects.map (fun o => (keep.find? (fun x => decide (x.object = o.object))).getD o) }))
  (t.mapObjects i new).map (fun t => new.foldl (fun t o =>
    t.fillObject i o (if o.flags / 32 % 2 = 1 then (im.data.drop o.dataOffset).take o.size else [])) t)

/-- The DETAIL of a load or verification (Table 15.7). -/
def loadDetail (placement section_ offset : Nat) (digest : List Byte) : List Byte :=
  leBytes placement 2 ++ [0, 0] ++ leBytes section_ 4 ++ leBytes offset 8 ++ padTo 16 digest

/-- Stages 1 and 2 on image bytes: OK with the placement, or the status with the place of the first fault. `reserve`
asks for the pages too. -/
def State.checkImage (s : State) (i : SlabId) (bs : List Byte) (size : Nat) (reserve : Bool) : Except (Byte × Nat × Nat) (Image × Nat) :=
  let m := s.shared.mode
  let im := parseImage bs i
  if !imageAuthentic (s.slab i).camp.flash.settings bs then .error (stAuthFail, noSection, noOffset)
  else if (s.slab i).camp.flash.mode ≠ (if imJoined bs then .joined else .split) then .error (stImageInvalid, noSection, 6)
  else match imageFault m im bs size with
    | some f => .error (stImageInvalid, f.1, f.2)
    | none => match im.startFor (s.lostAtLoad i) with
      | none => .error (stImageInvalid, noSection, noOffset)
      | some n =>
        if !s.continues i im || !s.clearOfMapped i im then .error (stImageInvalid, noSection, noOffset)
        else if reserve && (s.remap i im).isNone then .error (stNoSpace, noSection, noOffset)
        else .ok (im, n)

/-- The image bytes that a request names: IMAGE_BYTES of them from staging, or through the extent list (Table 15.7). -/
def State.imageInput (s : State) (fn : SlabId) (r : Request) (bulk : List Byte) : Option (List Byte) :=
  let n := r.arg 0 8
  let extents := r.arg 8 4
  if r.arg 12 4 ≠ 0 then none
  else if r.bar2 then (if extents = 0 then s.bulkIn fn r bulk n else none)
  else if r.hostbuf && decide (1 ≤ extents ∧ extents ≤ 4096 ∧ 16 * extents ≤ r.hostLen ∧ bulk.length = n) then some bulk
  else none

/-! ## LOAD_IMAGE and VERIFY_IMAGE -/

/-- A load or verification that failed in stage 1 or 2: ACCEPTED, and its completion record. -/
def State.rejectImage (s : State) (fn : SlabId) (m : Fin 4) (r : Request) (bs : List Byte) (e : Byte × Nat × Nat) : State :=
  let detail := loadDetail 0xFFFF e.2.1 e.2.2 (Config.shake256 (imBody bs))
  ((s.accept fn m r stAccepted true detail).complete fn r.tag e.1 detail).modSlab fn (fun sl => sl.count Ctr.IMAGE_REJECTS 1)

/-- LOAD_IMAGE (R370): the image is authenticated and validated; stage 3 follows with LOAD_IMAGE_COMPLETE. -/
def execLoadImage (fn : SlabId) (m : Fin 4) (bulk : List Byte) (s : State) : Result :=
  s.serve fn m 0x10 (fun r => !r.unload) (fun s r =>
    if s.shared.mode = .joined ∧ s.slab0.camp.fwVersion ≠ s.slab1.camp.fwVersion then s.respond fn m r stRefusedState []
    else match s.imageInput fn r bulk with
      | none => s.respond fn m r stBadArg []
      | some bs => match s.checkImage fn bs (r.arg 0 8) true with
        | .error e => s.rejectImage fn m r bs e
        | .ok x => (s.modJob fn (fun j => { j with incoming := some x.1 })).accept fn m r stAccepted true
            (loadDetail x.2 noSection noOffset x.1.digest))

/-- VERIFY_IMAGE: stages 1 and 2 without the reservation; nothing changes. -/
def execVerifyImage (fn : SlabId) (m : Fin 4) (bulk : List Byte) (s : State) : Result :=
  s.serve fn m 0x11 anyRequest (fun s r =>
    match s.imageInput fn r bulk with
    | none => s.respond fn m r stBadArg []
    | some bs => match s.checkImage fn bs (r.arg 0 8) false with
      | .error e => s.rejectImage fn m r bs e
      | .ok x =>
        let detail := loadDetail x.2 noSection noOffset x.1.digest
        (s.accept fn m r stAccepted true detail).complete fn r.tag stOk detail)

/-! ## Stage 3 -/

/-- Repairs at a load (R152, R347): every valid pending repair is applied, degraded tiles are remapped, and a field without a valid
repair is lost with code 0x04, its fuse opened: the cause of a hold, in which the hole map follows (R46, R175). -/
def State.repairAtLoad (s : State) (i : SlabId) : State :=
  let s := s.repairFields i true
  let broken := (s.devSlabs i).flatMap (fun k => ((List.range 42).filter (s.unrepaired k)).map (fun n => (k, n)))
  broken.foldl (fun (s : State) p => s.breakField p.1 p.2) s

/-- The hot threshold of a stack in thousandths of a degree (Table 18.6). -/
def stackHotMilliC : Int := 90000

/-- What the frames of the pages that are still homed on a stack out of service hold: as their stripes give it. -/
def Slab.staleFrames (sl : Slab) (u : Nat) : List (Nat × Cells) :=
  (sl.pagesOn u).filterMap (fun p => (sl.frameCells u (pteFrame p.2)).map (fun cs => (pteFrame p.2, cs)))

/-- Parked stacks below the hot threshold return to service; pages that had not been rebuilt take the contents that their stripes
give, and the parity of the unprotected stripes is rebuilt (R214). -/
def State.unparkStacks (s : State) (i : SlabId) : State :=
  (s.devSlabs i).foldl (fun s k => stacks24.foldl (fun (s : State) u =>
    let st := (s.slab k).stack u
    if st.state = .parked ∧ st.milliC < stackHotMilliC then
      let now := s.stamp k
      s.modSlab k (fun sl =>
        let sl := (sl.pagesOn u).foldl (fun sl p => sl.flushFrame u (pteFrame p.2)) sl
        let sl := (sl.staleFrames u).foldl (fun sl p => sl.setFrame u p.1 p.2) sl
        let sl := (sl.modStack u (fun x => { x with state := .good, selfRefresh := false, changed := some now })).mapChanged
        let own := (sl.mem.stripes.filter (fun p => decide (parityStack p.1 = u) && decide (p.2 = .unprotected))).map Prod.fst
        let sl := sl.modMem (fun m => { m with stripes := m.stripes.map (fun p => if p.1 ∈ own then (p.1, .parity) else p) })
        own.foldl (fun sl f => sl.recomputeParity f) sl)
    else s) s) s

/-- Windows of the new image on slab `k`, beside the FEED windows that stay (R318). -/
def newWindows (im : Image) (feeds : List FeedQueue) (old : List (Nat × WindowEntry)) : List (Nat × WindowEntry) :=
  let mine := (im.windows.zipIdx.filter (fun p => decide (p.1.kind ≠ 0))).map (fun p => (p.2, p.1))
  mine ++ old.filter (fun p => decide (p.2.kind = 3) && mine.all (fun q => decide (q.1 ≠ p.1))
    && !feeds.any (fun q => q.bound && !q.fromHost && decide (q.window = p.1)))

/-- The feed queues of the new image: unbound, but those that a paused job goes on with (R378). -/
def newFeeds (im : Image) (paused : Bool) (old : List FeedQueue) : List FeedQueue :=
  im.feeds.map (fun e =>
    match (if paused then old.find? (fun q => decide (q.entry.queue = e.queue)) else none) with
    | some q => { q with entry := e }
    | none => { entry := e, bound := false, fromHost := false, window := 0, rows := [], released := 0, filled := 0 })

/-- The tables and stores of the starting placement written on the device (R94, R157, R218). -/
def State.writePlacement (s : State) (i : SlabId) (im : Image) (n : Nat) : State :=
  let s := s.switchPlacement i im n true (fun _ _ _ => true)
  let step := (s.job i).step.toNat
  let s := (s.devSlabs i).foldl (fun s k =>
    match s.placement k with
    | none => s
    | some p => s.modSlab k (fun sl => sl.resetStreams p step)) s
  s.modDev i (fun sl => sl.mapTiles (fun _ _ t => { t with flags := 0 }))

/-- The context table of an image kept by the device's base camps, 64 contexts each (R254). -/
def State.keepContexts (s : State) (i : SlabId) (cs : List ContextEntry) : State :=
  match s.shared.mode with
  | .split => s.modSlab i (fun sl => sl.modCamp (fun c => { c with contexts := cs }))
  | .joined => (s.modSlab .s0 (fun sl => sl.modCamp (fun c => { c with contexts := cs.take 64 }))).modSlab .s1 (fun sl =>
      sl.modCamp (fun c => { c with contexts := cs.drop 64 }))

/-- Stage 3 of R370. None when the pages are no longer to be had. -/
def State.installImage (s : State) (i : SlabId) (im : Image) : Option State :=
  let paused := decide ((s.job i).state = .paused)
  let s := (s.repairAtLoad i).unparkStacks i
  match s.remap i im, im.startFor (s.lostBits i) with
  | some t, some n =>
    let feeds := newFeeds im paused (t.job i).feeds
    let stays := if paused then feeds else []
    let t := (t.devSlabs i).foldl (fun (t : State) k => t.modSlab k (fun sl => sl.modLinks (fun l =>
      { l with windows := newWindows im ((t.job i).feeds.filter (fun q => !stays.any (fun x => decide (x.entry.queue = q.entry.queue)))) l.windows }))) t
    let t := t.modJob i (fun j => { j with image := some im, ran := paused && j.ran, incoming := none, placement := n, feeds := feeds, missingPlacement := false })
    let t := (t.keepContexts i im.contexts).writePlacement i im n
    let t := if paused then t.fillLocal i n (fun _ _ => true) else t
    some (if paused then t.setJobState i .paused .host else t.setJobState i .loaded .none)
  | _, _ => none

/-- LOAD_IMAGE_COMPLETE: stage 3 ends and the completion is posted. -/
def execLoadImageComplete (fn : SlabId) (s : State) : Result :=
  match (if (s.slab fn).camp.firmware = .running then (s.slab fn).job.incoming else none) with
  | none => .next s
  | some im =>
    match s.installImage fn im with
    | some t => .next ((t.modSlab fn (fun sl => sl.count Ctr.IMAGE_LOADS 1)).completeAll fn 0x10)
    | none =>
      let s := (s.modJob fn (fun j => { j with incoming := none })).modSlab fn (fun sl => sl.count Ctr.IMAGE_REJECTS 1)
      .next (((s.func fn).outstanding.filter (fun o => decide (o.opcode = 0x10))).foldl (fun s o =>
        s.complete fn o.tag stNoSpace (loadDetail 0xFFFF noSection noOffset [])) s)

/-- The device without its image: tiles idle, windows and feed queues gone, objects still mapped. -/
def State.unloadImage (s : State) (i : SlabId) : State :=
  let feeds := (s.job i).feeds
  let s := s.modDev i (fun sl =>
    let sl := sl.mapTiles (fun _ _ t => if t.entry.isSome then t.idle else t)
    ({ sl with streams := [] } : Slab).modLinks (fun l =>
      { l with windows := l.windows.filter (fun p => decide (p.2.kind = 3)
          && !feeds.any (fun q => q.bound && !q.fromHost && decide (q.window = p.1))) }))
  let s := (s.keepContexts i []).modJob i (fun j => { j with image := none, placement := 0, feeds := [], missingPlacement := false, primed := [] })
  s.setJobState i .empty .none

/-- LOAD_IMAGE with UNLOAD (R381). -/
def execLoadImageUnload (fn : SlabId) (m : Fin 4) (s : State) : Result :=
  s.serve fn m 0x10 (fun r => r.unload) (fun s r =>
    if r.payload ≠ List.replicate 16 0 ∨ r.hostbuf ∨ r.bar2 then s.respond fn m r stBadArg []
    else match (s.job fn).state with
      | .empty => s.respond fn m r stOk []
      | .loaded => (s.unloadImage fn).respond fn m r stOk []
      | _ => s.respond fn m r stRefusedState [])

end Sys2Proof.Machine
end

