-- ==== Sys2Proof/Machine/Jobs.lean ====
section
/-! DEFINITION. The job's life (R380 to R387): JOB_START, JOB_PAUSE, JOB_RESUME, JOB_STOP, STEP_CONTROL and the
entries into PAUSED and LOADED. -/

namespace Sys2Proof.Machine

open Sys2Proof

/-! ## JOB_START (R382) -/

/-- Every collective's member group covers its buckets on every slab of the device (R324). -/
def State.groupsCover (s : State) (i : SlabId) (im : Image) : Bool :=
  (s.devSlabs i).all (fun k => im.collectives.all (fun c =>
    decide (c.nbuckets ≤ c.bpr * (alookup c.group (s.slab k).links.groups).elim 0 (fun g => g.ranks.length))))

/-- The multicast groups that the image names on slab `k`: DIFF_GROUP and the groups of its MCAST_OUT descriptors. -/
def Image.mcastGroups (im : Image) (k : SlabId) : List Nat :=
  (if im.step.diffGroup = 0xFFFF then [] else [im.step.diffGroup.toNat])
    ++ (im.placements.filter (fun p => decide (p.slab = k))).flatMap (fun p =>
      (p.streams.zipIdx.filter (fun x => decide (x.1.mode = 10))).flatMap (fun x => (p.records x.2 x.1).map (fun r => r.1.sbase % 256)))

/-- Every multicast group that the image names is configured (R317, R337). -/
def State.mcastReady (s : State) (i : SlabId) (im : Image) : Bool :=
  (s.devSlabs i).all (fun k => (im.mcastGroups k).all (fun g => (alookup g (s.slab k).links.mcastTx).isSome))

/-- FROZEN of every block as the update descriptors give it (R294). -/
def State.applyFrozen (s : State) (i : SlabId) (im : Image) : State :=
  (im.objects.filter ObjectEntry.isParam).foldl (fun s o =>
    (List.range o.update.nblocks).foldl (fun s b => s.putFrozen i o b (decide (o.update.flags % 2 = 1))) s) s

/-- Units, engines and links of a slab as a job's first step finds them: nothing of an earlier job's steps. -/
def Slab.freshUnits (sl : Slab) : Slab :=
  let sl := stacks24.foldl (fun (sl : Slab) u => sl.modUnit u (fun x =>
    { x with landings := [], gsq := 0, nonfinite := false, short := false, groups := [], cstep := 0, pos := 0, journal := none
             torn := false, result := none, repairs := [], full := [], dirty := [], sweep := 0, baselineUsed := 0 })) sl
  let sl := { sl with engines := sl.engines.map (fun (e : Nat × Engine) =>
      (e.1, { e.2 with staged := [], buckets := [], retained := [], log := [], resendAt := none })) }
  sl.modLinks (fun l => { l.closeWindows with own := none, children := [], summitParts := [], result := none, contributed := false
                                              summitProbes := 0, unreachable := false, retried := [] })

/-- The stores of every active tile written, its counters and flags cleared (R94, R136). -/
def State.startTiles (s : State) (i : SlabId) : State :=
  let s := (s.devSlabs i).foldl (fun (s : State) k =>
    match s.placement k with
    | none => s
    | some p =>
      let dx := if s.shared.mode = .joined then 112 * k.num else 0
      s.modSlab k (fun sl => p.entries.foldl (fun sl e => sl.modTile (e.x - dx) e.y (fun t => t.loadStores p e)) sl)) s
  s.modDev i (fun sl => sl.mapTiles (fun _ _ t => { t with flags := 0, ctxs := [] }))

/-- The job as JOB_START leaves it. -/
def Job.started (j : Job) (seed : DWord) : Job :=
  { j with seed := seed, step := 0, inStep := false, ran := false, replay := 0, overruns := 0, gateMet := false, feedPitches := 0, primed := [], idleSinceStart := false
           ranOut := false, window := none, settings := [], lrScale := 0x3F800000, hostPause := false, stopAsked := false, results := []
           feeds := j.feeds.map (fun q => { q with rows := [], released := 0, filled := 0 }) }

/-- A job begun. -/
def State.startJob (s : State) (i : SlabId) (im : Image) (seed : DWord) : State :=
  let s := (s.startTiles i).applyFrozen i im
  let s := (s.modDev i Slab.freshUnits).modDev i (fun sl => sl.modCamp (fun c => { c with peerGate := (0, 0) }))
  let s := s.modJob i (fun j => j.started seed)
  let lim := s.stretchOf i
  let s := s.modRoot i (fun r => { r with schedIndex := 0, indexInStep := 0, firstPitch := 0, midStep := false, stretchLimit := lim })
  let s := (s.fillLocal i (s.job i).placement (fun _ _ => true)).resetDescriptors i
  (s.setJobState i .running .none).modSlab (s.dev i) (fun sl => sl.count Ctr.JOB_STARTS 1)

/-- JOB_START. -/
def execJobStart (fn : SlabId) (m : Fin 4) (s : State) : Result :=
  s.serve fn m 0x30 anyRequest (fun s r =>
    match s.image fn with
    | none => s.respond fn m r stRefusedState []
    | some im =>
      if (s.job fn).needsHost then s.respond fn m r stRefusedState []
      else if !s.groupsCover fn im || !s.mcastReady fn im then s.respond fn m r stBadArg []
      else (s.startJob fn im (BitVec.ofNat 64 (r.arg 0 8))).respond fn m r stOk [])

/-! ## Step boundaries -/

/-- Pass 2 of the step before the coming one has committed, or need not be waited for: no step has run, or a forced stop
or pause found its summit result missing. -/
def State.boundaryReached (s : State) (i : SlabId) (onlyResults : Bool) : Bool :=
  let j := s.job i
  !j.inStep && !(s.root i).inHold
    && (decide (j.step = 0) || (match s.ledgerOf i (j.step - 1) with
      | none => true
      | some r => bit r.phases 4 || (onlyResults && !bit r.phases 2)))

/-- The job ends: windows closed, held fetches cancelled, every object still mapped, LOADED (R384). -/
def State.endJob (s : State) (i : SlabId) : State :=
  let s := ((s.closeSteps i true).closeWindow i).nextEpoch i
  let s := s.modDev i (fun sl => sl.modLinks Links.closeWindows)
  let s := s.modJob i (fun j => { j with inStep := false, ran := false, primed := [], settings := [], hostPause := false, stopAsked := false, ranOut := false })
  s.setJobState i .loaded .none

/-- Forced operations of the device begin (R386). -/
def State.beginForced (s : State) (i : SlabId) : State :=
  (s.devSlabs i).foldl (fun (s : State) k =>
    let tags := ((s.slab k).camp.operations.filter (fun o => o.forced && !o.running)).map (fun o => o.tag)
    let s := s.modSlab k (fun sl => sl.modCamp (fun c => { c with operations := c.operations.map (fun o => if o.forced then { o with running := true } else o) }))
    s.modFunc k (fun f => { f with outstanding := f.outstanding.map (fun o => if o.tag ∈ tags then { o with committed := true } else o) })) s

/-- PAUSED_ENTRY (R359, R383, R386): the step has committed; the device enters PAUSED. -/
def execPausedEntry (slab : SlabId) (s : State) : Result :=
  let i := s.dev slab
  let j := s.job i
  if decide (j.state = .pausing) && decide ((s.slab i).camp.firmware = .running) && s.boundaryReached i j.hostPause then
    let s := (s.closeSteps i true).nextEpoch i
    let s := s.modJob i (fun j => { j with primed := [], hostPause := false, ranOut := false })
    let s := if j.hostPause then s.modLedger i j.step (fun x => { x with phases := x.phases ||| 64 }) else s
    let s := (s.setJobState i .paused (if j.hostPause && j.needsHost then j.hostReason else j.reason)).modSlab i (fun sl => sl.count Ctr.JOB_PAUSES 1)
    let s := if j.hostPause then s.askHost i j.step else s
    .next ((s.beginForced i).completeAll (s.jobFn i) 0x31)
  else .next s

/-- JOB_STOP_END (R384, R387): the stop takes effect. -/
def execJobStopEnd (slab : SlabId) (s : State) : Result :=
  let i := s.dev slab
  let j := s.job i
  if decide (j.state = .stopping) && decide ((s.slab i).camp.firmware = .running) && s.boundaryReached i (j.stopAsked || j.needsHost) then
    .next ((((s.endJob i).beginForced i).completeAll (s.jobFn i) 0x31).completeAll (s.jobFn i) 0x33)
  else .next s

/-! ## JOB_PAUSE and JOB_RESUME (R383, R386, R387) -/

/-- JOB_PAUSE: RUNNING enters PAUSING; in PAUSING or PAUSED for a self-test the host's pause stands from now on. -/
def execJobPause (fn : SlabId) (m : Fin 4) (s : State) : Result :=
  s.serve fn m 0x31 anyRequest (fun s r =>
    let j := s.job fn
    match j.state with
    | .running => (s.setJobState fn .pausing .host).accept fn m r stAccepted true []
    | _ => (if j.reason = .selfTest then s.setJobState fn j.state .host else s).respond fn m r stOk [])

/-- An operation forced in RUNNING still waits for PAUSED. -/
def State.forcedWaits (s : State) (i : SlabId) : Bool :=
  (s.devSlabs i).any (fun k => (s.slab k).camp.operations.any (fun o => o.forced && !o.running))

/-- The paused job goes on: descriptors at ARM0, primed fetches, the gate applied anew. -/
def State.resumeJob (s : State) (i : SlabId) : State :=
  let s := s.modJob i (fun j => { j with idleSinceStart := false, gateMet := false, hostPause := false, ranOut := false })
  (s.resetDescriptors i).setJobState i .running .none

/-- JOB_RESUME: a host pause not yet in effect is withdrawn; a device paused for the host's command goes on. -/
def execJobResume (fn : SlabId) (m : Fin 4) (s : State) : Result :=
  s.serve fn m 0x32 anyRequest (fun s r =>
    let j := s.job fn
    match j.state with
    | .pausing =>
      if j.reason = .host && !j.hostPause then
        let s := if s.forcedWaits fn then s.setJobState fn .pausing .selfTest else s.setJobState fn .running .none
        (s.completeAll (s.jobFn fn) 0x31).respond fn m r stOk []
      else s.respond fn m r stOk []
    | .paused =>
      if j.reason = .host && !j.needsHost then (s.resumeJob fn).respond fn m r stOk [] else s.respond fn m r stRefusedState []
    | _ => s.respond fn m r stOk [])

/-! ## JOB_STOP (R384) -/

/-- JOB_STOP at a step boundary: from PAUSED at once. -/
def State.stopJob (s : State) (fn : SlabId) (m : Fin 4) (r : Request) (force : Bool) : State :=
  let j := s.job fn
  match j.state with
  | .loaded | .empty => s.respond fn m r stOk []
  | .paused => (s.endJob fn).respond fn m r stOk []
  | .running | .pausing | .stopping =>
    let s := if j.state = .stopping then s else s.setJobState fn .stopping .none
    let s := if force then (s.modJob fn (fun j => { j with stopAsked := true })).raise (s.dev fn) 0x19 none else s
    s.accept fn m r stAccepted true []

/-- JOB_STOP. -/
def execJobStop (fn : SlabId) (m : Fin 4) (s : State) : Result :=
  s.serve fn m 0x33 (fun r => !r.force) (fun s r => s.stopJob fn m r false)

/-- JOB_STOP with FORCE: a hold with cause 0x19 is requested, or joined. -/
def execJobStopForce (fn : SlabId) (m : Fin 4) (s : State) : Result :=
  s.serve fn m 0x33 (fun r => r.force) (fun s r => s.stopJob fn m r true)

/-! ## STEP_CONTROL (R385) -/

/-- The fields of a STEP_CONTROL payload are in range. -/
def State.stepArgOk (s : State) (i : SlabId) (r : Request) : Bool :=
  let items := r.arg 8 1
  let n := r.arg 0 8
  decide (items < 32) && decide (r.arg 9 1 = 0) && !(items.testBit 2 && items.testBit 3) && decide ((s.job i).step.toNat ≤ n)
    && (!items.testBit 1 || decide (r.arg 12 4 < 0x7F800000 ∨ r.arg 12 4 = 0x80000000))
    && (!(items.testBit 2 || items.testBit 3) || (match s.objectNo i (r.arg 10 2) with
      | none => false
      | some o => o.isParam && decide (1 ≤ r.arg 20 4) && decide (r.arg 16 4 + r.arg 20 4 ≤ o.update.nblocks)))

/-- Settings with a new one put in: an item of the same step is replaced, and freezes apply in arrival order. -/
def putSetting (l : List (DWord × Setting)) (n : DWord) (x : Setting) : List (DWord × Setting) :=
  l.filter (fun p => decide (p.1 ≠ n) || (match p.2, x with
    | .skip, .skip => false
    | .lrScale _, .lrScale _ => false
    | .pauseAfter, .pauseAfter => false
    | _, _ => true)) ++ [(n, x)]

/-- The settings that a request's items make. -/
def requestSettings (r : Request) : List Setting :=
  let items := r.arg 8 1
  (if items.testBit 0 then [.skip] else []) ++ (if items.testBit 1 then [.lrScale (BitVec.ofNat 32 (r.arg 12 4))] else [])
    ++ (if items.testBit 2 || items.testBit 3 then [.freeze (r.arg 10 2) (r.arg 16 4) (r.arg 20 4) (items.testBit 2)] else [])
    ++ (if items.testBit 4 then [.pauseAfter] else [])

/-- STEP_CONTROL: settings for a step, or for the next one when its pass-1 window has already opened. -/
def execStepControl (fn : SlabId) (m : Fin 4) (s : State) : Result :=
  s.serve fn m 0x34 anyRequest (fun s r =>
    if !s.stepArgOk fn r then s.respond fn m r stBadArg []
    else
      let j := s.job fn
      let asked : DWord := BitVec.ofNat 64 (r.arg 0 8)
      let n := if j.inStep ∧ asked = j.step then asked + 1 else asked
      (s.modJob fn (fun j => { j with settings := (requestSettings r).foldl (fun l x => putSetting l n x) j.settings })).respond fn m r stOk
        (leBytes n.toNat 8))

end Sys2Proof.Machine
end

