-- ==== Sys2Proof/Machine/Info.lean ====
section
/-! DEFINITION. The commands that read records and measurements: IDENTIFY, GET_STATUS, LEDGER_READ, FAULT_LOG_READ,
COUNTERS_READ, COUNTERS_CLEAR, TELEMETRY (Tables 15.7, 15.9, 15.12), ATTEST and GET_CERT (chapter 17). -/

namespace Sys2Proof.Machine

open Sys2Proof

/-! ## Shared fields -/

/-- The Zetra ports of a slab that are up, a bit each. -/
def Slab.portsUp (sl : Slab) : Nat := (List.range 16).foldl (fun n p => if (sl.port p).up then n + 2 ^ p else n) 0

/-- The ports in whose connector a cable is seated. -/
def Slab.portsPresent (sl : Slab) : Nat := (List.range 16).foldl (fun n p => if (sl.port p).cable then n + 2 ^ p else n) 0

/-- The state of a stack as GET_STATUS codes it. -/
def Stack.statusCode (st : Stack) : Nat :=
  match st.state with
  | .good => if st.hot then 1 else 0
  | .parked => 2
  | .failed => 3
  | .controllerLost => 3

/-- STACKS of GET_STATUS. -/
def Slab.stackBits (sl : Slab) : Nat := stacks24.foldl (fun n k => n + (sl.stack k).statusCode * 4 ^ k) 0

/-- A mode as its record codes it. -/
def modeCode : Mode → Byte
  | .split => 0
  | .joined => 1

/-! ## IDENTIFY and GET_STATUS -/

/-- The identity record as IDENTIFY gives it: its length and its bytes; nothing when it fails its check (R434). -/
def Camp.identityBytes (c : Camp) : List Byte := if c.identityBad then leBytes 0 2 else leBytes 1792 2 ++ padTo 1792 c.flash.identity

/-- The payload of IDENTIFY. -/
def Slab.identity (sl : Slab) (i : SlabId) : List Byte :=
  let c := sl.camp
  leBytes 0x2880 2 ++ [BitVec.ofNat 8 i.num, modeCode c.flash.mode] ++ leBytes c.fwVersion.toNat 4 ++ leBytes c.romVersion.toNat 4
    ++ leBytes c.powerOn.toNat 4 ++ padTo 64 c.fwDigest ++ c.identityBytes

/-- IDENTIFY. -/
def execIdentify (fn : SlabId) (m : Fin 4) (s : State) : Result :=
  s.serve fn m 0x01 anyRequest (fun s r => s.answer fn m r ((s.slab fn).identity fn) [])

/-- FLAGS of GET_STATUS. -/
def State.statusFlags (s : State) (i : SlabId) : Nat :=
  let r := s.root i
  boolBit r.inHold 1 + boolBit (r.kind = .maint) 2 + boolBit (r.kind = .gate) 4
    + boolBit ((s.slab i).stackList.any (fun p => p.2.hot)) 8
    + boolBit ((s.slab i).camp.operations.any (fun o => o.deferred && !o.running)) 16

/-- The payload of GET_STATUS. -/
def State.statusBytes (s : State) (i : SlabId) : List Byte :=
  let j := s.job i
  [BitVec.ofNat 8 j.state.code, BitVec.ofNat 8 j.reason.code, BitVec.ofNat 8 (s.statusFlags i), 0] ++ leBytes j.placement 2 ++ [0, 0]
    ++ leBytes (s.stepNow i).toNat 8 ++ leBytes (s.root i).schedIndex.toNat 8 ++ (s.stamp i).bytes ++ leBytes (s.lostBits i) 16
    ++ leBytes (s.slab i).stackBits 8 ++ leBytes (s.slab i).portsUp 2 ++ List.replicate 6 0
    ++ padTo 64 (j.image.elim [] (fun im => im.digest))

/-- GET_STATUS. -/
def execGetStatus (fn : SlabId) (m : Fin 4) (s : State) : Result :=
  s.serve fn m 0x02 anyRequest (fun s r => s.answer fn m r (s.statusBytes fn) [])

/-! ## LEDGER_READ -/

/-- The first 124 bytes of a ledger record (Table 13.2). -/
def LedgerRec.body (r : LedgerRec) : List Byte :=
  leBytes r.step.toNat 8 ++ r.openStamp.bytes ++ leBytes r.endPitch.toNat 8 ++ leBytes r.voidFirst.toNat 8 ++ leBytes r.voidLast.toNat 8
    ++ leBytes r.replayPitch.toNat 8 ++ leBytes r.replays.toNat 2 ++ leBytes r.phases.toNat 2 ++ leBytes r.flags.toNat 2 ++ [r.cause, 0]
    ++ leBytes r.placement.toNat 2 ++ [0, 0] ++ leBytes r.clip.toNat 4 ++ leBytes r.lrScale.toNat 4 ++ leBytes r.commitPos.toNat 4
    ++ leBytes r.gsq.toNat 8 ++ leBytes r.committed.toNat 4 ++ leBytes r.torn.toNat 2 ++ leBytes r.repaired.toNat 2
    ++ leBytes r.lost.toNat 2 ++ leBytes r.mismatches.toNat 2 ++ leBytes r.bucketsRetried.toNat 4 ++ leBytes r.gatePitches.toNat 4
    ++ leBytes r.logFirst.toNat 8 ++ leBytes r.logCount.toNat 4 ++ leBytes 0 4

/-- The 128 bytes of a ledger record. One whose CRC fails keeps its place in the ledger and its PHASES read 0; what
its other bytes have become is free value number `k` (R360, R389). -/
def LedgerRec.bytes (r : LedgerRec) (k : Nat) : List Byte :=
  if r.valid then r.body ++ leBytes (crc32 r.body).toNat 4
  else leBytes r.step.toNat 8 ++ (freeBytes k 50) ++ [0, 0] ++ freeBytes (k + 1) 68

/-- A record put into a list in step order. -/
def insertRec (r : LedgerRec) : List LedgerRec → List LedgerRec
  | [] => [r]
  | x :: l => if r.step.toNat ≤ x.step.toNat then r :: x :: l else x :: insertRec r l

/-- The ledger in step order. -/
def Camp.sortedLedger (c : Camp) : List LedgerRec := c.ledger.foldr insertRec []

/-- The step number of a record, or all ones. -/
def stepOf (r : Option LedgerRec) : Nat := r.elim allOnes64.toNat (fun x => x.step.toNat)

/-- LEDGER_READ. -/
def execLedgerRead (fn : SlabId) (m : Fin 4) (s : State) : Result :=
  s.serve fn m 0x40 anyRequest (fun s r =>
    let count := r.arg 8 2
    if count = 0 ∨ 256 < count ∨ (31 < count ∧ r.hostbuf = false) then s.respond fn m r stBadArg []
    else
      let all := (s.slab fn).camp.sortedLedger
      let rs := (all.filter (fun x => decide (r.arg 0 8 ≤ x.step.toNat))).take count
      let k := s.free
      let bulk := rs.zipIdx.flatMap (fun p => p.1.bytes (k + 2 * p.2))
      ({ s with free := k + 2 * rs.length }).answer fn m r
        (leBytes rs.length 2 ++ List.replicate 6 0 ++ leBytes (stepOf all.head?) 8 ++ leBytes (stepOf all.getLast?) 8) bulk)

/-! ## FAULT_LOG_READ -/

/-- The first 124 bytes of a fault-log entry (Table 13.4). -/
def FaultEntry.body (e : FaultEntry) : List Byte :=
  leBytes e.seq.toNat 8 ++ e.stamp.bytes ++ leBytes e.step.toNat 8 ++ [e.cls, e.action] ++ leBytes e.node.toNat 2 ++ [e.field, e.aux]
    ++ leBytes (boolBit e.map 1 + boolBit e.hold 2) 2 ++ padTo 24 (e.status.flatMap (fun w => leBytes w.toNat 8))
    ++ leBytes e.tileFlags.toNat 4 ++ leBytes 0 4 ++ leBytes e.spError.toNat 8 ++ padTo 32 e.detail ++ List.replicate 12 0

/-- The 128 bytes of a fault-log entry. -/
def FaultEntry.bytes (e : FaultEntry) : List Byte := e.body ++ leBytes (crc32 e.body).toNat 4

/-- FAULT_LOG_READ: the log from a SEQ on, or the persistent fault map (R402). -/
def execFaultLogRead (fn : SlabId) (m : Fin 4) (s : State) : Result :=
  s.serve fn m 0x41 anyRequest (fun s r =>
    let count := r.arg 2 2
    if r.arg 1 1 ≠ 0 ∨ r.arg 4 4 ≠ 0 then s.respond fn m r stBadArg []
    else if r.arg 0 1 = 0 then
      if count = 0 ∨ 4096 < count ∨ (31 < count ∧ r.hostbuf = false) then s.respond fn m r stBadArg []
      else
        let es := ((s.slab fn).camp.faultLog.filter (fun e => decide (r.arg 8 8 ≤ e.seq.toNat))).take count
        let first := es.head?.elim allOnes64 (fun e => e.seq)
        s.answer fn m r (leBytes es.length 4 ++ leBytes 0 4 ++ leBytes first.toNat 8) (es.flatMap FaultEntry.bytes)
    else if r.arg 0 1 = 1 then
      if r.hostbuf = false then s.respond fn m r stBadArg []
      else
        let bs := s.mapBytes fn
        s.answer fn m r (leBytes bs.length 4 ++ leBytes 0 4 ++ leBytes allOnes64.toNat 8) bs
    else s.respond fn m r stBadArg [])

/-! ## COUNTERS_READ and COUNTERS_CLEAR (R8, R403) -/

/-- A node of the control network as Table 7.3 addresses it: a tile by slab-local coordinates, or a unit by its TYPE
and number. -/
inductive NodeRef where
  | tile (x y : Nat)
  | unit (type idx : Nat)
  deriving DecidableEq, Repr

/-- The units of each TYPE on a slab. -/
def unitCount (type : Nat) : Nat := if type = 0 then 1 else if type = 1 ∨ type = 2 then 24 else if type = 3 ∨ type = 4 then 16 else 0

/-- The node of slab `i` that an address names. -/
def State.nodeAt (s : State) (i : SlabId) (a : Nat) : Option NodeRef :=
  if a / 32768 = 0 then
    match tileAt s.shared.mode i (a / 128) (a % 128) with
    | none => none
    | some t => if t.slab = i then some (.tile t.x.val t.y.val) else none
  else if a / 16384 % 2 ≠ i.num then none
  else if a % 1024 < unitCount (a / 1024 % 16) then some (.unit (a / 1024 % 16) (a % 1024)) else none

/-- A counter of tiles exists at the tile. -/
def tileHas (c : CounterScope) (i : SlabId) (x y : Nat) : Bool := decide (c = .tile) || (decide (c = .portalTile) && isPortal (tileId i x y))

/-- Counters added up: saturating, with the overflow of any of them. -/
def sumCounters (cs : List Counter) : Counter :=
  cs.foldl (fun (a : Counter) c =>
    let t := a.add c.count.toNat
    if c.overflow then { t with overflow := true } else t) Counter.zero

/-- The counter `id` at a place of COUNTERS_READ; none where it does not exist. -/
def State.counterAt (s : State) (fn : SlabId) (scope aux index id : Nat) : Option Counter :=
  let sl := s.slab fn
  let get (cs : Counters) : Counter := Counters.get cs id
  match counterScope id with
  | none => none
  | some c =>
    match scope with
    | 0 =>
      if c = .slab then some (get sl.counters)
      else if c = .function then some (get (s.func fn).counters)
      else if c = .device ∧ s.shared.mode = .joined ∧ fn = .s0 then some (get s.shared.counters)
      else none
    | 1 =>
      match s.nodeAt fn index with
      | some (.tile x y) => if tileHas c fn x y then some (get (sl.tile x y).counters) else none
      | some (.unit 1 k) => if c = .stack then some (get (sl.stack k).counters) else none
      | some (.unit 2 k) => if c = .unit then some (get (sl.stack k).unit.counters) else none
      | some (.unit 3 k) => if c = .port then some (get (sl.port k).counters) else none
      | some (.unit 4 k) => if c = .engine then some (get (sl.engine k).counters) else none
      | _ => none
    | 2 =>
      if c = .field then some (get (sl.field index).counters)
      else
        let ts := (fieldTiles index).filter (fun p => tileHas c fn p.1 p.2)
        if ts.isEmpty then none else some (sumCounters (ts.map (fun p => get (sl.tile p.1 p.2).counters)))
    | 3 =>
      match s.nodeAt fn index with
      | some (.unit 3 k) => if c = .lane then some (get (agetD [] aux (sl.port k).laneCounters)) else none
      | _ => none
    | 4 => if c = .window then some (get (agetD [] index sl.links.windowCounters)) else none
    | _ => if c = .queue then some (get (agetD [] index sl.feedCounters)) else none

/-- Counters of a place with one cleared. -/
def clearUnder (k id : Nat) (l : List (Nat × Counters)) : List (Nat × Counters) := l.map (fun p => if p.1 = k then (p.1, Counters.clear p.2 id) else p)

/-- Counter `id` cleared at a place where it exists; at field scope, at every tile of the field. -/
def State.clearAt (s : State) (fn : SlabId) (scope aux index id : Nat) : State :=
  if (s.counterAt fn scope aux index id).isNone then s
  else
    match scope with
    | 0 =>
      match counterScope id with
      | some .function => s.modFunc fn (fun f => { f with counters := Counters.clear f.counters id })
      | some .device => { s with shared := { s.shared with counters := Counters.clear s.shared.counters id } }
      | _ => s.modSlab fn (fun sl => { sl with counters := Counters.clear sl.counters id })
    | 1 =>
      match s.nodeAt fn index with
      | some (.tile x y) => s.modSlab fn (fun sl => sl.modTile x y (fun t => { t with counters := Counters.clear t.counters id }))
      | some (.unit 1 k) => s.modSlab fn (fun sl => sl.modStack k (fun t => { t with counters := Counters.clear t.counters id }))
      | some (.unit 2 k) => s.modSlab fn (fun sl => sl.modUnit k (fun t => { t with counters := Counters.clear t.counters id }))
      | some (.unit 3 k) => s.modSlab fn (fun sl => sl.modPort k (fun t => { t with counters := Counters.clear t.counters id }))
      | some (.unit _ k) => s.modSlab fn (fun sl => sl.modEngine k (fun t => { t with counters := Counters.clear t.counters id }))
      | none => s
    | 2 => s.modSlab fn (fun sl =>
        (sl.mapTiles (fun x y t => if fieldOf x y = index then { t with counters := Counters.clear t.counters id } else t)).modField index
          (fun f => { f with counters := Counters.clear f.counters id }))
    | 3 =>
      match s.nodeAt fn index with
      | some (.unit _ k) => s.modSlab fn (fun sl => sl.modPort k (fun t => { t with laneCounters := clearUnder aux id t.laneCounters }))
      | _ => s
    | 4 => s.modSlab fn (fun sl => sl.modLinks (fun l => { l with windowCounters := clearUnder index id l.windowCounters }))
    | _ => s.modSlab fn (fun sl => { sl with feedCounters := clearUnder index id sl.feedCounters })

/-- The counter identifiers of a request. -/
def Request.ids (r : Request) : List Nat := (List.range (r.arg 4 2)).map (fun k => r.arg (6 + 2 * k) 2)

/-- The fields of a counters request are in range, and every identifier names a counter. -/
def State.countersArgOk (s : State) (fn : SlabId) (r : Request) : Bool :=
  let index := r.arg 2 2
  decide (1 ≤ r.arg 4 2) && decide (r.arg 4 2 ≤ 2029) && r.ids.all (fun id => (counterScope id).isSome)
    && (match r.arg 0 1 with
      | 0 => true
      | 1 => (s.nodeAt fn index).isSome
      | 2 => decide (index < 42)
      | 3 => decide (r.arg 1 1 < 8) && (match s.nodeAt fn index with
          | some (.unit 3 _) => true
          | _ => false)
      | 4 => decide (index < 256)
      | 5 => decide (index < 16)
      | _ => false)

/-- A counter's value as COUNTERS_READ gives it. -/
def counterValue : Option Counter → Nat
  | none => 2 ^ 62
  | some c => c.count.toNat + boolBit c.overflow (2 ^ 63)

/-- COUNTERS_READ. -/
def execCountersRead (fn : SlabId) (m : Fin 4) (s : State) : Result :=
  s.serve fn m 0x42 anyRequest (fun s r =>
    if !s.countersArgOk fn r || (decide (508 < r.arg 4 2) && !r.hostbuf) then s.respond fn m r stBadArg []
    else s.answer fn m r [] (r.ids.flatMap (fun id => leBytes (counterValue (s.counterAt fn (r.arg 0 1) (r.arg 1 1) (r.arg 2 2) id)) 8)))

/-- COUNTERS_CLEAR. -/
def execCountersClear (fn : SlabId) (m : Fin 4) (s : State) : Result :=
  s.serve fn m 0x43 anyRequest (fun s r =>
    if !s.countersArgOk fn r then s.respond fn m r stBadArg []
    else (r.ids.foldl (fun s id => s.clearAt fn (r.arg 0 1) (r.arg 1 1) (r.arg 2 2) id) s).respond fn m r stOk [])

/-! ## TELEMETRY (Table 15.12) -/

/-- The latest sample of a sensor. -/
def Camp.reading (c : Camp) (x : Sensor) : Option Int := alookup x c.readings

/-- Home frames of a slab put to a use. -/
def Memory.countFrames (m : Memory) (p : FrameUse → Bool) : Nat := (m.frames.filter (fun f => p f.2)).length

def FrameUse.isData : FrameUse → Bool
  | .data _ => true
  | _ => false

/-- Home frames data, parity and reserved; stripes 0 to 15 are always reserved (R204). -/
def Memory.frameCounts (m : Memory) : Nat × Nat × Nat :=
  (m.countFrames FrameUse.isData, m.countFrames (fun u => decide (u = .parity)), 384 + m.countFrames (fun u => decide (u = .reserved)))

/-- Tiles of a slab that lend. -/
def Slab.lenders (sl : Slab) : Nat := (sl.tiles.filter (fun p => p.2.lending)).length

/-- Residence frames in use on lending tiles; residence records carry device-wide coordinates. -/
def State.lentFrames (s : State) (k : SlabId) : Nat :=
  ((s.slab k).mem.residence.filter (fun r => ((s.slab k).tile (s.localX k r.1.1) r.1.2.1).lending)).length

/-- The value of a telemetry item; none when the slab does not hold it. `power` is the slab's measured power. -/
def State.item (s : State) (i : SlabId) (power : Nat) (id : Nat) : Option Int :=
  let sl := s.slab i
  let j := s.job i
  let r := s.root i
  let k := id % 256
  let fc := sl.mem.frameCounts
  if id = 0x0001 then some s.shared.supplyMv
  else if id = 0x0002 then some s.shared.supplyMa
  else if id = 0x0003 then some power
  else if id / 256 = 1 then (if h : k < 42 then sl.camp.reading (.tile ⟨k, h⟩) else none)
  else if id / 256 = 2 then (if h : k < 24 then sl.camp.reading (.stack ⟨k, h⟩) else none)
  else if id / 256 = 3 then
    if k < 24 then
      some (match (sl.stack k).state with
        | .good => if (sl.stack k).hot then 1 else 0
        | .parked => 2
        | .failed => 3
        | .controllerLost => 4)
    else none
  else if id / 256 = 4 then
    if k < 16 then
      let p := sl.port k
      some ((laneCount p.lanes + 2 ^ 8 * p.neighbour.toNat + 2 ^ 24 * p.neighbourPort.toNat + boolBit p.up (2 ^ 28) : Nat) : Int)
    else none
  else if id = 0x0500 then some (786432 - fc.1 - fc.2.1 - fc.2.2)
  else if id = 0x0501 then some fc.1
  else if id = 0x0502 then some fc.2.1
  else if id = 0x0503 then some fc.2.2
  else if id = 0x0504 then some (65 * sl.lenders - s.lentFrames i : Nat)
  else if id = 0x0505 then some sl.mem.residence.length
  else if id / 256 = 6 then
    (if 16 ≤ k then none else (j.feeds.find? (fun q => decide (q.entry.queue = k))).map (fun q => (q.released.toNat : Int)))
  else if id = 0x0700 then some r.pitch.toNat
  else if id = 0x0701 then some r.schedIndex.toNat
  else if id = 0x0702 then some r.lastSlip.toNat
  else if id = 0x0703 then (if s.stepNow i = allOnes64 then none else some (s.stepNow i).toNat)
  else if id = 0x0704 then some r.length
  else none

/-- The 16 bytes of an item. -/
def itemBytes (id : Nat) (v : Option Int) : List Byte :=
  leBytes id 2 ++ [if v.isSome then 1 else 0] ++ List.replicate 5 0 ++ leBytes (BitVec.ofInt 64 (v.getD 0)).toNat 8

/-- TELEMETRY: the measured power is a free value of 32 bits. -/
def execTelemetry (fn : SlabId) (m : Fin 4) (s : State) : Result :=
  s.serve fn m 0x50 anyRequest (fun s r =>
    let count := r.arg 0 2
    if count = 0 ∨ 2031 < count ∨ (254 < count ∧ r.hostbuf = false) then s.respond fn m r stBadArg []
    else
      let p := s.takeFree (2 ^ 32)
      let ids := (List.range count).map (fun k => r.arg (2 + 2 * k) 2)
      p.2.answer fn m r [] (ids.flatMap (fun id => itemBytes id (s.item fn p.1 id))))

/-! ## ATTEST and GET_CERT (R436 to R441) -/

/-- Placement numbers of an image with their digests, in ascending order. -/
def Image.measured (im : Image) : List (Nat × List Byte) :=
  (List.range 65536).filterMap (fun n => (im.placements.find? (fun p => decide (p.number = n))).map (fun p => (n, p.digest)))

/-- The report before its signature (Table 17.4). During stage 3 of a load it carries the incoming image. -/
def State.report (s : State) (i : SlabId) (nonce : List Byte) : List Byte :=
  let c := (s.slab i).camp
  let j := s.job i
  let im := j.incoming.orElse (fun _ => j.image)
  let ps := im.elim [] Image.measured
  let rules := c.flash.settings
  leBytes 0x54415A58 4 ++ leBytes 1 2 ++ leBytes 0x0282 2 ++ leBytes 0x2880 2
    ++ [BitVec.ofNat 8 i.num,
        BitVec.ofNat 8 (boolBit (s.shared.mode = .joined) 1 + boolBit j.image.isSome 2 + boolBit j.incoming.isSome 4 + boolBit c.mapPending 8
          + boolBit (rules.any settingsRequire) 16 + boolBit (im.any (fun x => x.signed)) 32)]
    ++ (padTo 1792 c.flash.identity).extract 0x0C 0x10 ++ (s.stamp i).bytes ++ padTo 64 nonce ++ leBytes c.romVersion.toNat 4
    ++ leBytes c.fwVersion.toNat 4 ++ leBytes c.fwSvn.toNat 4 ++ leBytes c.flash.minSvn 4 ++ padTo 64 c.fwDigest
    ++ padTo 64 (im.elim [] (fun x => x.digest))
    ++ padTo 64 (if im.isSome then Config.shake256 (ps.flatMap (fun p => padTo 64 p.2)) else [])
    ++ leBytes j.placement 2 ++ leBytes ps.length 2 ++ padTo 16 (im.elim [] (fun x => x.keyId)) ++ List.replicate 12 0
    ++ padTo 64 (Config.shake256 (s.mapBytes i)) ++ padTo 64 (Config.shake256 (rules.getD [])) ++ padTo 57 (Config.devicePublicKey i.num)
    ++ List.replicate 7 0

/-- ATTEST: AUTH_FAIL when the identity record or the device key fails its check. -/
def execAttest (fn : SlabId) (m : Fin 4) (s : State) : Result :=
  s.serve fn m 0x80 anyRequest (fun s r =>
    let c := (s.slab fn).camp
    if c.identityBad || c.keyMismatch then s.respond fn m r stAuthFail []
    else
      let rep := s.report fn r.payload
      s.answer fn m r (leBytes 642 4) (rep ++ padTo 114 (Config.deviceSign fn.num rep)))

/-- GET_CERT: the certificates as stored. -/
def execGetCert (fn : SlabId) (m : Fin 4) (s : State) : Result :=
  s.serve fn m 0x81 anyRequest (fun s r =>
    let fl := (s.slab fn).camp.flash
    match r.arg 0 1 with
    | 0 => s.answer fn m r (leBytes fl.deviceCert.length 2 ++ fl.deviceCert) []
    | 1 => s.answer fn m r (leBytes fl.issuingCert.length 2 ++ fl.issuingCert) []
    | _ => s.respond fn m r stNotFound [])

end Sys2Proof.Machine
end

