-- ==== Sys2Proof/Machine/Maintain.lean ====
section
/-! DEFINITION. Self-test and calibration (R386, R408 to R412), firmware update (R427, R428, R430) and SET_MODE
(R4, R32). -/

namespace Sys2Proof.Machine

open Sys2Proof

/-! ## Self-test and calibration -/

/-- The device runs steps (R408). -/
def JobState.runsSteps (st : JobState) : Bool := decide (st = .running ∨ st = .pausing ∨ st = .stopping)

/-- An operation that runs beside the steps (Table 15.15): the self-test of spare and idle tiles, and the calibrations of
maintenance pitches. -/
def runsBeside (op target : Nat) : Bool := (decide (op = 0x60) && decide (target = 0)) || (decide (op = 0x61) && decide (target ≤ 2))

/-- The slab's operation list with one more. -/
def State.addOperation (s : State) (fn : SlabId) (m : Fin 4) (r : Request) (deferred forced running : Bool) : State :=
  s.modSlab fn (fun sl => sl.modCamp (fun c =>
    { c with operations := c.operations ++ [{ opcode := BitVec.ofNat 16 r.opcode, target := r.arg 0 1, tag := r.tag, mailbox := m
                                              deferred := deferred, forced := forced, running := running, live := true }] }))

/-- SELF_TEST or CALIBRATE taken up (Table 15.15). -/
def State.startOperation (s : State) (fn : SlabId) (m : Fin 4) (r : Request) : State :=
  let target := r.arg 0 1
  let st := (s.job fn).state
  if 4 < target then s.respond fn m r stBadArg []
  else if !st.runsSteps || runsBeside r.opcode target then
    (s.addOperation fn m r false false true).accept fn m r stAccepted true []
  else if (s.slab fn).camp.operations.any (fun o => o.deferred || o.forced) then s.respond fn m r stBusy []
  else if r.force then
    let s := (s.addOperation fn m r false true false).accept fn m r stAccepted false []
    if st = .running then s.setJobState fn .pausing .selfTest else s
  else
    ((s.addOperation fn m r true false false).modSlab fn (fun sl => sl.count Ctr.DEFERRED_OPS 1)).accept fn m r stDeferred false []

/-- SELF_TEST. -/
def execSelfTest (fn : SlabId) (m : Fin 4) (s : State) : Result := s.serve fn m 0x60 anyRequest (fun s r => s.startOperation fn m r)

/-- CALIBRATE. -/
def execCalibrate (fn : SlabId) (m : Fin 4) (s : State) : Result := s.serve fn m 0x61 anyRequest (fun s r => s.startOperation fn m r)

/-- DEFERRED_START (R409): at the job boundary the deferred operation begins. -/
def execDeferredStart (slab : SlabId) (s : State) : Result :=
  if decide ((s.slab slab).camp.firmware = .running) && s.deferredDue slab then
    match (s.slab slab).camp.operations.find? (fun o => o.deferred && !o.running) with
    | none => .next s
    | some o =>
      let s := s.modSlab slab (fun sl => sl.modCamp (fun c =>
        { c with operations := c.operations.map (fun x => if x.deferred then { x with running := true } else x) }))
      let s := s.modFunc slab (fun f =>
        { f with outstanding := f.outstanding.map (fun x => if x.tag = o.tag then { x with committed := true } else x) })
      .next (s.post slab { stamp := s.stamp slab, type := evtDeferredStart, status := 0, mailbox := BitVec.ofNat 8 o.mailbox.val, tag := o.tag
                           opcode := o.opcode, detail := [] })
  else .next s

/-- The fault class under which a failure of an operation is logged. -/
def operationClass (o : Operation) : Byte :=
  if o.opcode.toNat = 0x60 then
    (match o.target with
      | 2 => 0x0A
      | 3 => 0x11
      | 4 => 0x10
      | _ => 0x02)
  else
    (match o.target with
      | 0 => 0x11
      | 1 => 0x0A
      | 2 => 0x0A
      | 3 => 0x16
      | _ => 0x0F)

/-- A failure that an operation found: a failed tile enters the fault map, any other part the log alone. -/
def State.operationFailure (s : State) (i : SlabId) (o : Operation) (node : Half) : State :=
  match (if o.opcode.toNat = 0x60 ∧ o.target ≤ 1 then s.nodeAt i node.toNat else none) with
  | some (.tile x y) =>
    let t := tileId i x y
    let s := s.modSlab i (fun sl => sl.tileFailed (tileField t) (s.physical t))
    s.logFault i (s.tileEntry t 0x02 0)
  | _ => s.logFault i { FaultEntry.basic (operationClass o) 0 with node := node }

/-- Scratchpad residence frames of tested tiles given up: their banks have been cleared. -/
def State.dropScratchFrames (s : State) (i : SlabId) (all : Bool) : State :=
  s.leaveAll i (fun p => decide (p.1.2.2 = 64) && (all || ((s.slab i).tile (s.localX i p.1.1) p.1.2.1).entry.isNone))

/-- Tiles as a tile self-test leaves them and base camp reloads them (R410): cleared banks, stores, resident rows and
LOCAL frames. -/
def State.reloadTested (s : State) (i : SlabId) (all : Bool) : State :=
  let s := s.dropScratchFrames i all
  let s := s.modSlab i (fun sl => sl.mapTiles (fun _ _ t => if t.entry.isNone then { t with scratch := [] } else t))
  if !all then s
  else match s.placement i with
    | none => s
    | some p =>
      let dx := if s.shared.mode = .joined then 112 * i.num else 0
      let s := s.modSlab i (fun sl => p.entries.foldl (fun sl e => sl.modTile (e.x - dx) e.y (fun t => (t.loadStores p e).loadBanks p e)) sl)
      s.fillLocal i (s.job i).placement (fun x _ => decide (dx ≤ x ∧ x < dx + 112))

/-- No forced operation of the device is left. -/
def State.forcedDone (s : State) (i : SlabId) : Bool := (s.devSlabs i).all (fun k => (s.slab k).camp.operations.all (fun o => !o.forced))

/-- The operation may end now: one of maintenance pitches ends in such a pitch while steps run (R61, R408). -/
def State.mayEnd (s : State) (i : SlabId) (o : Operation) : Bool :=
  !(decide (o.opcode.toNat = 0x61) && decide (o.target ≤ 2) && (s.job i).state.runsSteps) || decide ((s.root i).kind = .maint)

/-- OPERATION_COMPLETE (R386, R410): the operation begun first ends; `failed` names the parts that failed. -/
def execOperationComplete (slab : SlabId) (tested : Word) (failed : List Half) (s : State) : Result :=
  match (if (s.slab slab).camp.firmware = .running then (s.slab slab).camp.operations.find? (fun o => o.running && s.mayEnd slab o) else none) with
  | none => .next s
  | some o =>
    let first := if failed.isEmpty then allOnes64 else (s.slab slab).camp.logSeq
    let s := failed.foldl (fun s n => s.operationFailure slab o n) s
    let s := if o.opcode.toNat = 0x60 ∧ o.target ≤ 1 then s.reloadTested slab (decide (o.target = 1)) else s
    let s := s.modSlab slab (fun sl => sl.modCamp (fun c => { c with operations := c.operations.erase o }))
    let s := if o.live then s.complete slab o.tag stOk (leBytes tested.toNat 4 ++ leBytes failed.length 4 ++ leBytes first.toNat 8) else s
    let j := s.job slab
    .next (if o.forced && decide (j.state = .paused ∧ j.reason = .selfTest) && s.forcedDone slab then s.resumeJob slab else s)

/-! ## Firmware images (R427, R428) -/

def fwLength (bs : List Byte) : Nat := leAt bs 8 4
def fwVersionOf (bs : List Byte) : Nat := leAt bs 12 4
def fwSvnOf (bs : List Byte) : Nat := leAt bs 16 4

/-- MAGIC, FORMAT and LENGTH are correct. -/
def fwHeaderOk (bs : List Byte) : Bool :=
  decide (leAt bs 0 4 = 0x54414854) && decide (leAt bs 4 2 = 1) && decide (fwLength bs = bs.length)

/-- Alakimo's signature verifies. -/
def fwSigned (bs : List Byte) : Bool :=
  Config.ed448Verify Config.firmwareKey [] (bs.take (fwLength bs - 128)) ((bs.drop (fwLength bs - 128)).take 114)

/-- The status with which the checks of FW_COMMIT end; none when they pass. -/
def FwSession.fault (x : FwSession) (minSvn : Nat) : Option Byte :=
  if x.bytes.length ≠ x.total ∨ fwHeaderOk x.bytes = false then some stBadArg
  else if !fwSigned x.bytes || decide (fwSvnOf x.bytes < minSvn) then some stAuthFail
  else none

/-- A length that FW_BEGIN takes. -/
def fwTotalOk (n : Nat) : Bool := decide (n % 64 = 0) && decide (4096 ≤ n) && decide (n ≤ 8388608)

/-- The session with a chunk put in; none when it breaks R428. -/
def FwSession.chunk (x : FwSession) (off : Nat) (bs : List Byte) : Option FwSession :=
  if off = x.bytes.length ∧ off + bs.length ≤ x.total then some { x with bytes := x.bytes ++ bs } else none

/-- The bytes of an FW_CHUNK request: inline or bulk. -/
def State.chunkData (s : State) (fn : SlabId) (r : Request) (bulk : List Byte) : Option (List Byte) :=
  if r.hostbuf || r.bar2 then s.bulkIn fn r bulk (r.arg 4 4) else some (padTo (r.arg 4 4) (r.payload.drop 8))

/-- FW_BEGIN: an earlier session is discarded. -/
def execFwBegin (fn : SlabId) (m : Fin 4) (s : State) : Result :=
  s.serve fn m 0x70 anyRequest (fun s r =>
    if !fwTotalOk (r.arg 0 4) then s.respond fn m r stBadArg []
    else (s.modSlab fn (fun sl => sl.modCamp (fun c =>
      { c with session := some { total := r.arg 0 4, bytes := [], activate := false, committing := false } }))).respond fn m r stOk [])

/-- FW_CHUNK. -/
def execFwChunk (fn : SlabId) (m : Fin 4) (bulk : List Byte) (s : State) : Result :=
  s.serve fn m 0x71 anyRequest (fun s r =>
    match (s.slab fn).camp.session with
    | none => s.respond fn m r stRefusedState []
    | some x => match (s.chunkData fn r bulk).bind (x.chunk (r.arg 0 4)) with
      | none => s.respond fn m r stBadArg []
      | some y => (s.modSlab fn (fun sl => sl.modCamp (fun c => { c with session := some y }))).respond fn m r stOk [])

/-- FW_COMMIT: the checks pass, the slot is erased and the commit begins. -/
def execFwCommit (fn : SlabId) (m : Fin 4) (s : State) : Result :=
  s.serve fn m 0x72 anyRequest (fun s r =>
    let act := r.arg 0 1
    let st := (s.job fn).state
    if 1 < act then s.respond fn m r stBadArg []
    else if s.commitBusy fn then s.respond fn m r stBusy []
    else if act = 1 ∧ st ≠ .empty ∧ st ≠ .loaded then s.respond fn m r stRefusedState []
    else match (s.slab fn).camp.session with
      | none => s.respond fn m r stBadArg []
      | some x => match x.fault (s.slab fn).camp.flash.minSvn with
        | some e => s.respond fn m r e []
        | none => (s.modSlab fn (fun sl => sl.modCamp (fun c =>
            { c with session := some { x with activate := decide (act = 1), committing := true }
                     flash := { c.flash with fwCommitted := false, fwImage := [] } }))).accept fn m r stAccepted true [])

/-- The slot programmed and committed, and the minimum security version raised. -/
def Slab.commitFirmware (sl : Slab) (bs : List Byte) : Slab :=
  let sl := (sl.modCamp (fun c => { c with session := none, flash := { c.flash with fwImage := bs, fwCommitted := true } })).count Ctr.FW_COMMITS 1
  if sl.camp.flash.minSvn < fwSvnOf bs then sl.writeRecord 6 (leBytes (fwSvnOf bs) 4) else sl

/-- A warm restart of base camp: the firmware stops serving and the boot ROM reloads it; a session is lost with the
working region. -/
def Camp.restart (c : Camp) (cause : Nat) : Camp :=
  { c with firmware := .bootRom, restartCause := cause, session := none, sidebandStale := true }

/-- FW_COMMIT_COMPLETE (R428, R430): with ACTIVATE the firmware restarts into the new image, and completes the command
when it serves again. -/
def execFwCommitComplete (fn : SlabId) (s : State) : Result :=
  match (if (s.slab fn).camp.firmware = .running ∧ s.commitBusy fn = true then (s.slab fn).camp.session else none) with
  | none => .next s
  | some x =>
    let s := s.modSlab fn (fun sl => sl.commitFirmware x.bytes)
    .next (if x.activate then s.modSlab fn (fun sl => sl.modCamp (fun c => c.restart 3)) else s.completeAll fn 0x72)

/-! ## SET_MODE (R4, R32) -/

/-- No image is loaded on either slab, and none is being loaded. -/
def State.noImages (s : State) : Bool :=
  s.slab0.job.image.isNone && s.slab1.job.image.isNone && s.slab0.job.incoming.isNone && s.slab1.job.incoming.isNone

/-- SET_MODE. -/
def execSetMode (fn : SlabId) (m : Fin 4) (s : State) : Result :=
  s.serve fn m 0x90 anyRequest (fun s r =>
    if 1 < r.arg 0 1 then s.respond fn m r stBadArg []
    else if !s.noImages then s.respond fn m r stRefusedState []
    else if (s.slab fn.other).camp.firmware ≠ .running then s.respond fn m r stInternal []
    else
      let s := { s with shared := { s.shared with setMode := some (fn, r.tag, m, if r.arg 0 1 = 1 then .joined else .split) } }
      s.accept fn m r stAccepted true [])

/-- SET_MODE_COMPLETE: both base camps have written and committed their records. -/
def execSetModeComplete (s : State) : Result :=
  match (if s.slab0.camp.firmware = .running ∧ s.slab1.camp.firmware = .running then s.shared.setMode else none) with
  | none => .next s
  | some x =>
    let rec_ (sl : Slab) : Slab := (sl.writeRecord 2 [modeCode x.2.2.2]).modJob (fun j => if x.2.2.2 = .split then { j with colLost := false } else j)
    let s := (s.modSlab .s0 rec_).modSlab .s1 rec_
    .next (({ s with shared := { s.shared with setMode := none } }).completeAll x.1 0x90)

end Sys2Proof.Machine
end

