-- ==== Sys2Proof/Machine/LinkConfig.lean ====
section
/-! DEFINITION. LINK_CONFIG, EXPORT_CONFIG and FEED_CONFIG (Tables 15.11, 12.6, 12.9; R301, R306, R311, R319, R324,
R331, R335, R404, R420). -/

namespace Sys2Proof.Machine

open Sys2Proof

/-! ## LINK_CONFIG -/

def Request.op (r : Request) : Nat := r.arg 0 1
def Request.sel (r : Request) : Nat := r.arg 1 1
def Request.arg0 (r : Request) : Nat := r.arg 2 2
def Request.arg1 (r : Request) : Nat := r.arg 4 4
def Request.count (r : Request) : Nat := r.arg 8 4

/-- A LINK_CONFIG answered OK with PORTS_UP. -/
def State.linkOk (s : State) (fn : SlabId) (m : Fin 4) (r : Request) : State := s.respond fn m r stOk (leBytes (s.slab fn).portsUp 2)

/-- ENDPOINT, GROUP, MCAST_TX and MCAST_RX are accepted in EMPTY and LOADED only (R404). -/
def State.linkIdle (s : State) (fn : SlabId) : Bool := decide ((s.job fn).state = .empty ∨ (s.job fn).state = .loaded)

/-- `n` 2-byte entries of the list of a request. -/
def State.linkList (s : State) (fn : SlabId) (r : Request) (bulk : List Byte) (n : Nat) : Option (List Nat) :=
  (s.bulkIn fn r bulk (2 * n)).map (fun bs => (List.range n).map (fun k => leAt bs (2 * k) 2))

/-- LINK_CONFIG with OP ENDPOINT, or with an OP that Table 15.11 does not list. -/
def execLinkConfigEndpoint (fn : SlabId) (m : Fin 4) (s : State) : Result :=
  s.serve fn m 0xB0 (fun r => decide (r.op = 0) || decide (6 < r.op)) (fun s r =>
    if r.op ≠ 0 then s.respond fn m r stBadArg []
    else if !s.linkIdle fn then s.respond fn m r stRefusedState []
    else (s.modSlab fn (fun sl => sl.modLinks (fun l => { l with endpoint := BitVec.ofNat 16 r.arg0 }))).linkOk fn m r)

/-- The credit quotas of a PORT request. -/
def Request.quotas (r : Request) : List Nat := (List.range 8).map (fun k => r.arg (12 + 2 * k) 2)

/-- Quotas within R311, or all zero, which keeps those in force. -/
def quotasOk (qs : List Nat) : Bool :=
  qs.all (fun q => decide (q = 0)) || (qs.all (fun q => decide (16 ≤ q ∧ q ≤ 1024)) && decide (qs.foldl (· + ·) 0 = 1024))

/-- New quotas: a raised one is owed to the neighbour at once, a lowered one withholds what is still owed. -/
def Port.setQuotas (p : Port) (qs : List Nat) : Port :=
  if qs.all (fun q => decide (q = 0)) then p
  else
    { p with quotas := qs
             owed := if p.up then (List.range 8).map (fun k => p.owed.getD k 0 + qs.getD k 0 - p.quotas.getD k 0) else p.owed }

/-- A port taken out of use by the host: its frames are routed again as at a link failure. -/
def State.disablePort (s : State) (i : SlabId) (p : Nat) : State :=
  let x := (s.slab i).port p
  let fs := x.replay.map (fun t => t.frame) ++ x.queue
  let s := s.modSlab i (fun sl =>
    let sl := sl.modPort p (fun x =>
      { x with enabled := false, training := false, retrain := false, helloSent := false, helloGot := false, up := false, replay := [], queue := []
               resends := 0, rq := false, credits := List.replicate 8 0 })
    fs.foldl (fun sl f => sl.sendFrame f true) sl)
  if x.up then s.linkEvent i p else s

/-- LINK_CONFIG with OP PORT: an enabled port with a cable trains (R306). -/
def execLinkConfigPort (fn : SlabId) (m : Fin 4) (s : State) : Result :=
  s.serve fn m 0xB0 (fun r => decide (r.op = 1)) (fun s r =>
    if 16 ≤ r.sel ∨ 1 < r.arg0 ∨ quotasOk r.quotas = false ∨ r.arg 28 16 ≠ 0 then s.respond fn m r stBadArg []
    else
      let s := s.modSlab fn (fun sl => sl.modPort r.sel (fun x => x.setQuotas r.quotas))
      let s := if r.arg0 = 1 then s.modSlab fn (fun sl => sl.modPort r.sel (fun x => { x with enabled := true, training := x.cable && !x.up }))
        else s.disablePort fn r.sel
      s.linkOk fn m r)

/-- Route entries put into a table; an entry of 0 is not listed. -/
def setRoutes (rt : List (Nat × Half)) (first : Nat) (es : List Nat) : List (Nat × Half) :=
  es.zipIdx.foldl (fun rt p => if p.1 = 0 then aerase (first + p.2) rt else aset (first + p.2) (BitVec.ofNat 16 p.1) rt) rt

/-- LINK_CONFIG with OP ROUTES (R315). -/
def execLinkConfigRoutes (fn : SlabId) (m : Fin 4) (bulk : List Byte) (s : State) : Result :=
  s.serve fn m 0xB0 (fun r => decide (r.op = 2)) (fun s r =>
    if r.count = 0 ∨ 65536 < r.arg1 + r.count then s.respond fn m r stBadArg []
    else match s.linkList fn r bulk r.count with
      | none => s.respond fn m r stBadArg []
      | some es =>
        if es.any (fun e => decide (e % 128 ≠ 0)) then s.respond fn m r stBadArg []
        else (s.modSlab fn (fun sl => sl.modLinks (fun l => { l with routes := setRoutes l.routes r.arg1 es }))).linkOk fn m r)

/-- LINK_CONFIG with OP GROUP (R324): the members' endpoints in rank order and this slab's rank. -/
def execLinkConfigGroup (fn : SlabId) (m : Fin 4) (bulk : List Byte) (s : State) : Result :=
  s.serve fn m 0xB0 (fun r => decide (r.op = 3)) (fun s r =>
    if !s.linkIdle fn then s.respond fn m r stRefusedState []
    else if 16 ≤ r.sel ∨ 1 < r.arg1 ∨ 65536 < r.count ∨ r.count ≤ r.arg0 then s.respond fn m r stBadArg []
    else match s.linkList fn r bulk r.count with
      | none => s.respond fn m r stBadArg []
      | some es =>
        let g : Group := { ranks := es.map (BitVec.ofNat 16), rank := r.arg0, summit := decide (r.arg1 = 1) }
        (s.modSlab fn (fun sl => sl.modLinks (fun l => { l with groups := aset r.sel g l.groups }))).linkOk fn m r)

/-- LINK_CONFIG with OP MCAST_TX (R331): the group's targets; its sequence starts at 0. -/
def execLinkConfigMcastTx (fn : SlabId) (m : Fin 4) (bulk : List Byte) (s : State) : Result :=
  s.serve fn m 0xB0 (fun r => decide (r.op = 4)) (fun s r =>
    if !s.linkIdle fn then s.respond fn m r stRefusedState []
    else if r.count = 0 ∨ 64 < r.count then s.respond fn m r stBadArg []
    else match s.linkList fn r bulk r.count with
      | none => s.respond fn m r stBadArg []
      | some es =>
        let ts : List Half := es.map (BitVec.ofNat 16)
        let g : McastTx := { targets := ts, attached := ts, nextSeq := 0, detached := [] }
        (s.modSlab fn (fun sl => sl.modLinks (fun l =>
          { l with mcastTx := aset r.sel g l.mcastTx, packets := l.packets.filter (fun p => decide (p.group ≠ r.sel)) }))).linkOk fn m r)

/-- LINK_CONFIG with OP MCAST_RX (R335): where packets of a source's group are delivered. -/
def execLinkConfigMcastRx (fn : SlabId) (m : Fin 4) (s : State) : Result :=
  s.serve fn m 0xB0 (fun r => decide (r.op = 5)) (fun s r =>
    let delivery := r.arg 4 1
    let relay := r.arg 6 1
    if !s.linkIdle fn then s.respond fn m r stRefusedState []
    else if 1 < delivery ∨ r.arg 7 1 ≠ 0 then s.respond fn m r stBadArg []
    else
      let x : McastRx :=
        { source := BitVec.ofNat 16 r.arg0, group := r.sel, toUnits := decide (delivery = 1), window := r.arg 5 1
          relay := if relay = 0xFF then none else some relay, expected := 0, first := 0, held := [], frames := [], lastFrag := []
          unacked := 0, unackedAt := 0, attached := true }
      (s.modSlab fn (fun sl => sl.modLinks (fun l =>
        { l with mcastRx := l.mcastRx.filter (fun y => !(decide (y.source = x.source) && decide (y.group = x.group))) ++ [x] }))).linkOk fn m r)

/-- Timer `k` of a TIMERS request. -/
def Request.timer (r : Request) (k : Nat) : Nat := r.arg (12 + 4 * k) 4

/-- The timers lie in the ranges of Table 12.9. -/
def Request.timersOk (r : Request) : Bool :=
  decide (1024 ≤ r.timer 0 ∧ r.timer 0 ≤ 1048576) && decide (256 ≤ r.timer 1 ∧ r.timer 1 ≤ 1048576)
    && decide (1024 ≤ r.timer 2 ∧ r.timer 2 ≤ 1048576) && decide (65536 ≤ r.timer 3 ∧ r.timer 3 ≤ 16777216)
    && decide (65536 ≤ r.timer 4 ∧ r.timer 4 ≤ 16777216)

/-- LINK_CONFIG with OP TIMERS. -/
def execLinkConfigTimers (fn : SlabId) (m : Fin 4) (s : State) : Result :=
  s.serve fn m 0xB0 (fun r => decide (r.op = 6)) (fun s r =>
    if !r.timersOk || decide (r.arg 32 12 ≠ 0) then s.respond fn m r stBadArg []
    else (s.modSlab fn (fun sl => sl.modLinks (fun l =>
      { l with retryTimeout := r.timer 0, resendDelay := r.timer 1, mcastRetry := r.timer 2, collTimeout := r.timer 3
               summitTimeout := r.timer 4 }))).linkOk fn m r)

/-! ## EXPORT_CONFIG (R301, R404) -/

/-- A FEED window opened or closed: each opening adds 1 to its epoch (R319). -/
def Links.setFeedWindow (l : Links) (w : Nat) (e : WindowEntry) (on : Bool) : Links :=
  { l with windows := aset w { e with opened := on, epoch := if on then e.epoch + 1 else e.epoch } l.windows }

/-- EXPORT_CONFIG: ROLE 0 sets this slab's sink from the next step on; ROLE 1 opens or closes a FEED window over an
object for another device's sink stream. -/
def execExportConfig (fn : SlabId) (m : Fin 4) (s : State) : Result :=
  s.serve fn m 0xA0 anyRequest (fun s r =>
    let on := decide (r.arg 1 1 = 1)
    let w := r.arg 3 1
    if 1 < r.arg 0 1 ∨ 1 < r.arg 1 1 ∨ 15 < r.arg 2 1 then s.respond fn m r stBadArg []
    else if r.arg 0 1 = 0 then
      let sink : Option (Byte × Half × Byte × Nat × Nat) :=
        if on then some (BitVec.ofNat 8 (r.arg 2 1), BitVec.ofNat 16 (r.arg 4 2), BitVec.ofNat 8 w, r.arg 8 4, r.arg 12 4) else none
      (s.modSlab fn (fun sl => sl.modLinks (fun l => { l with sinkNext := some sink }))).respond fn m r stOk []
    else match s.objectNo fn (r.arg 6 2) with
      | none => s.respond fn m r stNotFound []
      | some o =>
        let old := (s.slab fn).window w
        if old.kind ≠ 0 ∧ old.kind ≠ 3 then s.respond fn m r stBadArg []
        else
          let e : WindowEntry := { old with kind := 3, object := o.object, base := o.base, size := min (o.size / 64 * 64) (2 ^ 32) }
          (s.modSlab fn (fun sl => sl.modLinks (fun l => l.setFeedWindow w e on))).respond fn m r stOk [])

/-! ## FEED_CONFIG (R319, R420) -/

/-- A feed queue of the device. -/
def State.feedNo (s : State) (i : SlabId) (q : Nat) : Option FeedQueue := (s.job i).feeds.find? (fun x => decide (x.entry.queue = q))

/-- A feed queue of the device replaced. -/
def State.putFeed (s : State) (i : SlabId) (x : FeedQueue) : State :=
  s.modJob i (fun j => { j with feeds := j.feeds.map (fun y => if y.entry.queue = x.entry.queue then x else y) })

/-- The window of a queue bound to a Zetra endpoint opened or closed on every slab of the device. -/
def State.feedWindow (s : State) (i : SlabId) (w : Nat) (on : Bool) : State :=
  s.modDev i (fun sl => sl.modLinks (fun l => l.setFeedWindow w (sl.window w) on))

/-- A queue unbound, its window closed. -/
def State.unbindFeed (s : State) (i : SlabId) (q : FeedQueue) : State :=
  let s := if q.bound && !q.fromHost then s.feedWindow i q.window false else s
  s.putFeed i { q with bound := false }

/-- The fields of a FEED_CONFIG payload are in range. -/
def Request.feedArgOk (r : Request) : Bool :=
  decide (r.arg 0 1 < 16) && decide (r.arg 1 1 ≤ 1) && decide (r.arg 3 1 ≤ 1) && (decide (r.arg 1 1 = 1) || decide (r.arg 2 1 = 0xFF))

/-- FEED_CONFIG with ACTION 0: the queue is bound and its window opened. -/
def execFeedConfigBind (fn : SlabId) (m : Fin 4) (s : State) : Result :=
  s.serve fn m 0xC0 (fun r => decide (r.arg 3 1 = 0)) (fun s r =>
    if !r.feedArgOk then s.respond fn m r stBadArg []
    else match s.feedNo fn (r.arg 0 1) with
      | none => s.respond fn m r stNotFound []
      | some q =>
        let w := r.arg 2 1
        if r.arg 1 1 = 0 then
          if 16777216 < q.entry.slotBytes then s.respond fn m r stBadArg []
          else
            let s := (s.unbindFeed fn q).putFeed fn { q with bound := true, fromHost := true, window := 0xFF }
            s.respond fn m r stOk (leBytes 0 2)
        else if ((s.slab fn).window w).kind ≠ 3 ∨ ((s.slab fn).window w).object ≠ q.entry.object then s.respond fn m r stBadArg []
        else
          let s := (s.unbindFeed fn q).putFeed fn { q with bound := true, fromHost := false, window := w }
          let s := s.feedWindow fn w true
          s.respond fn m r stOk (leBytes ((s.slab fn).window w).epoch.toNat 2))

/-- FEED_CONFIG with ACTION 1, or with an ACTION that Table 15.11 does not list: the queue's window is closed. -/
def execFeedConfigClose (fn : SlabId) (m : Fin 4) (s : State) : Result :=
  s.serve fn m 0xC0 (fun r => decide (r.arg 3 1 ≠ 0)) (fun s r =>
    if !r.feedArgOk then s.respond fn m r stBadArg []
    else match s.feedNo fn (r.arg 0 1) with
      | none => s.respond fn m r stNotFound []
      | some q =>
        let s := s.unbindFeed fn q
        s.respond fn m r stOk (leBytes (if q.bound && !q.fromHost then ((s.slab fn).window q.window).epoch.toNat else 0) 2))

end Sys2Proof.Machine
end

