-- ==== Sys2Proof/Machine/HostPort.lean ====
section
/-! DEFINITION. The host's accesses to BAR0 and BAR2 (R391 to R393, R405 to R407, R418, R420), DMA errors (R415) and the
resets and power states of the PCIe side (R416, R417). -/

namespace Sys2Proof.Machine

open Sys2Proof

/-! ## Reaching the module -/

/-- The PCIe link is up and the function is in D0. -/
def State.hostReach (s : State) (fn : SlabId) : Bool := s.shared.linkUp && s.shared.perstN && !(s.func fn).d3hot

/-- A host access to a BAR of a function: it takes place when the host can reach the function. The host has set Bus
Master Enable before it uses a BAR; the table has no row for that configuration write. -/
def State.barAccess (s : State) (fn : SlabId) (f : State → State) : Result :=
  if s.hostReach fn then .next (f (s.modFunc fn (fun x => { x with busMaster := true }))) else .next s

/-- A mailbox of a function changed. -/
def State.modMailbox (s : State) (fn : SlabId) (m : Fin 4) (g : Mailbox → Mailbox) : State := s.modFunc fn (fun f => f.modMailbox m g)

/-! ## Mailbox registers (R392, R393) -/

/-- The firmware does not serve: RESTARTING reads 1 and the hardware responder answers (R393, R421). -/
def Firmware.absent (f : Firmware) : Bool := decide (f = .stopped ∨ f = .bootRom ∨ f = .restarting)

/-- A doorbell rung while the mailbox is free. An opcode that Table 15.5 does not list is answered at once. -/
def State.ringDoorbell (s : State) (fn : SlabId) (m : Fin 4) : State :=
  let r := ((s.func fn).mailbox m).take
  let fw := (s.slab fn).camp.firmware
  if fw.absent then s.writeResponse fn m r stInternal [] 0
  else
    let s := s.modFunc fn (fun f => { f.modMailbox m (fun b => { b with pending := true, rung := f.rungCount }) with rungCount := f.rungCount + 1 })
    if decide (fw = .running) && (commandMailboxes r.opcode).isNone then
      s.respond fn m r ((s.refusal fn m r).getD stBadOpcode) []
    else s

/-- DOORBELL: ignored and counted while PENDING or DONE is 1. -/
def execDoorbell (fn : SlabId) (m : Fin 4) (s : State) : Result :=
  s.barAccess fn (fun s =>
    let b := (s.func fn).mailbox m
    if b.pending || b.done then s.modFunc fn (fun f => f.count Ctr.MBX_IGNORED_DOORBELLS 1) else s.ringDoorbell fn m)

/-- REQUEST_BUFFER_WRITE: dropped and counted while PENDING or DONE is 1. -/
def execRequestBufferWrite (fn : SlabId) (m : Fin 4) (offset : Nat) (data : List Byte) (s : State) : Result :=
  if 4096 < offset + data.length then .fault .noSuchHostAddress
  else s.barAccess fn (fun s =>
    let b := (s.func fn).mailbox m
    if b.pending || b.done then s.modFunc fn (fun f => f.count Ctr.MBX_DROPPED_WRITES 1)
    else s.modMailbox fn m (fun b => { b with request := Cells.writeN b.request offset data }))

/-- MBX_DONE_RELEASE. -/
def execMbxDoneRelease (fn : SlabId) (m : Fin 4) (s : State) : Result :=
  s.barAccess fn (fun s => s.modMailbox fn m (fun b => { b with done := false }))

/-! ## Event-ring registers (R391, R405 to R407) -/

/-- EVT_CTRL_ENABLE: EVT_BASE and EVT_SIZE are taken while ENABLE is 0; a write of 1 then zeroes producer and consumer
and the records waiting are posted. -/
def execEvtCtrlEnable (fn : SlabId) (base : DWord) (size : BitVec 5) (enable : Bool) (s : State) : Result :=
  s.barAccess fn (fun s =>
    let f := s.func fn
    if f.evtEnable then s.setFunc fn { f with evtEnable := enable }
    else
      let f := { f with evtBase := base, evtSize := size }
      if enable && decide (base.toNat % 4096 = 0) && decide (6 ≤ size.toNat ∧ size.toNat ≤ 16) then
        (s.setFunc fn { f with evtEnable := true, evtProducer := 0, evtConsumer := 0, evtArmed := true }).drainRing fn
      else s.setFunc fn f)

/-- EVT_CONSUMER_WRITE: room is freed, vector 4 armed again and waiting records posted. -/
def execEvtConsumerWrite (fn : SlabId) (value : DWord) (s : State) : Result :=
  s.barAccess fn (fun s => (s.modFunc fn (fun f => { f with evtConsumer := value, evtArmed := true })).drainRing fn)

/-! ## BAR2 (R418, R420) -/

/-- Rows of an aperture write that are accepted: whole, aligned and below SLOT_BYTES. -/
def apertureRows (slotBytes offset : Nat) (data : List Byte) : Nat :=
  if offset % 64 ≠ 0 ∨ data.length % 64 ≠ 0 then 0 else min (data.length / 64) (slotBytes / 64 - offset / 64)

/-- An aperture write that drops something, counted at its queue. -/
def Slab.apertureDrop (sl : Slab) (q : Nat) : Slab :=
  { sl with feedCounters := aset q (Counters.bump (agetD [] q sl.feedCounters) Ctr.FEED_APERTURE_DROPS 1) sl.feedCounters }

/-- Rows written to the fill slot of a queue and counted (R378, R420). -/
def State.apertureWrite (s : State) (fn : SlabId) (q : FeedQueue) (offset : Nat) (data : List Byte) : State :=
  let n := apertureRows q.entry.slotBytes offset data
  let slot := q.filled % max 1 q.entry.slots
  let s := match s.objectNo fn q.entry.object with
    | none => s
    | some o => s.writeRange fn (o.base + slot * q.entry.slotBytes + offset) (data.take (64 * n))
  let s := (s.putFeed fn ((List.range n).foldl (fun (q : FeedQueue) _ => q.addRow slot) q)).modSlab fn (fun sl =>
    { sl with feedCounters := aset q.entry.queue (Counters.bump (agetD [] q.entry.queue sl.feedCounters) Ctr.FEED_ROWS n) sl.feedCounters })
  if 64 * n = data.length then s else s.modSlab fn (fun sl => sl.apertureDrop q.entry.queue)

/-- FEED_APERTURE_WRITE: a write to an inactive aperture is dropped and counted. -/
def execFeedApertureWrite (fn : SlabId) (queue : Fin 16) (offset : Nat) (data : List Byte) (s : State) : Result :=
  if 16777216 < offset + data.length then .fault .noSuchHostAddress
  else if !(s.slab fn).ready then .next s
  else s.barAccess fn (fun s =>
    match s.feedNo fn queue.val with
    | none => s.modSlab fn (fun sl => sl.apertureDrop queue.val)
    | some q => if q.bound && q.fromHost then s.apertureWrite fn q offset data else s.modSlab fn (fun sl => sl.apertureDrop queue.val))

/-- The staging frames are reserved (R418). -/
def Slab.stagingUp (sl : Slab) : Bool := sl.ready && decide (alookup (0, 16) sl.mem.frames = some .reserved)

/-- STAGING_WRITE. -/
def execStagingWrite (fn : SlabId) (offset : Nat) (data : List Byte) (s : State) : Result :=
  if 0xF0000000 < offset + data.length then .fault .noSuchHostAddress
  else if !(s.slab fn).stagingUp then .next s
  else s.barAccess fn (fun s => s.modSlab fn (fun sl => sl.modMem (fun m => { m with staging := Cells.writeN m.staging offset data })))

/-! ## DMA errors (R415, R419) -/

/-- The request reads bulk input. -/
def Request.readsBulk (r : Request) : Bool := takesBulk r.opcode && (r.hostbuf || r.bar2) && !r.unload

/-- DMA_READ_ERROR: the bulk read of the request next taken up fails; the command ends with BAD_ARG and changes nothing.
A read from host memory is logged through AER; a read from staging met an uncorrectable sector. -/
def execDmaReadError (fn : SlabId) (m : Fin 4) (s : State) : Result :=
  let r := ((s.func fn).mailbox m).take
  if s.takesUp fn m && r.readsBulk && (s.refusal fn m r).isNone then
    let n := if r.hostbuf then 1 else 0
    .next ((s.modFunc fn (fun f => { f.count Ctr.DMA_ERRORS n with aerLogged := f.aerLogged + n })).respond fn m r stBadArg [])
  else .next s

/-! ## Resets of the PCIe side (R416) -/

/-- The PCIe side of a function reset: configuration space, EVT_CTRL, mailbox buffers and status words. No tag is
outstanding afterwards. -/
def Func.pcieReset (f : Func) : Func :=
  { f with m0 := .reset, m1 := .reset, m2 := .reset, m3 := .reset, outstanding := [], rungCount := 0, evtEnable := false
           msixTable := [], msixPba := 0, busMaster := false, d3hot := false }.count Ctr.PCIE_RESETS 1

/-- Operations of a slab after such a reset: those not begun are dropped, the others owe no record. -/
def Camp.dropOperations (c : Camp) : Camp :=
  { c with operations := (c.operations.filter (fun o => o.running)).map (fun o => { o with live := false }) }

/-- A pause whose forced operation was dropped is withdrawn. -/
def State.withdrawTestPause (s : State) (i : SlabId) : State :=
  let j := s.job i
  if decide (j.state = .pausing ∧ j.reason = .selfTest) && s.forcedDone i then s.setJobState i .running .none else s

/-- A reset of the PCIe side of a function. -/
def State.pcieReset (s : State) (fn : SlabId) : State :=
  ((s.modFunc fn Func.pcieReset).modSlab fn (fun sl => sl.modCamp Camp.dropOperations)).withdrawTestPause fn

/-- FUNCTION_LEVEL_RESET. -/
def execFunctionLevelReset (fn : SlabId) (s : State) : Result :=
  if s.shared.linkUp && s.shared.perstN then .next (s.pcieReset fn) else .next s

/-- HOT_RESET. -/
def execHotReset (s : State) : Result :=
  if s.shared.linkUp && s.shared.perstN then .next ((s.pcieReset .s0).pcieReset .s1) else .next s

/-- The PCIe link lost (R416), when it was up. -/
def State.loseLink (s : State) : State :=
  if s.shared.linkUp then
    let s := { s with shared := { s.shared with linkUp := false } }
    (s.pcieReset .s0).pcieReset .s1
  else s

/-- PCIE_LINK_LOSS. -/
def execPcieLinkLoss (s : State) : Result := .next s.loseLink

/-- PCIE_LINK_RETRAINED: the link is up once the host-port PHY has its reference and its power. -/
def execPcieLinkRetrained (s : State) : Result :=
  if s.shared.perstN && s.shared.reference && s.shared.converters then .next { s with shared := { s.shared with linkUp := true } }
  else .next s

/-! ## Power states of a function (R417) -/

/-- D3HOT_ENTRY. -/
def execD3hotEntry (fn : SlabId) (s : State) : Result :=
  if s.shared.linkUp && s.shared.perstN then .next (s.modFunc fn (fun f => { f with d3hot := true })) else .next s

/-- D0_RETURN: the records that waited are posted. -/
def execD0Return (fn : SlabId) (s : State) : Result :=
  if s.shared.linkUp && s.shared.perstN then .next ((s.modFunc fn (fun f => { f with d3hot := false })).drainRing fn) else .next s

end Sys2Proof.Machine
end

