-- ==== Sys2Proof/Machine/Boot.lean ====
section
/-! DEFINITION. Resets and starts: PERST_N (R421, R464), the reference and the root PLLs (R442 to R446, R357), the boot
ROM and the firmware (R389, R390, R421 to R423, R429, R434 to R436), and the recovery mailbox (R431). -/

namespace Sys2Proof.Machine

open Sys2Proof

/-! ## The clocks -/

/-- What the links of a slab lose when its lanes go to electrical idle (Table 18.2): every link fails, and no route is
left for the frames they held. -/
def Port.idleLanes (p : Port) : Port :=
  { p with up := false, training := false, helloSent := false, helloGot := false, replay := [], queue := [], resends := 0, rq := false
           credits := List.replicate 8 0 }.count Ctr.ZETRA_LINK_FAILURES (if p.up then 1 else 0)

/-- A slab in the safe state of Table 18.2: clocks stopped, lanes idle, DRAM in self-refresh, memories kept. -/
def Slab.safeState (sl : Slab) : Slab :=
  let frames := sl.ports.foldl (fun (n : Nat) (p : Nat × Port) => n + p.2.replay.length + p.2.queue.length) 0
  ({ sl with clocks := { sl.clocks with running := false, locking := false }
             ports := sl.ports.map (fun (p : Nat × Port) => (p.1, p.2.idleLanes))
             stackList := stacks24.map (fun k => (k, { sl.stack k with selfRefresh := true })) } : Slab).count Ctr.ZETRA_UNROUTABLE frames

/-- Base camp when its clocks stop: the next start is warm, unless a cold start was under way. -/
def Camp.stopClocks (c : Camp) : Camp :=
  { c with firmware := .stopped, restartCause := if c.restartCause = 4 ∧ c.firmware ≠ .running then 4 else 2, session := none, sidebandStale := true }

/-- The lock count of every powered slab whose clocks stand starts (R421, R443, R464): the supply and the reference are
good and PERST_N is high. -/
def State.startLocks (s : State) : State :=
  if s.shared.perstN && s.shared.converters && s.shared.reference then
    let start (sl : Slab) : Slab :=
      if sl.powered && !sl.clocks.running then { sl with clocks := { sl.clocks with lost := false, locking := true } } else sl
    (s.modSlab .s0 start).modSlab .s1 start
  else s

/-- REFERENCE_LOSS (R445, R357, R291): both slabs take the safe state; `torn` names the blocks that units were writing. -/
def execReferenceLoss (torn : List (SlabId × Fin 24 × Nat × Nat)) (s : State) : Result :=
  if !s.shared.reference then .next s
  else
    let s := torn.foldl (fun (s : State) x => if (s.slab x.1).ready then s.tear x.1 x.2.1.val x.2.2.1 x.2.2.2 else s) s
    let stop (sl : Slab) : Slab :=
      if sl.powered then
        ({ sl.safeState with clocks := { sl.safeState.clocks with lost := true } } : Slab).modCamp (fun c => c.stopClocks)
      else sl
    let s := (s.modSlab .s0 stop).modSlab .s1 stop
    .next ({ s with shared := { s.shared with reference := false } }).loseLink

/-- REFERENCE_DETECT_CLEAR (R445): the reference is back, and the lock counts start. -/
def execReferenceDetectClear (s : State) : Result :=
  if s.shared.reference then .next s
  else
    let clear (sl : Slab) : Slab := { sl with clocks := { sl.clocks with lost := false } }
    .next ((({ s with shared := { s.shared with reference := true } }).modSlab .s0 clear).modSlab .s1 clear).startLocks

/-- PLL_LOCK_RESTART (R443). -/
def execPllLockRestart (slab : SlabId) (s : State) : Result :=
  if (s.slab slab).clocks.locking then .next (s.modSlab slab (fun sl => sl.count Ctr.PLL_LOCK_RESTARTS 1)) else .next s

/-- The hold that follows a loss of the reference: entered when every slab of the device has its clocks. -/
def State.relockHold (s : State) (i : SlabId) : State :=
  let s := s.raise i 0x13 none
  if s.rootReady i then (if (s.root i).inHold then s else s.enterHold i (s.root i).kind (s.root i).midStep) else s

/-- PLL_LOCK (R443, R49, R357): the divided clocks start and the boot ROM of base camp begins; belays that ran before
are in a hold. -/
def execPllLock (slab : SlabId) (s : State) : Result :=
  let c := (s.slab slab).clocks
  if (s.slab slab).powered && c.locking && s.shared.perstN && s.shared.reference then
    let s := s.modSlab slab (fun sl =>
      ({ sl with clocks := { sl.clocks with running := true, locking := false, lost := false, since := sl.clocks.cycle }
                 stackList := sl.stackList.map (fun p => (p.1, { p.2 with selfRefresh := decide (p.2.state = .parked) })) } : Slab).modCamp
        (fun c => { c with firmware := .bootRom }))
    .next (if (s.slab slab).camp.restartCause ≠ 4 ∧ (s.root slab).running then s.relockHold slab else s)
  else .next s

/-- PLL_PHASE_EXCURSION (R444): the slab alone takes the safe state and its lock count starts again; in joined mode the
whole device holds. -/
def execPllPhaseExcursion (slab : SlabId) (torn : List (Fin 24 × Nat × Nat)) (s : State) : Result :=
  if (s.slab slab).ready && s.shared.reference then
    let s := torn.foldl (fun (s : State) x => s.tear slab x.1.val x.2.1 x.2.2) s
    let s := s.modSlab slab (fun sl =>
      ({ sl.safeState with clocks := { sl.safeState.clocks with locking := true } } : Slab).modCamp (fun c => c.stopClocks))
    .next (if s.shared.mode = .joined ∧ (s.slab slab.other).ready then s.raise slab 0x13 none else s)
  else .next s

/-! ## PERST_N (R421, R464) -/

/-- A field after a loss of its memories: stage and fuse keep their state. -/
def Field.cold (f : Field) : Field := { Field.reset with powered := f.powered, fuseOpen := f.fuseOpen, clamped := f.fuseOpen }

/-- A slab whose volatile state is lost: only flash, stages, fuses and seated cables remain. -/
def Slab.cold (sl : Slab) : Slab :=
  { Slab.reset with
    powered := sl.powered
    clocks := { Clocks.reset with cycle := sl.clocks.cycle, lost := sl.clocks.lost }
    fields := sl.fields.map (fun p => (p.1, p.2.cold))
    ports := sl.ports.map (fun p => (p.1, { Port.reset with cable := p.2.cable }))
    camp := { Camp.reset with flash := sl.camp.flash } }

/-- PERST_N_ASSERT: every volatile state is lost; the outputs take the safe state, and THERMTRIP_N is released (R459). -/
def execPerstNAssert (s : State) : Result :=
  .next { s with
    slab0 := s.slab0.cold
    slab1 := s.slab1.cold
    fn0 := .reset
    fn1 := .reset
    shared := { s.shared with perstN := false, linkUp := false, thermtripN := true, alertN := true, setMode := none, colLanes := []
                              belayPairs := [], belayLane := none, crossings := [], gate := 1, counters := [] } }

/-- PERST_N_DEASSERT: a cold start begins, now or when supply and reference are good. -/
def execPerstNDeassert (s : State) : Result :=
  if s.shared.perstN then .next s else .next ({ s with shared := { s.shared with perstN := true } }).startLocks

/-! ## The boot ROM (R429) -/

/-- The slot holds firmware that the boot ROM may start. -/
def Flash.bootable (fl : Flash) : Bool := fl.fwCommitted && fwHeaderOk fl.fwImage && fwSigned fl.fwImage

/-- The firmware in the slot loaded. -/
def Camp.loadFirmware (c : Camp) : Camp :=
  let bs := c.flash.fwImage
  { c with firmware := .restarting, fwVersion := BitVec.ofNat 32 (fwVersionOf bs), fwSvn := BitVec.ofNat 32 (fwSvnOf bs)
           fwDigest := Config.shake256 bs, romVersion := Config.romVersion }

/-- The serial number of the identity record. -/
def Camp.serial (c : Camp) : List Byte := (padTo 1792 c.flash.identity).extract 0x0C 0x10

/-- The recovery mailbox entered (R431, R467): version and digest 0, and the sideband file of recovery. -/
def Camp.enterRecovery (c : Camp) (i : SlabId) : Camp :=
  { c with firmware := .recovery, fwVersion := 0, fwSvn := 0, fwDigest := [], romVersion := Config.romVersion, session := none, sidebandStale := false
           sideband := Cells.writeN [] 0 (leBytes 0x2880 2 ++ [BitVec.ofNat 8 i.num, 4] ++ c.serial) }

/-! ## The cold start of the firmware (R421 to R423, R433 to R436) -/

/-- The power-on count raised and committed (R422). -/
def Slab.countPowerOn (sl : Slab) : Slab :=
  let n := (sl.camp.flash.record 1).elim 0 (fun r => leAt r.payload 0 4)
  let n := min (n + 1) 0xFFFFFFFF
  (sl.writeRecord 1 (leBytes n 4)).modCamp (fun c => { c with powerOn := BitVec.ofNat 32 n })

/-- Records found invalid at the start. -/
def Flash.invalidRecords (fl : Flash) : Nat := ((fl.regionA ++ fl.regionB).filter (fun r => !r.committed)).length

/-- The identity record and the device key checked (R434, R436). -/
def Camp.checkIdentity (c : Camp) (i : SlabId) : Camp :=
  let bad := c.flash.identityFails
  { c with identityBad := bad, seedLocked := true
           keyMismatch := !bad && decide (padTo 57 (Config.devicePublicKey i.num) ≠ (c.flash.identity.drop 0x40).take 57) }

/-- The fault map read; stages and fuses keep their state. -/
def Slab.loadMap (sl : Slab) : Slab :=
  let old := sl
  let sl := sl.readMap (if sl.camp.identityBad ∧ (sl.camp.flash.record 3).isNone then [] else sl.camp.flash.map)
  (List.range 42).foldl (fun (sl : Slab) n =>
    sl.modField n (fun f => { f with powered := (old.field n).powered && !f.clamped, fuseOpen := f.fuseOpen || (old.field n).fuseOpen })) sl

/-- The staging frames and the firmware buffer reserved, their stripes open (R418). -/
def Memory.reserveStaging (m : Memory) : Memory :=
  let stage := stacks24.flatMap (fun k => (List.range 80).map (fun f => (k, f + 16)))
  let fw := (List.range 4).map (fun k => (k, 96))
  { m with frames := (stage ++ fw).foldl (fun fs p => aset p .reserved fs) m.frames
           stripes := (List.range 81).foldl (fun ss f => aset (f + 16) .open_ ss) m.stripes }

/-- A field as a device-wide index byte. -/
def State.fieldByte (s : State) (k : SlabId) (n : Nat) : Byte := BitVec.ofNat 8 (fieldIndex s.shared.mode k (n % 7) (n / 7))

/-- A field lost at the start: recorded and logged with class 0x03 or 0x04 (R423, R453). -/
def State.loseAtStart (s : State) (k : SlabId) (n why : Nat) : State :=
  if n ∈ (s.slab k).lostFields then s
  else
    let open_ := !((s.slab k).field n).fuseOpen && decide (why = 3)
    let s := (s.loseField k n why).modSlab k (fun sl =>
      (sl.modField n (fun f => { f with fuseOpen := f.fuseOpen || open_ })).count Ctr.FUSE_OPENS (if open_ then 1 else 0))
    s.logFault k { FaultEntry.basic (if why = 3 then 0x04 else 0x03) 0 with map := true, field := s.fieldByte k n }

/-- A tile that the power-on test found failed: repaired where possible, else its field is lost (R423). -/
def State.testTile (s : State) (k : SlabId) (x : Fin 42 × Fin 17 × Fin 17) : State :=
  let n := x.1.val
  let p : Fin 17 × Fin 17 := (x.2.1, x.2.2)
  if n ∈ (s.slab k).lostFields ∨ p ∈ ((s.slab k).field n).failedTiles then s
  else
    let s := (s.modSlab k (fun sl => sl.tileFailed n p)).repairField k n false
    let fixed := !((s.slab k).field n).repairPending
    let s := s.logFault k { FaultEntry.basic 0x02 (if fixed then 2 else 0) with map := true, field := s.fieldByte k n }
    if fixed then s else s.loseAtStart k n 3

/-- A stack that failed its test (R423). -/
def State.testStack (s : State) (k : SlabId) (u : Fin 24) : State :=
  if !(s.slab k).stackUp u.val then s
  else (s.setStack k u.val .failed).logFault k
    { FaultEntry.basic 0x0A 5 with node := unitNode k 1 u.val, aux := BitVec.ofNat 8 u.val, map := true }

/-- A Zetra lane that failed its test. -/
def State.testLane (s : State) (k : SlabId) (x : Fin 16 × Fin 8) : State :=
  if !((s.slab k).port x.1.val).working.getLsbD x.2.val then s
  else (s.modSlab k (fun sl => (sl.modPort x.1.val (fun p => { p with working := p.working &&& ~~~(1#8 <<< x.2.val) })).mapChanged)).logFault k
    { FaultEntry.basic 0x11 1 with node := unitNode k 3 x.1.val, aux := BitVec.ofNat 8 x.2.val, map := true }

/-- A mesh link that failed its test. -/
def State.testLink (s : State) (k : SlabId) (x : Fin 42 × Fin 17 × Fin 17 × Dir) : State :=
  match ((s.slab k).field x.1.val).logicalAt x.1.val (x.2.1, x.2.2.1) with
  | none => s
  | some t =>
    let d := x.2.2.2
    if d ∈ ((s.slab k).tile t.1 t.2).router.failed then s
    else (s.modSlab k (fun sl => (sl.modTile t.1 t.2 (fun tl =>
        { tl with router := { tl.router with failed := insertNew d tl.router.failed } })).mapChanged)).logFault k
      { FaultEntry.basic 0x0E 1 with node := tileNode s.shared.mode (tileId k t.1 t.2), map := true }

/-- The findings of the power-on test entered in the map and the log (R423). -/
def State.powerOnTest (s : State) (k : SlabId) (x : TestFindings) : State :=
  let s := x.failedTiles.foldl (fun s t => s.testTile k t) s
  let s := x.failedStacks.foldl (fun s u => s.testStack k u) s
  let s := x.failedLanes.foldl (fun s l => s.testLane k l) s
  x.failedLinks.foldl (fun s l => s.testLink k l) s

/-- The mode decided by slab 0's record (R32); slab 1 rewrites a record that differs. -/
def State.decideMode (s : State) (k : SlabId) : State :=
  let m := s.slab0.camp.flash.mode
  let s := { s with shared := { s.shared with mode := m } }
  if k = .s1 ∧ s.slab1.camp.flash.mode ≠ m then s.modSlab .s1 (fun sl => sl.writeRecord 2 [modeCode m]) else s

/-- A cold start of the firmware of slab `k`, up to its power-on test. -/
def State.coldStart (s : State) (k : SlabId) (x : TestFindings) : State :=
  let s := s.modSlab k (fun sl =>
    let sl := sl.count Ctr.FLASH_RECORDS_INVALID sl.camp.flash.invalidRecords
    let sl := (sl.modCamp (fun c => c.checkIdentity k)).countPowerOn.loadMap
    sl.modMem Memory.reserveStaging)
  let lanes := (mapColLanes (s.slab k).camp.flash.map).foldl (fun l n => insertNew n l) s.shared.colLanes
  let s := { s with shared := { s.shared with colLanes := lanes } }
  let s := s.decideMode k
  let s := if (s.slab k).camp.keyMismatch then s.logFault k (FaultEntry.basic 0x00 0) else s
  (s.powerOnTest k x).setHoles k

/-- FIRMWARE_START: the boot ROM loads the firmware that it may start, which begins cold or warm; otherwise it serves the
recovery mailbox and signals vector 6. -/
def execFirmwareStart (slab : SlabId) (findings : TestFindings) (s : State) : Result :=
  let c := (s.slab slab).camp
  if decide (c.firmware = .bootRom) && (s.slab slab).ready then
    if c.flash.bootable then
      let s := s.modSlab slab (fun sl => sl.modCamp Camp.loadFirmware)
      .next (if c.restartCause = 4 then s.coldStart slab findings else s)
    else .next ((s.modSlab slab (fun sl => sl.modCamp (fun c => c.enterRecovery slab))).modFunc slab (fun f => f.signalIf 6))
  else .next s

/-! ## Restarts and service (R389, R390, R393, R395) -/

/-- WATCHDOG_EXPIRY. -/
def execWatchdogExpiry (slab : SlabId) (s : State) : Result :=
  let c := (s.slab slab).camp
  if (s.slab slab).ready && decide (c.firmware = .running) then .next (s.modSlab slab (fun sl => sl.modCamp (fun c => c.restart 0))) else .next s

/-- A record of the preserved region invalidated: ledger slots, then fault-log places, then summit results, then the
command journal. -/
def State.invalidateRecord (s : State) (k : SlabId) (n : Nat) : State :=
  if n < 256 then
    s.modSlab k (fun sl => sl.modCamp (fun c =>
      { c with ledger := c.ledger.map (fun r => if r.step.toNat % 256 = n then { r with valid := false } else r) }))
  else if n < 4352 then
    s.modSlab k (fun sl => sl.modCamp (fun c => { c with faultLog := c.faultLog.filter (fun e => decide (e.seq.toNat % 4096 + 256 ≠ n)) }))
  else if n < 4354 then s.modJob k (fun j => { j with results := j.results.eraseIdx (n - 4352) })
  else s.modFunc k (fun f =>
    { f with outstanding := f.outstanding.zipIdx.map (fun p => if p.2 + 4354 = n then { p.1 with committed := false } else p.1) })

/-- SRAM_UNCORRECTABLE (R389): in the working region a warm restart, in the preserved region the loss of one record. -/
def execSramUncorrectable (slab : SlabId) (preserved : Option Nat) (s : State) : Result :=
  if !((s.slab slab).ready && decide ((s.slab slab).camp.firmware = .running)) then .next s
  else match preserved with
    | none => .next (s.modSlab slab (fun sl => sl.modCamp (fun c => c.restart 1)))
    | some n => .next (s.invalidateRecord slab n)

/-- Doorbells not answered before the restart are answered INTERNAL (R393). -/
def State.answerPending (s : State) (fn : SlabId) : State :=
  mailboxes.foldl (fun (s : State) m =>
    let b := (s.func fn).mailbox m
    if b.pending then s.writeResponse fn m b.take stInternal [] 0 else s) s

/-- Commands before their commit point, other than deferred ones, complete with INTERNAL, their operations dropped (R395). -/
def State.dropUncommitted (s : State) (fn : SlabId) : State :=
  let os := (s.func fn).outstanding.filter (fun o => !o.committed && !o.deferred)
  let s := s.modSlab fn (fun sl => sl.modCamp (fun c => { c with operations := c.operations.filter (fun x => !(x.forced && !x.running)) }))
  (os.foldl (fun (s : State) o => s.complete fn o.tag stInternal []) s).withdrawTestPause fn

/-- What a warm restart ends with: counts, log, FW_RESTARTED, and the host's commands settled. -/
def State.afterRestart (s : State) (k : SlabId) (cause : Nat) : State :=
  let s := s.modSlab k (fun sl => (sl.modCamp (fun c => { c with restarts := c.restarts + 1 })).count Ctr.BASECAMP_RESTARTS (if cause ≤ 1 then 1 else 0))
  let s := if cause ≤ 1 then s.logFault k { FaultEntry.basic 0x14 0 with node := unitNode k 0 0 } else s
  let s := if cause ≤ 2 then s.event k k evtFwRestarted ([BitVec.ofNat 8 cause] ++ leBytes (s.slab k).camp.restarts 8) else s
  let s := if cause = 2 then s.modSlab k (fun sl =>
      { sl with ports := sl.ports.map (fun p => (p.1, { p.2 with training := p.2.enabled && p.2.cable && !p.2.up })) }) else s
  let s := (s.answerPending k).dropUncommitted k
  if cause = 3 then s.completeAll k 0x72
  else ((s.func k).outstanding.filter (fun o => decide (o.opcode = 0x72))).foldl (fun (s : State) o => s.complete k o.tag stInternal []) s

/-- The belay network issues idle pitch 0. -/
def State.firstIdle (s : State) (k : SlabId) : State :=
  let now := s.cycle (s.dev k)
  if s.dev k = k then
    s.modRoot k (fun _ => { Root.reset with running := true, kind := .idle, issued := now, length := 65536, deadline := 65536, releases := 1 })
  else s

/-- Every field that is not lost has its power. -/
def Slab.fieldsPowered (sl : Slab) : Bool := (List.range 42).all (fun n => decide (n ∈ sl.lostFields) || (sl.field n).powered)

/-- FIRMWARE_SERVING (R358, R390, R393, R421): the started firmware serves the mailboxes. -/
def execFirmwareServing (slab : SlabId) (s : State) : Result :=
  let sl := s.slab slab
  let cause := sl.camp.restartCause
  if sl.ready && decide (sl.camp.firmware = .restarting) && (decide (cause ≠ 4) || sl.fieldsPowered) then
    let s := s.modSlab slab (fun sl => sl.modCamp (fun c => { c with firmware := .running, restartCause := 0 }))
    .next (if cause = 4 then s.firstIdle slab else (s.afterRestart slab cause).drainRing slab)
  else .next s

/-! ## The recovery mailbox (R431) -/

/-- A command that the boot ROM serves on mailbox 3. -/
def State.recoveryCommand (s : State) (fn : SlabId) (m : Fin 4) (r : Request) (bulk : List Byte) : State :=
  let c := (s.slab fn).camp
  let setCamp (f : Camp → Camp) (s : State) : State := s.modSlab fn (fun sl => sl.modCamp f)
  if r.opcode = 0x01 then s.answer fn m r ((s.slab fn).identity fn) []
  else if r.opcode = 0x70 then
    if !fwTotalOk (r.arg 0 4) then s.respond fn m r stBadArg []
    else (setCamp (fun c =>
      { c with session := some { total := r.arg 0 4, bytes := [], activate := false, committing := false }
               flash := { c.flash with fwImage := [], fwCommitted := false } }) s).respond fn m r stOk []
  else match c.session with
    | none => s.respond fn m r (if r.opcode = 0x71 then stRefusedState else stBadArg) []
    | some x =>
      if r.opcode = 0x71 then
        match (s.chunkData fn r bulk).bind (x.chunk (r.arg 0 4)) with
        | none => s.respond fn m r stBadArg []
        | some y => (setCamp (fun c => { c with session := some y, flash := { c.flash with fwImage := y.bytes } }) s).respond fn m r stOk []
      else if 1 < r.arg 0 1 then s.respond fn m r stBadArg []
      else match x.fault c.flash.minSvn with
        | some e => s.respond fn m r e []
        | none =>
          let s := s.modSlab fn (fun sl => (sl.modCamp (fun c =>
            { c with session := none, firmware := .bootRom, flash := { c.flash with fwCommitted := true } })).count Ctr.FW_COMMITS 1)
          s.respond fn m r stOk []

/-- RECOVERY_MAILBOX: mailboxes 0 to 2 answer REFUSED_STATE; mailbox 3 takes IDENTIFY and a firmware update. -/
def execRecoveryMailbox (fn : SlabId) (m : Fin 4) (bulk : List Byte) (s : State) : Result :=
  let b := (s.func fn).mailbox m
  let r := b.take
  if decide ((s.slab fn).camp.firmware = .recovery) && b.pending && (s.slab fn).ready then
    if m ≠ 3 then .next (s.respond fn m r stRefusedState [])
    else if r.opcode ∉ [0x01, 0x70, 0x71, 0x72] then .next (s.respond fn m r stBadOpcode [])
    else if r.headerBad || r.bar2 || (r.hostbuf && !(s.func fn).busMaster) then .next (s.respond fn m r stBadArg [])
    else .next (s.recoveryCommand fn m r bulk)
  else .next s

end Sys2Proof.Machine
end

