-- ==== Sys2Proof/Machine/OverlayPort.lean ====
section
/-! DEFINITION. The begin of an instruction at the overlay port (R186, R260). -/

namespace Sys2Proof.Machine

open Sys2Proof

/-- OVERLAY_PORT_BEGIN (R260, R186): the head of the port's queue runs. An uncorrectable row of the
stack region is an uncorrectable error of the tile; of a local frame, the rows come from the home
(R188) after a free delay, the page leaves residence and the tile is degraded. -/
def execOverlayPortBegin (t : TileId) (overlayErrs spErrs : List RowError) (s : State) : Result :=
  let now := s.cycle t.slab
  let tl := s.tile t
  let p := isPortal t
  match (if (s.slab t.slab).ready then tl.portHead now else none) with
  | none => .next s
  | some e =>
    let env := s.stackEnv t.slab (stkCtx e.word)
    let ovrd := decide (opOf e.word = 0x24)
    let src := if opOf e.word = 0x28 then rowsFrom (addIdx (stkRow e.word) e.idx) (stkRows e.word) else []
    let es := overlayErrs.filter (fun r => decide (r.row ∈ tl.portReads e env) && decide (0 < r.weight))
    let sp := spErrs.filter (fun r => decide (r.row ∈ src))
    let lost := es.filter (fun r => decide (1 < r.weight))
    let (d, s) := s.takeFree 65536
    let late := if lost.isEmpty then 0 else d
    let s := s.onTile t (fun now tl =>
      let tl := { tl with port := { tl.port with queue := tl.port.queue.drop 1 } }
      let tl := if ovrd then tl.runOvrd now late e else tl.runStack p now e env sp (lost.map (fun r => r.row))
      ((tl.recordRowErrors p false 2 sp).count Ctr.OVL_CORRECTED (es.length - lost.length)).count
        Ctr.OVL_UNCORRECTABLE lost.length)
    let s := s.tileErrorIf ((!lost.isEmpty && !ovrd) || rowsUncorrectable sp) t
    if ovrd && !lost.isEmpty then
      .next ((s.leaveResidence t.slab (gx s.shared.mode t, t.y.val, ovrdFrame e.word)).tileDegraded t)
    else .next s

end Sys2Proof.Machine
end

