-- ==== Sys2Proof/Machine/Power.lean ====
section
/-! DEFINITION. Supply, rails, fuses and field stages (R451 to R454, R463), temperatures (R339, R455 to R460) and the
SMBus sideband (R466, R467). -/

namespace Sys2Proof.Machine

open Sys2Proof

/-! ## Loss and return of power -/

/-- A field of a slab without power: its fuse, and nothing else. -/
def Field.off (fuse : Bool) : Field := { Field.reset with fuseOpen := fuse, clamped := fuse }

/-- A slab that has lost its power: everything but flash is lost; seated cables stay seated (R14, R451). With `fuses`
every field fuse is open (R459). -/
def Slab.off (sl : Slab) (fuses : Bool) : Slab :=
  { Slab.reset with
    powered := false
    clocks := { Clocks.reset with lost := sl.clocks.lost }
    fields := if fuses then (List.range 42).map (fun n => (n, Field.off true)) else []
    ports := sl.ports.map (fun p => (p.1, { Port.reset with cable := p.2.cable }))
    camp := { Camp.reset with flash := sl.camp.flash } }

/-- Every bus converter stopped: both slabs lose power (R14, R454, R459, R463). -/
def State.powerOff (s : State) (fuses : Bool) : State :=
  { s with
    slab0 := s.slab0.off fuses
    slab1 := s.slab1.off fuses
    fn0 := .reset
    fn1 := .reset
    shared := { s.shared with converters := false, linkUp := false, alertN := true, setMode := none, colLanes := []
                              belayPairs := [], belayLane := none, crossings := [], gate := 1, counters := [] } }

/-- INPUT_RISE (R463): the converters start and both slabs have power; a fuse recloses only now. An input that rises
through 49 V had been removed, so THERMTRIP_N is released (R459). A cold start follows when PERST_N and the reference
allow it (R464). -/
def execInputRise (s : State) : Result :=
  if s.shared.inputGood then .next s
  else
    let s := { s with
      slab0 := { s.slab0.off false with powered := true }
      slab1 := { s.slab1.off false with powered := true }
      shared := { s.shared with inputGood := true, converters := true, thermtripN := true, alertN := true } }
    .next s.startLocks

/-- INPUT_UNDERVOLTAGE (R454): both slabs lose power, and THERMTRIP_N is released with the removal of the input. -/
def execInputUndervoltage (s : State) : Result :=
  let s := s.powerOff false
  .next { s with shared := { s.shared with inputGood := false, thermtripN := true } }

/-- INPUT_OVERVOLTAGE (R463). -/
def execInputOvervoltage (s : State) : Result :=
  let s := s.powerOff false
  .next { s with shared := { s.shared with inputGood := false } }

/-- ALERT_N follows the hot and critical conditions of both slabs (R460). -/
def State.updateAlert (s : State) : State :=
  { s with shared := { s.shared with alertN := s.slab0.camp.conditions.isEmpty && s.slab1.camp.conditions.isEmpty } }

/-- SLAB_RAIL_LOSS (R451): one slab loses power, and the other continues. -/
def execSlabRailLoss (slab : SlabId) (s : State) : Result :=
  if (s.slab slab).powered then
    .next ((s.modSlab slab (fun sl => sl.off false)).setFunc slab .reset).updateAlert
  else .next s

/-! ## Fuses and stages of fields -/

/-- A fuse opens: the field loses power and its node is clamped to FIELD_LOST (R48, R452). -/
def Slab.openFuse (sl : Slab) (n : Nat) : Slab :=
  (sl.modField n (fun f => { f with powered := false, fuseOpen := true, clamped := true })).count Ctr.FUSE_OPENS 1

/-- The loss of a field's power reported: the cause of a hold with code 0x03 once the belay network runs (R48), before
that a loss at the start. -/
def State.fieldPowerLost (s : State) (k : SlabId) (c : Fin 7) (r : Fin 6) : State :=
  if (s.root k).running then
    s.raiseCause { code := 0x03, slab := k, field := some (c, r), tile := none, unit := none, stamp := s.stamp k }
  else (s.loseAtStart k (c.val + 7 * r.val) 2).setHoles k

/-- FIELD_FUSE_OPEN (R48, R446, R452): it needs no clock. -/
def execFieldFuseOpen (f : FieldId) (s : State) : Result :=
  let sl := s.slab f.slab
  let fd := sl.field (fieldNum f)
  if sl.powered && fd.powered && !fd.fuseOpen then
    .next ((s.modSlab f.slab (fun sl => sl.openFuse (fieldNum f))).fieldPowerLost f.slab f.c f.r)
  else .next s

/-- The fields that the next group switches on: the first six that are neither lost nor powered (R453). -/
def Slab.nextStages (sl : Slab) : List Nat :=
  ((List.range 42).filter (fun n => decide (n ∉ sl.lostFields) && !(sl.field n).powered)).take 6

/-- FIELD_STAGE_START (R453): stages in `failed`, and those whose fuse is open, do not reach regulation, and their fields
are lost with STATE 0x2. -/
def execFieldStageStart (slab : SlabId) (failed : List (Fin 42)) (s : State) : Result :=
  let sl := s.slab slab
  if sl.ready && decide (sl.camp.firmware = .restarting) && decide (sl.camp.restartCause = 4) then
    .next ((sl.nextStages.foldl (fun (s : State) n =>
      if failed.any (fun x => decide (x.val = n)) || ((s.slab slab).field n).fuseOpen then s.loseAtStart slab n 2
      else s.modSlab slab (fun sl => sl.modField n (fun f => { f with powered := true, clamped := false, since := sl.clocks.cycle }))) s).setHoles slab)
  else .next s

/-! ## Temperatures -/

/-- Threshold and clear level of a condition in thousandths of a degree (Table 18.6). -/
def thermalLevels (x : Sensor) (critical : Bool) : Int × Int :=
  match x, critical with
  | .tile _, false => (95000, 90000)
  | .tile _, true => (105000, 100000)
  | .stack _, false => (90000, 85000)
  | .stack _, true => (100000, 95000)
  | .stage _, false => (110000, 105000)
  | .stage _, true => (125000, 120000)

/-- The number of a sensor's telemetry item (Table 15.12), which has none for a power stage: free value number `k`. -/
def sensorItem (x : Sensor) (k : Nat) : Nat :=
  match x with
  | .tile f => 0x0100 + f.val
  | .stack u => 0x0200 + u.val
  | .stage _ => Config.freeNat k % 65536

/-- A THERMAL record: threshold 0 hot, 1 critical, 2 cleared. -/
def State.thermalEvent (s : State) (k : SlabId) (x : Sensor) (v : Int) (threshold : Byte) : State :=
  let n := s.free
  ({ s with free := n + 1 }).event k k evtThermal
    (leBytes (sensorItem x n) 2 ++ leBytes (BitVec.ofInt 64 v).toNat 8 ++ [threshold])

/-- The condition is in force. -/
def Camp.has (c : Camp) (x : Sensor) (critical : Bool) : Bool :=
  c.conditions.any (fun d => decide (d.sensor = x) && decide (d.critical = critical))

/-- A stack that passed its hot threshold: its flag, the SLOW bit of open ledger records (Table 13.2), and the advisory
(R339, R458). -/
def State.stackHot (s : State) (k : SlabId) (u : Nat) : State :=
  let slow := Config.slowPitches s.free
  let step := s.stepNow k
  ({ s with free := s.free + 1 }).modSlab k (fun sl =>
    (((sl.modStack u (fun st => { st with hot := true })).modCamp (fun c =>
      { c with ledger := c.ledger.map (fun (r : LedgerRec) => if bit r.phases 5 then r else { r with flags := r.flags ||| 0x20 }) })).heardSlow slow).sendAdvisory
        step none)

/-- What a condition of a stack that starts or clears changes. -/
def State.stackCondition (s : State) (k : SlabId) (x : Sensor) (critical on : Bool) : State :=
  match x with
  | .stack u =>
    if critical then s.modSlab k (fun sl => sl.modStack u.val (fun st => { st with critical := on }))
    else if on then s.stackHot k u.val
    else s.modSlab k (fun sl => sl.modStack u.val (fun st => { st with hot := false }))
  | _ => s

/-- One condition of a sensor after a sample: it starts at the threshold, and clears after 10 consecutive samples at or
below the clear level (R456). -/
def State.sampleCondition (s : State) (k : SlabId) (x : Sensor) (v : Int) (critical : Bool) : State :=
  let lv := thermalLevels x critical
  let c := (s.slab k).camp
  if c.has x critical then
    let n := if v ≤ lv.2 then ((c.conditions.find? (fun d => decide (d.sensor = x) && decide (d.critical = critical))).elim 0 Condition.below) + 1 else 0
    let rest := c.conditions.filter (fun d => !(decide (d.sensor = x) && decide (d.critical = critical)))
    if n = 10 then
      ((s.modSlab k (fun sl => sl.modCamp (fun c => { c with conditions := rest }))).stackCondition k x critical false).thermalEvent k x v 2
    else s.modSlab k (fun sl => sl.modCamp (fun c => { c with conditions := rest ++ [{ sensor := x, critical := critical, below := n }] }))
  else if lv.1 ≤ v then
    let s := s.modSlab k (fun sl => (sl.modCamp (fun c =>
      { c with conditions := c.conditions ++ [{ sensor := x, critical := critical, below := 0 }] })).count
        (if critical then Ctr.THERMAL_CRITICAL else Ctr.THERMAL_HOT) 1)
    (s.stackCondition k x critical true).thermalEvent k x v (if critical then 1 else 0)
  else s

/-- The reading of a sensor taken over, and both its conditions. -/
def State.sampleSensor (s : State) (k : SlabId) (x : Sensor) (v : Int) : State :=
  let s := s.modSlab k (fun sl =>
    let sl := sl.modCamp (fun c => { c with readings := aset x v c.readings })
    match x with
    | .stack u => sl.modStack u.val (fun st => { st with milliC := v })
    | _ => sl)
  (s.sampleCondition k x v false).sampleCondition k x v true

/-- A field whose tile or stage condition is critical. -/
def Slab.fieldCritical (sl : Slab) (n : Nat) : Bool :=
  if h : n < 42 then sl.camp.has (.tile ⟨n, h⟩) true || sl.camp.has (.stage ⟨n, h⟩) true else false

/-- The samples in a row, 1 ms each, for which each field has been critical (R457). -/
def Slab.countCritical (sl : Slab) : Slab :=
  (List.range 42).foldl (fun (sl : Slab) n =>
    if sl.fieldCritical n then sl.modField n (fun f => { f with critSamples := f.critSamples + 1 })
    else if (sl.field n).critSamples = 0 then sl
    else sl.modField n (fun f => { f with critSamples := 0 })) sl

/-- THERMAL_SAMPLE (R455, R456, R458, R460): base camp takes its 1 ms samples. -/
def execThermalSample (slab : SlabId) (readings : List (Sensor × Int)) (s : State) : Result :=
  if (s.slab slab).ready && decide ((s.slab slab).camp.firmware = .running) then
    let s := readings.foldl (fun (s : State) x => s.sampleSensor slab x.1 x.2) s
    .next (s.modSlab slab Slab.countCritical).updateAlert
  else .next s

/-- FIELD_CRITICAL_TIMEOUT (R457): a field critical for 1 s, which is 1,000 samples, is taken out. -/
def execFieldCriticalTimeout (f : FieldId) (s : State) : Result :=
  let sl := s.slab f.slab
  let fd := sl.field (fieldNum f)
  if sl.ready && decide (sl.camp.firmware = .running) && decide (1000 ≤ fd.critSamples) && fd.powered && !fd.fuseOpen then
    .next ((s.modSlab f.slab (fun sl => sl.openFuse (fieldNum f))).fieldPowerLost f.slab f.c f.r)
  else .next s

/-- THERMAL_TRIP (R459): the comparators need no clock; a sensor of a slab that has power reached its trip threshold. -/
def execThermalTrip (slab : SlabId) (_x : Sensor) (s : State) : Result :=
  if s.shared.converters && (s.slab slab).powered then
    let s := s.powerOff true
    .next { s with shared := { s.shared with thermtripN := false } }
  else .next s

/-! ## The sideband (R466, R467) -/

/-- The always-on rail of a slab has power: it is taken from the input and does not stop with the converters (R451). -/
def State.railUp (s : State) (k : SlabId) : Bool := s.shared.inputGood && ((s.slab k).powered || !s.shared.converters)

/-- FLAGS as read: THERMTRIP and ALERT follow their pins. -/
def State.sidebandFlags (s : State) (k : SlabId) : Byte :=
  let c := (s.slab k).camp
  Cells.read c.sideband 3 ||| (if c.sidebandStale then 2 else 0) ||| (if s.shared.thermtripN then 0 else 8)
    ||| (if s.shared.alertN then 0 else 16)

/-- SMBUS_BLOCK_READ: the 32 bytes of page `code`. -/
def execSmbusBlockRead (slab : SlabId) (code : Fin 3) (s : State) : Result :=
  if s.railUp slab then
    let page := Cells.readN (s.slab slab).camp.sideband (32 * code.val) 32
    let page := if code = 0 then page.set 3 (s.sidebandFlags slab) else page
    .next { s with smbus := some page }
  else .next { s with smbus := none }

/-- SMBUS_REJECTED: NACKed. -/
def execSmbusRejected (_slab : SlabId) (s : State) : Result := .next { s with smbus := none }

/-- The hottest of `n` sensors and its number: the lowest number where several are equal, and free value number `k`
where none has a sample. -/
def Camp.hottest (c : Camp) (sensors : List (Nat × Sensor)) (k : Nat) : Nat × Int :=
  (sensors.foldl (fun (m : Option (Nat × Int)) x =>
    match c.reading x.2, m with
    | none, m => m
    | some v, none => some (x.1, v)
    | some v, some y => if y.2 < v then some (x.1, v) else some y) none).getD (Config.freeNat k % 256, (Config.freeWord k 0).toInt)

def tileSensors : List (Nat × Sensor) := (List.finRange 42).map (fun f => (f.val, .tile f))
def stackSensors : List (Nat × Sensor) := (List.finRange 24).map (fun u => (u.val, .stack u))
def stageSensors : List (Nat × Sensor) := (List.finRange 42).map (fun f => (f.val, .stage f))

/-- A temperature as 4 signed bytes. -/
def milliBytes (v : Int) : List Byte := leBytes (BitVec.ofInt 32 v).toNat 4

/-- The register file of Table 19.3; free values from number `k` stand for the measured power and for temperatures
without a sample. -/
def State.sidebandFile (s : State) (i : SlabId) (k : Nat) : List Byte :=
  let sl := s.slab i
  let c := sl.camp
  let j := s.job i
  let seq := leNat (Cells.readN c.sideband 0x10 2) + 1
  let tile := c.hottest tileSensors (k + 1)
  let stack := c.hottest stackSensors (k + 2)
  let stage := c.hottest stageSensors (k + 3)
  leBytes 0x2880 2 ++ [BitVec.ofNat 8 i.num, 1] ++ c.serial ++ leBytes c.fwVersion.toNat 4 ++ leBytes c.powerOn.toNat 4 ++ leBytes seq 2
    ++ [BitVec.ofNat 8 j.state.code, BitVec.ofNat 8 j.reason.code] ++ leBytes sl.portsUp 2 ++ leBytes sl.portsPresent 2 ++ leBytes sl.stackBits 8
    ++ leBytes (s.lostBits i) 16 ++ leBytes s.shared.supplyMv 4 ++ leBytes s.shared.supplyMa 4 ++ leBytes (Config.freeNat k) 4
    ++ milliBytes tile.2 ++ milliBytes stack.2 ++ milliBytes stage.2 ++ [BitVec.ofNat 8 tile.1, BitVec.ofNat 8 stack.1] ++ List.replicate 6 0
    ++ leBytes (s.root i).pitch.toNat 8 ++ List.replicate 8 0

/-- SIDEBAND_REFRESH (R467). -/
def execSidebandRefresh (slab : SlabId) (s : State) : Result :=
  if (s.slab slab).ready && decide ((s.slab slab).camp.firmware = .running) then
    let k := s.free
    .next (({ s with free := k + 4 }).modSlab slab (fun sl => sl.modCamp (fun c =>
      { c with sideband := Cells.writeN [] 0 (s.sidebandFile slab k), sidebandStale := false })))
  else .next s

end Sys2Proof.Machine
end

