-- ==== Sys2Proof/Machine/Dispatch.lean ====
section
/-! DEFINITION. One arm per command of Instr: one direct call of its meaning. -/

namespace Sys2Proof.Machine

open Sys2Proof

def exec (i : Instr) (s : State) : Host.Outcome State Fault Refusal :=
  match i with
  | .nop t q w => Sys2Proof.Machine.execNop t q w s
  | .waitc t q w => Sys2Proof.Machine.execWaitc t q w s
  | .waituntil t q w => Sys2Proof.Machine.execWaituntil t q w s
  | .waitarr t q w => Sys2Proof.Machine.execWaitarr t q w s
  | .waitEnd t q => Sys2Proof.Machine.execWaitEnd t q s
  | .seti t q w => Sys2Proof.Machine.execSeti t q w s
  | .addi t q w => Sys2Proof.Machine.execAddi t q w s
  | .jmp t q w => Sys2Proof.Machine.execJmp t q w s
  | .bnzd t q w => Sys2Proof.Machine.execBnzd t q w s
  | .ifill t q w => Sys2Proof.Machine.execIfill t q w s
  | .ifillBegin t => Sys2Proof.Machine.execIfillBegin t s
  | .ifillDone t target errs => Sys2Proof.Machine.execIfillDone t target errs s
  | .belay t q w => Sys2Proof.Machine.execBelay t q w s
  | .belayArrival t ch => Sys2Proof.Machine.execBelayArrival t ch s
  | .belayResume t ch => Sys2Proof.Machine.execBelayResume t ch s
  | .reservedOpcodeDecode t q w => Sys2Proof.Machine.execReservedOpcodeDecode t q w s
  | .wrongClassDecode t q w => Sys2Proof.Machine.execWrongClassDecode t q w s
  | .mdesc t q w => Sys2Proof.Machine.execMdesc t q w s
  | .mma t q w => Sys2Proof.Machine.execMma t q w s
  | .mload t q w => Sys2Proof.Machine.execMload t q w s
  | .mstore t q w => Sys2Proof.Machine.execMstore t q w s
  | .matrixBegin t e => Sys2Proof.Machine.execMatrixBegin t e s
  | .matrixDrain t => Sys2Proof.Machine.execMatrixDrain t s
  | .vacc t q w => Sys2Proof.Machine.execVacc t q w s
  | .vadd t q w => Sys2Proof.Machine.execVadd t q w s
  | .vsub t q w => Sys2Proof.Machine.execVsub t q w s
  | .vmul t q w => Sys2Proof.Machine.execVmul t q w s
  | .vfma t q w => Sys2Proof.Machine.execVfma t q w s
  | .vmax t q w => Sys2Proof.Machine.execVmax t q w s
  | .vmin t q w => Sys2Proof.Machine.execVmin t q w s
  | .vcvt t q w => Sys2Proof.Machine.execVcvt t q w s
  | .vexp t q w => Sys2Proof.Machine.execVexp t q w s
  | .vrcp t q w => Sys2Proof.Machine.execVrcp t q w s
  | .vrsq t q w => Sys2Proof.Machine.execVrsq t q w s
  | .vrsum t q w => Sys2Proof.Machine.execVrsum t q w s
  | .vrmax t q w => Sys2Proof.Machine.execVrmax t q w s
  | .vrmin t q w => Sys2Proof.Machine.execVrmin t q w s
  | .vperm t q w => Sys2Proof.Machine.execVperm t q w s
  | .viota t q w => Sys2Proof.Machine.execViota t q w s
  | .viadd t q w => Sys2Proof.Machine.execViadd t q w s
  | .vld t q w => Sys2Proof.Machine.execVld t q w s
  | .vst t q w => Sys2Proof.Machine.execVst t q w s
  | .vgetf t q w => Sys2Proof.Machine.execVgetf t q w s
  | .vclrf t q w => Sys2Proof.Machine.execVclrf t q w s
  | .vectorBegin t e => Sys2Proof.Machine.execVectorBegin t e s
  | .send t q w errs => Sys2Proof.Machine.execSend t q w errs s
  | .ovrd t q w => Sys2Proof.Machine.execOvrd t q w s
  | .push t q w => Sys2Proof.Machine.execPush t q w s
  | .pop t q w => Sys2Proof.Machine.execPop t q w s
  | .peek t q w => Sys2Proof.Machine.execPeek t q w s
  | .drop t q w => Sys2Proof.Machine.execDrop t q w s
  | .cairn t q w => Sys2Proof.Machine.execCairn t q w s
  | .overlayPortBegin t overlayErrs spErrs => Sys2Proof.Machine.execOverlayPortBegin t overlayErrs spErrs s
  | .meshFlitReceive t inp vc chk => Sys2Proof.Machine.execMeshFlitReceive t inp vc chk s
  | .meshFlitEject t => Sys2Proof.Machine.execMeshFlitEject t s
  | .multicastForward t inp vc => Sys2Proof.Machine.execMulticastForward t inp vc s
  | .meshAck t => Sys2Proof.Machine.execMeshAck t s
  | .meshRetry t d returnError => Sys2Proof.Machine.execMeshRetry t d returnError s
  | .ctrlRegisterWrite t reg value tag => Sys2Proof.Machine.execCtrlRegisterWrite t reg value tag s
  | .ctrlRegisterRead t reg tag chk => Sys2Proof.Machine.execCtrlRegisterRead t reg tag chk s
  | .ctrlReadResponse slab tag chk => Sys2Proof.Machine.execCtrlReadResponse slab tag chk s
  | .streamDescriptorLoad lender errs => Sys2Proof.Machine.execStreamDescriptorLoad lender errs s
  | .ctrlStatusReport slab src payload => Sys2Proof.Machine.execCtrlStatusReport slab src payload s
  | .ctrlStoreWrite t target tag => Sys2Proof.Machine.execCtrlStoreWrite t target tag s
  | .colCoordination src m => Sys2Proof.Machine.execColCoordination src m s
  | .ctrlRequestTimeout slab tag => Sys2Proof.Machine.execCtrlRequestTimeout slab tag s
  | .heartbeatToggle f pr pc => Sys2Proof.Machine.execHeartbeatToggle f pr pc s
  | .heartbeatDeath f pr pc => Sys2Proof.Machine.execHeartbeatDeath f pr pc s
  | .tickCheck slab => Sys2Proof.Machine.execTickCheck slab s
  | .tickRelease slab => Sys2Proof.Machine.execTickRelease slab s
  | .pitchOverrun slab => Sys2Proof.Machine.execPitchOverrun slab s
  | .phaseBelayRelease slab => Sys2Proof.Machine.execPhaseBelayRelease slab s
  | .regionBelayRelease slab ch => Sys2Proof.Machine.execRegionBelayRelease slab ch s
  | .idlePitch slab => Sys2Proof.Machine.execIdlePitch slab s
  | .gatePitch slab => Sys2Proof.Machine.execGatePitch slab s
  | .maintenancePitch slab scrub => Sys2Proof.Machine.execMaintenancePitch slab scrub s
  | .stepGateMet slab => Sys2Proof.Machine.execStepGateMet slab s
  | .holdEntry slab => Sys2Proof.Machine.execHoldEntry slab s
  | .holdRequest slab code unit => Sys2Proof.Machine.execHoldRequest slab code unit s
  | .routersEmpty slab => Sys2Proof.Machine.execRoutersEmpty slab s
  | .holdRecovery slab => Sys2Proof.Machine.execHoldRecovery slab s
  | .streamFetchStart slab d => Sys2Proof.Machine.execStreamFetchStart slab d s
  | .streamFetchEnd slab d => Sys2Proof.Machine.execStreamFetchEnd slab d s
  | .streamDeliveryStart slab d => Sys2Proof.Machine.execStreamDeliveryStart slab d s
  | .streamReadReturn slab d epoch run => Sys2Proof.Machine.execStreamReadReturn slab d epoch run s
  | .commitWaitRelease slab d => Sys2Proof.Machine.execCommitWaitRelease slab d s
  | .translationWalk t vpn => Sys2Proof.Machine.execTranslationWalk t vpn s
  | .portalFlitAccept t => Sys2Proof.Machine.execPortalFlitAccept t s
  | .atomicApply slab stack => Sys2Proof.Machine.execAtomicApply slab stack s
  | .gatherRequest slab d epoch req => Sys2Proof.Machine.execGatherRequest slab d epoch req s
  | .parityDelta slab stack => Sys2Proof.Machine.execParityDelta slab stack s
  | .shelfSectorUncorrectable slab vpn sector => Sys2Proof.Machine.execShelfSectorUncorrectable slab vpn sector s
  | .migrationCopyDone slab vpn => Sys2Proof.Machine.execMigrationCopyDone slab vpn s
  | .stackFailure slab stack => Sys2Proof.Machine.execStackFailure slab stack s
  | .stackPark slab stack => Sys2Proof.Machine.execStackPark slab stack s
  | .pageRebuild slab vpn => Sys2Proof.Machine.execPageRebuild slab vpn s
  | .shelfControllerLost slab stack => Sys2Proof.Machine.execShelfControllerLost slab stack s
  | .gradientLanding slab unit => Sys2Proof.Machine.execGradientLanding slab unit s
  | .landingWaitRelease slab unit => Sys2Proof.Machine.execLandingWaitRelease slab unit s
  | .summitContributionSend slab => Sys2Proof.Machine.execSummitContributionSend slab s
  | .summitFrame slab port f => Sys2Proof.Machine.execSummitFrame slab port f s
  | .summitResult slab => Sys2Proof.Machine.execSummitResult slab s
  | .pass2Block slab unit => Sys2Proof.Machine.execPass2Block slab unit s
  | .frozenChange slab object block => Sys2Proof.Machine.execFrozenChange slab object block s
  | .updateUnitError slab unit torn => Sys2Proof.Machine.execUpdateUnitError slab unit torn s
  | .lostBlockReset slab object block peerWeights => Sys2Proof.Machine.execLostBlockReset slab object block peerWeights s
  | .differenceRecord slab r => Sys2Proof.Machine.execDifferenceRecord slab r s
  | .repairRecord slab r => Sys2Proof.Machine.execRepairRecord slab r s
  | .zetraIdleFrame slab port f => Sys2Proof.Machine.execZetraIdleFrame slab port f s
  | .zetraWriteFrame slab port f => Sys2Proof.Machine.execZetraWriteFrame slab port f s
  | .zetraReduceFrame slab port f => Sys2Proof.Machine.execZetraReduceFrame slab port f s
  | .bucketLanded slab engine coll bucket => Sys2Proof.Machine.execBucketLanded slab engine coll bucket s
  | .zetraMcastFrame slab port f => Sys2Proof.Machine.execZetraMcastFrame slab port f s
  | .zetraTransitFrame slab port f => Sys2Proof.Machine.execZetraTransitFrame slab port f s
  | .nack slab port f code epoch rejected => Sys2Proof.Machine.execNack slab port f code epoch rejected s
  | .resend slab port f window epoch bucket missing => Sys2Proof.Machine.execResend slab port f window epoch bucket missing s
  | .bucketAck slab port f window epoch bucket => Sys2Proof.Machine.execBucketAck slab port f window epoch bucket s
  | .mcastAck slab port f group source seq => Sys2Proof.Machine.execMcastAck slab port f group source seq s
  | .detach slab port f group target seq => Sys2Proof.Machine.execDetach slab port f group target seq s
  | .catchupFrame slab port f => Sys2Proof.Machine.execCatchupFrame slab port f s
  | .catchupAbandon slab group target => Sys2Proof.Machine.execCatchupAbandon slab group target s
  | .probe slab port f step awaited => Sys2Proof.Machine.execProbe slab port f step awaited s
  | .alive slab port f step windowState slow => Sys2Proof.Machine.execAlive slab port f step windowState slow s
  | .advisory slab port f step slow => Sys2Proof.Machine.execAdvisory slab port f step slow s
  | .laneMap slab port f lanes => Sys2Proof.Machine.execLaneMap slab port f lanes s
  | .hello slab port f endpoint peerPort lanes => Sys2Proof.Machine.execHello slab port f endpoint peerPort lanes s
  | .retryTimeout slab port => Sys2Proof.Machine.execRetryTimeout slab port s
  | .linkSilenceTimeout slab port => Sys2Proof.Machine.execLinkSilenceTimeout slab port s
  | .zetraLaneFailure slab port lane => Sys2Proof.Machine.execZetraLaneFailure slab port lane s
  | .zetraLaneErrorWindow slab port marginal => Sys2Proof.Machine.execZetraLaneErrorWindow slab port marginal s
  | .collTimeout slab engine coll bucket => Sys2Proof.Machine.execCollTimeout slab engine coll bucket s
  | .summitTimeout slab => Sys2Proof.Machine.execSummitTimeout slab s
  | .resendDelay slab engine => Sys2Proof.Machine.execResendDelay slab engine s
  | .mcastRetry slab engine group seq => Sys2Proof.Machine.execMcastRetry slab engine group seq s
  | .mcastAckTimer slab source group => Sys2Proof.Machine.execMcastAckTimer slab source group s
  | .reduceSlotError slab engine => Sys2Proof.Machine.execReduceSlotError slab engine s
  | .colLaneFailure lane => Sys2Proof.Machine.execColLaneFailure lane s
  | .colBelayPairFailure pair => Sys2Proof.Machine.execColBelayPairFailure pair s
  | .colCrossingFailure crossing => Sys2Proof.Machine.execColCrossingFailure crossing s
  | .identify fn m => Sys2Proof.Machine.execIdentify fn m s
  | .getStatus fn m => Sys2Proof.Machine.execGetStatus fn m s
  | .loadImage fn m bulk => Sys2Proof.Machine.execLoadImage fn m bulk s
  | .loadImageUnload fn m => Sys2Proof.Machine.execLoadImageUnload fn m s
  | .loadImageComplete fn => Sys2Proof.Machine.execLoadImageComplete fn s
  | .verifyImage fn m bulk => Sys2Proof.Machine.execVerifyImage fn m bulk s
  | .mapObject fn m bulk => Sys2Proof.Machine.execMapObject fn m bulk s
  | .mapObjectComplete fn => Sys2Proof.Machine.execMapObjectComplete fn s
  | .unmapObject fn m => Sys2Proof.Machine.execUnmapObject fn m s
  | .placeHint fn m => Sys2Proof.Machine.execPlaceHint fn m s
  | .jobStart fn m => Sys2Proof.Machine.execJobStart fn m s
  | .jobPause fn m => Sys2Proof.Machine.execJobPause fn m s
  | .pausedEntry slab => Sys2Proof.Machine.execPausedEntry slab s
  | .jobResume fn m => Sys2Proof.Machine.execJobResume fn m s
  | .jobStop fn m => Sys2Proof.Machine.execJobStop fn m s
  | .jobStopForce fn m => Sys2Proof.Machine.execJobStopForce fn m s
  | .jobStopEnd slab => Sys2Proof.Machine.execJobStopEnd slab s
  | .stepControl fn m => Sys2Proof.Machine.execStepControl fn m s
  | .ledgerRead fn m => Sys2Proof.Machine.execLedgerRead fn m s
  | .faultLogRead fn m => Sys2Proof.Machine.execFaultLogRead fn m s
  | .countersRead fn m => Sys2Proof.Machine.execCountersRead fn m s
  | .countersClear fn m => Sys2Proof.Machine.execCountersClear fn m s
  | .telemetry fn m => Sys2Proof.Machine.execTelemetry fn m s
  | .selfTest fn m => Sys2Proof.Machine.execSelfTest fn m s
  | .calibrate fn m => Sys2Proof.Machine.execCalibrate fn m s
  | .deferredStart slab => Sys2Proof.Machine.execDeferredStart slab s
  | .operationComplete slab tested failed => Sys2Proof.Machine.execOperationComplete slab tested failed s
  | .fwBegin fn m => Sys2Proof.Machine.execFwBegin fn m s
  | .fwChunk fn m bulk => Sys2Proof.Machine.execFwChunk fn m bulk s
  | .fwCommit fn m => Sys2Proof.Machine.execFwCommit fn m s
  | .fwCommitComplete fn => Sys2Proof.Machine.execFwCommitComplete fn s
  | .attest fn m => Sys2Proof.Machine.execAttest fn m s
  | .getCert fn m => Sys2Proof.Machine.execGetCert fn m s
  | .setMode fn m => Sys2Proof.Machine.execSetMode fn m s
  | .setModeComplete => Sys2Proof.Machine.execSetModeComplete s
  | .exportConfig fn m => Sys2Proof.Machine.execExportConfig fn m s
  | .linkConfigEndpoint fn m => Sys2Proof.Machine.execLinkConfigEndpoint fn m s
  | .linkConfigPort fn m => Sys2Proof.Machine.execLinkConfigPort fn m s
  | .linkConfigRoutes fn m bulk => Sys2Proof.Machine.execLinkConfigRoutes fn m bulk s
  | .linkConfigGroup fn m bulk => Sys2Proof.Machine.execLinkConfigGroup fn m bulk s
  | .linkConfigMcastTx fn m bulk => Sys2Proof.Machine.execLinkConfigMcastTx fn m bulk s
  | .linkConfigMcastRx fn m => Sys2Proof.Machine.execLinkConfigMcastRx fn m s
  | .linkConfigTimers fn m => Sys2Proof.Machine.execLinkConfigTimers fn m s
  | .portTrainingDone slab port => Sys2Proof.Machine.execPortTrainingDone slab port s
  | .feedConfigBind fn m => Sys2Proof.Machine.execFeedConfigBind fn m s
  | .feedConfigClose fn m => Sys2Proof.Machine.execFeedConfigClose fn m s
  | .doorbell fn m => Sys2Proof.Machine.execDoorbell fn m s
  | .requestBufferWrite fn m offset data => Sys2Proof.Machine.execRequestBufferWrite fn m offset data s
  | .mbxDoneRelease fn m => Sys2Proof.Machine.execMbxDoneRelease fn m s
  | .evtCtrlEnable fn base size enable => Sys2Proof.Machine.execEvtCtrlEnable fn base size enable s
  | .evtConsumerWrite fn value => Sys2Proof.Machine.execEvtConsumerWrite fn value s
  | .feedApertureWrite fn queue offset data => Sys2Proof.Machine.execFeedApertureWrite fn queue offset data s
  | .stagingWrite fn offset data => Sys2Proof.Machine.execStagingWrite fn offset data s
  | .gateWordWrite slab writes => Sys2Proof.Machine.execGateWordWrite slab writes s
  | .dmaReadError fn m => Sys2Proof.Machine.execDmaReadError fn m s
  | .functionLevelReset fn => Sys2Proof.Machine.execFunctionLevelReset fn s
  | .hotReset => Sys2Proof.Machine.execHotReset s
  | .pcieLinkLoss => Sys2Proof.Machine.execPcieLinkLoss s
  | .d3hotEntry fn => Sys2Proof.Machine.execD3hotEntry fn s
  | .d0Return fn => Sys2Proof.Machine.execD0Return fn s
  | .perstNAssert => Sys2Proof.Machine.execPerstNAssert s
  | .perstNDeassert => Sys2Proof.Machine.execPerstNDeassert s
  | .referenceLoss torn => Sys2Proof.Machine.execReferenceLoss torn s
  | .referenceDetectClear => Sys2Proof.Machine.execReferenceDetectClear s
  | .pllLock slab => Sys2Proof.Machine.execPllLock slab s
  | .pllLockRestart slab => Sys2Proof.Machine.execPllLockRestart slab s
  | .pllPhaseExcursion slab torn => Sys2Proof.Machine.execPllPhaseExcursion slab torn s
  | .firmwareStart slab findings => Sys2Proof.Machine.execFirmwareStart slab findings s
  | .firmwareServing slab => Sys2Proof.Machine.execFirmwareServing slab s
  | .watchdogExpiry slab => Sys2Proof.Machine.execWatchdogExpiry slab s
  | .sramUncorrectable slab preserved => Sys2Proof.Machine.execSramUncorrectable slab preserved s
  | .recoveryMailbox fn m bulk => Sys2Proof.Machine.execRecoveryMailbox fn m bulk s
  | .faultMapCommit slab => Sys2Proof.Machine.execFaultMapCommit slab s
  | .inputRise => Sys2Proof.Machine.execInputRise s
  | .inputUndervoltage => Sys2Proof.Machine.execInputUndervoltage s
  | .inputOvervoltage => Sys2Proof.Machine.execInputOvervoltage s
  | .slabRailLoss slab => Sys2Proof.Machine.execSlabRailLoss slab s
  | .fieldFuseOpen f => Sys2Proof.Machine.execFieldFuseOpen f s
  | .fieldStageStart slab failed => Sys2Proof.Machine.execFieldStageStart slab failed s
  | .thermalSample slab readings => Sys2Proof.Machine.execThermalSample slab readings s
  | .fieldCriticalTimeout f => Sys2Proof.Machine.execFieldCriticalTimeout f s
  | .thermalTrip slab sensor => Sys2Proof.Machine.execThermalTrip slab sensor s
  | .smbusBlockRead slab code => Sys2Proof.Machine.execSmbusBlockRead slab code s
  | .smbusRejected slab => Sys2Proof.Machine.execSmbusRejected slab s
  | .sidebandRefresh slab => Sys2Proof.Machine.execSidebandRefresh slab s
  | .cableSeat slab port => Sys2Proof.Machine.execCableSeat slab port s
  | .cableRemove slab port => Sys2Proof.Machine.execCableRemove slab port s
  | .pcieLinkRetrained => Sys2Proof.Machine.execPcieLinkRetrained s
  | .hostPageWrite fn vpn data => Sys2Proof.Machine.execHostPageWrite fn vpn data s

end Sys2Proof.Machine
end

