-- ==== Sys2Proof/Safety.lean ====
section
/-! DEFINITION. The conditions that claims are stated under: when a tile runs, when an instruction may issue, what an
issue leaves alone, and the invariants of the module. -/

namespace Sys2Proof.Machine

open Sys2Proof

/-! ## Tiles -/

/-- The clocks of the tile's slab run, its field has power and it is in use. -/
def State.live (s : State) (t : TileId) : Bool :=
  (s.slab t.slab).ready && !((s.slab t.slab).field (tileField t)).clamped
    && (alookup (t.x.val, t.y.val) (s.slab t.slab).tiles).isSome

/-- The instruction `w` of opcode `op` is at the program counter of sequencer `q`, which may issue it now. -/
def Tile.canIssue (t : Tile) (op : Nat) (q : SeqId) (now : Nat) (w : IWord) : Bool :=
  t.atIssue q now w && decide (opOf w = op) && !(t.seq q).fetchLocked && classAllowed q (opClass op)

/-- Sequencer `q` of the tile in use `t` may issue the word `w`, of opcode `op`, in the present cycle. -/
def State.issuable (s : State) (t : TileId) (q : SeqId) (op : Nat) (w : IWord) : Bool :=
  s.live t && (s.tile t).canIssue op q (s.cycle t.slab) w

/-- Sequencer `q` of tile `t`. -/
def State.seqAt (s : State) (t : TileId) (q : SeqId) : Sequencer := (s.tile t).seq q

/-- Cycles for which the instruction about to issue was stalled. -/
def State.stalled (s : State) (t : TileId) (q : SeqId) : Nat := (s.seqAt t q).stallCycles (s.cycle t.slab)

/-- Sequencer `q` of tile `t` with the stall at which it stands counted as slips (R116). -/
def State.settledSeq (s : State) (t : TileId) (q : SeqId) : Sequencer :=
  (s.seqAt t q).settleSlip (s.tile t).localStart (s.cycle t.slab)

/-- `s` after sequencer `q` of tile `t` has issued `w` and stands as `x`: OPCODE is that of `w`, the stalled cycles are in
SLIP and ISSUE_STALLS (R116, R119, R120), and nothing else of the module has changed. -/
def State.issued (s : State) (t : TileId) (q : SeqId) (w : IWord) (x : Sequencer) : State :=
  s.modTile t (fun a =>
    ({ a with counters := Counters.bump a.counters Ctr.ISSUE_STALLS (s.stalled t q) } : Tile).setSeq q
      { x with issued := true, lastOp := BitVec.ofNat 8 (opOf w), slip := (s.settledSeq t q).slip, spans := (s.settledSeq t q).spans })

/-- The sequencer after an issue at a cost of 1 cycle: the next word follows. -/
def State.nextWord (s : State) (t : TileId) (q : SeqId) : Sequencer :=
  { s.seqAt t q with state := .issuing, pc := (s.seqAt t q).pc + 1, nextIssue := s.cycle t.slab + 1 }

/-- The errors of an engine that meets none. -/
def noErrors : EngineErrors := { rows := [], parity := false }

/-! ## The supply -/

/-- The converters run from a good input alone, and none runs while THERMTRIP_N is low (R454, R459, R463). -/
def State.SupplyInv (s : State) : Prop :=
  (s.shared.converters = true → s.shared.inputGood = true) ∧ (s.shared.thermtripN = false → s.shared.converters = false)

/-! ## Mailboxes -/

/-- The firmware takes up mailbox `m` of function `fn` next, its request is `r`, names the opcode `op`, and nothing turns
it away (R394 to R398): the command runs. -/
structure State.Runs (s : State) (fn : SlabId) (m : Fin 4) (op : Nat) (r : Request) : Prop where
  taken : s.takesUp fn m = true
  request : ((s.func fn).mailbox m).take = r
  opcode : r.opcode = op
  allowed : s.refusal fn m r = none

/-- The function, mailbox, opcode and choice of a command that the firmware takes up from a mailbox; none for every other
command. -/
def mailboxRow : Instr → Option (SlabId × Fin 4 × Nat × (Request → Bool))
  | .identify fn m => some (fn, m, 0x01, anyRequest)
  | .getStatus fn m => some (fn, m, 0x02, anyRequest)
  | .loadImage fn m _ => some (fn, m, 0x10, fun r => !r.unload)
  | .loadImageUnload fn m => some (fn, m, 0x10, fun r => r.unload)
  | .verifyImage fn m _ => some (fn, m, 0x11, anyRequest)
  | .mapObject fn m _ => some (fn, m, 0x20, anyRequest)
  | .unmapObject fn m => some (fn, m, 0x21, anyRequest)
  | .placeHint fn m => some (fn, m, 0x22, anyRequest)
  | .jobStart fn m => some (fn, m, 0x30, anyRequest)
  | .jobPause fn m => some (fn, m, 0x31, anyRequest)
  | .jobResume fn m => some (fn, m, 0x32, anyRequest)
  | .jobStop fn m => some (fn, m, 0x33, fun r => !r.force)
  | .jobStopForce fn m => some (fn, m, 0x33, fun r => r.force)
  | .stepControl fn m => some (fn, m, 0x34, anyRequest)
  | .ledgerRead fn m => some (fn, m, 0x40, anyRequest)
  | .faultLogRead fn m => some (fn, m, 0x41, anyRequest)
  | .countersRead fn m => some (fn, m, 0x42, anyRequest)
  | .countersClear fn m => some (fn, m, 0x43, anyRequest)
  | .telemetry fn m => some (fn, m, 0x50, anyRequest)
  | .selfTest fn m => some (fn, m, 0x60, anyRequest)
  | .calibrate fn m => some (fn, m, 0x61, anyRequest)
  | .fwBegin fn m => some (fn, m, 0x70, anyRequest)
  | .fwChunk fn m _ => some (fn, m, 0x71, anyRequest)
  | .fwCommit fn m => some (fn, m, 0x72, anyRequest)
  | .attest fn m => some (fn, m, 0x80, anyRequest)
  | .getCert fn m => some (fn, m, 0x81, anyRequest)
  | .setMode fn m => some (fn, m, 0x90, anyRequest)
  | .exportConfig fn m => some (fn, m, 0xA0, anyRequest)
  | .linkConfigEndpoint fn m => some (fn, m, 0xB0, fun r => decide (r.op = 0) || decide (6 < r.op))
  | .linkConfigPort fn m => some (fn, m, 0xB0, fun r => decide (r.op = 1))
  | .linkConfigRoutes fn m _ => some (fn, m, 0xB0, fun r => decide (r.op = 2))
  | .linkConfigGroup fn m _ => some (fn, m, 0xB0, fun r => decide (r.op = 3))
  | .linkConfigMcastTx fn m _ => some (fn, m, 0xB0, fun r => decide (r.op = 4))
  | .linkConfigMcastRx fn m => some (fn, m, 0xB0, fun r => decide (r.op = 5))
  | .linkConfigTimers fn m => some (fn, m, 0xB0, fun r => decide (r.op = 6))
  | .feedConfigBind fn m => some (fn, m, 0xC0, fun r => decide (r.arg 3 1 = 0))
  | .feedConfigClose fn m => some (fn, m, 0xC0, fun r => decide (r.arg 3 1 ≠ 0))
  | _ => none

end Sys2Proof.Machine
end

