-- ==== Sys2Proof/Certificates/Slice0/Obligations.lean ====
section
/-! DEFINITION. The statements for the provers, in the order of OBLIGATIONS.json. -/

open Sys2Proof Sys2Proof.Machine

/-! ## Frames that a port takes -/

/-- R307, R309, R310, R312: the frame is the next in order at a port whose link is up: its codewords are good or corrected, it is of the
type, and its LSEQ follows the last one taken. -/
def Claims.inOrder (s : State) (i : SlabId) (p : Fin 16) (f : ZFrame) (type : Nat) : Prop :=
  (s.slab i).ready = true ∧ ((s.slab i).port p.val).up = true ∧ (f.check = .clean ∨ f.check = .corrected)
    ∧ zType f.header = type ∧ 0 < type ∧ type < 6 ∧ (zLseq f.header - ((s.slab i).port p.val).rxSeq).toNat = 1

/-- The frame is the next in order and is addressed to this slab's endpoint. -/
def Claims.forThis (s : State) (i : SlabId) (p : Fin 16) (f : ZFrame) (type : Nat) : Prop :=
  Claims.inOrder s i p f type ∧ zDest f.header = (s.slab i).links.endpoint

/-- The frame is the next in order, addressed to this slab's endpoint, and a CTRL frame of an operation. -/
def Claims.ctrl (s : State) (i : SlabId) (p : Fin 16) (f : ZFrame) (op : Nat) : Prop :=
  Claims.forThis s i p f 5 ∧ zOp f.header = op

/-- The module after the link layer took a frame: what its header says of the sending side is heard, its codeword is counted, its LSEQ
is the last one taken, and its channel is owed a credit. -/
def Claims.taken (s : State) (i : SlabId) (p : Fin 16) (f : ZFrame) : State :=
  s.modSlab i (fun sl => sl.modPort p.val (fun x =>
    let y := (x.codeword f).heard sl.clocks.cycle f.header
    { y with rxSeq := zLseq f.header, rq := false, owed := bumpAt y.owed (zVc f.header) 1 }))

/-! ## Control and belay instructions (chapter 4) -/

/-- R97: a sequencer that may issue NOP, WAITC, WAITUNTIL or WAITARR issues it, waits as the instruction says, and nothing
else of the module changes. -/
def Claims.WaitsHoldOnlyTheirSequencer : Prop :=
  ∀ (s : State) (t : TileId) (q : SeqId) (w : IWord),
    let now := s.cycle t.slab
    let sq := s.seqAt t q
    (s.issuable t q 0x00 w → exec (.nop t q w) s = .next (s.issued t q w (s.nextWord t q)))
    ∧ (s.issuable t q 0x01 w →
        exec (.waitc t q w) s = .next (s.issued t q w
          { sq with pc := sq.pc + 1, state := .waitCycle (now + (ctlImm w).toNat), nextIssue := now + (ctlImm w).toNat }))
    ∧ (s.issuable t q 0x02 w →
        exec (.waituntil t q w) s = .next (s.issued t q w
          (let c := max (now + 1) ((s.tile t).localStart + (ctlImm w + sq.reg now (ctlSD w)).toNat)
           { sq with pc := sq.pc + 1, state := .waitCycle c, nextIssue := c })))
    ∧ (s.issuable t q 0x03 w → opOf (sq.word (sq.pc + 1)) ≠ 0x02 →
        exec (.waitarr t q w) s = .next (s.issued t q w
          { sq with pc := sq.pc + 1, nextIssue := now + 1
                    state := .waitArr (BitVec.ofNat 4 (ctlSA2 w)) (ctlImm w + sq.reg now (ctlSD w)) none now }))
    ∧ (s.issuable t q 0x03 w → opOf (sq.word (sq.pc + 1)) = 0x02 → ctlSD (sq.word (sq.pc + 1)) = ctlSD w →
        exec (.waitarr t q w) s = .next (s.issued t q w
          { sq with pc := sq.pc + 2, nextIssue := now + 1
                    state := .waitArr (BitVec.ofNat 4 (ctlSA2 w)) (ctlImm w + sq.reg now (ctlSD w))
                      (some (ctlImm (sq.word (sq.pc + 1)) + sq.reg now (ctlSD w))) now }))

/-- R97, R116: a wait ends at its cycle or, for WAITARR, when its arrival counter has reached the value; the cycles past the
scheduled one of a pair are slips, each cycle counted once. -/
def Claims.WaitEndsAtItsCycleOrArrivalCount : Prop :=
  ∀ (s : State) (t : TileId) (q : SeqId), s.live t = true →
    let now := s.cycle t.slab
    let sq := s.seqAt t q
    (∀ c : Nat, sq.state = .waitCycle c → c ≤ now →
      exec (.waitEnd t q) s = .next (s.modTile t (fun a => a.setSeq q { sq with state := .issuing })))
    ∧ (∀ (ctr : BitVec 4) (v : Word) (since : Nat), sq.state = .waitArr ctr v none since → since < now →
        v.toNat ≤ ((s.tile t).ac.get ctr.toNat).toNat →
        exec (.waitEnd t q) s = .next (s.modTile t (fun a => a.setSeq q { sq with state := .issuing, nextIssue := now })))
    ∧ (∀ (ctr : BitVec 4) (v c : Word) (since : Nat), sq.state = .waitArr ctr v (some c) since → since < now →
        v.toNat ≤ ((s.tile t).ac.get ctr.toNat).toNat →
        let late := sq.slipSpan (max (since + 1) ((s.tile t).localStart + c.toNat)) now
        exec (.waitEnd t q) s = .next (s.modTile t (fun a => a.setSeq q { late with state := .issuing, nextIssue := now })))
    ∧ (∀ a b : Nat, sq.spans = [] → a < b →
        (sq.slipSpan a b).slip = addSat16 sq.slip (b - a) ∧ (sq.slipSpan a b).spans = [(a, b)])

/-- R93, R97: SETI and ADDI write one scalar register of their own sequencer, writes to s0 are ignored, the sum wraps at 32
bits, and nothing else of the module changes. -/
def Claims.ScalarWritesReachOneRegister : Prop :=
  ∀ (s : State) (t : TileId) (q : SeqId) (w : IWord),
    let now := s.cycle t.slab
    let sq := s.seqAt t q
    let writes (c : Instr) (v : Word) : Prop :=
      ∃ (rs : RegMap) (late : Option LateWrite),
        exec c s = .next (s.issued t q w { s.nextWord t q with regs := rs, late := late })
        ∧ ∀ r : Nat, ({ sq with regs := rs, late := late } : Sequencer).reg now r
            = if r = 0 then 0 else if r = ctlSD w then v else sq.reg now r
    (s.issuable t q 0x04 w → writes (.seti t q w) (ctlImm w))
    ∧ (s.issuable t q 0x05 w → writes (.addi t q w) (sq.reg now (ctlSA2 w) + ctlImm w))

/-- R97: JMP goes to its target at a cost of 2; BNZD decrements its register and goes to its target when the result is not
0, and to the next word when it is; a register s0 stays 0 and is taken as 0 - 1. Nothing else of the module changes. -/
def Claims.BranchesGoToTheirTarget : Prop :=
  ∀ (s : State) (t : TileId) (q : SeqId) (w : IWord),
    let now := s.cycle t.slab
    let sq := s.seqAt t q
    (s.issuable t q 0x08 w →
      exec (.jmp t q w) s = .next (s.issued t q w
        { sq with state := .issuing, pc := ctlTarget w, nextIssue := now + 2 }))
    ∧ (s.issuable t q 0x09 w →
        let v := sq.reg now (ctlSD w) - 1
        ∃ (rs : RegMap) (late : Option LateWrite),
          exec (.bnzd t q w) s = .next (s.issued t q w
            { sq with state := .issuing, regs := rs, late := late
                      pc := if v = 0 then sq.pc + 1 else ctlTarget w, nextIssue := now + if v = 0 then 1 else 2 })
          ∧ ∀ r : Nat, ({ sq with regs := rs, late := late } : Sequencer).reg now r
              = if r = 0 then 0 else if r = ctlSD w then v else sq.reg now r)

/-- R99: an IFILL whose target store fills no half and runs in the other half locks its half and begins; otherwise the
service sequencer stalls, and IFILL_BEGIN begins it once it may; it reads one row in each stream slot of its banks, and the
words of its 512 rows, four each, then stand in the half, which is unlocked. -/
def Claims.IfillLocksCopiesAndUnlocks : Prop :=
  ∀ (s : State) (t : TileId) (w : IWord) (x : SeqId), fillSeq w = some x →
    let now := s.cycle t.slab
    let tl := s.tile t
    let begun (s' : State) : Prop :=
      s' = (s.issued t .svc w (s.nextWord t .svc)).modTile t (fun a =>
        { a.modSeq x (fun sq => { sq with locked := some (fillHalf w) }) with
          fills := a.fills ++ [{ target := x, half := fillHalf w, row := fillRow w, begun := now
                                 next := slotFrom (fillRow w) 2 (now + 1), rows := [] }] })
    (s.issuable t .svc 0x0C w →
      if (∀ f ∈ tl.fills, f.target ≠ x) ∧ halfOf (tl.seq x).pc ≠ fillHalf w then
        ∃ s', exec (.ifill t .svc w) s = .next s' ∧ begun s'
      else exec (.ifill t .svc w) s = .next (s.modTile t (fun a => a.stall .svc now 4)))
    ∧ (s.live t = true → tl.svc.state = .stalled 4 → tl.svc.word tl.svc.pc = w → opOf w = 0x0C →
        (∀ f ∈ tl.fills, f.target ≠ x) → halfOf (tl.seq x).pc ≠ fillHalf w →
        ∃ s', exec (.ifillBegin t) s = .next s' ∧ begun s')
    ∧ (∀ (a : Tile) (f : Fill) (c : Nat), a.fills = [f] → a.port.moves = [] → f.rows.length < 512 →
        (a.moveFills (isPortal t) c).fills = [if f.next = c then
          { f with next := c + 1, rows := f.rows ++ [a.engRow (isPortal t) (f.row + f.rows.length)] } else f])
    ∧ (∀ f : Fill, s.live t = true → f.target = x → tl.fills = [f] → f.rows.length = 512 → f.next ≤ now → f.row + 512 ≤ spRows →
        (∀ i : Nat, i < 24 → tl.powered.getLsbD i = true) →
        exec (.ifillDone t x []) s = .next (s.modTile t (fun a =>
          ({ a with fills := [] } : Tile).modSeq x (fun sq =>
            { sq with locked := none, store := storeWords sq.store (if f.half then 2048 else 0) (f.rows.flatMap rowWords) }))))

/-- R39, R44, R100: a BELAY stops its sequencer; when every sequencer the channel names stands in it and all their work is done
the tile's arrival leaves with the stalls in progress counted, a tick arrival with its late acknowledgements too, to be seen within
the arrival bound; a release that has reached the tile lets the sequencers in
the belay issue from the cycle after. -/
def Claims.BelayHoldsUntilRelease : Prop :=
  ∀ (s : State) (t : TileId) (q : SeqId) (w : IWord) (ch : Fin 64), s.live t = true →
    let now := s.cycle t.slab
    (s.issuable t q 0x10 w → exec (.belay t q w) s = .next (s.issued t q w
      { s.nextWord t q with state := .inBelay (belayChannel w) }))
    ∧ (s.belayReady t ch = true → ∃ d : Nat, d ≤ s.arrivalMax t.slab ch.val ∧
        exec (.belayArrival t ch) s = .next (({ s with free := s.free + 1 } : State).modTile t (fun a =>
          let b := a.settleSlips now
          { (if ch.val = 0 then b.lateAcks (s.workBudget t.slab) else b) with arrivals := b.arrivals ++ [{ ch := ch, seenAt := now + d }] })))
    ∧ (∀ at_ : Nat, (s.tile t).released = [{ ch := ch, seenAt := at_ }] → at_ ≤ now →
        exec (.belayResume t ch) s = .next (s.modTile t (fun a =>
          ({ a with released := [] } : Tile).mapSeqs (fun sq =>
            if sq.state = .inBelay ch then { sq with state := .issuing, nextIssue := at_ + 1 } else sq))))

/-- R92, R95, R347: a word of a class its sequencer may not issue is a NOP that sets OPND_FAULT and counts one operand fault; a
word read with two or more wrong bits, or one of a reserved opcode, is an uncorrectable error (0x02) of the tile. -/
def Claims.WrongWordsFault : Prop :=
  ∀ (s : State) (t : TileId) (q : SeqId) (w : IWord), s.live t = true →
    ((s.tile t).atIssue q (s.cycle t.slab) w = true → opClass (opOf w) ≠ .reserved →
      classAllowed q (opClass (opOf w)) = false → (s.seqAt t q).fetchLocked = false →
      exec (.wrongClassDecode t q w) s = .next ((s.issued t q w (s.nextWord t q)).modTile t (fun a =>
        { a with flags := a.flags ||| flagOpndFault, flagsNow := a.flagsNow ||| flagOpndFault
                 counters := Counters.bump a.counters Ctr.OPND_FAULTS 1 })))
    ∧ ((s.seqAt t q).ready (s.cycle t.slab) = true →
        (2 ≤ bitErrors w ((s.seqAt t q).word (s.seqAt t q).pc)
          ∨ w = (s.seqAt t q).word (s.seqAt t q).pc ∧ opClass (opOf w) = .reserved) →
        exec (.reservedOpcodeDecode t q w) s = .next (s.tileFault t 0x02))

/-- R22, R347, R363: a tile that fails is recorded as failed in the fault map of its field, and its overlay is lost. Of a tile that
runs an image program the cause is raised at the root; of another the fault is logged with its class and node, and an idle one lends
no more. No other tile, stream or stack changes. -/
def Claims.TileFaultIsRecordedAndRaised : Prop :=
  ∀ (s : State) (t : TileId) (code : Byte),
    let s' := s.tileFault t code
    s.physical t ∈ ((s'.slab t.slab).field (tileField t)).failedTiles
    ∧ (s'.slab t.slab).camp.mapPending = true
    ∧ s'.tile t = { s.tile t with overlay := [], lending := (s.tile t).lending && s.active t }
    ∧ (∀ u : TileId, u ≠ t → s'.tile u = s.tile u)
    ∧ (∀ i : SlabId, (s'.slab i).streams = (s.slab i).streams ∧ (s'.slab i).stackList = (s.slab i).stackList
        ∧ ∃ d : List (Nat × Nat × Nat), (s'.slab i).mem = { (s.slab i).mem with dropping := d })
    ∧ (s.participates t = true → s'.hostMem = s.hostMem
        ∧ ∃ c ∈ (s'.root t.slab).causes, c.code = code ∧ c.slab = t.slab ∧ c.tile = some (s.physical t))
    ∧ (s.participates t = false → (s'.root t.slab).causes = (s.root t.slab).causes
        ∧ ∃ e ∈ (s'.slab t.slab).camp.faultLog, e.cls = code ∧ e.node = tileNode s.shared.mode t
            ∧ e.tileFlags = (s.tile t).flags ∧ e.spError = (s.tile t).spError)

/-! ## Matrix engine (chapter 4) -/

/-- R101, R102, R105: MDESC writes one descriptor of its own sequencer; MMA, MLOAD and MSTORE enter the engine's queue of 4, in
issue order, with the descriptors and register values of their issue, and stall with cause 1 at a full queue, the forward
sequencer also where the backward one takes the last entry in the same cycle. -/
def Claims.MatrixInstructionsCaptureAndQueue : Prop :=
  ∀ (s : State) (t : TileId) (q : SeqId) (w : IWord),
    let now := s.cycle t.slab
    let sq := s.seqAt t q
    let e : MatrixEntry :=
      { seq := q, word := w, issued := now, order := issueOrder q now
        descA := agetD Desc.zero (mmaDescA w) sq.descs, descB := agetD Desc.zero (mmaDescB w) sq.descs
        i0A := if opOf w = 0x40 then sq.reg now (agetD Desc.zero (mmaDescA w) sq.descs).idx.toNat
          else sq.reg now (mmoveIdx w)
        i0B := sq.reg now (agetD Desc.zero (mmaDescB w) sq.descs).idx.toNat
        k0 := sq.reg now (mmaKidx w) }
    (s.issuable t q 0x48 w →
      exec (.mdesc t q w) s = .next (s.issued t q w
        { s.nextWord t q with descs := aset (mdescIndex w) (mdescValue w) sq.descs }))
    ∧ ∀ p ∈ [((.mma t q w : Instr), 0x40), (.mload t q w, 0x41), (.mstore t q w, 0x42)], s.issuable t q p.2 w →
        exec p.1 s = .next (if (s.tile t).queueFull q now (s.tile t).matrix.queue.length 4 entersMatrix then s.modTile t (fun a => a.stall q now 1)
          else (s.issued t q w (s.nextWord t q)).modTile t (fun a =>
            { a with matrix := { a.matrix with queue := insertMatrix e a.matrix.queue } }))

/-- The waits of a sequencer: what they hold, and when they end.
Model's choices: log 13, 20. -/
def Obligations.WaitsEndAtTheirCycleOrCount : Prop := Claims.WaitsHoldOnlyTheirSequencer ∧ Claims.WaitEndsAtItsCycleOrArrivalCount

/-- Scalar arithmetic and the order of words.
Model's choices: log 13. -/
def Obligations.ScalarAndBranchInstructions : Prop := Claims.ScalarWritesReachOneRegister ∧ Claims.BranchesGoToTheirTarget

/-- IFILL and the belay instructions.
Model's choices: log 13, 21, 49. -/
def Obligations.IfillAndBelayHoldTheirSequencer : Prop := Claims.IfillLocksCopiesAndUnlocks ∧ Claims.BelayHoldsUntilRelease

/-- Wrong words, and the faults of a tile.
Model's choices: log 13, 59. -/
def Obligations.WrongWordsFaultTheirTile : Prop := Claims.WrongWordsFault ∧ Claims.TileFaultIsRecordedAndRaised

/-- R77, R108, R110: an MMA that meets no error leaves in entry [i][j] of its bank, i below ROWS and j below COLS, the products of
row i and column j accumulated in ascending k onto the entry, or onto 0 with INIT, and every other entry as it was, or 0 with
INIT. It leaves the queue, occupies the engine for its duration and the free pause, within its bound, for rows that miss their
slots, and drains 10 cycles later; the other bank, the scratchpad and everything else of the module stay.
Model's choices: log 12, 14. -/
def Obligations.MmaAccumulatesItsEntries : Prop :=
  ∀ (s : State) (t : TileId) (e : MatrixEntry), s.live t = true → opOf e.word = 0x40 →
    let now := s.cycle t.slab
    let p := isPortal t
    let a := s.tile t
    let w := e.word
    let start := if mmaInit w then RegMap.zero else a.matrix.bank (mmaBank w)
    let row (i : Nat) : List Fp := (List.range (mmaK w)).map (fun k => e.opA.elem a p i k)
    let col (j : Nat) : List Fp := (List.range (mmaK w)).map (fun k => e.opB.elem a p j k)
    a.matrixHead now = some e →
    ∃ (d : Nat) (b : Tile), d ≤ e.missBound p
      ∧ exec (.matrixBegin t noErrors) s = .next (({ s with free := s.free + 1 } : State).modTile t (fun _ => b))
      ∧ (∀ i j : Nat, i < mmaRows w → j < mmaCols w →
          (b.matrix.bank (mmaBank w)).get (32 * i + j)
            = (accumulate (mmaFmtA w) (mmaFmtB w) (start.get (32 * i + j)) ((row i).zip (col j))).1)
      ∧ (∀ n : Nat, (∀ i j : Nat, i < mmaRows w → j < mmaCols w → n ≠ 32 * i + j) →
          (b.matrix.bank (mmaBank w)).get n = start.get n)
      ∧ b.matrix.bank (!mmaBank w) = a.matrix.bank (!mmaBank w)
      ∧ b.matrix.queue = a.matrix.queue.drop 1 ∧ b.matrix.freeAt = now + e.duration + d
      ∧ b.matrix.undrained = a.matrix.undrained ++ [(mmaBank w, now + e.duration + d + 10)]
      ∧ b = { a with matrix := b.matrix, flags := b.flags, flagsNow := b.flagsNow, counters := b.counters
                     fwd := b.fwd, bwd := b.bwd, svc := b.svc }
      ∧ (∀ q : SeqId, q ≠ e.seq → b.seq q = a.seq q)
      ∧ b.seq e.seq = { (a.seq e.seq).slipSpan now (now + d) with doneAt := max (a.seq e.seq).doneAt (now + e.duration + d + 10) }

/-- R109, R112: MLOAD reads the 1,024 entries of its bank from 64 rows; MSTORE writes its bank to 64 rows, 16 entries a row,
and no other byte of the scratchpad; MATRIX_DRAIN takes away the oldest bank whose drain cycle has come.
Model's choices: log 12, 14, 23. -/
def Obligations.BanksLoadStoreAndDrain : Prop :=
  ∀ (s : State) (t : TileId), s.live t = true →
    let now := s.cycle t.slab
    let p := isPortal t
    let a := s.tile t
    (∀ e : MatrixEntry, a.matrixHead now = some e → opOf e.word = 0x41 →
      ∃ b : Tile, exec (.matrixBegin t noErrors) s = .next (({ s with free := s.free + 1 } : State).modTile t (fun _ => b))
        ∧ (∀ n : Nat, n < 1024 → (b.matrix.bank (mmoveBank e.word)).get n
            = BitVec.ofNat 32 (leNat ((List.range 4).map (fun j =>
                a.engByte p (64 * addIdx (mmoveBase e.word) e.i0A + 4 * n + j)))))
        ∧ b.matrix.bank (!mmoveBank e.word) = a.matrix.bank (!mmoveBank e.word)
        ∧ b.matrix.undrained = a.matrix.undrained ++ [(mmoveBank e.word, now + 74)]
        ∧ b = { a with matrix := b.matrix, flags := b.flags, flagsNow := b.flagsNow, counters := b.counters
                       fwd := b.fwd, bwd := b.bwd, svc := b.svc })
    ∧ (∀ e : MatrixEntry, a.matrixHead now = some e → opOf e.word = 0x42 →
        let row := addIdx (mmoveBase e.word) e.i0A
        let holds (x : Nat) : Prop := x / 64 < spRows ∧ a.rowPowered p (x / 64) = true
        ∃ b : Tile, exec (.matrixBegin t noErrors) s = .next (({ s with free := s.free + 1 } : State).modTile t (fun _ => b))
          ∧ (∀ x : Nat, (64 * row ≤ x ∧ x < 64 * row + 4096) ∧ holds x →
              Cells.read b.scratch x = BitVec.ofNat 8
                (((a.matrix.bank (mmoveBank e.word)).get ((x - 64 * row) / 4)).toNat / 256 ^ ((x - 64 * row) % 4)))
          ∧ (∀ x : Nat, ¬((64 * row ≤ x ∧ x < 64 * row + 4096) ∧ holds x) → Cells.read b.scratch x = Cells.read a.scratch x)
          ∧ b.matrix = { a.matrix with queue := a.matrix.queue.drop 1, freeAt := now + 64 }
          ∧ b = { a with matrix := b.matrix, scratch := b.scratch, rewrites := b.rewrites, flags := b.flags, flagsNow := b.flagsNow
                         counters := b.counters, fwd := b.fwd, bwd := b.bwd, svc := b.svc })
    ∧ (∀ (x : Bool) (c : Nat) (rest : List (Bool × Nat)), a.matrix.undrained = (x, c) :: rest → c ≤ now →
        exec (.matrixDrain t) s = .next (s.modTile t (fun a => { a with matrix := { a.matrix with undrained := rest } })))

/-! ## Vector engine (chapter 5) -/

/-- The vector instructions with their opcodes. -/
def vectorInstructions (t : TileId) (q : SeqId) (w : IWord) : List (Instr × Nat) :=
  [(.vacc t q w, 0x80), (.vadd t q w, 0x84), (.vsub t q w, 0x85), (.vmul t q w, 0x86), (.vfma t q w, 0x87),
   (.vmax t q w, 0x88), (.vmin t q w, 0x89), (.vcvt t q w, 0x8A), (.vexp t q w, 0x98), (.vrcp t q w, 0x99),
   (.vrsq t q w, 0x9A), (.vrsum t q w, 0xA0), (.vrmax t q w, 0xA1), (.vrmin t q w, 0xA2), (.vperm t q w, 0xA8),
   (.viota t q w, 0xA9), (.viadd t q w, 0xAA), (.vld t q w, 0xB0), (.vst t q w, 0xB1), (.vgetf t q w, 0xB8),
   (.vclrf t q w, 0xB9)]

/-- R122: each of the 21 vector instructions enters the engine's queue of 8 in issue order with the register values of its
issue, and stalls with cause 2 at a full queue, or where the backward sequencer takes its last entry; nothing else of the module
changes. -/
def Claims.VectorInstructionsQueueInOrder : Prop :=
  ∀ (s : State) (t : TileId) (q : SeqId) (w : IWord),
    let now := s.cycle t.slab
    let sq := s.seqAt t q
    let e : VectorEntry :=
      { seq := q, word := w, issued := now, order := issueOrder q now, sb := sq.reg now (vSB w)
        idx := sq.reg now (vmIdx w), sidx := sq.reg now (vmSidx w) }
    ∀ p ∈ vectorInstructions t q w, s.issuable t q p.2 w →
      exec p.1 s = .next (if (s.tile t).queueFull q now (s.tile t).vector.queue.length 8 entersVector then s.modTile t (fun a => a.stall q now 2)
        else (s.issued t q w (s.nextWord t q)).modTile t (fun a =>
          { a with vector := { a.vector with queue := insertVector e a.vector.queue } }))

/-- R125 to R135: a vector instruction that writes a register and meets no error leaves its results in the elements of D, from
OFF on for VACC and VLD and from 0 on for the others: one element each for the element-wise opcodes and VPERM, one a segment
for the reductions, the rows of the accumulator bank for VACC, the elements of the scratchpad for VLD. Every other element
and the scratchpad stay; with no element present no register changes. The engine is busy for the duration and the free pause, within
its bound, for rows that miss their slots. -/
def Claims.VectorResultsFillTheirRegister : Prop :=
  ∀ (s : State) (t : TileId) (e : VectorEntry), s.live t = true →
    let now := s.cycle t.slab
    let a := s.tile t
    let w := e.word
    let n := a.vectorLength now e
    let op := opOf w
    let results : List Word :=
      if op = 0x80 then (a.matrix.bank (vaccBank w)).getMany (32 * vaccFirst w) (32 * vaccRows w)
      else if n = 0 then []
      else if vElementwise op then (List.range n).map (fun i =>
        (elementOp op (vPrec w) (Rounding.ofField (vRm w)) i e.sb (a.vector.elem (vA w) i)
          (modeElem a.vector (vBmode w) (vB w) i (vSeg w) e.sb) (modeElem a.vector (vCmode w) (vC w) i (vSeg w) 0)).1)
      else if vReduction op then (reduction a.vector e n).map Prod.fst
      else if op = 0xA8 then (permute a.vector e n).map Prod.fst
      else vldWords a (isPortal t) e n
    let off := if op = 0x80 then vaccOff w else if op = 0xB0 then vmOff w else 0
    a.vectorHead now = some e → op ∉ [0xB1, 0xB8, 0xB9] → (op, op) ∈ (vectorInstructions t .fwd w).map (fun p => (p.2, p.2)) →
    ∃ (d : Nat) (b : Tile), d ≤ e.missBound (isPortal t) n
      ∧ exec (.vectorBegin t noErrors) s = .next (({ s with free := s.free + 1 } : State).modTile t (fun _ => b))
      ∧ (∀ (i : Nat) (v : Word), results[i]? = some v → b.vector.regs.get (4096 * vD w + off + i) = v)
      ∧ (∀ k : Nat, (k < 4096 * vD w + off ∨ 4096 * vD w + off + results.length ≤ k) →
          b.vector.regs.get k = a.vector.regs.get k)
      ∧ b.vector.queue = a.vector.queue.drop 1 ∧ b.vector.freeAt = now + e.duration n + d
      ∧ b = { a with vector := b.vector, flags := b.flags, flagsNow := b.flagsNow, counters := b.counters
                     fwd := b.fwd, bwd := b.bwd, svc := b.svc }
      ∧ (∀ q : SeqId, q ≠ e.seq → b.seq q = a.seq q)

/-- R131, R136: VST writes the bytes of its converted elements and scales, VGETF brings the flag word to a register of its
sequencer 2 cycles on, VCLRF clears the flags of its mask, but for those set in the same cycle. No vector register changes. -/
def Claims.VectorStoreAndFlagInstructions : Prop :=
  ∀ (s : State) (t : TileId) (e : VectorEntry), s.live t = true →
    let now := s.cycle t.slab
    let p := isPortal t
    let a := s.tile t
    let w := e.word
    let n := a.vectorLength now e
    a.vectorHead now = some e →
    (opOf w = 0xB1 → 0 < n →
      let c := vstConvert (s.fp8Nan t.slab) a.vector e n
      ∃ b : Tile, exec (.vectorBegin t noErrors) s = .next (({ s with free := s.free + 1 } : State).modTile t (fun _ => b))
        ∧ b.scratch = ((a.putRun p (64 * e.memRow) (packBytes (vmFmt w) c.raws)).putRun p e.memScale c.scales).scratch
        ∧ b.vector.regs = a.vector.regs ∧ b.vector.queue = a.vector.queue.drop 1
        ∧ b = { a with vector := b.vector, scratch := b.scratch, rewrites := b.rewrites, flags := b.flags, flagsNow := b.flagsNow
                       counters := b.counters, fwd := b.fwd, bwd := b.bwd, svc := b.svc })
    ∧ (opOf w = 0xB8 →
        ∃ b : Tile, exec (.vectorBegin t noErrors) s = .next (({ s with free := s.free + 1 } : State).modTile t (fun _ => b))
          ∧ (b.seq e.seq).late = some { reg := BitVec.ofNat 4 (vD w), value := a.flags, at_ := now + 2 }
          ∧ (∀ r : Nat, (b.seq e.seq).reg now r = (a.seq e.seq).reg now r)
          ∧ (∀ q : SeqId, q ≠ e.seq → b.seq q = a.seq q) ∧ b.vector.regs = a.vector.regs
          ∧ b = { a with vector := b.vector, counters := b.counters, fwd := b.fwd, bwd := b.bwd, svc := b.svc })
    ∧ (opOf w = 0xB9 →
        ∃ b : Tile, exec (.vectorBegin t noErrors) s = .next (({ s with free := s.free + 1 } : State).modTile t (fun _ => b))
          ∧ b.flags = (a.flags &&& ~~~(vclrMask w)) ||| a.flagsNow
          ∧ (∀ q : SeqId, q ≠ e.seq → b.seq q = a.seq q) ∧ b.vector.regs = a.vector.regs
          ∧ b = { a with vector := b.vector, flags := b.flags, counters := b.counters, fwd := b.fwd, bwd := b.bwd, svc := b.svc })

/-- The instructions that queue at the matrix and vector engines.
Model's choices: log 13. -/
def Obligations.EnginesCaptureAndQueueInOrder : Prop := Claims.MatrixInstructionsCaptureAndQueue ∧ Claims.VectorInstructionsQueueInOrder

/-- The results of the vector engine.
Model's choices: log 12, 14, 15, 16, 19, 22. -/
def Obligations.VectorResultsAndStores : Prop := Claims.VectorResultsFillTheirRegister ∧ Claims.VectorStoreAndFlagInstructions

/-! ## Service instructions (chapters 9 and 10) -/

/-- R160, R167, R220, R221: a SEND issued with fewer than 64 messages unacknowledged hands one message of its rows to the router and
counts it as unacknowledged; with 64 it stalls with cause 6; one whose destinations lie outside the device is discarded with
OPND_FAULT. -/
def Claims.SendQueuesItsMessage : Prop :=
  ∀ (s : State) (t : TileId) (w : IWord), s.issuable t .svc 0x20 w →
    let now := s.cycle t.slab
    let m := s.shared.mode
    let a := s.tile t
    let sq := s.seqAt t .svc
    let job : SendJob :=
      { word := w, phase := s.tileReleases t % 4, msg := a.router.nextMsg, src := addIdx (sendSrow w) (sq.reg now (sendIdx w))
        drow := addIdx (sendDrow w) (sq.reg now (sendDidx w)), flits := 0, half := none, readAt := now + 1, errs := [] }
    (64 ≤ a.unacked → exec (.send t .svc w []) s = .next (s.modTile t (fun a => a.stall .svc now 6)))
    ∧ (a.unacked < 64 → sendInGrid m w = true →
        ∃ (fl fn : Word) (cs : Counters),
          exec (.send t .svc w []) s = .next ((s.issued t .svc w (s.nextWord t .svc)).modTile t (fun b =>
            { b with unacked := a.unacked + 1, sends := a.sends ++ [job], flags := fl, flagsNow := fn, counters := cs
                     router := { a.router with nextMsg := a.router.nextMsg + 1 } })))
    ∧ (a.unacked < 64 → sendInGrid m w = false →
        ∃ cs : Counters,
          exec (.send t .svc w []) s = .next ((s.issued t .svc w (s.nextWord t .svc)).modTile t (fun b =>
            { b with flags := a.flags ||| flagOpndFault, flagsNow := a.flagsNow ||| flagOpndFault, counters := cs }))
          ∧ Counters.get cs Ctr.OPND_FAULTS = (Counters.get a.counters Ctr.OPND_FAULTS).add 1)

/-- R160, R162, R220: the message being injected reads one row in the router slot of the row's bank; two rows, or the last one
alone, make a flit at the end of the local input, with the header of Table 7.1: LAST on the last flit and ONE where it carries one
row. Nothing else of the tile changes. -/
def Claims.MessagesAreInjectedRowByRow : Prop :=
  ∀ (a : Tile) (p : Bool) (sx sy now : Nat) (j : SendJob) (rest : List SendJob),
    a.sends = j :: rest → j.errs = [] → j.readAt ≤ now → (a.router.input .loc false).length < 8 →
    let w := j.word
    let n := sendRows w
    let row (k : Nat) : Row := a.engRow p (j.src + 2 * j.flits + k)
    let header (last one : Bool) := mkHeader (sendKind w) j.phase last one (sendCtr w)
      (if sendKind w = 2 then 0 else j.drow + 2 * j.flits) (sendX0 w) (sendY0 w)
      (if sendKind w = 2 then sendQueue w * 2 else sendX1 w * 2 ^ 7 + sendY1 w) sx sy
    let flit (last one : Bool) (d : FlitData) : Flit :=
      { header := header last one, data := d, msg := j.msg, reached := now, detours := [], trail := [], heading := none
        col := 0, tagHeld := false }
    let queued (f : Flit) := a.router.setInput .loc false (a.router.input .loc false ++ [f])
    (j.half = none → slotFrom (j.src + 2 * j.flits) 3 now = now → 2 * j.flits + 1 < n →
      a.inject sx sy p now = { a with sends := { j with half := some (row 0), readAt := now + 1 } :: rest })
    ∧ (j.half = none → slotFrom (j.src + 2 * j.flits) 3 now = now → 2 * j.flits + 1 = n →
      a.inject sx sy p now = { a with sends := rest, router := queued (flit true true (BitVec.ofNat 1024 (row 0).toNat)) })
    ∧ (∀ r0 : Row, j.half = some r0 → slotFrom (j.src + 2 * j.flits + 1) 3 now = now →
      let d : FlitData := BitVec.ofNat 1024 (r0.toNat + (row 1).toNat * 2 ^ 512)
      a.inject sx sy p now =
        if n ≤ 2 * j.flits + 2 then { a with sends := rest, router := queued (flit true false d) }
        else { a with sends := { j with flits := j.flits + 1, half := none, readAt := now + 1 } :: rest
                      router := queued (flit false false d) })

/-- R260: OVRD, PUSH, POP, PEEK, DROP and CAIRN enter the overlay port's queue of 8 with the register values of their issue, and
stall with cause 4 at a full queue; nothing else of the module changes. -/
def Claims.PortInstructionsQueue : Prop :=
  ∀ (s : State) (t : TileId) (w : IWord),
    let now := s.cycle t.slab
    let sq := s.seqAt t .svc
    ∀ p ∈ [((.ovrd t .svc w : Instr), 0x24, ovrdIdx w, ovrdDidx w), (.push t .svc w, 0x28, stkIdx w, 0),
        (.pop t .svc w, 0x29, stkIdx w, 0), (.peek t .svc w, 0x2A, stkIdx w, 0), (.drop t .svc w, 0x2B, stkIdx w, 0),
        (.cairn t .svc w, 0x2C, stkIdx w, 0)],
      s.issuable t .svc p.2.1 w →
      exec p.1 s = .next (if 8 ≤ (s.tile t).port.queue.length then s.modTile t (fun a => a.stall .svc now 4)
        else (s.issued t .svc w (s.nextWord t .svc)).modTile t (fun a =>
          { a with port := { a.port with queue := a.port.queue ++
              [{ word := w, issued := now, idx := sq.reg now p.2.2.1, didx := sq.reg now p.2.2.2 }] } }))

/-- R184, R256 to R261: what the overlay port's head does when it meets no error. The pointers of its context move in its first cycle;
its rows follow: PUSH reads each of its rows in the first stream slot of the row's bank and writes it above SP 96 cycles later,
CAIRN writes its row, POP and PEEK fetch rows of the stack, and OVRD of a local frame, for the scratchpad. All but PEEK move SP,
and DROP moves only SP. A push beyond the segment is dropped with OPND_FAULT, and a take that would reach the latest cairn or the
bottom is refused with it. -/
def Claims.OverlayPortMovesRows : Prop :=
  ∀ (s : State) (t : TileId) (e : PortEntry), s.live t = true →
    let now := s.cycle t.slab
    let a := s.tile t
    let w := e.word
    let n := stkRows w
    let c := stkCtx w
    let env := s.stackEnv t.slab c
    let ptr := a.ctx c
    let sp := ctxSP ptr
    let row := addIdx (stkRow w) e.idx
    let off := if opOf w = 0x2A then stkOff w else 0
    let refused (b : Tile) : Prop := b.ctxs = a.ctxs ∧ b.port.moves = a.port.moves ∧ b.flags = a.flags ||| flagOpndFault
    a.portHead now = some e →
    ∃ b : Tile, exec (.overlayPortBegin t [] []) s = .next (({ s with free := s.free + 1 } : State).modTile t (fun _ => b))
      ∧ b = { a with port := b.port, ctxs := b.ctxs, flags := b.flags, flagsNow := b.flagsNow, counters := b.counters }
      ∧ b.port.queue = a.port.queue.drop 1
      ∧ (opOf w = 0x28 → sp + n ≤ 32768 * env.frames →
          b.ctx c = mkCtx (ctxNone ptr) (ctxCP ptr) (sp + n) ∧ b.port.freeAt = now + n
          ∧ b.port.moves = a.port.moves ++ (List.range n).map (fun k =>
              (slotFrom (row + k) 2 (now + k), .take (row + k) (stackRow env.seg sp + k) (now + k + 96) 0)))
      ∧ (opOf w = 0x28 → 32768 * env.frames < sp + n → refused b)
      ∧ (opOf w = 0x29 ∨ opOf w = 0x2A → takeAllowed ptr (sp - off : Int) n = true →
          b.flags = a.flags ∧ b.port.freeAt = now + n
          ∧ b.ctx c = (if opOf w = 0x29 then mkCtx (ctxNone ptr) (ctxCP ptr) (sp - n) else ptr)
          ∧ b.port.moves = a.port.moves ++ (List.range n).map (fun k =>
              (now + 96 + k, .fetch (stackRow env.seg (sp - off - n) + k) (row + k))))
      ∧ (opOf w = 0x29 ∨ opOf w = 0x2A ∨ opOf w = 0x2B → takeAllowed ptr (sp - off : Int) n = false → refused b)
      ∧ (opOf w = 0x2B → takeAllowed ptr (sp : Int) n = true →
          b.flags = a.flags ∧ b.port.moves = a.port.moves ∧ b.ctx c = mkCtx (ctxNone ptr) (ctxCP ptr) (sp - n))
      ∧ (opOf w = 0x2C → stkRemove w = false → sp + 1 ≤ 32768 * env.frames →
          b.flags = a.flags ∧ b.ctx c = mkCtx false sp (sp + 1)
          ∧ b.port.moves = a.port.moves ++ [(now + 96, .store (stackRow env.seg sp)
              (cairnRow (stkLabel w) c (if ctxNone ptr then noCairn else ctxCP ptr) env))])
      ∧ (opOf w = 0x2C → stkRemove w = false → 32768 * env.frames < sp + 1 → refused b)
      ∧ (opOf w = 0x2C → stkRemove w = true →
          let d := a.ovlAhead (stackRow env.seg (ctxCP ptr))
          if ctxNone ptr = false ∧ sp = ctxCP ptr + 1 ∧ bits d 15 0 = stkLabel w then
            b.flags = a.flags ∧ b.ctx c = mkCtx false (ctxCP ptr) (ctxCP ptr)
            ∧ b.port.moves = a.port.moves ++ [(now + 96, .uncairn c (bits d 63 32))]
          else refused b)
      ∧ (opOf w = 0x24 → (a.entry.elim 0 (·.stack)) ≤ ovrdFrame w → addIdx (ovrdFrow w) e.idx + ovrdRows w ≤ 32768 →
          b.ctxs = a.ctxs ∧ b.flags = a.flags ∧ b.port.freeAt = now + ovrdRows w
          ∧ b.port.moves = a.port.moves ++ (List.range (ovrdRows w)).map (fun k =>
              (now + 96 + k, .fetch (ovrdFrame w * 32768 + addIdx (ovrdFrow w) e.idx + k) (addIdx (ovrdDrow w) e.didx + k))))

/-- R257 to R261: what a row of the port does in its cycle. A row taken from the scratchpad is written to the overlay 96 cycles
later, a row fetched from the overlay is written to the scratchpad in the stream slot of its bank, and a removed cairn gives its
predecessor back. A row for the overlay changes its 64 bytes and no other. -/
def Claims.PortRowsArrive : Prop :=
  ∀ (a : Tile) (p : Bool) (now c : Nat), c ≤ now →
    let one (m : PortAct) : Prop := a.port.moves = [(c, m)]
    let idle : Tile := { a with port := { a.port with moves := [] } }
    (∀ row to_ at_ : Nat, one (.take row to_ at_ 0) →
      a.movePort p now = { a with port := { a.port with moves := [(at_, .store to_ (a.engRow p row))] } })
    ∧ (∀ (to_ : Nat) (d : Row), one (.store to_ d) →
        ∃ o : Cells, a.movePort p now = { idle with overlay := o }
          ∧ ∀ x : Nat, Cells.read o x = if 64 * to_ ≤ x ∧ x < 64 * to_ + 64 then ((rowBytes d)[x % 64]?).getD 0
              else Cells.read a.overlay x)
    ∧ (∀ from_ row : Nat, one (.fetch from_ row) →
        a.movePort p now = if slotFrom row 2 now = now then idle.writeRow p row (a.ovlRow from_)
          else { a with port := { a.port with moves := [(slotFrom row 2 now, .deliver row (a.ovlRow from_))] } })
    ∧ (∀ (row : Nat) (d : Row), one (.deliver row d) → a.movePort p now = idle.writeRow p row d)
    ∧ (∀ k prev : Nat, one (.uncairn k prev) →
        let sp := ctxSP (a.ctx k)
        a.movePort p now = idle.setCtx k (if prev = noCairn then mkCtx true 0 sp else mkCtx false prev sp))

/-- SEND, and the instructions of the overlay port.
Model's choices: log 13, 14, 24, 27. -/
def Obligations.MessagesAndPortsMoveData : Prop := Claims.SendQueuesItsMessage ∧ Claims.MessagesAreInjectedRowByRow
  ∧ Claims.PortInstructionsQueue ∧ Claims.OverlayPortMovesRows ∧ Claims.PortRowsArrive

/-! ## Mesh and control network (chapter 7) -/

/-- R163, R168 to R170, R177: the head flit of an input goes to its outputs when all have a credit, no older head contends and no hold
stops the injection: a unicast or portal flit to its one output, a multicast flit to all of its outputs at once, recording one
of 16 combine entries where a LAST flit forks; a LAST flit without a target left is acknowledged. A flit with an uncorrectable word is discarded with those behind it and kept at
the sender; one a hold discards is dropped and counted. -/
def Claims.FlitsLeaveByTheirOutputs : Prop :=
  ∀ (s : State) (t : TileId) (inp : InPort) (vc : Bool) (f : Flit) (rest : List Flit),
    (s.slab t.slab).ready = true → (s.tile t).router.input inp vc = f :: rest →
    (let z := s.clearFails t inp
     let outs := z.flitOuts t f
     f.kind ≠ 1 → z.holdDiscards t f = false → z.mayForward t inp vc f outs = true →
      exec (.meshFlitReceive t inp vc .clean) s
        = .next (outs.foldl (fun s o => s.putFlit t o) ((z.popInput t inp vc).countHop t inp f outs)))
    ∧ ((s.clearFails t inp).holdDiscards t f = true →
        exec (.meshFlitReceive t inp vc .clean) s
          = .next (((s.clearFails t inp).popInput t inp vc).modTile t (fun tl => tl.count Ctr.HOLD_DISCARDS 1)))
    ∧ (∀ (d : Dir) (n : TileId), inp = .mesh d → s.neighbour t d = some n →
        exec (.meshFlitReceive t inp vc .uncorrectable) s
          = .next ((s.modTile t (fun tl =>
              { tl with router := tl.router.setInput inp vc [], counters := Counters.bump tl.counters Ctr.MESH_RETRIES 1 })).modTile n
              (fun tl =>
                let o := tl.router.out (Dir.opposite d)
                let kept := o.pending ++ (f :: rest).map (fun f => (vc, { f with trail := f.trail.drop 1 }))
                { tl with router := tl.router.setOut (Dir.opposite d) { o with pending := kept } })))
    ∧ (let outs := s.flitOuts t f
       f.kind = 1 → s.mayForward t inp vc f outs = true →
        exec (.multicastForward t inp vc) s
          = .next (outs.foldl (fun s o => s.putFlit t o)
              (let z := (s.popInput t inp vc).countHop t inp f outs
               if f.last = true ∧ 1 < outs.length then
                 z.modTile t (fun tl => { tl with router := { tl.router with combine := tl.router.combine ++
                   [{ sx := f.sx, sy := f.sy, msg := f.msg, remaining := outs.length, trail := f.trail }] } })
               else if f.last = true ∧ outs = [] then z.putAck t { sx := f.sx, sy := f.sy, msg := f.msg, trail := f.trail }
               else z)))

/-- R161, R164, R166, R169: an ejected flit is written to its rows in ascending order, its arrival counter rises by its rows, and a
LAST flit is acknowledged along the way it came; a portal flit goes to the stream engine; a flit whose tag is one ahead waits. An
acknowledgement goes one hop back; at its source it ends one message; at a fork it is combined, and the last of them goes on. -/
def Claims.EjectedRowsAreWrittenAndAcknowledged : Prop :=
  ∀ (s : State) (t : TileId), (s.slab t.slab).ready = true →
    (∀ (f : Flit) (rest : List Flit), (s.tile t).router.eject = f :: rest →
      let z := s.modTile t (fun tl =>
        { tl with router := { tl.router with eject := rest }, counters := Counters.bump tl.counters Ctr.MESH_FLITS_RECEIVED 1 })
      (s.tagAhead t f.phase = true → f.tagHeld = true → exec (.meshFlitEject t) s = .next s)
      ∧ (s.tagAhead t f.phase = false → f.kind = 2 →
          exec (.meshFlitEject t) s = .next (z.modTile t (fun tl =>
            { tl with router := { tl.router with portal := tl.router.portal ++ [f] } })))
      ∧ (s.tagAhead t f.phase = false → f.kind ≠ 2 →
          let y := z.modTile t (fun tl => (tl.writeRows (isPortal t) f.row f.rows).addArrival f.ctr f.rows.length)
          exec (.meshFlitEject t) s
            = .next (if f.last then y.putAck t { sx := f.sx, sy := f.sy, msg := f.msg, trail := f.trail } else y)))
    ∧ (∀ a : Ack, (s.tile t).router.acks = [a] →
        let z := s.modTile t (fun tl => { tl with router := { tl.router with acks := [] } })
        (a.trail = [] → alookup a.msg (s.tile t).forwards = none →
          exec (.meshAck ⟨t, .clean⟩) s = .next (z.modTile t (fun tl => { tl with unacked := tl.unacked - 1, ackedAt := s.cycle t.slab })))
        ∧ (∀ (d : Dir) (way : List Dir) (n : TileId), a.trail = d :: way → s.neighbour t d = some n →
            s.ackRoom n { a with trail := way } = true →
            exec (.meshAck ⟨t, .clean⟩) s = .next (z.putAck n { a with trail := way })))
    ∧ (∀ a : Ack,
        ((∀ c ∈ (s.tile t).router.combine, c.takes a = false) →
          s.putAck t a = s.modTile t (fun tl => { tl with router := { tl.router with acks := tl.router.acks ++ [a] } }))
        ∧ (∀ c : Combine, (s.tile t).router.combine = [c] → c.takes a = true → 1 < c.remaining →
            s.putAck t a = s.modTile t (fun tl =>
              { tl with router := { tl.router with combine := [{ c with remaining := c.remaining - 1 }] } }))
        ∧ (∀ c : Combine, (s.tile t).router.combine = [c] → c.takes a = true → c.remaining = 1 →
            s.putAck t a = s.modTile t (fun tl =>
              { tl with router := { tl.router with combine := [], acks := tl.router.acks ++ [a] } })))

/-- R170, R171: a retry sends the discarded flits again, in their order, to the next router; with the 16th retry of a pitch or the
4th failure of one flit the link is marked failed at both ends, and its flits go on from this router by traverse one by one, each when
its next buffer has room. -/
def Claims.RetriesResendOrFailTheLink : Prop :=
  ∀ (s : State) (t n : TileId) (d : Dir), (s.slab t.slab).ready = true →
    s.shared.mode = .split → s.neighbour t d = some n → ((s.tile t).router.out d).pending ≠ [] →
    let o := (s.tile t).router.out d
    let back (e : Bool × Flit) : Bool × Flit := (e.1, { e.2 with trail := Dir.opposite d :: e.2.trail })
    (d ∉ (s.tile t).router.failed → o.retries < 15 → o.flitFails < 3 →
      exec (.meshRetry t d false) s = .next ((s.modRouter t (fun r =>
          r.setOut d { pending := [], retries := o.retries + 1, flitFails := o.flitFails + 1 })).modRouter n
        (fun r => putBack r (.mesh (Dir.opposite d)) (o.pending.map back))))
    ∧ (d ∉ (s.tile t).router.failed → (15 ≤ o.retries ∨ 3 ≤ o.flitFails) →
        exec (.meshRetry t d false) s = .next ((s.modRouter t (fun r =>
          r.setOut d { o with retries := o.retries + 1, flitFails := o.flitFails + 1 })).failLink t d))
    ∧ (∀ (vc : Bool) (f : Flit) (rest : List (Bool × Flit)) (x y : Nat), d ∈ (s.tile t).router.failed → o.pending = (vc, f) :: rest →
        stepDir s.shared.mode d (gx s.shared.mode t) t.y.val = some (x, y) →
        let out := s.hop t f d (if Dir.alongX d then x else y)
        exec (.meshRetry t d false) s = .next (if s.outReady t out then
          (s.modRouter t (fun r => r.setOut d { o with pending := rest })).putFlit t out else s))

/-- R53, R93, R119, R136, R153, R174: a request that reaches its tile is remembered until its response and answered. A register write
writes scalar registers, program counters and context pointers in a hold or before the job's first pitch, and not otherwise; it
clears flags by writing 1 and the error word by bit 63, and keeps read-only registers. A store word and a scratchpad row are written
likewise. A packet with an uncorrectable word is discarded and counted, and one whose phase tag is one ahead is held. -/
def Claims.ControlWritesReachTheirRegister : Prop :=
  ∀ (s : State) (t : TileId) (v : DWord) (tag : Half), s.reachable t = true →
    let kept (p : CtrlPacket) : State := s.modSlab t.slab (fun sl =>
      let request : CtrlReq := { tag := tag, attempts := 1, packet := p, sentAt := s.cycle t.slab }
      { sl with camp := sl.camp.remember request })
    let answered (z : State) : State := z.modSlab t.slab (fun sl =>
      { sl with camp := { sl.camp with ctrlResponses := aset tag (0, z.tileReleases t % 4) sl.camp.ctrlResponses } })
    let discarded (z : State) : State := z.modTile t (fun tl => { tl with counters := Counters.bump tl.counters Ctr.CTRL_DISCARDS 1 })
    let writes (reg : CtrlReg) (g : State → State) : Prop :=
      exec (.ctrlRegisterWrite t reg v ⟨tag, .clean⟩) s = .next (answered (g (kept (.write t reg v))))
    let stores (target : StoreTarget) (g : State → State) : Prop :=
      exec (.ctrlStoreWrite t target ⟨tag, .clean⟩) s = .next (answered (g (kept (.store t target))))
    (∀ (reg : CtrlReg) (target : StoreTarget),
      exec (.ctrlRegisterWrite t reg v ⟨tag, .uncorrectable⟩) s = .next (discarded (kept (.write t reg v)))
        ∧ exec (.ctrlStoreWrite t target ⟨tag, .uncorrectable⟩) s = .next (discarded (kept (.store t target))))
    ∧ (s.tagAhead t (s.campReleases t.slab % 4) = true → ∀ reg : CtrlReg,
        exec (.ctrlRegisterWrite t reg v ⟨tag, .clean⟩) s = .next (((kept (.write t reg v)).ctrlHold t.slab tag (.write t reg v)).modSlab
          t.slab (fun sl => sl.modField (tileField t) (fun fd =>
            { fd with counters := Counters.bump fd.counters Ctr.PHASE_TAG_HOLDS 1 }))))
    ∧ (s.tagAhead t (s.campReleases t.slab % 4) = false →
        writes .tileFlags (fun z => z.modTile t (fun tl => { tl with flags := (tl.flags &&& ~~~(v.truncate 32)) ||| tl.flagsNow }))
        ∧ (v.getLsbD 63 = true → writes .spError (fun z => z.modTile t (fun tl => { tl with spError := 0 })))
        ∧ (v.getLsbD 63 = false → writes .spError id) ∧ writes .lastUse id ∧ (∀ q : SeqId, writes (.status q) id)
        ∧ (s.mayWriteTile t.slab = true →
            (∀ (q : SeqId) (r : Fin 16), writes (.scalar q r) (fun z => z.modTile t (fun tl => tl.setSeq q
              ((tl.seq q).setReg (s.cycle t.slab) r.val (v.truncate 32)))))
            ∧ (∀ q : SeqId, writes (.pc q) (fun z => z.modTile t (fun tl => tl.setSeq q { tl.seq q with pc := v.truncate 12 })))
            ∧ (∀ c : Fin 128, writes (.ctxPointer c) (fun z => z.modTile t (fun tl =>
                { tl with ctxs := aset c.val (mkCtx (ctxNone v) (ctxCP v) (ctxSP v)) tl.ctxs })))
            ∧ (∀ (q : SeqId) (a : BitVec 12) (w : IWord), stores (.store q a w) (fun z => z.modTile t (fun tl => tl.setSeq q
                { tl.seq q with store := storeWords (tl.seq q).store a.toNat [w] }))))
        ∧ (s.mayWriteTile t.slab = false →
            (∀ (q : SeqId) (r : Fin 16), writes (.scalar q r) id) ∧ (∀ q : SeqId, writes (.pc q) id)
            ∧ (∀ c : Fin 128, writes (.ctxPointer c) id)
            ∧ (∀ (q : SeqId) (a : BitVec 12) (w : IWord), stores (.store q a w) id))
        ∧ (∀ (r : Fin 49152) (d : Row), stores (.row r d) (fun z => z.modTile t (fun tl => tl.writeRow (isPortal t) r.val d))))

/-- R173, R174: a read request is remembered by its tag until its response, which brings the register's value as the request found it;
after 131,072 arithmetic cycles without one it is repeated, and after the fourth attempt the tile has an uncorrectable error.
A status report of a unit, or of a tile that is reached, replaces the latest one of its source. -/
def Claims.ControlReadsAnswerRepeatAndGiveUp : Prop :=
  ∀ (s : State) (t : TileId) (reg : CtrlReg) (tag : Half), s.reachable t = true →
    let now := s.cycle t.slab
    let camp := (s.slab t.slab).camp
    let q : CtrlReq := { tag := tag, attempts := 1, packet := .read t reg, sentAt := now }
    ((∀ r ∈ camp.ctrlOutstanding, r.tag ≠ tag) → s.tagAhead t (s.campReleases t.slab % 4) = false →
      ∃ v : DWord, exec (.ctrlRegisterRead t reg tag .clean) s = .next (s.modSlab t.slab (fun sl =>
        { sl with camp := { sl.camp with ctrlOutstanding := camp.ctrlOutstanding ++ [q]
                                         ctrlResponses := aset tag (v, s.tileReleases t % 4) camp.ctrlResponses } }))
      ∧ (reg = .tileFlags → v = (s.tile t).flags.zeroExtend 64) ∧ (reg = .spError → v = (s.tile t).spError)
      ∧ (reg = .lastUse → v = (s.tile t).lastUse) ∧ (∀ x : SeqId, reg = .pc x → v = (s.seqAt t x).pc.zeroExtend 64)
      ∧ (∀ (x : SeqId) (r : Fin 16), reg = .scalar x r → v = ((s.seqAt t x).reg now r.val).zeroExtend 64)
      ∧ (∀ x : SeqId, reg = .status x → v = (s.tile t).statusWord now x)
      ∧ (∀ c : Fin 128, reg = .ctxPointer c → v = (s.tile t).ctx c.val))
    ∧ (∀ (v : DWord) (phase : Nat), camp.ctrlOutstanding = [q] → alookup tag camp.ctrlResponses = some (v, phase) →
        s.campAhead t.slab phase = false →
        exec (.ctrlReadResponse t.slab tag .clean) s = .next (s.modSlab t.slab (fun sl =>
          { sl with camp := { sl.camp with ctrlOutstanding := [], ctrlResponses := aerase tag camp.ctrlResponses
                                           ctrlRead := aset tag v camp.ctrlRead } })))
    ∧ (∀ (n at_ : Nat), camp.ctrlOutstanding = [{ q with attempts := n, sentAt := at_ }] → at_ + 131072 ≤ now →
        (n < 4 → exec (.ctrlRequestTimeout t.slab tag) s = .next (s.modSlab t.slab (fun sl =>
          { sl with camp := { sl.camp with ctrlOutstanding := [{ q with attempts := n + 1, sentAt := now }] } })))
        ∧ (4 ≤ n → exec (.ctrlRequestTimeout t.slab tag) s = .next ((s.modSlab t.slab (fun sl =>
            { sl with camp := { sl.camp with ctrlOutstanding := [] } })).tileFault t 0x02)))
    ∧ (∀ (src : Half) (ws : List DWord),
        (src.getLsbD 15 = true ∨ s.nodeTile t.slab src = some t ∧ s.campAhead t.slab (s.tileReleases t) = false) →
        exec (.ctrlStatusReport t.slab src ⟨ws, .clean⟩) s = .next (s.modSlab t.slab (fun sl =>
          { sl with camp := { sl.camp with reports := aset src (ws.take 255) camp.reports } }))
        ∧ exec (.ctrlStatusReport t.slab src ⟨ws, .uncorrectable⟩) s = .next (s.modTile (s.campPort t.slab) (fun tl =>
          { tl with counters := Counters.bump tl.counters Ctr.CTRL_DISCARDS 1 })))

/-- R28, R31, R53, R180, R252: with a control crossing that works, a message of one base camp reaches the other, unless its phase tag is
one ahead there, and nothing else changes; a gate report carries the commit position of its sender's own units. -/
def Claims.ColMessagesReachThePeer : Prop :=
  ∀ (s : State) (i : SlabId), (s.slab i).ready = true → (s.slab i.other).ready = true → s.shared.colControl = true →
    (s.shared.mode = .split ∨ s.campAhead i.other (s.campReleases i) = false) →
    let peer (g : Camp → Camp) : State := s.modSlab i.other (fun sl => { sl with camp := g sl.camp })
    (∀ m : Mode, exec (.colCoordination i ⟨.modeRecord m, .clean⟩) s = .next (peer (fun c => { c with peerMode := m })))
    ∧ (∀ v : Word, exec (.colCoordination i ⟨.firmwareVersion v, .clean⟩) s = .next (peer (fun c => { c with peerVersion := v })))
    ∧ (∀ v : Int, exec (.colCoordination i ⟨.temperature v, .clean⟩) s = .next (peer (fun c => { c with peerMilliC := v })))
    ∧ (∀ n : DWord, exec (.colCoordination i ⟨.gateReport n, .clean⟩) s
        = .next (peer (fun c => { c with peerGate := (n, s.slabCommitPos i i n) })))
    ∧ (∀ mV mA : Nat, exec (.colCoordination i ⟨.supply mV mA, .clean⟩) s
        = .next { s with shared := { s.shared with supplyMv := mV, supplyMa := mA } })

/-- R200, R201, R221: a lending tile whose stream engine has its clock and that holds fewer than 64 unacknowledged messages serves its
oldest read when the frame still holds the page: its rows leave in one message to the requester, LAST_USE of tile and frame become
the present pitch, and the read is counted. When it does not, the requester sends the same rows of the page's home. -/
def Claims.LendingTileServesReads : Prop :=
  ∀ (s : State) (t : TileId) (r : LoadReq) (rest : List LoadReq),
    (s.slab t.slab).ready = true → bit (s.tile t).gate gateStream = true → (s.tile t).loads = r :: rest →
    let pitch := (s.root t.slab).pitch
    let target : RowTarget := { mcast := r.mcast, ctr := r.ctr, row := r.drow, x0 := r.x0, y0 := r.y0, x1 := r.x1, y1 := r.y1 }
    (s.canLend t = true → s.holdsPage t r = true → (s.tile t).unacked < 64 →
      exec (.streamDescriptorLoad t []) s = .next
        (((s.modTile t (fun x =>
            { x with loads := rest, lastUse := pitch, counters := Counters.bump x.counters Ctr.BIVOUAC_READS 1 })).modSlab t.slab (fun sl =>
              { sl with mem := { sl.mem with residence := sl.mem.residence.map (fun p =>
                  if p.1 = (gx s.shared.mode t, t.y.val, r.frame) then (p.1, p.2.1, pitch) else p) } })).injectRows t target
          ((s.tile t).frameRows (isPortal t) r.frame r.offset r.count) true))
    ∧ (s.canLend t = false ∨ s.holdsPage t r = false →
        let z := s.modTile t (fun x => { x with loads := rest })
        exec (.streamDescriptorLoad t []) s = .next (z.injectRows r.requester target
          (rowsOf (z.readRangeD r.requester.slab (r.vpn * pageBytes + r.offset) (64 * r.count))) true))

/-- The mesh: hops, ejections and retries.
Model's choices: log 12, 25, 26, 56. -/
def Obligations.MeshCarriesFlits : Prop :=
  Claims.FlitsLeaveByTheirOutputs ∧ Claims.EjectedRowsAreWrittenAndAcknowledged ∧ Claims.RetriesResendOrFailTheLink

/-- The control network.
Model's choices: log 34, 35. -/
def Obligations.ControlNetworkReachesRegisters : Prop := Claims.ControlWritesReachTheirRegister ∧ Claims.ControlReadsAnswerRepeatAndGiveUp

/-! ## The pitch, the belay network and holds (chapters 2 and 13) -/

/-- R47: a router's toggle is remembered at the present cycle. With no toggle for 2,048 fabric cycles (4,096 arithmetic cycles) the
tile is declared dead and counted: a spare one goes into the fault map and causes no hold, any other has failed and has a tile
fault with code 0x01. Before that nothing happens, and in a clamped field never.
Model's choices: log 59. -/
def Obligations.HeartbeatsToggleAndDie : Prop :=
  ∀ (s : State) (f : FieldId) (pr pc : Fin 17),
    let sl := s.slab f.slab
    let n := fieldNum f
    sl.ready = true → (sl.field n).powered = true → (pc, pr) ∉ (sl.field n).dead →
    exec (.heartbeatToggle f pr pc) s = .next (s.modSlab f.slab (fun sl =>
        sl.modField n (fun x => { x with toggles := aset (pc, pr) sl.clocks.cycle x.toggles })))
    ∧ (sl.clocks.cycle < sl.lastToggle n (pc, pr) + 4096 → exec (.heartbeatDeath f pr pc) s = .next s)
    ∧ ((sl.field n).clamped = true → exec (.heartbeatDeath f pr pc) s = .next s)
    ∧ ((sl.field n).clamped = false → sl.lastToggle n (pc, pr) + 4096 ≤ sl.clocks.cycle →
        let z := s.modSlab f.slab (fun sl => sl.modField n (fun x =>
          { x with dead := x.dead ++ [(pc, pr)], counters := Counters.bump x.counters Ctr.HEARTBEAT_DEATHS 1 }))
        ((z.slab f.slab).field n).logicalAt n (pc, pr) = (sl.field n).logicalAt n (pc, pr)
        ∧ ((sl.field n).logicalAt n (pc, pr) = none → exec (.heartbeatDeath f pr pc) s = .next (z.spareDeath f.slab n (pc, pr)))
        ∧ (∀ x y : Nat, (sl.field n).logicalAt n (pc, pr) = some (x, y) →
            let t := tileId f.slab x y
            let y' := z.modTile t (fun tl => { tl with failed := true })
            exec (.heartbeatDeath f pr pc) s = .next (y'.tileFault t 0x01)))

/-- R42, R45, R46: with an arrival missing at the check, the pitch stretches by 64 cycles until the stretch limit is used; then the
overrun is a cause when the pitch has no other. With no arrival missing neither happens. -/
def Claims.TickStretchesAndOverruns : Prop :=
  ∀ (s : State) (i : SlabId), s.rootReady i = true →
    let r := s.root i
    r.inHold = false → r.deadline ≤ s.rootCount i →
    (s.tickMissing i r.deadline = false → exec (.tickCheck i) s = .next s ∧ exec (.pitchOverrun i) s = .next s)
    ∧ (s.tickMissing i r.deadline = true → r.deadline < r.length + r.stretchLimit →
        exec (.tickCheck i) s = .next ((s.modRoot i (fun r =>
            { r with deadline := r.deadline + 64, stretched := r.stretched + 64 })).modSlab (s.dev i) (fun sl =>
              let counted := Counters.bump sl.counters Ctr.STRETCH_INCREMENTS 1
              { sl with counters := Counters.bump counted Ctr.STRETCHED_PITCHES (if r.stretched = 0 then 1 else 0) }))
        ∧ exec (.pitchOverrun i) s = .next s)
    ∧ (s.tickMissing i r.deadline = true → r.length + r.stretchLimit ≤ r.deadline →
        exec (.tickCheck i) s = .next s
        ∧ (r.causes = [] → exec (.pitchOverrun i) s = .next (s.modRoot (s.dev i) (fun r =>
            { r with causes := [{ code := 0x05, slab := s.dev i, field := none, tile := none, unit := none
                                  stamp := s.rootStamp (s.dev i) }] })))
        ∧ (r.causes ≠ [] → exec (.pitchOverrun i) s = .next s))

/-- R42, R58, R61, R151, R253, R355: the release that ends a pitch, or a recovered hold, begins the one that is due, whatever its kind,
and each kind's own command issues it when that kind is due and not otherwise; in a maintenance pitch the tiles scrub and base camp
does its task. None is issued before root count L, with an arrival missing, with a cause, or with a park between two steps. -/
def Claims.ReleasesBeginTheDuePitch : Prop :=
  ∀ (s : State) (i : SlabId) (scrub ovl : List (TileId × RowError)),
    let releases (z : State) : Prop :=
      let k := z.nextKind i
      let maint (a b : List (TileId × RowError)) := (((z.beginPitch i .maint).startScrub i a).scrubOverlays i b).maintain i
      exec (.tickRelease i) s = .next (if k = .maint then maint [] [] else z.beginPitch i k)
      ∧ exec (.idlePitch i) s = .next (if k = .idle then z.beginPitch i .idle else s)
      ∧ exec (.gatePitch i) s = .next (if k = .gate then z.beginPitch i .gate else s)
      ∧ exec (.maintenancePitch i ⟨scrub, ovl⟩) s = .next (if k = .maint then maint scrub ovl else s)
    let none_ : Prop :=
      exec (.tickRelease i) s = .next s ∧ exec (.idlePitch i) s = .next s ∧ exec (.gatePitch i) s = .next s
        ∧ exec (.maintenancePitch i ⟨scrub, ovl⟩) s = .next s
    (s.holdOver i = false → s.pitchOver i = false → none_)
    ∧ (s.holdOver i = false → s.pitchOver i = true →
        let z := s.endPitch i
        let boundary := (z.job i).inStep = false
        ((z.root i).causes = [] → (boundary → (z.root i).parks = []) → releases z)
        ∧ ((z.root i).causes ≠ [] ∨ boundary ∧ (z.root i).parks ≠ [] → none_))
    ∧ (s.holdOver i = true → let z := s.modRoot i (fun r => { r with inHold := false, takenOver := false, routersEmpty := false, kind := .none })
        exec (.tickRelease i) s = .next (if z.nextKind i = .maint
          then (((z.beginPitch i .maint).startScrub i []).scrubOverlays i []).maintain i else z.beginPitch i (z.nextKind i)))

/-- R42, R54, R57: whatever release begins a pitch, the root numbers it one higher, sets the belay phase to 0, takes the pitch's
length as its first check and counts from the present cycle; the overrun's stretch limit stays.
Model's choices: log 50. -/
def Obligations.ReleaseStartsTheCount : Prop :=
  ∀ (s : State) (i : SlabId) (k : PitchKind),
    let t := s.beginPitch i k
    (t.root i).pitch = (s.root i).pitch + 1 ∧ (t.root i).phase = 0 ∧ (t.root i).kind = k
      ∧ (t.root i).issued = s.cycle (s.dev i) ∧ (t.root i).length = s.kindLength i k ∧ (t.root i).deadline = s.kindLength i k
      ∧ (t.root i).stretched = 0 ∧ (t.root i).releasedPhases = 0 ∧ (t.root i).inHold = (s.root i).inHold
      ∧ (t.root i).stretchLimit = (s.root i).stretchLimit ∧ (t.root i).causes = (s.root i).causes

/-- R40: when every participant of an image pitch has arrived, a phase belay is released and the belay phase goes up by 1; when
every member of a region has arrived its belay is released and the phase stays. With one missing nothing happens. Where the release
lands within Table 2.2 is a free value. -/
def Claims.BelaysReleaseOnceAllArrived : Prop :=
  ∀ (s : State) (i : SlabId), s.rootReady i = true → (s.root i).inHold = false → (s.root i).kind = .image →
    let there (k : SlabId) (x y ch : Nat) : Prop := s.arrivedBy i k ((x, y), (s.slab k).tile x y) ch (s.rootCount i) = true
    ((∃ k ∈ s.devSlabs i, ∃ p ∈ (s.slab k).participants, s.arrivedBy i k p 1 (s.rootCount i) = false) →
      exec (.phaseBelayRelease i) s = .next s)
    ∧ ((∀ k ∈ s.devSlabs i, ∀ p ∈ (s.slab k).participants, s.arrivedBy i k p 1 (s.rootCount i) = true) →
        (∃ k ∈ s.devSlabs i, (s.slab k).participants ≠ []) →
        exec (.phaseBelayRelease i) s = .next ((s.modRoot i (fun r =>
            { r with phase := r.phase + 1, releases := r.releases + 1, releasedPhases := r.releasedPhases + 1
                     before := (r.pitch, r.phase, r.kind) })).releaseTiles i false
          (fun at_ t => { t with arrivals := t.arrivals.filter (fun a => decide (a.ch ≠ 1)), releasedAt := at_
                                 released := if t.entry.isSome then t.released ++ [{ ch := 1, seenAt := at_ }] else t.released })))
    ∧ (∀ ch : Fin 64, 2 ≤ ch.val →
        ((∃ k ∈ s.devSlabs i, ∃ p ∈ s.regionMembers k ch.val, ¬ there k p.1 p.2 ch.val) →
          exec (.regionBelayRelease i ch) s = .next s)
        ∧ ((∀ k ∈ s.devSlabs i, ∀ p ∈ s.regionMembers k ch.val, there k p.1 p.2 ch.val) →
            (∃ k ∈ s.devSlabs i, s.regionMembers k ch.val ≠ []) →
            let b := if s.regionInField i ch.val then (0, 48) else releaseBounds s.shared.mode
            let z := (s.devSlabs i).foldl (fun z d => ((s.regionMembers d ch.val).zipIdx).foldl (fun z p =>
              z.modSlab d (fun sl => sl.modTile p.1.1 p.1.2 (fun t =>
                { t with arrivals := t.arrivals.filter (fun a => decide (a.ch ≠ ch))
                         released := t.released ++ [{ ch := ch, seenAt := sl.clocks.cycle
                           + (b.1 + Config.freeNat (s.free + p.2) % (b.2 - b.1 + 1)) }] }))) z) s
            ∃ n : Nat, exec (.regionBelayRelease i ch) s = .next { z with free := n }))

/-- R252, R378: base camp's firmware lets the coming step begin once the units have committed the gate's blocks of the step before
it and every feed slot it reads is full, and not before; the ledger record of the step before it notes the gate. -/
def Claims.StepGateOpensWhenItsConditionsHold : Prop :=
  ∀ (s : State) (i : SlabId), (s.slab (s.dev i)).ready = true → (s.slab (s.dev i)).camp.firmware = .running →
    (s.job i).state = .running → ((s.job i).inStep = false ∨ s.stepPitches i ≤ (s.root i).indexInStep) → (s.job i).gateMet = false →
    (s.gateBlocks i = false ∨ s.feedsReady i = false → exec (.stepGateMet i) s = .next s)
    ∧ (s.gateBlocks i = true → s.feedsReady i = true →
        let n := if (s.job i).inStep then (s.job i).step + 1 else (s.job i).step
        let z := s.modJob i (fun j => { j with gateMet := true })
        exec (.stepGateMet i) s
          = .next (if n = 0 then z else z.modLedger i (n - 1) (fun r => { r with phases := r.phases ||| 8 })))

/-- R46, R59, R118, R119, R178, R355: base camp's request records its cause once, a park beside the causes. A cause puts the root into a
hold at once, a park alone only between steps; in the hold every loaded sequencer is held, but for those of a failed tile, which keep
their condition, and every queue is empty. -/
def Claims.CausesEnterAHold : Prop :=
  (∀ (s : State) (i : SlabId) (u : Fin 24), (s.slab i).ready = true → (s.slab i).camp.firmware = .running →
    let st := (s.slab i).stack u.val
    let fresh (code : Byte) (x : Option (Fin 24)) : Prop := ∀ c ∈ (s.root i).causes ++ (s.root i).parks, ¬ (c.code = code ∧ c.slab = i ∧ c.unit = x)
    (fresh 0x08 (some u) → exec (.holdRequest i .sectorNone u) s = .next (s.raise i 0x08 (some u)))
    ∧ (fresh 0x09 (some u) → st.critical = true → st.state = .good → exec (.holdRequest i .stackPark u) s = .next (s.modRoot i (fun r =>
        { r with parks := r.parks ++ [{ code := 0x09, slab := i, field := none, tile := none, unit := some u, stamp := s.stamp i }] })))
    ∧ (fresh 0x0A (some u) → st.state = .failed → exec (.holdRequest i .stackFailure u) s = .next (s.raise i 0x0A (some u)))
    ∧ (fresh 0x0B (some u) → st.state = .controllerLost → exec (.holdRequest i .controllerLost u) s = .next (s.raise i 0x0B (some u)))
    ∧ (fresh 0x0C (some u) → exec (.holdRequest i .unitError u) s = .next (s.raise i 0x0C (some u)))
    ∧ (fresh 0x0D (some u) → exec (.holdRequest i .engineSlot u) s = .next (s.raise i 0x0D (some u)))
    ∧ (fresh 0x19 none → (s.job i).stopAsked = true → exec (.holdRequest i .forcedStop u) s = .next (s.raise i 0x19 none)))
  ∧ (∀ (s : State) (i : SlabId), (s.slab (s.dev i)).ready = true → (s.root i).running = true → (s.root i).inHold = false →
      ((s.root i).causes = [] → (s.root i).parks = [] → exec (.holdEntry i) s = .next s)
      ∧ ((s.root i).causes ≠ [] → exec (.holdEntry i) s = .next (s.enterHold i (s.root i).kind (s.root i).midStep))
      ∧ ((s.root i).causes = [] → (s.root i).parks ≠ [] →
          (s.pitchOver i = false → exec (.holdEntry i) s = .next s)
          ∧ (s.pitchOver i = true → ((s.endPitch i).job i).inStep = false →
              exec (.holdEntry i) s = .next ((s.endPitch i).enterHold i .gate false))))
  ∧ (∀ (t : Tile) (now n : Nat) (q : SeqId), (t.seq q).loaded = true →
      let h := t.hold now n
      (t.failed = false → (h.seq q).state = .held) ∧ (t.failed = true → (h.seq q).state = (t.seq q).state)
        ∧ (h.seq q).pc = (t.seq q).pc ∧ h.matrix.queue = [] ∧ h.vector.queue = [] ∧ h.port.queue = [] ∧ h.fills = [] ∧ h.sends = []
        ∧ h.arrivals = [] ∧ h.scratch = t.scratch ∧ h.overlay = t.overlay ∧ h.router.inputs = t.router.inputs)

/-- R178, R343: in a hold the routers discard what cannot be delivered and report empty; base camp then recovers the causes, after
which none is left and the stream epoch is one higher; the release that ends the hold comes when its primed fetches have ended. -/
def Claims.HoldsEmptyRoutersAndRecover : Prop :=
  ∀ (s : State) (i : SlabId), s.rootReady i = true → (s.root i).inHold = true →
    ((s.root i).routersEmpty = false →
      (∀ k ∈ s.devSlabs i, ∀ p ∈ (s.slab k).tiles, let t := tileId k p.1.1 p.1.2
        s.routerDead t = true ∨ p.2.router.eject = [] ∧ ∀ f ∈ p.2.router.flits, s.discarded t f = true) →
      exec (.routersEmpty i) s = .next ((s.modDev i (fun sl => sl.mapTiles (fun _ _ t => t.emptyRouter))).modRoot i (fun r =>
        { r with routersEmpty := true })))
    ∧ (s.canRecover i = false → exec (.holdRecovery i) s = .next s)
    ∧ (s.canRecover i = true → ((s.root i).causes ≠ [] ∨ (s.root i).takenOver = false) →
        ∃ t : State, exec (.holdRecovery i) s = .next t ∧ t = s.recover i
          ∧ (t.root i).causes = [] ∧ (t.root i).takenOver = true)
    ∧ (s.canRecover i = true → (s.root i).causes = [] → (s.root i).takenOver = true → (s.job i).primed = [] →
        let z := s.modRoot i (fun r => { r with inHold := false, takenOver := false, routersEmpty := false, kind := .none })
        ∃ y : State, exec (.holdRecovery i) s = .next y ∧ exec (.tickRelease i) s = .next y
          ∧ y = if z.nextKind i = .maint then (((z.beginPitch i .maint).startScrub i []).scrubOverlays i []).maintain i
                else z.beginPitch i (z.nextKind i))

/-- The tick release of the belay network.
Model's choices: log 50, 51. -/
def Obligations.TickIssuesTheDuePitch : Prop := Claims.TickStretchesAndOverruns ∧ Claims.ReleasesBeginTheDuePitch

/-- The other belays, and the step gate.
Model's choices: log 49, 52, 57. -/
def Obligations.BelaysAndTheStepGateOpen : Prop := Claims.BelaysReleaseOnceAllArrived ∧ Claims.StepGateOpensWhenItsConditionsHold

/-- Holds from their cause to their recovery.
Model's choices: log 58, 61. -/
def Obligations.HoldsAreEnteredAndLeft : Prop := Claims.CausesEnterAHold ∧ Claims.HoldsEmptyRoutersAndRecover

/-! ## Streams and the memory tiers (chapters 8, 9 and 13) -/

/-- R229, R239, R245, R248: at its pitch the fetch of a descriptor's next pass begins, when no other fetch of its engine comes first, or is
held while a block of its object is not committed; a held fetch begins once they all are, and not in a maintenance pitch; when every
run has returned the fetch is over and the next pass is due. -/
def Claims.FetchesBeginWaitAndEnd : Prop :=
  ∀ (s : State) (i : SlabId) (d : Fin 16384) (p : Pass), (s.slab i).ready = true →
    let st := (s.slab i).stream d.val
    s.passOf i d.val st.fetchPass = some p →
    let begun (waited : Nat) : State := ((s.modSlab i (fun sl => sl.modStream d.val (fun st =>
        { st with state := 2, held := false, heldAt := none, epoch := (s.job i).epoch, fetching := true, returned := []
                  bufferWait := none }))).modTile (streamTile i d.val) (fun tl =>
          { tl with counters := Counters.bump tl.counters Ctr.STREAM_COMMIT_WAITS waited })).fetchWork i d.val p
    let waited : Nat := match st.heldAt with
      | none => 0
      | some c => s.cycle i - c
    (s.streamsStopped i = false → st.state ≠ 0 → st.fetching = false → st.held = false → p.desc.reads = true →
      (s.fetchDue i d.val p st.fetchStep = false → exec (.streamFetchStart i d) s = .next s)
      ∧ (s.fetchDue i d.val p st.fetchStep = true →
          (∀ x ∈ (s.slab i).streams, x.1 ≠ d.val → streamTile i x.1 = streamTile i d.val → ∀ key, s.fetchWaiting i x.1 = some key →
            lexLess key (s.passKey i d.val st.fetchStep p) = false) →
          (s.commitBlocks i p st.fetchStep = true → exec (.streamFetchStart i d) s
            = .next (s.modSlab i (fun sl => sl.modStream d.val (fun st => { st with held := true, heldAt := some (s.cycle i) }))))
          ∧ (s.commitBlocks i p st.fetchStep = false → exec (.streamFetchStart i d) s = .next (begun waited)))
      ∧ (∀ (x : Nat × StreamState) (key : List Nat), x ∈ (s.slab i).streams → x.1 ≠ d.val → streamTile i x.1 = streamTile i d.val →
          s.fetchWaiting i x.1 = some key → lexLess key (s.passKey i d.val st.fetchStep p) = true →
          exec (.streamFetchStart i d) s = .next s))
    ∧ (s.streamsStopped i = true → exec (.streamFetchStart i d) s = .next s ∧ exec (.commitWaitRelease i d) s = .next s)
    ∧ (s.streamsStopped i = false → ((s.root i).kind = .maint → (s.root i).inHold = true) → st.held = true →
        (s.commitBlocks i p st.fetchStep = true → exec (.commitWaitRelease i d) s = .next s)
        ∧ (s.commitBlocks i p st.fetchStep = false → exec (.commitWaitRelease i d) s = .next (begun waited)))
    ∧ ((s.root i).kind = .maint → (s.root i).inHold = false → exec (.commitWaitRelease i d) s = .next s)
    ∧ (st.fetching = true →
        (st.returned.length < p.desc.returns → exec (.streamFetchEnd i d) s = .next s)
        ∧ (p.desc.returns ≤ st.returned.length → exec (.streamFetchEnd i d) s = .next (s.endFetch i d.val)
            ∧ (((s.endFetch i d.val).slab i).stream d.val).fetching = false
            ∧ (((s.endFetch i d.val).slab i).stream d.val).fetchStep
                = (if st.fetchPass + 1 < s.passCount i d.val then st.fetchStep else st.fetchStep + 1)
            ∧ (((s.endFetch i d.val).slab i).stream d.val).fetchPass
                = (if st.fetchPass + 1 < s.passCount i d.val then st.fetchPass + 1 else 0)))

/-- R192, R197, R230, R231, R236: a read of an earlier epoch is dropped and its bytes are counted; a run waits for its translations, for
a home that can be read and for free buffer rows, and is then buffered once, its accesses to unmapped pages counted as faults. Rows of
a page whose residence is lent are left to the lending tile, others stand in rows of the buffer of the tile that holds them. A
gather's items are read from their addresses in request order. -/
def Claims.ReadsReturnIntoTheBuffer : Prop :=
  (∀ (s : State) (i : SlabId) (d : Fin 16384) (p : Pass) (ep : Half) (k : Nat), (s.slab i).ready = true →
    let st := (s.slab i).stream d.val
    let t := streamTile i d.val
    s.passOf i d.val st.fetchPass = some p →
    (p.desc.reads = true → p.desc.mode ≠ 2 →
      let a := p.runAddr k
      let n := p.desc.runBytes
      (ep ≠ (s.job i).epoch → exec (.streamReadReturn i d ep k) s = .next (s.modTile t (fun tl =>
        { tl with counters := Counters.bump (Counters.bump tl.counters Ctr.STREAM_READ_BYTES (n + a.2.2)) Ctr.STREAM_DISCARD_BYTES (n + a.2.2) })))
      ∧ (ep = (s.job i).epoch → st.fetching = true → k < p.desc.runs → k ∉ st.returned →
          ((s.root i).kind = .maint → (s.root i).inHold = true) → s.withholds i a.1 n = false → s.withholds i a.2.1 a.2.2 = false →
          (((s.tile t).translated a.1 n && (s.tile t).translated a.2.1 a.2.2) = false →
            exec (.streamReadReturn i d ep k) s = .next s)
          ∧ (∀ fs : List Fetched,
              (s.tile t).translated a.1 n = true → (s.tile t).translated a.2.1 a.2.2 = true → s.fetchRun i d.val k p st = some fs →
              (s.fits fs (st.missing k) = false → exec (.streamReadReturn i d ep k) s = .next (s.waitBuffer i d.val))
              ∧ (s.fits fs (st.missing k) = true →
                  let z := (((s.useXlate t a.1 n).useXlate t a.2.1 a.2.2).countDegraded i a.1 n).countDegraded i a.2.1 a.2.2
                  let y := (if p.desc.mode = 10 then z.readLent i a.1 n else z).readLent i a.2.1 a.2.2
                  exec (.streamReadReturn i d ep k) s = .next ((y.bufferPieces i d.val k fs (n + a.2.2)
                    (y.faultsIn i a.1 n + y.faultsIn i a.2.1 a.2.2)).deliver i)))))
    ∧ (p.desc.mode = 2 → 64 * k < p.desc.runs →
        let n := min 64 (p.desc.runs - 64 * k)
        let size := p.desc.runBytes
        let list := p.arm.sbase + 4 * p.desc.runs * p.j + 256 * k
        let addrs := (List.range n).map (fun x => p.arm.ebase + p.j * p.arm.padv + s.indexAt i p (64 * k + x) * p.desc.rstride)
        let bytes := addrs.flatMap (fun a => if a % max 1 size ≠ 0 then List.replicate size 0 else s.readRangeD i a size)
        let f : Fetched := (paddedRows bytes,
          { step := st.fetchStep, pass := st.fetchPass, run := k, epoch := st.epoch, offset := k * size, rows := [], scaleBytes := 0
            holder := t, lent := none })
        (ep ≠ (s.job i).epoch → exec (.gatherRequest i d ep k) s = .next (s.dropRead i d.val (n * size)))
        ∧ (ep = (s.job i).epoch → st.fetching = true → k ∉ st.returned → ((s.root i).kind = .maint → (s.root i).inHold = true) →
            s.withholds i list (4 * n) = false → (∀ a ∈ addrs, s.withholds i a size = false) →
            (s.tile t).translated list (4 * n) = true → (∀ a ∈ addrs, (s.tile t).translated a size = true) →
            (s.fits [f] (st.missing k) = false → exec (.gatherRequest i d ep k) s = .next (s.waitBuffer i d.val))
            ∧ (s.fits [f] (st.missing k) = true →
                let z := addrs.foldl (fun s a => s.gatherItem i t p a) ((s.useXlate t list (4 * n)).readLent i list (4 * n))
                exec (.gatherRequest i d ep k) s = .next ((z.bufferPieces i d.val k [f] (n * size)
                  (addrs.foldl (fun m a => m + z.faultsIn i a size) (z.faultsIn i list (4 * n)))).deliver i)))))
  ∧ (∀ (s : State) (i : SlabId) (d k : Nat) (p : Pass) (st : StreamState) (v first count : Nat) (w : SlabId) (e : DWord) (bs scales : List Byte),
      let a := p.runAddr k
      rowGroups a.1 p.desc.runBytes = [(v, first, count, false)] → s.pte i v = some (w, e) →
      s.readRange i (a.1 + 64 * first) (64 * count) = some bs → s.readRange i a.2.1 a.2.2 = some scales →
      let piece : BufferedRun :=
        { step := st.fetchStep, pass := st.fetchPass, run := k, epoch := st.epoch, offset := first, rows := [], scaleBytes := 0
          holder := streamTile i d, lent := none }
      let tail := scalePiece i d k st scales
      (¬ (2 ≤ pteRes e ∧ p.desc.mode = 0) →
        s.fetchRun i d k p st = some ((rowsOf bs, { piece with holder := holderOf i d p.desc.mode k w e }) :: tail))
      ∧ (2 ≤ pteRes e → p.desc.mode = 0 → 0 < count →
          s.fetchRun i d k p st = some (([], { piece with lent := some (v, (a.1 + 64 * first) % pageBytes, count) }) :: tail)))

/-- R221, R225, R229, R230, R335: the delivery of a pass begins in an image pitch of its step once its delivery index and local cycle have
come and no other delivery of its engine comes first; before that, in a hold or in another kind of pitch nothing begins. Run after run
its rows are injected once they are fetched, by the tile that holds them and while that tile holds fewer than 64 unacknowledged
messages, their buffer rows are free, and after the last the stream stands at its next pass. -/
def Claims.FetchedPassesAreDelivered : Prop :=
  (∀ (s : State) (i : SlabId) (d : Fin 16384) (p : Pass) (errs : List (TileId × RowError)), (s.slab i).ready = true →
    let st := (s.slab i).stream d.val
    let r := s.root i
    let t := streamTile i d.val
    let due := st.step * s.stepLength i + p.at_
    s.passOf i d.val st.pass = some p →
    (r.inHold = true ∨ r.kind ≠ .image ∨ r.schedIndex.toNat < due ∨ (r.schedIndex.toNat = due ∧ s.localCycle t < p.desc.dstart)
        ∨ (st.step + 1) * s.stepLength i ≤ r.schedIndex.toNat →
      exec (.streamDeliveryStart i ⟨d, errs⟩) s = .next s)
    ∧ (r.inHold = false → r.kind = .image → p.desc.reads = true → st.state ≠ 0 → st.delivering = false →
        (due < r.schedIndex.toNat ∨ (due = r.schedIndex.toNat ∧ p.desc.dstart ≤ s.localCycle t)) →
        r.schedIndex.toNat < (st.step + 1) * s.stepLength i →
        (∀ x ∈ (s.slab i).streams, x.1 ≠ d.val → streamTile i x.1 = t → ∀ key, s.deliveryWaiting i x.1 = some key →
          lexLess key (s.passKey i d.val st.step p) = false) →
        exec (.streamDeliveryStart i ⟨d, errs⟩) s = .next ((s.modSlab i (fun sl => sl.modStream d.val (fun st =>
          { st with delivering := true, state := 2, errs := errs }))).deliver i))
    ∧ (let e := (s.endPass i d.val).slab i
       (e.stream d.val).pass = (if st.pass + 1 < s.passCount i d.val then st.pass + 1 else 0) ∧ (e.stream d.val).delivering = false
       ∧ ∀ b ∈ (e.stream d.val).buffer, ¬ (b.step = st.step ∧ b.pass = st.pass)))
  ∧ (∀ (s : State) (i : SlabId) (d n : Nat) (p : Pass), p.desc.mode ≠ 10 →
      let st := (s.slab i).stream d
      (p.desc.returns ≤ st.run → st.tail = [] → s.deliverRuns i d p (n + 1) = s.endPass i d)
      ∧ (st.run < p.desc.returns → st.fetched st.run = false → s.deliverRuns i d p (n + 1) = s)
      ∧ (∀ b : BufferedRun, st.run < p.desc.returns → st.fetched st.run = true → st.nextPiece = some b →
          (64 ≤ (s.tile b.holder).unacked → s.deliverRuns i d p (n + 1) = s)
          ∧ ((s.tile b.holder).unacked < 64 → b.lent = none → b.scaleBytes = 0 → st.errs = [] →
              let rows := b.rows.map (fun r => (s.tile b.holder).engRow (isPortal b.holder) r)
              let z := s.modSlab i (fun sl => sl.modStream d (fun st => { st with buffer := st.buffer.erase b }))
              s.deliverRuns i d p (n + 1) = (z.injectRows b.holder
                { mcast := p.desc.mcast, ctr := p.desc.ctr, row := p.desc.drow + p.flip + b.run * p.desc.dstride + b.offset
                  x0 := p.desc.x0, y0 := p.desc.y0, x1 := p.desc.x1, y1 := p.desc.y1 } rows true).deliverRuns i d p n)
          ∧ ((s.tile b.holder).unacked < 64 → b.lent.isSome = true →
              s.deliverRuns i d p (n + 1) = ((s.askLender (streamTile i d) p b).freePiece i d b).deliverRuns i d p n)))

/-- R190, R191: a miss at a portal tile walks the page table through the caches, takes the page's entry first into its set of eight
ways and counts itself; a hit and a tile that is no portal tile do nothing. -/
def Claims.MissesWalkThePageTable : Prop :=
  ∀ (s : State) (t : TileId) (vpn : BitVec 27), (s.slab t.slab).ready = true →
    ((isPortal t = false ∨ ((s.tile t).cached vpn.toNat).isSome = true) → exec (.translationWalk t vpn) s = .next s)
    ∧ (isPortal t = true → (s.tile t).cached vpn.toNat = none →
        ∃ (k : SlabId) (e : DWord), (s.pte t.slab vpn.toNat = none → e = 0 ∧ k = t.slab) ∧ (∀ j x, s.pte t.slab vpn.toNat = some (j, x) → e = x ∧ k = j)
          ∧ exec (.translationWalk t vpn) s = .next ((s.walkLines k vpn.toNat).modTile t (fun tl =>
              { tl.cache vpn.toNat e with counters := Counters.bump tl.counters Ctr.XLATE_MISSES 1 }))
          ∧ ((s.tile t).cache vpn.toNat e).cached vpn.toNat = some e)

/-- R232 to R234, R241: a portal flit of a source in the descriptor's rectangle is accepted for that source's open run, or waits; one at a
tile, of a descriptor or from a source that does not accept it is discarded, sets OPND_FAULT and FAULT and is still acknowledged. A
write forwarded from another stack's engine is written and acknowledged, but for a stack under maintenance. In a hold none is
accepted. -/
def Claims.PortalFlitsFillTheirRunOrAreDropped : Prop :=
  ∀ (s : State) (t : TileId) (f : Flit) (rest : List Flit), (s.slab t.slab).ready = true →
    bit (s.tile t).gate gateStream = true → (s.tile t).router.portal = f :: rest →
    let i := t.slab
    let st := (s.slab i).stream f.queue
    let taken := s.modRouter t (fun r => { r with portal := rest })
    let ack : Ack := { sx := f.sx, sy := f.sy, msg := f.msg, trail := f.trail }
    let z := taken.modTile t (fun tl =>
      ({ tl with flags := tl.flags ||| flagOpndFault, flagsNow := tl.flagsNow ||| flagOpndFault
                 counters := Counters.bump tl.counters Ctr.STREAM_DROPS 1 } : Tile))
    let y := z.modSlab i (fun sl => sl.modStream f.queue (fun st => { st with fault := true }))
    let gone := if f.last then y.putAck t ack else y
    ((s.root i).inHold = true → exec (.portalFlitAccept t) s = .next s)
    ∧ (∀ w : Forward, (s.root i).inHold = false → f.forward = some w →
        (s.stacksBusy i = true → exec (.portalFlitAccept t) s = .next s)
        ∧ (s.stacksBusy i = false → exec (.portalFlitAccept t) s
            = .next (((taken.writeRange i w.addr ((f.rows.flatMap rowBytes).take w.bytes)).addWork i w.addr w.bytes
                (if w.remote then .remote else .write) false none).putAck t ack)))
    ∧ ((s.root i).inHold = false → f.forward = none →
        (((s.placement i).bind (fun p => p.stream f.queue) = none) → exec (.portalFlitAccept t) s = .next gone)
        ∧ (∀ sd : StreamDesc, (s.placement i).bind (fun p => p.stream f.queue) = some sd →
            (isPortal t = false ∨ streamTile i f.queue ≠ t ∨ sd.accepts = false ∨ st.state = 0 ∨ sd.sourceNo f.sx f.sy = none →
              exec (.portalFlitAccept t) s = .next gone)
            ∧ (∀ (k : Nat) (p : Pass), isPortal t = true → streamTile i f.queue = t → sd.accepts = true → st.state ≠ 0 →
                sd.sourceNo f.sx f.sy = some k → s.passOf i f.queue (st.cursor k).1 = some p →
                exec (.portalFlitAccept t) s = .next (s.acceptFlit t f p k (st.cursor k).1 (st.cursor k).2))))

/-- R194 to R196: the oldest atomic at a slice allocates the sector's line, replaces the sector by the atomic's result, keeps the old
value and acknowledges; a
rejected code or alignment sets OPND_FAULT and changes no memory, an unmapped page is a translation fault. -/
def Claims.AtomicsReplaceTheirSector : Prop :=
  ∀ (s : State) (i : SlabId) (u : Fin 24) (a : Atomic) (rest : List Atomic), (s.slab i).ready = true →
    ((s.slab i).stack u.val).atomics = a :: rest →
    let z := s.modSlab i (fun sl => sl.modStack u.val (fun st => { st with atomics := rest }))
    (a.bad = true → exec (.atomicApply i u) s = .next (((z.modTile a.tile (fun tl =>
      { tl with flags := tl.flags ||| flagOpndFault, flagsNow := tl.flagsNow ||| flagOpndFault })).modSlab i
      (fun sl => sl.modStack u.val (fun st => { st with counters := Counters.bump st.counters Ctr.ATOMIC_FAULTS 1 }))).atomicDone a))
    ∧ (a.bad = false → z.pte i (vpnOf a.addr) = none →
        exec (.atomicApply i u) s = .next ((z.modTile a.tile (fun tl =>
          { tl with flags := tl.flags ||| flagOpndFault, flagsNow := tl.flagsNow ||| flagOpndFault
                    counters := Counters.bump tl.counters Ctr.XLATE_FAULTS 1 })).atomicDone a))
    ∧ (∀ (k : SlabId) (e : DWord) (old : BitVec 256), a.bad = false → z.pte i (vpnOf a.addr) = some (k, e) →
        let y := z.allocLines i (a.addr / 32 * 32) 32
        (y.slab k).sector (pteStack e) (pteFrame e) (a.addr % pageBytes / 32) = some old →
        exec (.atomicApply i u) s = .next ((y.modSlab k (fun sl =>
          (sl.putSector (pteStack e) (pteFrame e) (a.addr % pageBytes / 32) (a.apply old)).modStack u.val (fun st =>
            { st with counters := Counters.bump st.counters Ctr.ATOMIC_OPS 1, atomicOld := old }))).atomicDone a))

/-- R209, R210: the parity stack of a stripe exclusive-ors the oldest delta into its frame, byte by byte, and no other byte of memory
changes; a stripe without parity takes none.
Model's choices: log 30. -/
def Obligations.ParityTakesItsDeltas : Prop :=
  ∀ (s : State) (i : SlabId) (u : Fin 24) (d : Delta) (rest : List Delta), (s.slab i).ready = true →
    ((s.slab i).stack u.val).deltas = d :: rest →
    (alookup d.frame (s.slab i).mem.stripes ≠ some .parity →
      exec (.parityDelta i u) s = .next (s.modSlab i (fun sl => sl.modStack u.val (fun st => { st with deltas := rest }))))
    ∧ ((s.slab i).stackUp u.val = true → alookup d.frame (s.slab i).mem.stripes = some .parity →
        ∃ t : State, exec (.parityDelta i u) s = .next t ∧ ((t.slab i).stack u.val).deltas = rest
          ∧ (∀ j : Nat, j < 32 → Cells.read (t.slab i).mem.shelf (shelfAddr u.val d.frame (32 * d.sector) + j)
              = Cells.read (s.slab i).mem.shelf (shelfAddr u.val d.frame (32 * d.sector) + j) ^^^ (d.delta.extractLsb' (8 * j) 8))
          ∧ (∀ a : Nat, (a < shelfAddr u.val d.frame (32 * d.sector) ∨ shelfAddr u.val d.frame (32 * d.sector) + 32 ≤ a) →
              Cells.read (t.slab i).mem.shelf a = Cells.read (s.slab i).mem.shelf a)
          ∧ t.slab i.other = s.slab i.other ∧ (t.slab i).mem.pages = (s.slab i).mem.pages ∧ (t.slab i).tiles = (s.slab i).tiles)

/-- R212: an uncorrectable sector of a PARITY page is rebuilt from the other sectors of its stripe and written back; of a REPLICA page
the data are withheld until the peer's copy has come; each with its entry in the fault log. Of a NONE page, and of a PARITY page whose
stripe is unprotected, its 32 bytes are free values and a hold with code 0x08 is requested. -/
def Claims.UncorrectableSectorsAreServed : Prop :=
  ∀ (s : State) (i : SlabId) (vpn : BitVec 27) (c : Fin 65536) (e : DWord), (s.slab i).ready = true →
    alookup vpn.toNat (s.slab i).mem.pages = some e →
    let k := pteStack e
    let a := shelfAddr k (pteFrame e) (32 * c.val)
    let z := s.modSlab i (fun sl => sl.modStack k (fun x => { x with counters := Counters.bump x.counters Ctr.SHELF_UNCORRECTABLE 1 }))
    let entry (cls : Byte) : FaultEntry := { FaultEntry.basic cls 1 with
      node := unitNode i 1 k, aux := BitVec.ofNat 8 k, detail := leBytes vpn.toNat 8 ++ leBytes (pteFrame e) 8 }
    ((s.slab i).stackUp k = false → exec (.shelfSectorUncorrectable i vpn c) s = .next s)
    ∧ ((s.slab i).stackUp k = true →
        (∀ v : BitVec 256, pteProt e = 1 → (z.slab i).rebuiltSector k (pteFrame e) c.val = some v →
          exec (.shelfSectorUncorrectable i vpn c) s = .next ((z.modSlab i (fun sl =>
            (sl.setSector k (pteFrame e) c.val (sectorBytes v)).modStack k (fun x =>
              { x with counters := Counters.bump x.counters Ctr.PARITY_REBUILDS 1 }))).logFault i (entry 0x06)))
        ∧ (pteProt e = 2 → exec (.shelfSectorUncorrectable i vpn c) s = .next ((z.modSlab i (fun sl =>
            { sl with mem := { sl.mem with withheld := insertNew vpn.toNat sl.mem.withheld } })).logFault i (entry 0x07)))
        ∧ ((pteProt e = 1 → (z.slab i).rebuiltSector k (pteFrame e) c.val = none) → pteProt e ≠ 2 → k < 24 →
            exec (.shelfSectorUncorrectable i vpn c) s = .next
              ((({ z with free := z.free + 1 } : State).modSlab i (fun sl => { sl with mem := { sl.mem with
                shelf := Cells.writeN sl.mem.shelf a (freeBytes s.free 32) } })).raise i 0x08 (some ⟨k % 24, Nat.mod_lt _ (by decide)⟩))))

/-- R206 to R208: when the copy of a page ends in a maintenance pitch with that task, its new home holds the contents, its old frame is
freed, its entry names the new home and every cached translation of it is gone, and its blocks pass to the new stack's unit; in a
hold, in any other pitch and while its blocks are at work the page stays. -/
def Claims.MigrationsMoveTheHome : Prop :=
  ∀ (s : State) (i : SlabId) (vpn : BitVec 27) (mv : Migration) (e : DWord) (cs : Cells), (s.slab i).ready = true →
    (s.slab i).mem.moving = [mv] → mv.vpn = vpn.toNat → alookup vpn.toNat (s.slab i).mem.pages = some e →
    let z := s.modSlab i (fun sl => sl.flushFrame (pteStack e) (pteFrame e))
    (z.slab i).frameCells (pteStack e) (pteFrame e) = some cs →
    ((s.root i).inHold = true ∨ (s.root i).kind ≠ .maint ∨ (s.root i).task ≠ 3 ∨ s.pageQuiet i vpn.toNat = false →
      exec (.migrationCopyDone i vpn) s = .next s)
    ∧ ((s.root i).inHold = false → (s.root i).kind = .maint → (s.root i).task = 3 → s.pageQuiet i vpn.toNat = true →
        let w := z.modSlab i (fun sl =>
          let x := (sl.fillFrame mv.toStack mv.toFrame cs).dropFrame (pteStack e) (pteFrame e)
          { x with mem := { x.mem with moving := x.mem.moving.filter (fun y => decide (y.vpn ≠ vpn.toNat)) }
                   counters := Counters.bump x.counters Ctr.PAGES_MIGRATED 1 })
        exec (.migrationCopyDone i vpn) s = .next ((w.setPte i i vpn.toNat (pteWithHome e mv.toStack mv.toFrame)).passOwnership i vpn.toNat
          ((w.slab i).unitFor (pteStack e)) ((w.slab i).unitFor mv.toStack)))
    ∧ (∀ (k : SlabId) (x y : Nat), k ∈ s.devSlabs i → (((s.setPte i i vpn.toNat e).slab k).tile x y).cached vpn.toNat = none)

/-- R213, R289, R353 to R356: a stack that fails or loses its controller leaves service, is noted with its stamp, frees the stripes whose
parity it held, notes the pages no stripe can give, and asks for a hold with code 0x0A or 0x0B; one that is out already does
nothing. A critical stack is parked in the hold asked for it, after its unit has committed the block it is
writing. -/
def Claims.StacksLeaveService : Prop :=
  ∀ (s : State) (i : SlabId) (u : Fin 24), (s.slab i).ready = true →
    (((s.slab i).stack u.val).state.lost = true → exec (.stackFailure i u) s = .next s)
    ∧ (((s.slab i).stack u.val).state.lost = false → exec (.stackFailure i u) s
        = .next ((((s.setStack i u.val .failed).modSlab i (fun sl =>
            { sl with counters := Counters.bump sl.counters Ctr.STACK_PARKS 1 })).noteLostPages i).raise i 0x0A (some u)))
    ∧ (((s.slab i).stack u.val).state = .controllerLost → exec (.shelfControllerLost i u) s = .next s)
    ∧ (((s.slab i).stack u.val).state ≠ .controllerLost → ((s.setStack i u.val .controllerLost).slab i).nextStack u.val = none →
        exec (.shelfControllerLost i u) s
          = .next (((s.setStack i u.val .controllerLost).noteLostPages i).raise i 0x0B (some u)))
    ∧ (∀ v : Fin 24, ((s.slab i).stack u.val).state ≠ .controllerLost →
        ((s.setStack i u.val .controllerLost).slab i).nextStack u.val = some v →
        ∃ z : State, exec (.shelfControllerLost i u) s = .next ((z.noteLostPages i).raise i 0x0B (some u))
          ∧ ((z.slab i).stack u.val).unit.standIn = some v ∧ ((z.slab i).stack u.val).state = .controllerLost)
    ∧ ((s.root i).inHold = true → (s.slab i).stackUp u.val = true →
        (∃ c ∈ (s.root i).causes, c.code = 0x09 ∧ c.slab = i ∧ c.unit = some u) →
        let z := ((s.slab i).pagesOn u.val).foldl (fun s p => if s.stepPage i p.1 then s.rehome i p.1 p.2 else s) (s.completeTorn i u.val)
        exec (.stackPark i u) s = .next (((z.setStack i u.val .parked).modSlab i (fun sl =>
          let x := sl.modStack u.val (fun x => { x with selfRefresh := true })
          { x with counters := Counters.bump x.counters Ctr.STACK_PARKS 1 })).stackEntry i u.val 0x09))
    ∧ (∀ k : StackState, (((s.setStack i u.val k).slab i).stack u.val).state = k
        ∧ (((s.setStack i u.val k).slab i).stack u.val).changed = some (s.stamp i))

/-- R212, R213, R289, R352, R353: a page of a stack out of service whose contents its stripe gives moves with them to its rebuild target;
one that another source gives is moved with what that source gives; its blocks pass to the target's unit. A page on a stack in service
only takes the peer's copy it waits for; one that neither its stripe nor another source gives stays. -/
def Claims.PagesAreRebuilt : Prop :=
  ∀ (s : State) (i : SlabId) (vpn : BitVec 27) (e : DWord), (s.slab i).ready = true →
    alookup vpn.toNat (s.slab i).mem.pages = some e →
    let k := pteStack e
    let got := s.modSlab i (fun sl => { sl with mem := { sl.mem with withheld := sl.mem.withheld.filter (fun x => decide (x ≠ vpn.toNat)) } })
    let z := s.modSlab i (fun sl => let x := sl.flushFrame k (pteFrame e)
      { x with mem := { x.mem with withheld := x.mem.withheld.filter (fun x => decide (x ≠ vpn.toNat)) } })
    let counted (y : State) : State := y.modSlab i (fun sl => sl.modStack k (fun x =>
      { x with counters := Counters.bump x.counters Ctr.PARITY_REBUILDS (if (s.slab i).pageReadable e then 65536 else 0) }))
    ((s.slab i).stackUp k = true → vpn.toNat ∉ (s.slab i).mem.withheld → exec (.pageRebuild i vpn) s = .next s)
    ∧ ((s.slab i).stackUp k = true → vpn.toNat ∈ (s.slab i).mem.withheld → exec (.pageRebuild i vpn) s = .next got)
    ∧ ((s.slab i).stackUp k = false →
        ((s.slab i).pageReadable e = false → s.restorable i vpn.toNat = false → exec (.pageRebuild i vpn) s = .next s)
        ∧ (s.restorable i vpn.toNat = true → s.unrestorableWaiting i = true → exec (.pageRebuild i vpn) s = .next s)
        ∧ (∀ (cs : Cells) (tgt : Nat × Nat × Bool), (s.slab i).pageReadable e = true → (z.slab i).frameCells k (pteFrame e) = some cs →
            (s.restorable i vpn.toNat = true → s.unrestorableWaiting i = false) → (s.slab i).rebuildTarget e = some tgt →
            exec (.pageRebuild i vpn) s = .next (counted (z.moveRebuilt i vpn.toNat e cs tgt)))
        ∧ (∀ tgt : Nat × Nat × Bool, (s.slab i).pageReadable e = false → (z.slab i).frameCells k (pteFrame e) = none →
            s.restorable i vpn.toNat = true → s.unrestorableWaiting i = false → (s.slab i).rebuildTarget e = some tgt →
            let y := counted (z.moveRebuilt i vpn.toNat e (if pteProt e = 2 then Cells.frame (z.slab i).mem.shelf k (pteFrame e) else []) tgt)
            ((∀ o, z.pageObject i vpn.toNat = some o → o.isParam = false ∨ o.prot = 2) → exec (.pageRebuild i vpn) s = .next y)
            ∧ (∀ o, z.pageObject i vpn.toNat = some o → o.isParam = true → o.prot ≠ 2 →
                exec (.pageRebuild i vpn) s = .next (y.resetPage i vpn.toNat))))

/-- The fetch and delivery of a pass.
Model's choices: log 39, 40, 41. -/
def Obligations.PassesAreFetchedAndDelivered : Prop :=
  Claims.FetchesBeginWaitAndEnd ∧ Claims.ReadsReturnIntoTheBuffer ∧ Claims.FetchedPassesAreDelivered

/-- The portals and the lending tiles.
Model's choices: log 28, 32, 42, 46. -/
def Obligations.PortalsServeTiles : Prop :=
  Claims.MissesWalkThePageTable ∧ Claims.PortalFlitsFillTheirRunOrAreDropped ∧ Claims.AtomicsReplaceTheirSector ∧ Claims.LendingTileServesReads

/-- Uncorrectable sectors and migrations.
Model's choices: log 12, 31, 46. -/
def Obligations.SectorsAreServedAndPagesMove : Prop := Claims.UncorrectableSectorsAreServed ∧ Claims.MigrationsMoveTheHome

/-- Stacks that leave service, and the rebuild of their pages.
Model's choices: log 58, 80. -/
def Obligations.StacksAndPagesAreRepaired : Prop := Claims.StacksLeaveService ∧ Claims.PagesAreRebuilt

/-! ## The update units (chapters 10 to 12) -/

/-- R276 to R279: the unit takes its next landing that nothing holds back. With no window open it is late, for a block that does not
exist a fault; a block header that does not name its block is an error of its sector (R272); on a frozen block it is discarded; for a
block the unit still owes for the step before it waits; otherwise it is applied. A waiting landing is applied once its block is no
longer owed, or discarded when the block has been frozen meanwhile. -/
def Claims.LandingsAreTakenInOrder : Prop :=
  ∀ (s : State) (i : SlabId) (u : Fin 24) (j : Nat) (l : Landing), (s.slab i).ready = true →
    let ls := ((s.slab i).stack u.val).unit.landings
    let counted (ctr : Nat) (ls : List Landing) : State := (s.setLandings i u.val ls).modSlab i (fun sl => sl.modUnit u.val (fun x =>
      { x with counters := Counters.bump x.counters ctr 1 }))
    (nextLanding false ls = some j → ls[j]? = some l →
      ((s.job i).window = none → exec (.gradientLanding i u) s = .next (counted Ctr.UPD_LATE_LANDINGS (ls.eraseIdx j)))
      ∧ (∀ (n : DWord) (r : Nat), (s.job i).window = some (n, r) →
          (s.landingObject i l = none → exec (.gradientLanding i u) s = .next (counted Ctr.UPD_LANDING_FAULTS (ls.eraseIdx j)))
          ∧ (∀ o : ObjectEntry, s.landingObject i l = some o → s.headerOk i o l.block = false →
              exec (.gradientLanding i u) s = .next (s.headerError i o l.block))
          ∧ (∀ o : ObjectEntry, s.landingObject i l = some o → s.headerOk i o l.block = true →
              (s.blockFrozen i o l.block = true →
                exec (.gradientLanding i u) s = .next ((s.setLandings i u.val (ls.eraseIdx j)).landFrozen i i u.val o l n r))
              ∧ (s.blockFrozen i o l.block = false → s.landingWaits i i u.val o l.block n = true →
                  exec (.gradientLanding i u) s = .next (counted Ctr.UPD_COMMIT_WAITS (ls.set j { l with waiting := true })))
              ∧ (s.blockFrozen i o l.block = false → s.landingWaits i i u.val o l.block n = false →
                  exec (.gradientLanding i u) s = .next ((s.setLandings i u.val (ls.eraseIdx j)).landApply i i u.val o l n r)))))
    ∧ (nextLanding false ls = none → exec (.gradientLanding i u) s = .next s)
    ∧ (∀ (n : DWord) (r : Nat) (o : ObjectEntry), (s.job i).window = some (n, r) → ls = [{ l with waiting := true }] →
        s.landingObject i { l with waiting := true } = some o →
        (s.landingWaits i i u.val o l.block n = true → exec (.landingWaitRelease i u) s = .next s)
        ∧ (s.landingWaits i i u.val o l.block n = false →
            let z := s.setLandings i u.val []
            exec (.landingWaitRelease i u) s = .next (if z.blockFrozen i o l.block
              then z.landFrozen i i u.val o { l with waiting := true } n r else z.landApply i i u.val o { l with waiting := true } n r)))

/-- R278: the first landing of a scale group in a window is written as it came, and a later one is added to it in FP32 and written
back as SBF16; each counts in LANDED and marks its group in the header of the block, which belongs to the window. -/
def Claims.GroupsAreWrittenOrAdded : Prop :=
  ∀ (s : State) (i : SlabId) (o : ObjectEntry) (b fresh n : Nat) (g : Fin 128) (d : Row) (c : Byte),
    let k := slotPlane o.update.rule
    (fresh.testBit g.val = false →
      s.applyGroup i o b fresh (g, d, c) = (s.unitWrite i (o.planeAddr b k + 64 * g.val) (rowBytes d)).unitWrite i
        (o.planeAddr b (k + 1) + g.val) [c])
    ∧ (fresh.testBit g.val = true →
        let ea := o.planeAddr b k + 64 * g.val
        let sa := o.planeAddr b (k + 1) + g.val
        let value (es : List Byte) (scale : Byte) (j : Nat) : Word := toF32 .nearestEven (decodeElem 8 (planeRaw (fun x => es.toArray.getD x 0) 8 j) scale)
        let sum := (List.range 32).map (fun j => f32add (value (s.readRangeD i ea 64) ((s.readRangeD i sa 1).headD 0) j) (value (rowBytes d) c j))
        let new := encodeSbf16 (fun _ => .nearestEven) 0 (sum.map Word.fp)
        s.applyGroup i o b fresh (g, d, c) = ((s.unitRead i ea 64).unitWrite i ea (leBytes (packRaws 8 new.raws) 64)).unitWrite i sa new.scales)
    ∧ (∀ (r : Nat) (step : DWord) (u : Nat) (l : Landing), l.block = b → l.groups = [(g, d, c)] → s.landedIn i o b step r = n →
        n + 1 < o.fullCount →
        s.landApply i i u o l step r
          = ((s.applyGroup i o b (if s.inWindow i o b step r then s.headerField i o b 0x30 16 else 0) (g, d, c)).putSector1 i o b step r
              ((n + 1) % 65536) ((if s.inWindow i o b step r then s.headerField i o b 0x30 16 else 0) ||| 2 ^ g.val)).modSlab i (fun sl =>
                sl.modUnit u (fun x => { x with counters := Counters.bump x.counters Ctr.UPD_LANDINGS 1 })))

/-- R280, R281, R330: with every block of its units complete in the open window a slab sends its part once: the device's own part goes
up the tree, slab 1 of a joined device sends it to slab 0; incomplete blocks hold it back. -/
def Claims.CompleteUnitsContribute : Prop :=
  ∀ (s : State) (i : SlabId) (n : DWord) (r : Nat), (s.slab i).ready = true → (s.job i).window = some (n, r) →
    ((s.slab i).links.contributed = true → exec (.summitContributionSend i) s = .next s)
    ∧ ((s.slab i).links.contributed = false → (∀ u ∈ stacks24, s.incomplete i i u n r = 0) →
        let c := s.slabContribution i n (Config.slowPitches s.free)
        let z := ({ s with free := s.free + 1 } : State).modSlab i (fun sl =>
          (sl.modLinks (fun l => { l with contributed := true, summitSince := sl.clocks.cycle })).modCamp (fun cp =>
            cp.modLedger n (fun x => { x with phases := x.phases ||| 2 })))
        let y := if c.slow then z.modSlab i (fun sl => sl.heardSlow c.slowPitches) else z
        (s.dev i = i → exec (.summitContributionSend i) s
          = .next ((y.modSlab i (fun sl => sl.modLinks (fun l => { l with own := some c }))).summitAdvance i))
        ∧ (s.dev i ≠ i → exec (.summitContributionSend i) s
          = .next (y.modSlab i (fun sl => sl.sendFrames (sl.summitFrames y.slab0.links.endpoint n false false c.bytes)))))
    ∧ ((s.slab i).links.contributed = false → (∃ u ∈ stacks24, s.incomplete i i u n r ≠ 0) →
        (∀ im, s.image i = some im → im.collectives = []) → exec (.summitContributionSend i) s = .next s)

/-- R330: an accepted frame of the tree joins its packet. A whole contribution is kept as its sender's and the sum goes on when it was
the last awaited; a whole result goes on to the children and is the device's own. -/
def Claims.TreeFramesAddUp : Prop :=
  ∀ (s : State) (i : SlabId) (p : Fin 16) (f : ZFrame),
    (∀ z : State, s.linkInOwn i p.val f 4 = (z, false) → exec (.summitFrame i p f) s = .next z)
    ∧ (Claims.forThis s i p f 4 →
        let z := Claims.taken s i p f
        let x := (z.slab i).links.addSummitPart f
        let y := z.modSlab i (fun sl => { sl with links := x.1 })
        (x.2 = none → exec (.summitFrame i p f) s = .next y)
        ∧ (∀ bs : List Byte, x.2 = some bs →
            (zSumDir f.header = true → exec (.summitFrame i p f) s
              = .next ((y.forwardResult i (resultOf bs)).modSlab i (fun sl => sl.modLinks (fun l => { l with result := some (resultOf bs) }))))
            ∧ (zSumDir f.header = false →
                let c := contributionOf bs (zSumLrm f.header)
                exec (.summitFrame i p f) s = .next ((y.modSlab i (fun sl =>
                  let sl := sl.modLinks (fun l => { l with children := aset (zSrc f.header) c l.children })
                  if c.slow then sl.heardSlow c.slowPitches else sl)).summitAdvance i))))

/-- R281, R282: contributions add up in the stated order: norms as FP64 sums, flags by OR, the learning-rate scale and source of the
lower endpoint, with a mismatch noted; adding the same scale twice notes none. -/
def Obligations.ContributionsAddUp : Prop :=
  ∀ a b : Contribution,
    (a.add b).gsq = f64add a.gsq b.gsq ∧ (a.add b).nonfinite = (a.nonfinite || b.nonfinite)
      ∧ (a.add b).short = (a.short || b.short) ∧ (a.add b).hostSkip = (a.hostSkip || b.hostSkip)
      ∧ (a.add b).slow = (a.slow || b.slow) ∧ (a.add b).slowPitches.toNat = max a.slowPitches.toNat b.slowPitches.toNat
      ∧ (b.source.toNat < a.source.toNat → (a.add b).source = b.source ∧ (a.add b).lrScale = b.lrScale)
      ∧ (a.source.toNat ≤ b.source.toNat → (a.add b).source = a.source ∧ (a.add b).lrScale = a.lrScale)
      ∧ ((a.add b).lrm = true ↔ a.lrm = true ∨ b.lrm = true ∨ a.lrScale ≠ b.lrScale)
      ∧ ((a.add b).groups.length = max a.groups.length b.groups.length)

/-- R277, R285, R288: the result of the step whose window is open closes the window, is kept and recorded, and gives every unit its
commit word: a skipped step is passed at once, otherwise pass 2 begins. A result of another step is not taken.
Model's choices: log 64. -/
def Obligations.ResultClosesTheWindow : Prop :=
  ∀ (s : State) (i : SlabId) (n : DWord) (k : Nat) (r : SummitResult), (s.slab (s.dev i)).ready = true →
    (s.slab (s.dev i)).links.result = some r → (s.job (s.dev i)).window = some (n, k) →
    (r.step ≠ n → exec (.summitResult i) s = .next s)
    ∧ (r.step = n → ∃ t : State, exec (.summitResult i) s = .next t ∧ (t.job i).window = none
        ∧ (t.job i).resultOf n = some r ∧ (t.slab (s.dev i)).links.result = none ∧ (t.slab (s.dev i)).links.own = none
        ∧ (∀ d ∈ s.devSlabs i, ∀ u ∈ stacks24, ((t.slab d).stack u).unit.cstep = n
            ∧ (r.skip = true → ((t.slab d).stack u).unit.pos = s.orderLength (s.dev i))))

/-- R272, R286 to R290: a unit that owes a block of a step whose result it has reads and computes it, writes its fields in order, commits
it with its header and emits its record; without a result, for a skipped step or while it is torn it does nothing. A block header that
does not name its block is an error of its sector. -/
def Claims.Pass2CommitsTheNextBlock : Prop :=
  ∀ (s : State) (i : SlabId) (u : Fin 24), (s.slab i).ready = true →
    (s.pass2Next i u.val = none → exec (.pass2Block i u) s = .next s)
    ∧ (∀ (o : ObjectEntry) (b : Nat) (r : SummitResult), s.pass2Next i u.val = some (o, b, r) →
        (s.headerOk i o b = false → exec (.pass2Block i u) s = .next (s.headerError i o b))
        ∧ (s.headerOk i o b = true → exec (.pass2Block i u) s
            = .next ((((s.readPlanes i o b (List.range (planeSizes o.update).length)).modSlab i (fun sl =>
                sl.modUnit u.val (fun y => y.ruleCounts (s.computeBlock i o b r).2))).writeResult i (s.computeBlock i o b r).1).commitBlock i i
                  u.val o (s.computeBlock i o b r).1))
        ∧ r.skip = false ∧ ((s.slab i).stack u.val).unit.torn = false ∧ s.owes i u.val ((s.slab i).stack u.val).unit.pos = true)

/-- R294: base camp writes a FROZEN setting into a block of a parameter object between its commit for the step before and the first
landing of the setting's step, and at no other time. -/
def Claims.FrozenChangesBetweenSteps : Prop :=
  ∀ (s : State) (i : SlabId) (object : Half) (block : Word) (o : ObjectEntry) (n : DWord) (frozen : Bool) (k : SlabId) (u : Nat),
    (s.slab i).ready = true → s.objectNo i object.toNat = some o → (s.job i).freezeOf object.toNat block.toNat = some (n, frozen) →
    s.blockOwner i o block.toNat = some (k, u) → o.isParam = true → block.toNat < o.update.nblocks →
    (s.landingWaits i k u o block.toNat n = true
        ∨ (n.toNat ≤ s.headerField i o block.toNat 0x20 8 ∧ s.headerField i o block.toNat 0x20 8 < 2 ^ 64 - 1) ∨ (s.job i).step.toNat + 1 < n.toNat → exec (.frozenChange i object block) s = .next s)
    ∧ (s.landingWaits i k u o block.toNat n = false →
        (s.headerField i o block.toNat 0x20 8 < n.toNat ∨ 2 ^ 64 - 1 ≤ s.headerField i o block.toNat 0x20 8) → n.toNat ≤ (s.job i).step.toNat + 1 →
        exec (.frozenChange i object block) s = .next (s.writeRange i (o.planeAddr block.toNat 0 + 0x14)
          (leBytes (s.headerField i o block.toNat 0x14 2 / 2 * 2 + if frozen then 1 else 0) 2)))

/-- R291, R293: an error of a unit tears the block it was writing and requests a hold with code 0x0C; a block torn on a lost stack
is reset from the weight copy or the replica's peer, and without either its page is lost. -/
def Claims.UnitErrorsTearAndLostBlocksReset : Prop :=
  (∀ (s : State) (i : SlabId) (u : Fin 24), (s.slab i).ready = true →
    exec (.updateUnitError i u none) s = .next (s.raise i 0x0C (some u))
    ∧ (∀ f j : Nat, exec (.updateUnitError i u (some (f, j))) s = .next ((s.tear i u.val f j).raise i 0x0C (some u))
        ∧ (∀ (o : ObjectEntry) (b : Nat) (r : SummitResult), s.pass2Next i u.val = some (o, b, r) →
            (((s.tear i u.val f j).slab i).stack u.val).unit.torn = true
            ∧ (((s.tear i u.val f j).slab i).stack u.val).unit.journal
                = some { object := o.object, block := b, step := r.step, fieldPos := f, sector := j })))
  ∧ (∀ (s : State) (i : SlabId) (u : Fin 24) (o : ObjectEntry) (jr : Journal) (object : Half) (block : Word) (peer : List Byte),
      (s.slab i).ready = true → s.objectNo i object.toNat = some o →
      (∀ v ∈ stacks24, v ≠ u.val → ((s.slab i).stack v).unit.torn = false) →
      ((s.slab i).stack u.val).state.lost = true → ((s.slab i).stack u.val).unit.torn = true →
      ((s.slab i).stack u.val).unit.journal = some jr → jr.object = object.toNat → jr.block = block.toNat →
      let z := s.modSlab i (fun sl => sl.modUnit u.val (fun y => { y with journal := none, torn := false, result := none }))
      (∀ ws : List Byte, z.resetWeights i o block.toNat peer = some ws →
        exec (.lostBlockReset i object block peer) s = .next (z.resetBlock i i ((z.slab i).unitFor u.val) o block.toNat ws))
      ∧ (z.resetWeights i o block.toNat peer = none →
          exec (.lostBlockReset i object block peer) s = .next (z.modJob i (fun j =>
            { j with lostPages := insertNew (vpnOf (o.base + pageBytes * o.blockPage block.toNat)) j.lostPages }))))

/-- R298 to R300, R336: a record of a parameter object is applied to its weight copy and checked; for a REPLICA object the owner's
record of the same step is compared with the block's own fingerprint. A repair record overwrites the copy's block, or the replica,
and the block awaits no repair any more.
Model's choices: log 76, 77. -/
def Obligations.RecordsReachTheirCopy : Prop :=
  ∀ (s : State) (i : SlabId) (r : DiffRecord) (o : ObjectEntry), (s.slab i).ready = true → s.objectNo i r.object.toNat = some o →
    let b := r.block.toNat
    (o.isParam = true → (o.prot ≠ 2 ∨ r.source = (s.slab i).links.endpoint) →
      (s.copyOf i o = none → exec (.differenceRecord i r) s = .next s)
      ∧ (∀ c, s.copyOf i o = some c → exec (.differenceRecord i r) s = .next (s.applyRecord i o c r)))
    ∧ (o.isParam = true → o.prot = 2 → r.source ≠ (s.slab i).links.endpoint →
        ((r.source ≠ s.replicaOwner i o ∨ s.blockStep i o b ≠ r.step ∨ s.headerField i o b 8 8 = r.fingerprint.toNat) →
          exec (.differenceRecord i r) s = .next s)
        ∧ (∀ (k : SlabId) (u : Nat), r.source = s.replicaOwner i o → s.blockStep i o b = r.step →
            s.headerField i o b 8 8 ≠ r.fingerprint.toNat → s.blockOwner i o b = some (k, u) →
            exec (.differenceRecord i r) s = .next (s.mismatch i k u o.object b r.step)))
    ∧ (let done (z : State) (k : SlabId) (u no : Nat) : State := z.modSlab k (fun sl => sl.modUnit u (fun x =>
        { x with repairs := x.repairs.filter (fun p => decide (p.1 ≠ (no, b))), counters := Counters.bump x.counters Ctr.REPAIRS_APPLIED 1 }))
       (∀ c, r.kind = 2 → s.copyOf i o = some c →
          let at_ := s.unitAt i (copyStart o c b)
          exec (.repairRecord i r) s = .next (done ((s.putCopy i o c b (r.payload.take (elemBytes o.update.wfmt blockElems
            + scaleBytes o.update.wfmt blockElems))).modSlab at_.1 (fun sl => sl.modUnit at_.2 (fun x =>
              { x with full := aset (c.object, b) r.step x.full }))) at_.1 at_.2 c.object))
       ∧ (∀ (k : SlabId) (u : Nat), r.kind = 3 → s.blockOwner i o b = some (k, u) →
          let planes := [1, 2] ++ (stateFields o.update.rule).flatMap (fun f => [fieldPlane o.update.rule f, fieldPlane o.update.rule f + 1])
          let fl := leAt r.payload 0x14 2
          exec (.repairRecord i r) s = .next (done ((s.putPlanes i o b (r.payload.drop 32) planes).unitWrite i (o.planeAddr b 0)
            (r.payload.take 0x14 ++ leBytes (fl / 4 * 4 + fl % 2 + 2) 2 ++ (r.payload.drop 0x16).take 10)) k u o.object)))

/-- The landings of an update unit.
Model's choices: log 43. -/
def Obligations.LandingsFillTheirGroup : Prop := Claims.LandingsAreTakenInOrder ∧ Claims.GroupsAreWrittenOrAdded

/-- Contributions on their way to the root.
Model's choices: log 9, 75. -/
def Obligations.UnitsContributeUpTheTree : Prop := Claims.CompleteUnitsContribute ∧ Claims.TreeFramesAddUp

/-- Pass 2 of an update unit.
Model's choices: log 58, 79. -/
def Obligations.Pass2CommitsOrLosesBlocks : Prop :=
  Claims.Pass2CommitsTheNextBlock ∧ Claims.FrozenChangesBetweenSteps ∧ Claims.UnitErrorsTearAndLostBlocksReset

/-! ## Zetra links and the col (chapters 7 and 12) -/

/-- R307, R309, R310, R312: with its link up a port takes the frame whose LSEQ follows the last one, once; a frame 1 to 15 beyond it
waits; one received before is dropped; one further on is dropped and asked for with RQ; one with an uncorrectable codeword or a bad
check sum is dropped and asked for. An idle frame gives its LACK, credits and RQ and no more. With the link down nothing is taken. A
frame of a reserved type is discarded and counted as bad. -/
def Claims.LinkTakesFramesInOrder : Prop :=
  ∀ (s : State) (i : SlabId) (p : Fin 16) (f : ZFrame) (type : Nat), (s.slab i).ready = true →
    let x := (s.slab i).port p.val
    let now := s.cycle i
    let d := (zLseq f.header - x.rxSeq).toNat
    let put (g : Port) : State := s.modSlab i (fun sl => sl.modPort p.val (fun _ => g))
    (x.up = false → s.linkIn i p.val f type = (s, false) ∧ exec (.zetraIdleFrame i p f) s = .next s)
    ∧ (x.up = true → f.check = .clean → zType f.header = type →
        (type = 0 → exec (.zetraIdleFrame i p f) s = .next ((put (x.heard now f.header)).checkResends i p.val))
        ∧ (0 < type → type < 6 → d = 1 → s.linkIn i p.val f type
            = (put { x.heard now f.header with rxSeq := zLseq f.header, rq := false
                                               owed := bumpAt (x.heard now f.header).owed (zVc f.header) 1 }, true))
        ∧ (0 < type → 1 < d → d < 17 → s.linkIn i p.val f type = (s, false))
        ∧ (0 < type → (d = 0 ∨ 2048 ≤ d) → s.linkIn i p.val f type = ((put (x.heard now f.header)).checkResends i p.val, false))
        ∧ (0 < type → 17 ≤ d → d < 2048 →
            s.linkIn i p.val f type = ((put { x.heard now f.header with rq := true }).checkResends i p.val, false)))
    ∧ (x.up = true → (f.check = .uncorrectable ∨ (f.check = .badCrc ∧ zType f.header = type)) →
        s.linkIn i p.val f type = ((put { x.codeword f with rq := true, lastFrame := now }).checkResends i p.val, false))
    ∧ (Claims.inOrder s i p f type → s.linkIn i p.val f type = (Claims.taken s i p f, true))
    ∧ (x.up = true → f.check = .clean → 6 ≤ zType f.header → d = 1 →
        let y := x.heard now f.header
        let z := { y with rxSeq := zLseq f.header, rq := false, owed := bumpAt y.owed (zVc f.header) 1 }
        exec (.zetraTransitFrame i p f) s
          = .next ((put { z with counters := Counters.bump z.counters Ctr.ZETRA_BAD_FRAMES 1 }).checkResends i p.val))

/-- R315: the frame next in order, when it is for another endpoint, leaves by the route of its destination and is counted; without a
route it is discarded and counted. A frame for this endpoint is no transit frame. -/
def Claims.TransitFramesFollowTheirRoute : Prop :=
  ∀ (s : State) (i : SlabId) (p : Fin 16) (f : ZFrame),
    (zDest f.header = (s.slab i).links.endpoint → zType f.header < 6 → exec (.zetraTransitFrame i p f) s = .next s)
    ∧ (∀ type : Nat, Claims.inOrder s i p f type → zDest f.header ≠ (s.slab i).links.endpoint →
        let z := Claims.taken s i p f
        ((z.slab i).routeOf f false = none → exec (.zetraTransitFrame i p f) s = .next (z.modSlab i (fun sl =>
          { sl with counters := Counters.bump sl.counters Ctr.ZETRA_UNROUTABLE 1 })))
        ∧ (∀ (q vc : Nat), (z.slab i).routeOf f false = some (q, vc) → exec (.zetraTransitFrame i p f) s
            = .next (z.modSlab i (fun sl =>
                let y := sl.modPort q (fun x => x.give sl.clocks.cycle { f with header := zOnVc f.header vc })
                { y with counters := Counters.bump y.counters Ctr.ZETRA_TRANSIT_FRAMES 1 }))))
    ∧ (∀ z : State, s.linkIn i p.val f (zType f.header) = (z, false) → zDest f.header ≠ (s.slab i).links.endpoint →
        exec (.zetraTransitFrame i p f) s = .next z)

/-- R221, R320, R325, R340: the WRITE frame next in order that passes its window's checks is written, one that fails is answered with a
NACK of the failed check; one whose delivering tile has 64 unacknowledged messages waits. A REDUCE frame that passes is staged at its
root engine, one that finds no slot is answered NO_BUFFER. -/
def Claims.WindowFramesAreCheckedThenServed : Prop :=
  ∀ (s : State) (i : SlabId) (p : Fin 16) (f : ZFrame),
    let h := f.header
    let z := Claims.taken s i p f
    (Claims.forThis s i p f 1 →
      (∀ c, z.windowCheck i 1 (zWindow h) (zEpoch h) (64 * zOffset h) (64 * zRows h) = some c →
        exec (.zetraWriteFrame i p f) s = .next (z.rejectFrame i f c))
      ∧ (z.windowCheck i 1 (zWindow h) (zEpoch h) (64 * zOffset h) (64 * zRows h) = none →
          let e := (s.slab i).window (zWindow h)
          ((e.kind = 4 → (s.tile (streamTile i e.object)).unacked + zRows h ≤ 64) → exec (.zetraWriteFrame i p f) s
            = .next (z.windowWrite i p.val (zWindow h) (64 * zOffset h) (f.payload.take (64 * zRows h))))
          ∧ (e.kind = 4 → 64 < (s.tile (streamTile i e.object)).unacked + zRows h → exec (.zetraWriteFrame i p f) s = .next s)))
    ∧ (∀ y : State, s.linkInOwn i p.val f 1 = (y, false) → exec (.zetraWriteFrame i p f) s = .next y)
    ∧ (∀ y : State, s.linkInOwn i p.val f 2 = (y, false) → exec (.zetraReduceFrame i p f) s = .next y)
    ∧ (Claims.forThis s i p f 2 →
        (∀ c, z.windowCheck i 2 (zWindow h) (zEpoch h) 0 0 = some c → exec (.zetraReduceFrame i p f) s = .next (z.rejectFrame i f c))
        ∧ (z.windowCheck i 2 (zWindow h) (zEpoch h) 0 0 = none → z.reduceTarget i f = none →
            exec (.zetraReduceFrame i p f) s = .next (z.rejectFrame i f .windowRange))
        ∧ (∀ (c : Nat) (co : Collective) (r e : Nat), z.windowCheck i 2 (zWindow h) (zEpoch h) 0 0 = none →
            z.reduceTarget i f = some (c, co, r, e) →
            let stage := if (((z.slab i).engine e).stagedOf r c (zBucket h) (zBlock h)).isSome then 0 else 1
            (z.hasSlots i e c (zBucket h) (zEpoch h) stage = true → exec (.zetraReduceFrame i p f) s = .next (z.stageFrame i f c co r e))
            ∧ (z.hasSlots i e c (zBucket h) (zEpoch h) stage = false → exec (.zetraReduceFrame i p f) s
                = .next ((z.modSlab i (fun sl => sl.modEngine e (fun y =>
                    { y with counters := Counters.bump y.counters Ctr.REDUCE_NO_BUFFER 1 }))).rejectFrame i f .noBuffer))))
    ∧ (∀ (type w off n : Nat) (ep : Half),
        let e := (z.slab i).window w
        (kindTakes e.kind type = false → z.windowCheck i type w ep off n = some .windowUnknown)
        ∧ (kindTakes e.kind type = true → (z.windowNow i w = (true, ep) → z.windowCheck i type w ep off n ≠ some .windowClosed))
        ∧ (kindTakes e.kind type = true → (z.windowNow i w).1 = false → z.windowCheck i type w ep off n = some .windowClosed)
        ∧ (kindTakes e.kind type = true → z.windowNow i w = (true, ep) →
            (z.windowCheck i type w ep off n = none ↔ off + n ≤ e.size)))

/-- R326, R327: a contributor's block is added once to its bucket, and a second copy is counted and discarded; when every landing of a
complete bucket is acknowledged its slots are free and each contributor gets BUCKET_ACK, which frees that bucket's retained blocks;
a block rejected for want of a buffer goes again after RESEND_DELAY, and asked for by RESEND at once.
Model's choices: log 84, 85. -/
def Obligations.BucketsLandAndFreeTheirBlocks : Prop :=
  (∀ (s : State) (i : SlabId) (e : Nat) (co : Collective) (ep : Half) (c r b j : Nat) (data : List Byte) (x : Bucket),
    ((s.slab i).engine e).bucketOf c b ep = some x → (r, j) ∈ x.counted →
    s.addBlock i e co ep c r b j data
      = s.modSlab i (fun sl => sl.modEngine e (fun y => { y with counters := Counters.bump y.counters Ctr.REDUCE_DUPLICATES 1 })))
  ∧ (∀ (s : State) (i : SlabId) (e : Fin 16) (c : Nat) (b : Half) (co : Collective) (x : Bucket), (s.slab i).ready = true →
      s.collective i c = some co → ((s.slab i).engine e.val).buckets = [x] → x.coll = c → x.bucket = b.toNat → x.complete = true →
      0 < x.landing →
      (0 < s.landingsOut i c b.toNat → exec (.bucketLanded i e c b) s = .next s)
      ∧ (s.landingsOut i c b.toNat = 0 →
          let z := s.modSlab i (fun sl => sl.modEngine e.val (fun y => { y with buckets := [{ x with landing := 0 }] }))
          exec (.bucketLanded i e c b) s
            = .next ((List.range ((s.slab i).group co.group).ranks.length).foldl (fun s r => s.sendBucketAck i co b.toNat x.epoch r) z)))
  ∧ (∀ (s : State) (i : SlabId) (p : Fin 16) (f : ZFrame) (w : Byte) (ep b : Half) (c : Nat) (co : Collective),
      Claims.ctrl s i p f 3 → s.collOfWindow i w.toNat = some (c, co) →
      let z := Claims.taken s i p f
      exec (.bucketAck i p f w ep b) s = .next (z.modSlab i (fun sl =>
        { sl with engines := sl.engines.map (fun q => (q.1, { q.2 with retained := q.2.retained.filter (fun x =>
            !(decide (x.coll = c) && decide (x.bucket = b.toNat) && !later x.epoch ep)) })) })))
  ∧ (∀ (s : State) (i : SlabId) (p : Fin 16) (f : ZFrame) (code : NackCode) (ep : Half) (h : BitVec 128),
      Claims.ctrl s i p f 1 →
      let z := Claims.taken s i p f
      (zType h = 1 → exec (.nack i p f code ep h) s = .next (z.modSlab i (fun sl =>
        { sl with counters := Counters.bump sl.counters Ctr.ZETRA_WINDOW_NACKS 1 })))
      ∧ (∀ (c e : Nat) (co : Collective), zType h = 2 → s.collOfWindow i (zWindow h) = some (c, co) →
          (s.slab i).retainer c (zBucket h) (zBlock h) = some e →
          let same (x : Retained) : Bool := decide (x.coll = c) && decide (x.bucket = zBucket h) && decide (x.block = zBlock h)
          ((code = .noBuffer ∨ later (zEpoch h) ep = true) → exec (.nack i p f code ep h) s = .next (z.modSlab i (fun sl =>
            (sl.mapRetained (fun x => if same x then some { x with again := true } else some x)).modEngine e (fun y =>
              if y.resendAt.isSome then y else { y with resendAt := some (sl.clocks.cycle + fabric sl.links.resendDelay) }))))
          ∧ (code ≠ .noBuffer → later (zEpoch h) ep = false → exec (.nack i p f code ep h) s
              = .next (z.modSlab i (fun sl => sl.mapRetained (fun x => if same x then none else some x))))))
  ∧ (∀ (s : State) (i : SlabId) (e : Fin 16) (t : Nat), (s.slab i).ready = true → ((s.slab i).engine e.val).resendAt = some t →
      (s.cycle i < t → exec (.resendDelay i e) s = .next s)
      ∧ (t ≤ s.cycle i → (∀ x ∈ ((s.slab i).engine e.val).retained, x.again = false) →
          exec (.resendDelay i e) s = .next (s.modSlab i (fun sl => sl.modEngine e.val (fun y =>
            { y with resendAt := none, retained := y.retained.map (fun x => { x with again := false }) }))))
      ∧ (∀ (x : Retained) (co : Collective), t ≤ s.cycle i → ((s.slab i).engine e.val).retained = [x] → x.again = true →
          s.collective i x.coll = some co →
          let z := s.modSlab i (fun sl => sl.modEngine e.val (fun y => { y with resendAt := none, retained := [{ x with again := false }] }))
          exec (.resendDelay i e) s = .next (z.sendRetained i co x (s.epochNow i x))))
  ∧ (∀ (s : State) (i : SlabId) (p : Fin 16) (f : ZFrame) (w : Byte) (ep b : Half) (missing : BitVec 128) (c : Nat) (co : Collective),
      Claims.ctrl s i p f 2 → s.collOfWindow i w.toNat = some (c, co) →
      let z := Claims.taken s i p f
      ((∀ e < 16, ∀ x ∈ ((z.slab i).engine e).retained, ¬ (x.coll = c ∧ x.bucket = b.toNat)) →
        exec (.resend i p f w ep b missing) s = .next z)
      ∧ (exec (.resend i p f w ep b missing) s = .next ((List.range 16).foldl (fun z e =>
          let y := if ((z.slab i).engine e).retained.any (fun x => decide (x.coll = c) && decide (x.bucket = b.toNat))
            then z.noteRetry i c b.toNat else z
          let blocks := ((y.slab i).engine e).retained.filter (fun x =>
            decide (x.coll = c) && decide (x.bucket = b.toNat) && missing.getLsbD x.block)
          if blocks.isEmpty then y
          else (blocks.foldl (fun z x => z.sendRetained i co x (z.epochNow i x)) y).modSlab i (fun sl =>
            sl.modEngine e (fun y => { y with counters := Counters.bump y.counters Ctr.REDUCE_RESENDS 1 }))) z)))

/-- R332, R333, R335: a frame of a group that the target does not know, or far beyond the expected packet, changes nothing more; a packet
received before is acknowledged again with its last frame; a frame within the window of 64 is kept until its packet is whole, and the
expected packet is then delivered, its SEQ passed and, after 8 deliveries, acknowledged. Deliveries that stay unacknowledged for
1,024 fabric cycles are acknowledged; a target that learns of its detachment awaits catch-up. -/
def Claims.MulticastTargetsDeliver : Prop :=
  (∀ (s z : State) (i : SlabId) (p : Fin 16) (f : ZFrame),
    (zCatchup f.header = true → exec (.zetraMcastFrame i p f) s = .next s)
    ∧ (zCatchup f.header = false → s.linkInOwn i p.val f 3 = (z, false) → exec (.zetraMcastFrame i p f) s = .next z)
    ∧ (zCatchup f.header = false → Claims.forThis s i p f 3 →
        exec (.zetraMcastFrame i p f) s = .next ((Claims.taken s i p f).mcastFrame i p.val f))
    ∧ (let entry := (z.slab i).links.mcastRx.find? (fun x => decide (x.source = zSrc f.header) && decide (x.group = zGroup f.header))
       (entry = none → z.mcastFrame i p.val f = z)
       ∧ (∀ x : McastRx, entry = some x →
          let y := (x.addFrame f).1
          let at_ := if zCatchup f.header then y.attached else true
          (later x.expected (zSeq f.header) = true → z.mcastFrame i p.val f = if zMcLast f.header then z.ackPackets i x else z)
          ∧ (later x.expected (zSeq f.header) = false → 64 ≤ (zSeq f.header - x.expected).toNat → z.mcastFrame i p.val f = z)
          ∧ (later x.expected (zSeq f.header) = false → (zSeq f.header - x.expected).toNat < 64 → (x.addFrame f).2 = none →
              z.mcastFrame i p.val f = z.modSlab i (fun sl => sl.setMcastRx { y with attached := at_ }))
          ∧ (∀ bs, (x.addFrame f).2 = some bs → zSeq f.header = x.expected → x.held = [] →
              let w : McastRx :=
                { y with attached := at_, expected := x.expected + 1, held := [], unacked := y.unacked + 1
                         unackedAt := if y.unacked = 0 then z.cycle i else y.unackedAt }
              let d := (z.modSlab i (fun sl => sl.setMcastRx w)).deliverPacket i p.val w x.expected bs
              z.mcastFrame i p.val f = if 8 ≤ w.unacked then d.ackPackets i w else d))))
  ∧ (∀ (s : State) (i : SlabId) (e : Half) (g : Byte),
      let entry := (s.slab i).links.mcastRx.find? (fun x => decide (x.source = e) && decide (x.group = g.toNat))
      (((s.slab i).ready = false ∨ entry = none) → exec (.mcastAckTimer i e g) s = .next s)
      ∧ (∀ x : McastRx, (s.slab i).ready = true → entry = some x →
          (x.unacked = 0 ∨ s.cycle i < x.unackedAt + 2048 → exec (.mcastAckTimer i e g) s = .next s)
          ∧ (x.unacked ≠ 0 → x.unackedAt + 2048 ≤ s.cycle i → exec (.mcastAckTimer i e g) s = .next (s.ackPackets i x))))
  ∧ (∀ (s z : State) (i : SlabId) (p : Fin 16) (f : ZFrame) (g : Byte) (e : Half) (q : Word),
      (s.ctrlIn i p.val f 5 = (z, false) → exec (.detach i p f g e q) s = .next z)
      ∧ (Claims.ctrl s i p f 5 → e ≠ (s.slab i).links.endpoint → exec (.detach i p f g e q) s = .next (Claims.taken s i p f))
      ∧ (Claims.ctrl s i p f 5 → e = (s.slab i).links.endpoint →
          exec (.detach i p f g e q) s = .next ((Claims.taken s i p f).modSlab i (fun sl => { sl with links := { sl.links with
            mcastRx := sl.links.mcastRx.map (fun x =>
              if x.source = zSrc f.header ∧ x.group = g.toNat then { x with attached := false } else x) } }))))

/-- R332, R334, R336: an acknowledgement clears its target in every packet up to its SEQ; a packet not fully acknowledged goes again after
MCAST_RETRY to the targets that it still awaits; the source sends the frames of the packet that a detached target awaits, and gives
the catch-up up one step after the step of the detachment. A frame that repeats a packet is received as that packet. -/
def Claims.MulticastSourcesRetryAndCatchUp : Prop :=
  (∀ (s y : State) (i : SlabId) (p : Fin 16) (f : ZFrame) (g : Byte) (e : Half) (q : Word),
      let z := Claims.taken s i p f
      (s.ctrlIn i p.val f 4 = (y, false) → exec (.mcastAck i p f g e q) s = .next y)
      ∧ (Claims.ctrl s i p f 4 → e = (s.slab i).links.endpoint →
        exec (.mcastAck i p f g e q) s = .next (z.modSlab i (fun sl => sl.clearPending g.toNat (zSrc f.header) (fun y => !later y q))))
      ∧ (Claims.ctrl s i p f 4 → e ≠ (s.slab i).links.endpoint → exec (.mcastAck i p f g e q) s = .next z))
  ∧ (∀ (s : State) (i : SlabId) (e : Fin 16) (g : Byte) (q : Word) (k : McPacket),
      (((s.slab i).ready = false ∨ ∀ x ∈ (s.slab i).links.packets, ¬ (x.engine = e.val ∧ x.group = g.toNat ∧ x.seq = q)) →
        exec (.mcastRetry i e g q) s = .next s)
      ∧ ((s.slab i).ready = true → (s.slab i).links.packets = [k] → k.engine = e.val → k.group = g.toNat → k.seq = q →
        (s.cycle i < k.sentAt + fabric (s.slab i).links.mcastRetry → exec (.mcastRetry i e g q) s = .next s)
        ∧ (k.sentAt + fabric (s.slab i).links.mcastRetry ≤ s.cycle i → exec (.mcastRetry i e g q) s = .next (s.modSlab i (fun sl =>
            let y := k.pending.foldl (fun sl t => sl.sendFrames (sl.packetFrames t g.toNat q false k.payload)) sl
            (y.modLinks (fun l => { l with packets := l.packets.map (fun x =>
              if x.engine = e.val ∧ x.group = g.toNat ∧ x.seq = q then { x with sentAt := sl.clocks.cycle } else x) })).modEngine e.val
                (fun w => { w with counters := Counters.bump w.counters Ctr.MCAST_RETRIES 1 }))))))
  ∧ (∀ (s z : State) (i : SlabId) (p : Fin 16) (f : ZFrame),
      ((zType f.header ≠ 3 ∨ zCatchup f.header = false) → exec (.catchupFrame i p f) s = .next s)
      ∧ (zCatchup f.header = true → zType f.header = 3 → zSrc f.header ≠ (s.slab i).links.endpoint →
          (s.linkInOwn i p.val f 3 = (z, false) → exec (.catchupFrame i p f) s = .next z)
          ∧ (Claims.forThis s i p f 3 → exec (.catchupFrame i p f) s = .next ((Claims.taken s i p f).mcastFrame i p.val f)))
      ∧ (zCatchup f.header = true → zType f.header = 3 → zSrc f.header = (s.slab i).links.endpoint →
          ((s.slab i).ready = false → exec (.catchupFrame i p f) s = .next s)
          ∧ ((s.slab i).ready = true → exec (.catchupFrame i p f) s = .next (s.sendCatchup i p.val f)))
      ∧ ((s.slab i).mcGroup (zGroup f.header) = none → s.sendCatchup i p.val f = s)
      ∧ (∀ m : McastTx, (s.slab i).mcGroup (zGroup f.header) = some m →
          (m.detached.find? (fun x => decide (x.1 = zDest f.header)) = none → s.sendCatchup i p.val f = s)
          ∧ (∀ (t : Half) (q : Word) (n : DWord), m.detached.find? (fun x => decide (x.1 = zDest f.header)) = some (t, q, n) →
              (zSeq f.header ≠ q → s.sendCatchup i p.val f = s)
              ∧ (zSeq f.header = q → zMcLast f.header = false → s.sendCatchup i p.val f
                  = s.modSlab i (fun sl => sl.sendFrame (mkFrame f.header f.payload) false)))))
  ∧ (∀ (s : State) (i : SlabId) (g : Byte) (t : Half),
      (((s.slab i).ready = false ∨ (s.slab i).mcGroup g.toNat = none) → exec (.catchupAbandon i g t) s = .next s)
      ∧ (∀ m : McastTx, (s.slab i).ready = true → (s.slab i).mcGroup g.toNat = some m →
        (m.detached.find? (fun x => decide (x.1 = t)) = none → exec (.catchupAbandon i g t) s = .next s)
        ∧ (∀ (q : Word) (n : DWord), m.detached.find? (fun x => decide (x.1 = t)) = some (t, q, n) →
          let past := n.toNat + 1 < (s.job i).step.toNat ∨ (n.toNat + 1 = (s.job i).step.toNat ∧ (s.job i).inStep = false)
          (¬ past → exec (.catchupAbandon i g t) s = .next s)
          ∧ (past → exec (.catchupAbandon i g t) s = .next ((s.modSlab i (fun sl => sl.modMcGroup g.toNat (fun m =>
              { m with detached := m.detached.filter (fun x => decide (x.1 ≠ t)) }))).reportUnreachable i t 3)))))

/-- Off-module multicast at the target and at the source.
Model's choices: log 77, 87. -/
def Obligations.MulticastDeliversAcknowledgesAndRetries : Prop := Claims.MulticastTargetsDeliver ∧ Claims.MulticastSourcesRetryAndCatchUp

/-- R312, R313, R327, R338: a port whose oldest frame is unacknowledged for RETRY_TIMEOUT sends again, a silent link fails after
65,536 fabric cycles; a bucket or a summit part that is awaited too long has its peers asked and probed, and its timer starts
again. Before the timer nothing happens. -/
def Claims.TimersRetryProbeOrFail : Prop :=
  ∀ (s : State) (i : SlabId) (p : Fin 16), (s.slab i).ready = true →
    let x := (s.slab i).port p.val
    let l := (s.slab i).links
    (x.up = true → x.replay ≠ [] →
      (s.cycle i < x.oldestSent + 2 * l.retryTimeout → exec (.retryTimeout i p) s = .next s)
      ∧ (x.oldestSent + 2 * l.retryTimeout ≤ s.cycle i → exec (.retryTimeout i p) s
          = .next ((s.modSlab i (fun sl => sl.modPort p.val (fun x => x.resend (s.cycle i)))).checkResends i p.val)))
    ∧ (x.up = true →
        (s.cycle i < x.lastFrame + 131072 → exec (.linkSilenceTimeout i p) s = .next s)
        ∧ (x.lastFrame + 131072 ≤ s.cycle i → exec (.linkSilenceTimeout i p) s = .next (s.linkFail i p.val)))
    ∧ (∀ (c : Nat) (b : Half) (co : Collective) (k : Bucket), s.collective i c = some co →
        ((s.slab i).engine p.val).buckets.find? (fun x => decide (x.coll = c) && decide (x.bucket = b.toNat) && !x.complete) = some k →
        let g := (s.slab i).group co.group
        let late := (List.range g.ranks.length).filter (fun r => decide (r ≠ g.rank) && !(k.missing co.bb r).isEmpty)
        let z := late.foldl (fun s r =>
          let s := s.askResend i p.val co b.toNat k.epoch r (k.missing co.bb r)
          let s := if k.probes = 3 then s.reportUnreachable i (g.endpoint r) 0 else s
          s.sendProbe i (g.endpoint r) 0) s
        (s.cycle i < k.opened + 2 * k.timeout → exec (.collTimeout i p c b) s = .next s)
        ∧ (k.opened + 2 * k.timeout ≤ s.cycle i → exec (.collTimeout i p c b) s
            = .next (z.modSlab i (fun sl => sl.modEngine p.val (fun y => y.modBucket c b.toNat (fun v =>
                { v with probes := v.probes + 1, opened := sl.clocks.cycle
                         timeout := if 3 ≤ v.probes then maxTimer else v.timeout }))))))
    ∧ (l.contributed = true → l.result = none →
        let missing := match l.own with
          | some c => (s.awaitedParts i).filter (fun e => ((s.slab i).childPart e c.step).isNone)
          | none => ((s.slab i).summitGroup.bind summitParent).toList
        let z := missing.foldl (fun s e =>
          let s := if l.summitProbes = 3 then s.reportUnreachable i e 1 else s
          s.sendProbe i e 1) s
        (s.cycle i < l.summitSince + 2 * l.summitWait → exec (.summitTimeout i) s = .next s)
        ∧ (l.summitSince + 2 * l.summitWait ≤ s.cycle i → missing ≠ [] → exec (.summitTimeout i) s
            = .next (z.modSlab i (fun sl => sl.modLinks (fun y =>
                { y with summitProbes := y.summitProbes + 1, summitSince := sl.clocks.cycle
                         unreachable := y.unreachable || decide (y.summitProbes = 3)
                         summitWait := if 3 ≤ y.summitProbes then maxTimer else y.summitWait })))))

/-- R338, R339: PROBE is answered with ALIVE, which names the step, the window's state and SLOW_PITCHES; ALIVE is logged and
starts the timers that await its sender again; ADVISORY lengthens the step's timers and is relayed to the other neighbours. -/
def Claims.ProbesAreAnsweredAndAdvisoriesRelayed : Prop :=
  ∀ (s : State) (i : SlabId) (p : Fin 16) (f : ZFrame) (step : DWord) (a : Byte) (slow : Half),
    let j := s.job i
    let z := Claims.taken s i p f
    (Claims.ctrl s i p f 6 → exec (.probe i p f step a) s = .next (z.modSlab i (fun sl => sl.sendCtrl (zSrc f.header) 7
      (leBytes j.step.toNat 8 ++ [if j.state = .paused then 2 else if j.window.isSome then 1 else 0] ++ leBytes sl.links.slowPitches.toNat 2))))
    ∧ (∀ y : State, s.ctrlIn i p.val f 6 = (y, false) → exec (.probe i p f step a) s = .next y)
    ∧ (∀ y : State, s.ctrlIn i p.val f 7 = (y, false) → exec (.alive i p f step a slow) s = .next y)
    ∧ (Claims.ctrl s i p f 7 → (s.slab i).engines = [] → 0 < (s.slab i).links.summitProbes →
        exec (.alive i p f step a slow) s = .next ((z.logFault i { FaultEntry.basic 0x17 1 with
          node := zSrc f.header, detail := leBytes slow.toNat 2 }).modSlab i (fun sl => sl.modLinks (fun l =>
            { l with summitWait := aliveTimer l.summitWait l.summitTimeout l.summitProbes, summitProbes := 0
                     summitSince := sl.clocks.cycle, unreachable := false }))))
    ∧ (Claims.ctrl s i p f 7 → ∃ t : State, exec (.alive i p f step a slow) s = .next t ∧ (t.slab i).camp.logSeq = (s.slab i).camp.logSeq + 1)
    ∧ (Claims.ctrl s i p f 8 → exec (.advisory i p f step slow) s = .next (z.modSlab i (fun sl =>
        let y := sl.heardSlow slow
        ({ y with counters := Counters.bump y.counters Ctr.SLOW_ADVISORIES 1 } : Slab).sendAdvisory step (some (zSrc f.header)))))

/-- R306, R308, R313: an enabled port with a cable whose lanes train sends HELLO, after a failure in a maintenance pitch alone; with the
neighbour's HELLO the link is up, its numbers start afresh and every quota is owed as credits. A lane map takes its form into use, or fails the link; a lane failure removes the
lane at this end; the end of an error window notes the marginal lanes. -/
def Claims.PortsTrainAndDropLanes : Prop :=
  ∀ (s : State) (i : SlabId) (p : Fin 16), (s.slab i).ready = true →
    let x := (s.slab i).port p.val
    (x.enabled = true → x.cable = true → x.training = true → x.up = false → x.retrain = false → laneForm x.working ≠ 0 →
      exec (.portTrainingDone i p) s = .next (s.modSlab i (fun sl => sl.modPort p.val (fun y =>
        { y with helloSent := true, training := false, retrain := false, working := x.working, lanes := laneForm x.working }))))
    ∧ (x.enabled = true → x.cable = true → x.training = true → x.up = false → x.retrain = true →
        let (v, z) := s.takeFree 256
        let w := x.working ||| BitVec.ofNat 8 v
        (((s.root i).kind ≠ .maint ∨ laneForm w = 0) → exec (.portTrainingDone i p) s = .next z)
        ∧ ((s.root i).kind = .maint → laneForm w ≠ 0 → exec (.portTrainingDone i p) s = .next (z.modSlab i (fun sl =>
            sl.modPort p.val (fun y => { y with helloSent := true, training := false, retrain := false, working := w, lanes := laneForm w })))))
    ∧ (∀ (f : ZFrame) (e : Half) (q : BitVec 4) (m : Byte), x.enabled = true → x.cable = true → x.up = false →
        (x.helloSent = false → exec (.hello i p f e q m) s = .next s)
        ∧ (x.helloSent = true → exec (.hello i p f e q m) s = .next ((s.modSlab i (fun sl => sl.modPort p.val (fun x =>
            { x with helloGot := true, neighbour := e, neighbourPort := q, up := true, txSeq := 0, rxSeq := 0, rq := false
                     resends := 0, replay := [], lastFrame := sl.clocks.cycle, owed := x.quotas
                     credits := List.replicate 8 0, marginal := 0 }))).linkEvent i p.val)))
    ∧ (∀ (f : ZFrame) (lanes : BitVec 8), Claims.inOrder s i p f 5 →
        let z := Claims.taken s i p f
        (laneForm lanes = 0 → exec (.laneMap i p f lanes) s = .next (z.linkFail i p.val))
        ∧ (laneForm lanes ≠ 0 → exec (.laneMap i p f lanes) s = .next ((z.modSlab i (fun sl => sl.modPort p.val (fun x =>
            { x with working := lanes, lanes := laneForm lanes }))).linkEvent i p.val)))
    ∧ (∀ lane : Fin 8, x.up = true →
        (x.working.getLsbD lane.val = false → exec (.zetraLaneFailure i p lane) s = .next s)
        ∧ (x.working.getLsbD lane.val = true → exec (.zetraLaneFailure i p lane) s = .next (s.laneFail i p.val lane.val)))
    ∧ (∀ m : BitVec 8, x.up = true → exec (.zetraLaneErrorWindow i p m) s = .next (s.modSlab i (fun sl => sl.modPort p.val (fun x =>
        { x with marginal := x.marginal ||| (m &&& x.working), uncorrectable := [] }))))
    ∧ (laneForm 0xFF = 0xFF ∧ laneForm 0xFE = 0xFE ∧ laneForm 0xEE = 0xEE ∧ laneForm 0xFC = 0xF0 ∧ laneForm 0xCF = 0x0F
        ∧ laneForm 0x77 = 0x77 ∧ laneForm 0x7C = 0)

/-- R323: an uncorrectable slot empties its engine but for landed buckets. A hold with code 0x0D is requested when the engine held the
device's own part of the open window, else the error is logged. -/
def Claims.SlotErrorsEmptyTheEngine : Prop :=
  ∀ (s : State) (i : SlabId) (e : Fin 16), (s.slab i).ready = true → (∀ b ∈ ((s.slab i).engine e.val).buckets, b.landed = true) →
    let z := s.modSlab i (fun sl => (sl.modEngine e.val (fun y =>
      { y with staged := [], retained := [], resendAt := none, buckets := y.buckets.filter Bucket.landed })).modLinks (fun l =>
        { l with packets := l.packets.filter (fun p => decide (p.engine ≠ e.val)) }))
    (s.ownPart i e.val = true → exec (.reduceSlotError i e) s = .next (z.raise i 0x0D (some ⟨e.val % 24, Nat.mod_lt _ (by decide)⟩)))
    ∧ (s.ownPart i e.val = false → exec (.reduceSlotError i e) s
        = .next (z.logFault i { FaultEntry.basic 0x0D 1 with node := unitNode i 4 e.val, aux := BitVec.ofNat 8 e.val }))

/-- R63, R179, R180: in joined mode a failed col lane, belay pair or crossing is noted once, counted and logged, and its traffic moves
to another; the last lane lost ends what the device can do without the host. With the last pair the belays move to the sideband of the
lowest working lane, and on with each failure of that lane: a move is one event more. In split mode a lane or a pair is not in use. -/
def Claims.ColFailuresAreNotedOnce : Prop :=
  ∀ (s : State), s.slab0.ready = true →
    (∀ n : Fin 96, n ∉ s.shared.colLanes → (∀ k : Fin 96, k < n → k ∈ s.shared.colLanes) →
      let c := { s.shared with belayLane := some n.val, counters := Counters.bump s.shared.counters Ctr.COL_BELAY_EVENTS 1 }
      s.moveBelay = ({ s with shared := c } : State).logFault .s0 { FaultEntry.basic 0x10 1 with aux := BitVec.ofNat 8 n.val })
    ∧ (∀ l : Fin 96,
      ((l ∈ s.shared.colLanes ∨ s.shared.mode = .split) → exec (.colLaneFailure l) s = .next s)
      ∧ (l ∉ s.shared.colLanes → s.shared.mode = .joined →
          let c := { s.shared with colLanes := s.shared.colLanes ++ [l], counters := Counters.bump s.shared.counters Ctr.COL_LANE_FAILURES 1 }
          let y := (({ s with shared := c } : State).modSlab .s0 Slab.mapChanged).logFault .s0
            { FaultEntry.basic 0x0F 1 with aux := BitVec.ofNat 8 l.val, map := true, hold := decide (95 ≤ s.shared.colLanes.length) }
          let z := if s.shared.belayLane = some l.val then y.moveBelay else y
          (s.shared.colLanes.length < 95 → exec (.colLaneFailure l) s = .next z)
          ∧ (95 ≤ s.shared.colLanes.length → exec (.colLaneFailure l) s
              = .next ((z.modJob .s0 (fun j => { j with colLost := true })).raise .s0 0x0F none))))
    ∧ (∀ p : Fin 4,
        ((p ∈ s.shared.belayPairs ∨ s.shared.mode = .split) → exec (.colBelayPairFailure p) s = .next s)
        ∧ (p ∉ s.shared.belayPairs → s.shared.mode = .joined →
            let c := { s.shared with belayPairs := s.shared.belayPairs ++ [p], counters := Counters.bump s.shared.counters Ctr.COL_BELAY_EVENTS 1 }
            let z := ({ s with shared := c } : State).logFault .s0 { FaultEntry.basic 0x10 1 with aux := BitVec.ofNat 8 p.val }
            exec (.colBelayPairFailure p) s = .next (if 3 ≤ s.shared.belayPairs.length then z.moveBelay else z)))
    ∧ (∀ c : Fin 8,
        (c ∈ s.shared.crossings → exec (.colCrossingFailure c) s = .next s)
        ∧ (c ∉ s.shared.crossings → exec (.colCrossingFailure c) s
            = .next (({ s with shared := { s.shared with crossings := s.shared.crossings ++ [c] } } : State).logFault .s0
                { FaultEntry.basic 0x10 1 with aux := BitVec.ofNat 8 c.val })))

/-- The ports of a slab and their links.
Model's choices: log 12, 81, 82. -/
def Obligations.LinksTrainAndTakeFrames : Prop := Claims.LinkTakesFramesInOrder ∧ Claims.PortsTrainAndDropLanes ∧ Claims.SlotErrorsEmptyTheEngine

/-- Frames in transit and at their window.
Model's choices: log 84, 88. -/
def Obligations.FramesFollowRoutesAndWindows : Prop := Claims.TransitFramesFollowTheirRoute ∧ Claims.WindowFramesAreCheckedThenServed

/-- Timers, probes and advisories.
Model's choices: log 85, 86, 108. -/
def Obligations.TimersAndProbesFollowTheirTables : Prop := Claims.TimersRetryProbeOrFail ∧ Claims.ProbesAreAnsweredAndAdvisoriesRelayed

/-- The col between the slabs.
Model's choices: log 36, 37. -/
def Obligations.ColCarriesMessagesAndFailures : Prop := Claims.ColMessagesReachThePeer ∧ Claims.ColFailuresAreNotedOnce

/-! ## Mailbox commands (chapters 14 to 17) -/

/-- R392 to R398, R31: a mailbox command whose request is not the next to be taken up, or which names another opcode, does nothing;
one that a check turns away is answered with the status of the first check that fails, DONE is set, PENDING cleared and the
vector signalled, and nothing but the mailbox and its function's counters changes.
Model's choices: log 90, 91. -/
def Obligations.RequestsAreTakenInOrderOrTurnedAway : Prop :=
  ∀ (s : State) (c : Instr) (fn : SlabId) (m : Fin 4) (op : Nat) (pick : Request → Bool), mailboxRow c = some (fn, m, op, pick) →
    let r := ((s.func fn).mailbox m).take
    ((s.takesUp fn m = false ∨ r.opcode ≠ op ∨ pick r = false) → exec c s = .next s)
    ∧ (∀ st : Byte, s.takesUp fn m = true → r.opcode = op → pick r = true → s.refusal fn m r = some st →
        exec c s = .next (s.respond fn m r st [])
        ∧ ((s.respond fn m r st []).func fn |>.mailbox m).done = true ∧ ((s.respond fn m r st []).func fn |>.mailbox m).pending = false
        ∧ ((s.respond fn m r st []).func fn |>.mailbox m).lastTag = r.tag
        ∧ (s.respond fn m r st []).slab0 = s.slab0 ∧ (s.respond fn m r st []).slab1 = s.slab1
        ∧ (s.respond fn m r st []).shared = s.shared ∧ (s.respond fn m r st []).hostMem = s.hostMem)
    ∧ (s.tagInUse fn m r.tag = true → s.refusal fn m r = some stBadArg)
    ∧ (s.tagInUse fn m r.tag = false → 64 ≤ ((s.func fn).mailbox m).outstanding → s.refusal fn m r = some stBusy)

/-- Tables 15.7 and 15.12: IDENTIFY and GET_STATUS answer OK with their fields; TELEMETRY answers its items; ATTEST and GET_CERT answer
the report and the certificates, and AUTH_FAIL when the identity or the device key fails its check. -/
def Claims.StateIsReported : Prop :=
  ∀ (s : State) (fn : SlabId) (m : Fin 4) (r : Request),
    (s.Runs fn m 0x01 r → exec (.identify fn m) s = .next (s.answer fn m r ((s.slab fn).identity fn) []))
    ∧ (s.Runs fn m 0x02 r → exec (.getStatus fn m) s = .next (s.answer fn m r (s.statusBytes fn) []))
    ∧ (s.Runs fn m 0x50 r → 1 ≤ r.arg 0 2 → r.arg 0 2 ≤ 2031 → (r.arg 0 2 ≤ 254 ∨ r.hostbuf = true) →
        let p := s.takeFree (2 ^ 32)
        exec (.telemetry fn m) s = .next (p.2.answer fn m r []
          (((List.range (r.arg 0 2)).map (fun k => r.arg (2 + 2 * k) 2)).flatMap (fun id => itemBytes id (s.item fn p.1 id)))))
    ∧ (s.Runs fn m 0x50 r → (r.arg 0 2 = 0 ∨ 2031 < r.arg 0 2) → exec (.telemetry fn m) s = .next (s.respond fn m r stBadArg []))
    ∧ (s.Runs fn m 0x80 r → (s.slab fn).camp.identityBad = false → (s.slab fn).camp.keyMismatch = false →
        exec (.attest fn m) s = .next (s.answer fn m r (leBytes 642 4)
          (s.report fn r.payload ++ padTo 114 (Config.deviceSign fn.num (s.report fn r.payload)))))
    ∧ (s.Runs fn m 0x80 r → ((s.slab fn).camp.identityBad = true ∨ (s.slab fn).camp.keyMismatch = true) →
        exec (.attest fn m) s = .next (s.respond fn m r stAuthFail []))
    ∧ (let fl := (s.slab fn).camp.flash
       s.Runs fn m 0x81 r →
        (r.arg 0 1 = 0 → exec (.getCert fn m) s = .next (s.answer fn m r (leBytes fl.deviceCert.length 2 ++ fl.deviceCert) []))
        ∧ (r.arg 0 1 = 1 → exec (.getCert fn m) s = .next (s.answer fn m r (leBytes fl.issuingCert.length 2 ++ fl.issuingCert) []))
        ∧ (2 ≤ r.arg 0 1 → exec (.getCert fn m) s = .next (s.respond fn m r stNotFound [])))

/-- R360, R362, R402, R403: LEDGER_READ and FAULT_LOG_READ give the records from a step or SEQ on, in order, or the fault map;
COUNTERS_READ gives each counter's value, its overflow bit, or the mark of a counter that does not exist; COUNTERS_CLEAR clears. -/
def Claims.RecordsAreRead : Prop :=
  ∀ (s : State) (fn : SlabId) (m : Fin 4) (r : Request),
    (s.Runs fn m 0x40 r → 1 ≤ r.arg 8 2 → r.arg 8 2 ≤ 256 → (r.arg 8 2 ≤ 31 ∨ r.hostbuf = true) →
      let all := (s.slab fn).camp.sortedLedger
      let rs := (all.filter (fun x => decide (r.arg 0 8 ≤ x.step.toNat))).take (r.arg 8 2)
      exec (.ledgerRead fn m) s = .next (({ s with free := s.free + 2 * rs.length } : State).answer fn m r
        (leBytes rs.length 2 ++ List.replicate 6 0 ++ leBytes (stepOf all.head?) 8 ++ leBytes (stepOf all.getLast?) 8)
        (rs.zipIdx.flatMap (fun p => p.1.bytes (s.free + 2 * p.2)))))
    ∧ (s.Runs fn m 0x40 r → (r.arg 8 2 = 0 ∨ 256 < r.arg 8 2) → exec (.ledgerRead fn m) s = .next (s.respond fn m r stBadArg []))
    ∧ (s.Runs fn m 0x41 r → r.arg 1 1 = 0 → r.arg 4 4 = 0 → r.arg 0 1 = 0 → 1 ≤ r.arg 2 2 → r.arg 2 2 ≤ 4096 →
        (r.arg 2 2 ≤ 31 ∨ r.hostbuf = true) →
        let es := ((s.slab fn).camp.faultLog.filter (fun e => decide (r.arg 8 8 ≤ e.seq.toNat))).take (r.arg 2 2)
        exec (.faultLogRead fn m) s = .next (s.answer fn m r (leBytes es.length 4 ++ leBytes 0 4
          ++ leBytes (es.head?.elim allOnes64 (fun e => e.seq)).toNat 8) (es.flatMap FaultEntry.bytes)))
    ∧ (s.Runs fn m 0x41 r → r.arg 1 1 = 0 → r.arg 4 4 = 0 → r.arg 0 1 = 1 → r.hostbuf = true →
        exec (.faultLogRead fn m) s = .next (s.answer fn m r (leBytes (s.mapBytes fn).length 4 ++ leBytes 0 4 ++ leBytes allOnes64.toNat 8)
          (s.mapBytes fn)))
    ∧ (s.Runs fn m 0x42 r → s.countersArgOk fn r = true → (r.arg 4 2 ≤ 508 ∨ r.hostbuf = true) →
        exec (.countersRead fn m) s = .next (s.answer fn m r []
          (r.ids.flatMap (fun id => leBytes (counterValue (s.counterAt fn (r.arg 0 1) (r.arg 1 1) (r.arg 2 2) id)) 8))))
    ∧ (s.Runs fn m 0x42 r → s.countersArgOk fn r = false → exec (.countersRead fn m) s = .next (s.respond fn m r stBadArg []))
    ∧ (s.Runs fn m 0x43 r → s.countersArgOk fn r = true → exec (.countersClear fn m) s
        = .next ((r.ids.foldl (fun s id => s.clearAt fn (r.arg 0 1) (r.arg 1 1) (r.arg 2 2) id) s).respond fn m r stOk []))

/-- The commands that report and read.
Model's choices: log 91, 92, 93, 94, 95. -/
def Obligations.ReportsAnswerTheirFields : Prop := Claims.StateIsReported ∧ Claims.RecordsAreRead

/-- R370, R371, R381: an image that passes stages 1 and 2 is accepted and comes in, stage 3 installs it and completes the command; one
that fails, or a load whose pages are gone, completes with its status and leaves the device as it was. VERIFY_IMAGE changes no
more than its mailbox; UNLOAD empties a loaded device. -/
def Claims.ImagesAreCheckedThenInstalled : Prop :=
  ∀ (s : State) (fn : SlabId) (m : Fin 4) (r : Request) (bulk bs : List Byte),
    (s.Runs fn m 0x10 r → r.unload = false → s.shared.mode = .split → s.imageInput fn r bulk = some bs →
      (∀ e, s.checkImage fn bs (r.arg 0 8) true = .error e → exec (.loadImage fn m bulk) s = .next (s.rejectImage fn m r bs e))
      ∧ (∀ im n, s.checkImage fn bs (r.arg 0 8) true = .ok (im, n) → exec (.loadImage fn m bulk) s
          = .next ((s.modJob fn (fun j => { j with incoming := some im })).accept fn m r stAccepted true (loadDetail n noSection noOffset im.digest))))
    ∧ (s.Runs fn m 0x10 r → r.unload = false → s.imageInput fn r bulk = none → s.shared.mode = .split →
        exec (.loadImage fn m bulk) s = .next (s.respond fn m r stBadArg []))
    ∧ (s.Runs fn m 0x11 r → s.imageInput fn r bulk = some bs →
        (∀ e, s.checkImage fn bs (r.arg 0 8) false = .error e → exec (.verifyImage fn m bulk) s = .next (s.rejectImage fn m r bs e))
        ∧ (∀ im n, s.checkImage fn bs (r.arg 0 8) false = .ok (im, n) → exec (.verifyImage fn m bulk) s
            = .next ((s.accept fn m r stAccepted true (loadDetail n noSection noOffset im.digest)).complete fn r.tag stOk
                (loadDetail n noSection noOffset im.digest))))
    ∧ (∀ im : Image, (s.slab fn).camp.firmware = .running → (s.slab fn).job.incoming = some im →
        (∀ t, s.installImage fn im = some t → exec (.loadImageComplete fn) s
          = .next ((t.modSlab fn (fun sl => { sl with counters := Counters.bump sl.counters Ctr.IMAGE_LOADS 1 })).completeAll fn 0x10))
        ∧ (s.installImage fn im = none → (∀ o ∈ (s.func fn).outstanding, o.opcode ≠ 0x10) → exec (.loadImageComplete fn) s
            = .next ((s.modJob fn (fun j => { j with incoming := none })).modSlab fn (fun sl =>
                { sl with counters := Counters.bump sl.counters Ctr.IMAGE_REJECTS 1 }))))
    ∧ (s.Runs fn m 0x10 r → r.unload = true → r.payload = List.replicate 16 0 → r.hostbuf = false → r.bar2 = false →
        ((s.job fn).state = .loaded → exec (.loadImageUnload fn m) s = .next ((s.unloadImage fn).respond fn m r stOk []))
        ∧ ((s.job fn).state = .empty → exec (.loadImageUnload fn m) s = .next (s.respond fn m r stOk []))
        ∧ ((s.job fn).state = .paused → exec (.loadImageUnload fn m) s = .next (s.respond fn m r stRefusedState [])))

/-- R203, R353, R376, R381, R387: MAP_OBJECT reserves, maps and fills an object or answers NO_SPACE or BAD_ARG, and its completion
follows; UNMAP_OBJECT and PLACE_HINT act on a mapped object, and a number that is not mapped is NOT_FOUND; copies that the hint no
longer asks for leave residence; the host writes whole pages of CONST objects and lost pages while no step runs, copies included. -/
def Claims.ObjectsAreMappedAndWritten : Prop :=
  ∀ (s : State) (fn : SlabId) (m : Fin 4) (r : Request) (bulk data : List Byte),
    (s.Runs fn m 0x20 r →
      let o := parseObject r.payload
      (s.mapArgOk fn o r.payload = false → exec (.mapObject fn m bulk) s = .next (s.respond fn m r stBadArg []))
      ∧ (s.mapArgOk fn o r.payload = true → s.mapData fn r bulk o = some data →
          (s.mapObjects fn [o] = none → exec (.mapObject fn m bulk) s = .next (s.respond fn m r stNoSpace []))
          ∧ (∀ t, s.mapObjects fn [o] = some t → exec (.mapObject fn m bulk) s = .next ((t.fillObject fn o data).accept fn m r stAccepted true
              (leBytes o.pages 4 ++ leBytes (t.parityFrames fn - s.parityFrames fn) 4)))))
    ∧ ((s.slab fn).camp.firmware = .running → exec (.mapObjectComplete fn) s = .next (s.completeAll fn 0x20))
    ∧ ((s.slab fn).camp.firmware ≠ .running → exec (.mapObjectComplete fn) s = .next s)
    ∧ (s.Runs fn m 0x21 r →
        (s.objectNo fn (r.arg 0 2) = none → exec (.unmapObject fn m) s = .next (s.respond fn m r stNotFound []))
        ∧ (∀ o, s.objectNo fn (r.arg 0 2) = some o →
            (s.imageNames fn o.object = true → exec (.unmapObject fn m) s = .next (s.respond fn m r stRefusedState []))
            ∧ (s.imageNames fn o.object = false → exec (.unmapObject fn m) s = .next ((s.unmapObject fn o).respond fn m r stOk []))))
    ∧ (s.Runs fn m 0x22 r →
        (s.objectNo fn (r.arg 0 2) = none → exec (.placeHint fn m) s = .next (s.respond fn m r stNotFound []))
        ∧ (∀ o, s.objectNo fn (r.arg 0 2) = some o → classOk { o with hint := r.arg 2 1 } = true → r.arg 3 1 ≤ 7 →
            exec (.placeHint fn m) s = .next (((s.modSlab (s.objectSlab fn o) (fun sl => sl.modMem (fun x =>
              { x with hints := x.hints.filter (fun y => decide (y.1 ≠ o.object)) ++ [(o.object, r.arg 2 1, r.arg 3 1)] }))).dropUnhinted fn o
                (r.arg 2 1)).respond fn m r stOk [])))
    ∧ (∀ (o : ObjectEntry) (hint : Nat) (k : SlabId) (p : (Nat × Nat × Nat) × Nat × DWord) (q : SlabId) (e : DWord),
        k ∈ s.devSlabs fn → p ∈ (s.slab k).mem.residence → o.base ≤ p.2.1 * 2097152 → p.2.1 * 2097152 < o.base + o.size →
        s.pte fn p.2.1 = some (q, e) → ¬ (pteRes e = 1 ∧ hint = 2) → ¬ (2 ≤ pteRes e ∧ hint = 1) →
        p.1 ∈ ((s.dropUnhinted fn o hint).slab k).mem.dropping)
    ∧ (∀ vpn : BitVec 27, (s.hostMayWrite fn vpn.toNat = false ∨ data.length ≠ 2097152) → exec (.hostPageWrite fn vpn data) s = .next s)
    ∧ (∀ (vpn : BitVec 27) (k : SlabId) (e : DWord), s.dev fn = fn → data.length = 2097152 → (s.slab fn).camp.firmware = .running →
        s.hostMayWrite fn vpn.toNat = true → s.pte fn vpn.toNat = some (k, e) →
        let z := if (s.slab k).stackUp (pteStack e) = true then s else s.rehome k vpn.toNat e
        exec (.hostPageWrite fn vpn data) s = .next ((((z.writeRange fn (vpn.toNat * 2097152) data).refill fn vpn.toNat).modJob fn (fun j =>
          { j with lostPages := j.lostPages.filter (fun x => decide (x ≠ vpn.toNat)) })).restored fn))
    ∧ (∀ v : Nat, (∀ k ∈ s.devSlabs fn, ∀ p ∈ (s.slab k).mem.residence, p.2.1 ≠ v) → s.refill fn v = s)

/-- The commands that load images, map objects and write pages.
Model's choices: log 65, 66, 67, 68, 69, 70. -/
def Obligations.ImagesAndObjectsTakeTheirPlace : Prop := Claims.ImagesAreCheckedThenInstalled ∧ Claims.ObjectsAreMappedAndWritten

/-- R382 to R387: JOB_START begins step 0 of a loaded image whose groups are configured; a pause, a resume and a stop change the job's
state, the pause and the stop at a step boundary; a pause for the host waits only for the missing result, marks its step and asks the
host; STEP_CONTROL puts its settings to a step, to the next one when that step has begun.
Model's choices: log 51, 71, 72, 73. -/
def Obligations.JobCommandsMoveTheJob : Prop :=
  ∀ (s : State) (fn : SlabId) (m : Fin 4) (r : Request),
    let j := s.job fn
    (s.Runs fn m 0x30 r → (s.image fn = none ∨ j.needsHost = true) → exec (.jobStart fn m) s = .next (s.respond fn m r stRefusedState []))
    ∧ (∀ im, s.Runs fn m 0x30 r → s.image fn = some im → j.needsHost = false →
      ((s.groupsCover fn im && s.mcastReady fn im) = false → exec (.jobStart fn m) s = .next (s.respond fn m r stBadArg []))
      ∧ (s.groupsCover fn im = true → s.mcastReady fn im = true →
          exec (.jobStart fn m) s = .next ((s.startJob fn im (BitVec.ofNat 64 (r.arg 0 8))).respond fn m r stOk [])))
    ∧ (s.Runs fn m 0x31 r →
        (j.state = .running → exec (.jobPause fn m) s = .next ((s.setJobState fn .pausing .host).accept fn m r stAccepted true []))
        ∧ (j.state ≠ .running → j.reason = .selfTest → exec (.jobPause fn m) s = .next ((s.setJobState fn j.state .host).respond fn m r stOk []))
        ∧ (j.state ≠ .running → j.reason ≠ .selfTest → exec (.jobPause fn m) s = .next (s.respond fn m r stOk [])))
    ∧ (s.Runs fn m 0x32 r →
        (j.state ≠ .pausing → j.state ≠ .paused → exec (.jobResume fn m) s = .next (s.respond fn m r stOk []))
        ∧ (j.state = .pausing → (j.reason ≠ .host ∨ j.hostPause = true) → exec (.jobResume fn m) s = .next (s.respond fn m r stOk []))
        ∧ (j.state = .pausing → j.reason = .host → j.hostPause = false → s.forcedWaits fn = true → exec (.jobResume fn m) s
            = .next (((s.setJobState fn .pausing .selfTest).completeAll (s.jobFn fn) 0x31).respond fn m r stOk []))
        ∧ (j.state = .pausing → j.reason = .host → j.hostPause = false → s.forcedWaits fn = false →
            exec (.jobResume fn m) s = .next (((s.setJobState fn .running .none).completeAll (s.jobFn fn) 0x31).respond fn m r stOk []))
        ∧ (j.state = .paused → j.reason = .host → j.needsHost = false →
            exec (.jobResume fn m) s = .next ((s.resumeJob fn).respond fn m r stOk []))
        ∧ (j.state = .paused → (j.reason ≠ .host ∨ j.needsHost = true) →
            exec (.jobResume fn m) s = .next (s.respond fn m r stRefusedState [])))
    ∧ (s.Runs fn m 0x33 r → r.force = false →
        (j.state = .loaded ∨ j.state = .empty → exec (.jobStop fn m) s = .next (s.respond fn m r stOk []))
        ∧ (j.state = .stopping → exec (.jobStop fn m) s = .next (s.accept fn m r stAccepted true []))
        ∧ (j.state = .paused → exec (.jobStop fn m) s = .next ((s.endJob fn).respond fn m r stOk []))
        ∧ (j.state = .running ∨ j.state = .pausing →
            exec (.jobStop fn m) s = .next ((s.setJobState fn .stopping .none).accept fn m r stAccepted true [])))
    ∧ (s.Runs fn m 0x33 r → r.force = true →
        (j.state = .loaded ∨ j.state = .empty → exec (.jobStopForce fn m) s = .next (s.respond fn m r stOk []))
        ∧ (j.state = .paused → exec (.jobStopForce fn m) s = .next ((s.endJob fn).respond fn m r stOk []))
        ∧ (j.state = .stopping → exec (.jobStopForce fn m) s = .next (((s.modJob fn (fun j => { j with stopAsked := true })).raise
            (s.dev fn) 0x19 none).accept fn m r stAccepted true []))
        ∧ (j.state = .running ∨ j.state = .pausing → exec (.jobStopForce fn m) s
            = .next ((((s.setJobState fn .stopping .none).modJob fn (fun j => { j with stopAsked := true })).raise (s.dev fn) 0x19 none).accept
                fn m r stAccepted true [])))
    ∧ (s.Runs fn m 0x34 r → s.stepArgOk fn r = true →
        let asked : DWord := BitVec.ofNat 64 (r.arg 0 8)
        let n : DWord := if j.inStep = true ∧ asked = j.step then asked + 1 else asked
        exec (.stepControl fn m) s = .next ((s.modJob fn (fun j => { j with
          settings := (requestSettings r).foldl (fun l x => putSetting l n x) j.settings })).respond fn m r stOk (leBytes n.toNat 8)))
    ∧ (s.Runs fn m 0x34 r → s.stepArgOk fn r = false → exec (.stepControl fn m) s = .next (s.respond fn m r stBadArg []))
    ∧ (let d := s.dev fn
       let jd := s.job d
       (s.slab d).camp.firmware = .running →
        (jd.state = .stopping → s.boundaryReached d (jd.stopAsked || jd.needsHost) = true →
          exec (.jobStopEnd fn) s = .next ((((s.endJob d).beginForced d).completeAll (s.jobFn d) 0x31).completeAll (s.jobFn d) 0x33))
        ∧ ((jd.state ≠ .stopping ∨ s.boundaryReached d (jd.stopAsked || jd.needsHost) = false) → exec (.jobStopEnd fn) s = .next s)
        ∧ (jd.state ≠ .pausing ∨ s.boundaryReached d jd.hostPause = false → exec (.pausedEntry fn) s = .next s)
        ∧ (jd.state = .pausing → jd.hostPause = false → s.boundaryReached d false = true →
            let z := ((s.closeSteps d true).nextEpoch d).modJob d (fun j => { j with primed := [], hostPause := false, ranOut := false })
            exec (.pausedEntry fn) s = .next ((((z.setJobState d .paused jd.reason).modSlab d (fun sl =>
              { sl with counters := Counters.bump sl.counters Ctr.JOB_PAUSES 1 })).beginForced d).completeAll (s.jobFn d) 0x31))
        ∧ (jd.state = .pausing → jd.hostPause = true → s.boundaryReached d true = true →
            let z := ((s.closeSteps d true).nextEpoch d).modJob d (fun j => { j with primed := [], hostPause := false, ranOut := false })
            let z := z.modLedger d jd.step (fun x => { x with phases := x.phases ||| 64 })
            exec (.pausedEntry fn) s = .next (((((z.setJobState d .paused (if jd.needsHost then jd.hostReason else jd.reason)).modSlab d (fun sl =>
              { sl with counters := Counters.bump sl.counters Ctr.JOB_PAUSES 1 })).askHost d jd.step).beginForced d).completeAll (s.jobFn d) 0x31)))
    ∧ ((s.slab (s.dev fn)).camp.firmware ≠ .running → exec (.jobStopEnd fn) s = .next s ∧ exec (.pausedEntry fn) s = .next s)

/-- R332, R333, R334, R335, R336: where the commands of off-module multicast take place: a frame, an acknowledgement or a detachment that is
next in order at its port, a source's own catch-up frame, and a retry, an acknowledgement or an abandonment whose time has come. -/
def Claims.MulticastCommandsComplete : Prop :=
  ∀ (s : State) (i : SlabId) (p e : Fin 16) (f : ZFrame) (g : Byte) (w : Half) (q : Word) (m : McastTx) (x : McastRx) (k : McPacket) (n : DWord),
    (zCatchup f.header = false → Claims.forThis s i p f 3 → ∃ t, exec (.zetraMcastFrame i p f) s = .next t ∧ t.pending = s.pending)
    ∧ (zCatchup f.header = true → zSrc f.header ≠ (s.slab i).links.endpoint → Claims.forThis s i p f 3 →
        ∃ t, exec (.catchupFrame i p f) s = .next t ∧ t.pending = s.pending)
    ∧ (zCatchup f.header = true → zType f.header = 3 → zSrc f.header = (s.slab i).links.endpoint → (s.slab i).ready = true →
        ∃ t, exec (.catchupFrame i p f) s = .next t ∧ t.pending = s.pending)
    ∧ (Claims.ctrl s i p f 4 → ∃ t, exec (.mcastAck i p f g (s.slab i).links.endpoint q) s = .next t
        ∧ ∀ y ∈ (t.slab i).links.packets, y.group = g.toNat → later y.seq q = false → zSrc f.header ∉ y.pending)
    ∧ (Claims.ctrl s i p f 5 → ∃ t, exec (.detach i p f g (s.slab i).links.endpoint q) s = .next t
        ∧ ∀ y ∈ (t.slab i).links.mcastRx, y.source = zSrc f.header → y.group = g.toNat → y.attached = false)
    ∧ ((s.slab i).ready = true → (s.slab i).links.packets = [k] → k.engine = e.val → k.group = g.toNat → k.seq = q →
        k.sentAt + 2 * (s.slab i).links.mcastRetry ≤ s.cycle i →
        ∃ t, exec (.mcastRetry i e g q) s = .next t ∧ (t.slab i).links.packets = [{ k with sentAt := s.cycle i }])
    ∧ ((s.slab i).ready = true → (s.slab i).links.mcastRx = [x] → x.source = w → x.group = g.toNat → x.unacked ≠ 0 →
        x.unackedAt + 2048 ≤ s.cycle i →
        ∃ t, exec (.mcastAckTimer i w g) s = .next t ∧ (t.slab i).links.mcastRx = [{ x with unacked := 0 }])
    ∧ ((s.slab i).ready = true → (s.slab i).links.mcastTx = [(g.toNat, m)] → m.detached = [(w, q, n)] → n.toNat + 1 < (s.job i).step.toNat →
        ∃ t, exec (.catchupAbandon i g w) s = .next t ∧ (t.slab i).links.mcastTx = [(g.toNat, { m with detached := [] })])

/-- R382, R383, R384, R385: the state in which each job command leaves the job when it takes place. -/
def Claims.JobCommandsReachTheirState : Prop :=
  ∀ (s : State) (fn : SlabId) (m : Fin 4) (r : Request) (im : Image),
    let j := s.job fn
    let ends (c : Instr) (st : JobState) : Prop := ∃ t, exec c s = .next t ∧ (t.job fn).state = st
    (s.Runs fn m 0x30 r → s.image fn = some im → j.needsHost = false → s.groupsCover fn im = true → s.mcastReady fn im = true →
      ends (.jobStart fn m) .running)
    ∧ (s.Runs fn m 0x31 r → j.state = .running → ends (.jobPause fn m) .pausing)
    ∧ (s.Runs fn m 0x32 r → j.state = .paused → j.reason = .host → j.needsHost = false → ends (.jobResume fn m) .running)
    ∧ (s.Runs fn m 0x33 r → r.force = false → j.state = .running → ends (.jobStop fn m) .stopping)
    ∧ (s.Runs fn m 0x33 r → r.force = false → j.state = .paused → ends (.jobStop fn m) .loaded)
    ∧ (s.Runs fn m 0x33 r → r.force = true → j.state = .running → ends (.jobStopForce fn m) .stopping)
    ∧ (s.Runs fn m 0x34 r → s.stepArgOk fn r = true → ends (.stepControl fn m) j.state)
    ∧ (s.dev fn = fn → (s.slab fn).camp.firmware = .running →
        (j.state = .stopping → s.boundaryReached fn (j.stopAsked || j.needsHost) = true → ends (.jobStopEnd fn) .loaded)
        ∧ (j.state = .pausing → s.boundaryReached fn j.hostPause = true → ends (.pausedEntry fn) .paused))

/-- Where the commands of off-module multicast and of the job take place, and what they leave.
Model's choices: log 71, 72, 87. -/
def Obligations.MulticastAndJobCommandsComplete : Prop := Claims.MulticastCommandsComplete ∧ Claims.JobCommandsReachTheirState

/-- R386, R408 to R412: an operation of Table 15.15 that may run beside the steps, or while no step runs, begins at once; another is
forced, which pauses the job, or deferred to the next boundary, where DEFERRED_START begins it before any command is taken up. The
operation begun first ends with its completion record. -/
def Claims.OperationsRunOrAreDeferred : Prop :=
  ∀ (s : State) (fn : SlabId) (m : Fin 4) (r : Request),
    let st := (s.job fn).state
    (s.Runs fn m 0x60 r → exec (.selfTest fn m) s = .next (s.startOperation fn m r))
    ∧ (s.Runs fn m 0x61 r → exec (.calibrate fn m) s = .next (s.startOperation fn m r))
    ∧ (4 < r.arg 0 1 → s.startOperation fn m r = s.respond fn m r stBadArg [])
    ∧ (r.arg 0 1 ≤ 4 → (st.runsSteps = false ∨ runsBeside r.opcode (r.arg 0 1) = true) →
        s.startOperation fn m r = (s.addOperation fn m r false false true).accept fn m r stAccepted true [])
    ∧ (r.arg 0 1 ≤ 4 → st.runsSteps = true → runsBeside r.opcode (r.arg 0 1) = false →
        ((∃ o ∈ (s.slab fn).camp.operations, o.deferred = true ∨ o.forced = true) → s.startOperation fn m r = s.respond fn m r stBusy [])
        ∧ ((∀ o ∈ (s.slab fn).camp.operations, o.deferred = false ∧ o.forced = false) →
            (r.force = false → s.startOperation fn m r = ((s.addOperation fn m r true false false).modSlab fn (fun sl =>
              { sl with counters := Counters.bump sl.counters Ctr.DEFERRED_OPS 1 })).accept fn m r stDeferred false [])
            ∧ (r.force = true → st = .running → s.startOperation fn m r
                = ((s.addOperation fn m r false true false).accept fn m r stAccepted false []).setJobState fn .pausing .selfTest)))
    ∧ ((s.slab fn).camp.firmware = .running → s.deferredDue fn = true →
        ∀ o, (s.slab fn).camp.operations.find? (fun o => o.deferred && !o.running) = some o →
        (∀ k : Fin 4, s.takesUp fn k = false)
        ∧ exec (.deferredStart fn) s = .next (((s.modSlab fn (fun sl => sl.modCamp (fun c => { c with
            operations := c.operations.map (fun x => if x.deferred then { x with running := true } else x) }))).modFunc fn (fun f => { f with
              outstanding := f.outstanding.map (fun x => if x.tag = o.tag then { x with committed := true } else x) })).post fn
            { stamp := s.stamp fn, type := evtDeferredStart, status := 0, mailbox := BitVec.ofNat 8 o.mailbox.val, tag := o.tag
              opcode := o.opcode, detail := [] }))
    ∧ (∀ (tested : Word) (o : Operation), (s.slab fn).camp.firmware = .running →
        (s.slab fn).camp.operations.find? (fun o => o.running && s.mayEnd fn o) = some o → o.opcode = 0x61 → o.live = true → o.forced = false →
        exec (.operationComplete fn tested []) s = .next ((s.modSlab fn (fun sl => sl.modCamp (fun c => { c with
          operations := c.operations.erase o }))).complete fn o.tag stOk (leBytes tested.toNat 4 ++ leBytes 0 4 ++ leBytes allOnes64.toNat 8)))

/-- R4, R32, R427, R428, R430: FW_BEGIN opens a session, FW_CHUNK takes the chunk that follows, FW_COMMIT checks the whole image and
erases the slot, and its completion programs it; SET_MODE without an image on either slab writes both mode records, and the mode in
force stays until the next cold start. -/
def Claims.FirmwareAndModeAreCommitted : Prop :=
  ∀ (s : State) (fn : SlabId) (m : Fin 4) (r : Request) (bulk : List Byte),
    let camp (g : Camp → Camp) : State := s.modSlab fn (fun sl => { sl with camp := g sl.camp })
    (s.Runs fn m 0x70 r →
      (fwTotalOk (r.arg 0 4) = false → exec (.fwBegin fn m) s = .next (s.respond fn m r stBadArg []))
      ∧ (fwTotalOk (r.arg 0 4) = true → exec (.fwBegin fn m) s = .next ((camp (fun c =>
          { c with session := some { total := r.arg 0 4, bytes := [], activate := false, committing := false } })).respond fn m r stOk [])))
    ∧ (s.Runs fn m 0x71 r →
        ((s.slab fn).camp.session = none → exec (.fwChunk fn m bulk) s = .next (s.respond fn m r stRefusedState []))
        ∧ (∀ x bs, (s.slab fn).camp.session = some x → s.chunkData fn r bulk = some bs → r.arg 0 4 = x.bytes.length →
            x.bytes.length + bs.length ≤ x.total → exec (.fwChunk fn m bulk) s
              = .next ((camp (fun c => { c with session := some { x with bytes := x.bytes ++ bs } })).respond fn m r stOk []))
        ∧ (∀ x bs, (s.slab fn).camp.session = some x → s.chunkData fn r bulk = some bs →
            (r.arg 0 4 ≠ x.bytes.length ∨ x.total < x.bytes.length + bs.length) →
            exec (.fwChunk fn m bulk) s = .next (s.respond fn m r stBadArg [])))
    ∧ (∀ x, s.Runs fn m 0x72 r → r.arg 0 1 ≤ 1 → (r.arg 0 1 = 0 ∨ (s.job fn).state = .empty ∨ (s.job fn).state = .loaded) → (s.slab fn).camp.session = some x →
        x.committing = false →
        (∀ e, x.fault (s.slab fn).camp.flash.minSvn = some e → exec (.fwCommit fn m) s = .next (s.respond fn m r e []))
        ∧ (x.fault (s.slab fn).camp.flash.minSvn = none → exec (.fwCommit fn m) s = .next ((camp (fun c =>
            { c with session := some { x with activate := decide (r.arg 0 1 = 1), committing := true }
                     flash := { c.flash with fwCommitted := false, fwImage := [] } })).accept fn m r stAccepted true [])))
    ∧ (∀ x, (s.slab fn).camp.firmware = .running → (s.slab fn).camp.session = some x → x.committing = true →
        let z := s.modSlab fn (fun sl => sl.commitFirmware x.bytes)
        (x.activate = false → exec (.fwCommitComplete fn) s = .next (z.completeAll fn 0x72))
        ∧ (x.activate = true → exec (.fwCommitComplete fn) s = .next (z.modSlab fn (fun sl => { sl with camp := { sl.camp with
            firmware := .bootRom, restartCause := 3, session := none, sidebandStale := true } }))))
    ∧ (s.Runs fn m 0x90 r → r.arg 0 1 ≤ 1 →
        (s.noImages = false → exec (.setMode fn m) s = .next (s.respond fn m r stRefusedState []))
        ∧ (s.noImages = true → (s.slab fn.other).camp.firmware = .running → exec (.setMode fn m) s
            = .next (({ s with shared := { s.shared with setMode := some (fn, r.tag, m, if r.arg 0 1 = 1 then .joined else .split) } } : State).accept
                fn m r stAccepted true [])))
    ∧ (∀ x : SlabId × Half × Fin 4 × Mode, s.slab0.camp.firmware = .running → s.slab1.camp.firmware = .running → s.shared.setMode = some x →
        let rec_ (sl : Slab) : Slab := (sl.writeRecord 2 [modeCode x.2.2.2]).modJob (fun j => if x.2.2.2 = .split then { j with colLost := false } else j)
        let z := (s.modSlab .s0 rec_).modSlab .s1 rec_
        exec .setModeComplete s = .next (({ z with shared := { z.shared with setMode := none } } : State).completeAll x.1 0x90))

/-- The commands of the firmware's own care: self-tests, calibrations, firmware images and the mode.
Model's choices: log 96, 97, 98. -/
def Obligations.MaintenanceCommandsTakeEffect : Prop := Claims.OperationsRunOrAreDeferred ∧ Claims.FirmwareAndModeAreCommitted

/-- Tables 12.6, 12.9 and 15.11, R301, R306, R311, R315, R319, R324, R331, R335, R404, R420: each operation of LINK_CONFIG puts its
values into the slab's link tables and answers with the ports that are up; EXPORT_CONFIG sets the sink of the next step;
FEED_CONFIG binds a queue to a FEED window that names its object, or to the host, and closes it.
Model's choices: log 99. -/
def Obligations.LinkTablesAreConfigured : Prop :=
  ∀ (s : State) (fn : SlabId) (m : Fin 4) (r : Request) (bulk : List Byte) (es : List Nat),
    let links (g : Links → Links) : State := s.modSlab fn (fun sl => { sl with links := g sl.links })
    (s.Runs fn m 0xB0 r → s.linkIdle fn = true → r.op = 0 →
      exec (.linkConfigEndpoint fn m) s = .next ((links (fun l => { l with endpoint := BitVec.ofNat 16 r.arg0 })).linkOk fn m r))
    ∧ (s.Runs fn m 0xB0 r → s.linkIdle fn = false → r.op = 0 → exec (.linkConfigEndpoint fn m) s = .next (s.respond fn m r stRefusedState []))
    ∧ (s.Runs fn m 0xB0 r → r.op = 1 → r.sel < 16 → quotasOk r.quotas = true → r.arg 28 16 = 0 →
        let z := s.modSlab fn (fun sl => sl.modPort r.sel (fun x => x.setQuotas r.quotas))
        (r.arg0 = 1 → exec (.linkConfigPort fn m) s = .next ((z.modSlab fn (fun sl => sl.modPort r.sel (fun x =>
          { x with enabled := true, training := x.cable && !x.up }))).linkOk fn m r))
        ∧ (r.arg0 = 0 → exec (.linkConfigPort fn m) s = .next ((z.disablePort fn r.sel).linkOk fn m r)))
    ∧ (s.Runs fn m 0xB0 r → r.op = 1 → (16 ≤ r.sel ∨ quotasOk r.quotas = false) → exec (.linkConfigPort fn m) s = .next (s.respond fn m r stBadArg []))
    ∧ (s.Runs fn m 0xB0 r → r.op = 2 → 1 ≤ r.count → r.arg1 + r.count ≤ 65536 → s.linkList fn r bulk r.count = some es →
        (∀ e ∈ es, e % 128 = 0) →
        exec (.linkConfigRoutes fn m bulk) s = .next ((links (fun l => { l with routes := setRoutes l.routes r.arg1 es })).linkOk fn m r))
    ∧ (s.Runs fn m 0xB0 r → s.linkIdle fn = true → r.op = 3 → r.sel < 16 → r.arg1 ≤ 1 → r.count ≤ 65536 → r.arg0 < r.count →
        s.linkList fn r bulk r.count = some es →
        let g : Group := { ranks := es.map (BitVec.ofNat 16), rank := r.arg0, summit := decide (r.arg1 = 1) }
        exec (.linkConfigGroup fn m bulk) s = .next ((links (fun l => { l with groups := aset r.sel g l.groups })).linkOk fn m r))
    ∧ (s.Runs fn m 0xB0 r → s.linkIdle fn = true → r.op = 4 → 1 ≤ r.count → r.count ≤ 64 → s.linkList fn r bulk r.count = some es →
        let x : McastTx := { targets := es.map (BitVec.ofNat 16), attached := es.map (BitVec.ofNat 16), nextSeq := 0, detached := [] }
        exec (.linkConfigMcastTx fn m bulk) s = .next ((links (fun l => { l with mcastTx := aset r.sel x l.mcastTx, packets := l.packets.filter (fun p => decide (p.group ≠ r.sel)) })).linkOk fn m r))
    ∧ (s.Runs fn m 0xB0 r → s.linkIdle fn = true → r.op = 5 → r.arg 4 1 ≤ 1 → r.arg 7 1 = 0 →
        let x : McastRx :=
          { source := BitVec.ofNat 16 r.arg0, group := r.sel, toUnits := decide (r.arg 4 1 = 1), window := r.arg 5 1
            relay := if r.arg 6 1 = 0xFF then none else some (r.arg 6 1), expected := 0, first := 0, held := [], frames := [], lastFrag := []
            unacked := 0, unackedAt := 0, attached := true }
        exec (.linkConfigMcastRx fn m) s = .next ((links (fun l => { l with
          mcastRx := l.mcastRx.filter (fun y => !(decide (y.source = x.source) && decide (y.group = x.group))) ++ [x] })).linkOk fn m r))
    ∧ (s.Runs fn m 0xB0 r → r.op = 6 → r.arg 32 12 = 0 →
        (r.timersOk = true → exec (.linkConfigTimers fn m) s = .next ((links (fun l => { l with
          retryTimeout := r.timer 0, resendDelay := r.timer 1, mcastRetry := r.timer 2, collTimeout := r.timer 3
          summitTimeout := r.timer 4 })).linkOk fn m r))
        ∧ (r.timersOk = false → exec (.linkConfigTimers fn m) s = .next (s.respond fn m r stBadArg [])))
    ∧ (s.Runs fn m 0xA0 r → r.arg 0 1 = 0 → r.arg 1 1 = 1 → r.arg 2 1 ≤ 15 → exec (.exportConfig fn m) s = .next ((links (fun l => { l with
        sinkNext := some (some (BitVec.ofNat 8 (r.arg 2 1), BitVec.ofNat 16 (r.arg 4 2), BitVec.ofNat 8 (r.arg 3 1), r.arg 8 4, r.arg 12 4)) })).respond
          fn m r stOk []))
    ∧ (s.Runs fn m 0xA0 r → r.arg 0 1 = 0 → r.arg 1 1 = 0 → r.arg 2 1 ≤ 15 →
        exec (.exportConfig fn m) s = .next ((links (fun l => { l with sinkNext := some none })).respond fn m r stOk []))
    ∧ (∀ q : FeedQueue, s.feedNo fn (r.arg 0 1) = some q → r.feedArgOk = true →
        (s.Runs fn m 0xC0 r → r.arg 3 1 = 0 → r.arg 1 1 = 0 → q.entry.slotBytes ≤ 16777216 → exec (.feedConfigBind fn m) s
          = .next (((s.unbindFeed fn q).putFeed fn { q with bound := true, fromHost := true, window := 0xFF }).respond fn m r stOk (leBytes 0 2)))
        ∧ (s.Runs fn m 0xC0 r → r.arg 3 1 = 0 → r.arg 1 1 = 1 →
            (((s.slab fn).window (r.arg 2 1)).kind ≠ 3 → exec (.feedConfigBind fn m) s = .next (s.respond fn m r stBadArg []))
            ∧ (((s.slab fn).window (r.arg 2 1)).kind = 3 → ((s.slab fn).window (r.arg 2 1)).object = q.entry.object →
                let z := ((s.unbindFeed fn q).putFeed fn { q with bound := true, fromHost := false, window := r.arg 2 1 }).feedWindow fn (r.arg 2 1) true
                exec (.feedConfigBind fn m) s = .next (z.respond fn m r stOk (leBytes ((z.slab fn).window (r.arg 2 1)).epoch.toNat 2))))
        ∧ (s.Runs fn m 0xC0 r → r.arg 3 1 = 1 → exec (.feedConfigClose fn m) s
            = .next ((s.unbindFeed fn q).respond fn m r stOk (leBytes (if q.bound && !q.fromHost then
                (((s.unbindFeed fn q).slab fn).window q.window).epoch.toNat else 0) 2))))

/-! ## Host port and gates (chapters 15, 16 and 18) -/

/-- R391 to R393, R405 to R407, Table 15.2: in a function that the host can reach, a doorbell on a free mailbox sets PENDING in the order
of the rings, or is answered INTERNAL while no firmware serves, or at once when no command has its opcode; while PENDING or DONE is
1 doorbells and request writes are counted and dropped. DONE is released, the ring is enabled and its consumer index moved. A write
past the buffer names no address; a function out of reach does not change.
Model's choices: log 91, 100, 101, 102. -/
def Obligations.HostWritesReachTheirMailbox : Prop :=
  ∀ (s : State) (fn : SlabId) (m : Fin 4) (off : Nat) (data : List Byte) (base value : DWord) (size : BitVec 5) (en : Bool),
    let on := s.modFunc fn (fun f => { f with busMaster := true })
    let b := (s.func fn).mailbox m
    let rung := on.modFunc fn (fun f =>
      { f.modMailbox m (fun b => { b with pending := true, rung := f.rungCount }) with rungCount := f.rungCount + 1 })
    (4096 < off + data.length → exec (.requestBufferWrite fn m off data) s = .fault .noSuchHostAddress)
    ∧ (s.hostReach fn = false → exec (.doorbell fn m) s = .next s ∧ exec (.mbxDoneRelease fn m) s = .next s
        ∧ exec (.evtCtrlEnable fn base size en) s = .next s ∧ exec (.evtConsumerWrite fn value) s = .next s
        ∧ (off + data.length ≤ 4096 → exec (.requestBufferWrite fn m off data) s = .next s))
    ∧ (s.hostReach fn = true →
        ((b.pending = true ∨ b.done = true) → exec (.doorbell fn m) s = .next (on.modFunc fn (fun f => f.count Ctr.MBX_IGNORED_DOORBELLS 1)))
        ∧ (b.pending = false → b.done = false →
            ((s.slab fn).camp.firmware.absent = true → exec (.doorbell fn m) s = .next (on.writeResponse fn m b.take stInternal [] 0))
            ∧ ((s.slab fn).camp.firmware.absent = false →
                ((s.slab fn).camp.firmware = .recovery ∨ (commandMailboxes b.take.opcode).isSome = true) → exec (.doorbell fn m) s = .next rung)
            ∧ ((s.slab fn).camp.firmware = .running → commandMailboxes b.take.opcode = none →
                exec (.doorbell fn m) s = .next (rung.respond fn m b.take ((rung.refusal fn m b.take).getD stBadOpcode) [])))
        ∧ (off + data.length ≤ 4096 →
            ((b.pending = true ∨ b.done = true) →
              exec (.requestBufferWrite fn m off data) s = .next (on.modFunc fn (fun f => f.count Ctr.MBX_DROPPED_WRITES 1)))
            ∧ (b.pending = false → b.done = false → exec (.requestBufferWrite fn m off data) s
                = .next (on.modFunc fn (fun f => f.modMailbox m (fun b => { b with request := Cells.writeN b.request off data })))))
        ∧ exec (.mbxDoneRelease fn m) s = .next (on.modFunc fn (fun f => f.modMailbox m (fun b => { b with done := false })))
        ∧ (((s.func fn).evtEnable = true → exec (.evtCtrlEnable fn base size en) s = .next (on.modFunc fn (fun f => { f with evtEnable := en })))
          ∧ ((s.func fn).evtEnable = false → en = false →
              exec (.evtCtrlEnable fn base size en) s = .next (on.modFunc fn (fun f => { f with evtBase := base, evtSize := size })))
          ∧ ((s.func fn).evtEnable = false → en = true → base.toNat % 4096 = 0 → 6 ≤ size.toNat → size.toNat ≤ 16 →
              exec (.evtCtrlEnable fn base size en) s = .next ((on.modFunc fn (fun f =>
                { f with evtBase := base, evtSize := size, evtEnable := true, evtProducer := 0, evtConsumer := 0, evtArmed := true })).drainRing fn)))
        ∧ exec (.evtConsumerWrite fn value) s
            = .next ((on.modFunc fn (fun f => { f with evtConsumer := value, evtArmed := true })).drainRing fn))

/-- R418, R420, R378: rows written to an active feed aperture go to the fill slot and are counted; those it cannot take, and a
write to an inactive one, are dropped and counted; staging takes any bytes. A write past its window names no address. -/
def Claims.AperturesTakeTheirRows : Prop :=
  ∀ (s : State) (fn : SlabId) (k : Fin 16) (off : Nat) (data : List Byte),
    let on := s.modFunc fn (fun f => { f with busMaster := true })
    (16777216 < off + data.length → exec (.feedApertureWrite fn k off data) s = .fault .noSuchHostAddress)
    ∧ (0xF0000000 < off + data.length → exec (.stagingWrite fn off data) s = .fault .noSuchHostAddress)
    ∧ (off + data.length ≤ 16777216 → (s.slab fn).ready = true → s.hostReach fn = true →
        ((on.feedNo fn k.val = none ∨ (∃ q, on.feedNo fn k.val = some q ∧ (q.bound = false ∨ q.fromHost = false))) →
          exec (.feedApertureWrite fn k off data) s = .next (on.modSlab fn (fun sl => sl.apertureDrop k.val)))
        ∧ (∀ q, on.feedNo fn k.val = some q → q.bound = true → q.fromHost = true →
            let n := apertureRows q.entry.slotBytes off data
            let slot := q.filled % max 1 q.entry.slots
            let z := match on.objectNo fn q.entry.object with
              | none => on
              | some o => on.writeRange fn (o.base + slot * q.entry.slotBytes + off) (data.take (64 * n))
            let z := (z.putFeed fn ((List.range n).foldl (fun (q : FeedQueue) _ => q.addRow slot) q)).modSlab fn (fun sl =>
              { sl with feedCounters := aset q.entry.queue (Counters.bump (agetD [] q.entry.queue sl.feedCounters) Ctr.FEED_ROWS n) sl.feedCounters })
            exec (.feedApertureWrite fn k off data) s
              = .next (if 64 * n = data.length then z else z.modSlab fn (fun sl => sl.apertureDrop q.entry.queue))))
    ∧ (∀ slotBytes n : Nat, off % 64 = 0 → data.length = 64 * n → off + data.length ≤ slotBytes → apertureRows slotBytes off data = n)
    ∧ (∀ slotBytes : Nat, (off % 64 ≠ 0 ∨ data.length % 64 ≠ 0 ∨ slotBytes ≤ off) → apertureRows slotBytes off data = 0)
    ∧ (off + data.length ≤ 0xF0000000 → (s.slab fn).stagingUp = true → s.hostReach fn = true → exec (.stagingWrite fn off data) s
        = .next (on.modSlab fn (fun sl => sl.modMem (fun x => { x with staging := Cells.writeN x.staging off data }))))

/-- R415 to R417, Table 18.2: a reset of the PCIe side clears the function's mailboxes, its ring's enable and its outstanding tags, and
leaves the slab's memories, tiles and job alone; D3hot and D0 follow one another; a failed bulk read ends its command with BAD_ARG. -/
def Claims.PcieSideResets : Prop :=
  ∀ (s : State) (fn : SlabId) (m : Fin 4) (r : Request),
    (let t := s.pcieReset fn
     ((t.func fn).mailbox m = Mailbox.reset ∧ (t.func fn).outstanding = [] ∧ (t.func fn).evtEnable = false
        ∧ (t.func fn).busMaster = false ∧ (t.func fn).d3hot = false)
     ∧ (t.slab fn).tiles = (s.slab fn).tiles ∧ (t.slab fn).mem = (s.slab fn).mem ∧ (t.slab fn).stackList = (s.slab fn).stackList)
    ∧ (s.shared.linkUp = true → s.shared.perstN = true → exec (.functionLevelReset fn) s = .next (s.pcieReset fn)
        ∧ exec .hotReset s = .next ((s.pcieReset .s0).pcieReset .s1)
        ∧ exec (.d3hotEntry fn) s = .next (s.modFunc fn (fun f => { f with d3hot := true }))
        ∧ exec (.d0Return fn) s = .next ((s.modFunc fn (fun f => { f with d3hot := false })).drainRing fn))
    ∧ ((s.shared.linkUp = false ∨ s.shared.perstN = false) → exec (.functionLevelReset fn) s = .next s ∧ exec .hotReset s = .next s
        ∧ exec (.d3hotEntry fn) s = .next s ∧ exec (.d0Return fn) s = .next s)
    ∧ (s.shared.linkUp = true → exec .pcieLinkLoss s
        = .next (({ s with shared := { s.shared with linkUp := false } } : State).pcieReset .s0 |>.pcieReset .s1))
    ∧ (s.shared.linkUp = false → exec .pcieLinkLoss s = .next s)
    ∧ ((s.shared.perstN && s.shared.reference && s.shared.converters) = true →
        exec .pcieLinkRetrained s = .next { s with shared := { s.shared with linkUp := true } })
    ∧ ((s.shared.perstN && s.shared.reference && s.shared.converters) = false → exec .pcieLinkRetrained s = .next s)
    ∧ (((s.func fn).mailbox m).take = r →
        ((s.takesUp fn m = false ∨ r.readsBulk = false) → exec (.dmaReadError fn m) s = .next s)
        ∧ (s.takesUp fn m = true → r.readsBulk = true → s.refusal fn m r = none →
            (r.hostbuf = true → exec (.dmaReadError fn m) s = .next ((s.modFunc fn (fun f =>
              { f.count Ctr.DMA_ERRORS 1 with aerLogged := f.aerLogged + 1 })).respond fn m r stBadArg []))
            ∧ (r.hostbuf = false → exec (.dmaReadError fn m) s = .next ((s.modFunc fn (fun f =>
              { f.count Ctr.DMA_ERRORS 0 with aerLogged := f.aerLogged + 0 })).respond fn m r stBadArg []))))

/-- BAR2, the resets of the PCIe side and its power states.
Model's choices: log 101, 103, 104, 105. -/
def Obligations.AperturesAndPcieSide : Prop := Claims.AperturesTakeTheirRows ∧ Claims.PcieSideResets

/-- R447 to R450, Table 18.4: the gate writes of base camp's management cycle reach the gates that it owns. One bit of a gate follows a
write that R449 permits (EN while the parent is on, off while no child is on, an engine bit while EN is 1) and no other bit of
that gate changes; a write that R449 refuses sets REFUSED, changes nothing else of the gate and is counted in GATE_REFUSALS.
Model's choices: log 33, 34. -/
def Obligations.GateWritesKeepTheTree : Prop :=
  ∀ (s : State) (k : SlabId) (ws : List (GateNode × Word)) (n : GateNode) (b : Nat) (on : Bool),
    ((s.slab k).ready = true → exec (.gateWordWrite k ws) s = .next (s.gateWrites k (ws.filter (fun p => s.gateOwned k p.1))))
    ∧ ((s.slab k).ready = false → exec (.gateWordWrite k ws) s = .next s)
    ∧ (b < 5 → bit (s.gateStored n) b = on → s.gateBit k n b on = s)
    ∧ (b < 5 → bit (s.gateStored n) b ≠ on →
        let ok := if b = 0 then (if on then s.parentOn n else !s.childOn n) else (!on || bit (s.gateStored n) 0)
        (ok = true → bit ((s.gateBit k n b on).gateStored n) b = on
          ∧ ∀ j, j ≠ b → bit ((s.gateBit k n b on).gateStored n) j = bit (s.gateStored n) j)
        ∧ (ok = false → (s.gateBit k n b on).gateStored n = s.gateStored n ||| gateRefused
          ∧ ((s.gateBit k n b on).slab (gateSlab k n)).counters
              = Counters.bump (s.slab (gateSlab k n)).counters Ctr.GATE_REFUSALS 1))

/-! ## Resets, clocks and firmware (chapters 13, 16 and 18) -/

/-- R421, R445, Table 18.2: PERST_N low loses every volatile state of both slabs and functions: only flash, the stages, the fuses and the
seated cables stay. The reference's loss stops both slabs' clocks and firmware where they stand, in self-refresh, with scratchpads,
memory and base camp's ledger kept; the PCIe link is lost.
Model's choices: log 89, 105, 106, 107. -/
def Obligations.ResetAndReferenceLossStopTheSlabs : Prop :=
  ∀ (s : State) (torn : List (SlabId × Fin 24 × Nat × Nat)),
    (∃ t, exec .perstNAssert s = .next t ∧ t.pending = s.pending ∧ t.hostMem = s.hostMem ∧ t.fn0 = .reset ∧ t.fn1 = .reset
      ∧ t.shared.perstN = false ∧ t.shared.linkUp = false ∧ t.shared.thermtripN = true ∧ t.shared.alertN = true
      ∧ t.shared.converters = s.shared.converters ∧ t.shared.inputGood = s.shared.inputGood ∧ t.shared.reference = s.shared.reference
      ∧ ∀ k : SlabId, (t.slab k).camp = { Camp.reset with flash := (s.slab k).camp.flash } ∧ (t.slab k).powered = (s.slab k).powered
          ∧ (t.slab k).clocks.running = false ∧ (t.slab k).clocks.locking = false ∧ (t.slab k).job = .reset ∧ (t.slab k).root = .reset
          ∧ (t.slab k).mem = .reset ∧ (t.slab k).links = .reset ∧ (t.slab k).tiles = [] ∧ (t.slab k).stackList = [] ∧ (t.slab k).engines = []
          ∧ (∀ n : Nat, ((t.slab k).field n).powered = ((s.slab k).field n).powered
              ∧ ((t.slab k).field n).fuseOpen = ((s.slab k).field n).fuseOpen)
          ∧ ∀ p : Nat, ((t.slab k).port p).cable = ((s.slab k).port p).cable ∧ ((t.slab k).port p).up = false
              ∧ ((t.slab k).port p).enabled = false)
    ∧ (s.shared.reference = false → exec (.referenceLoss torn) s = .next s)
    ∧ (s.shared.reference = true → ∃ t, exec (.referenceLoss torn) s = .next t ∧ t.shared.reference = false ∧ t.shared.linkUp = false
        ∧ ∀ k : SlabId, (s.slab k).powered = true →
          (t.slab k).clocks.running = false ∧ (t.slab k).clocks.locking = false ∧ (t.slab k).clocks.lost = true
          ∧ (t.slab k).camp.firmware = .stopped ∧ (∀ u : Nat, u < 24 → ((t.slab k).stack u).selfRefresh = true)
          ∧ (torn = [] → (t.slab k).tiles = (s.slab k).tiles ∧ (t.slab k).mem = (s.slab k).mem
              ∧ (t.slab k).camp.ledger = (s.slab k).camp.ledger ∧ (t.slab k).camp.faultLog = (s.slab k).camp.faultLog))

/-- R421, R442 to R445, R464, R33: the lock counts start when supply, reference and PERST_N are good; a lock starts the divided clocks
and the boot ROM, and enters a hold when belays ran before; an edge outside the window restarts the count; a phase excursion stops
its slab alone, and in joined mode holds the other.
Model's choices: log 58, 106. -/
def Obligations.LocksStartTheClocks : Prop :=
  ∀ (s : State) (k : SlabId) (torn : List (Fin 24 × Nat × Nat)),
    (s.shared.perstN = true → exec .perstNDeassert s = .next s)
    ∧ (s.shared.perstN = false → ∃ t, exec .perstNDeassert s = .next t ∧ t.shared.perstN = true
        ∧ (t.slab k).clocks.running = (s.slab k).clocks.running
        ∧ (s.shared.converters = true → s.shared.reference = true → (s.slab k).powered = true → (s.slab k).clocks.running = false →
            (t.slab k).clocks.locking = true)
        ∧ ((s.shared.converters = false ∨ s.shared.reference = false ∨ (s.slab k).powered = false) → t.slab k = s.slab k))
    ∧ (s.shared.reference = true → exec .referenceDetectClear s = .next s)
    ∧ (s.shared.reference = false → ∃ t, exec .referenceDetectClear s = .next t ∧ t.shared.reference = true ∧ (t.slab k).clocks.lost = false
        ∧ (s.shared.perstN = true → s.shared.converters = true → (s.slab k).powered = true → (s.slab k).clocks.running = false →
            (t.slab k).clocks.locking = true))
    ∧ ((s.slab k).clocks.locking = true → exec (.pllLockRestart k) s = .next (s.modSlab k (fun sl =>
        { sl with counters := Counters.bump sl.counters Ctr.PLL_LOCK_RESTARTS 1 })))
    ∧ ((s.slab k).clocks.locking = false → exec (.pllLockRestart k) s = .next s ∧ exec (.pllLock k) s = .next s)
    ∧ ((s.slab k).powered = true → (s.slab k).clocks.locking = true → s.shared.perstN = true → s.shared.reference = true →
        ∃ t, (t.slab k).clocks = { (s.slab k).clocks with running := true, locking := false, lost := false, since := (s.slab k).clocks.cycle }
          ∧ (t.slab k).camp = { (s.slab k).camp with firmware := .bootRom } ∧ t.slab k.other = s.slab k.other ∧ t.shared = s.shared
          ∧ (t.slab k).tiles = (s.slab k).tiles ∧ (t.slab k).mem = (s.slab k).mem ∧ (t.slab k).root = (s.slab k).root
          ∧ (((s.slab k).camp.restartCause = 4 ∨ (s.root k).running = false) → exec (.pllLock k) s = .next t)
          ∧ ((s.slab k).camp.restartCause ≠ 4 → (s.root k).running = true → exec (.pllLock k) s = .next (t.relockHold k)))
    ∧ ((s.slab k).ready = true → s.shared.reference = true → ∃ t, exec (.pllPhaseExcursion k torn) s = .next t
        ∧ (t.slab k).clocks.running = false ∧ (t.slab k).clocks.locking = true ∧ (t.slab k).camp.firmware = .stopped
        ∧ (∀ u : Nat, u < 24 → ((t.slab k).stack u).selfRefresh = true)
        ∧ (torn = [] → (t.slab k).tiles = (s.slab k).tiles ∧ (t.slab k).mem = (s.slab k).mem)
        ∧ (torn = [] → s.shared.mode = .split → t.slab k.other = s.slab k.other)
        ∧ (t.slab k.other).clocks = (s.slab k.other).clocks ∧ t.shared.reference = true)
    ∧ ((s.slab k).ready = false → exec (.pllPhaseExcursion k torn) s = .next s)

/-- R389, R422, R429, R431, R434: the boot ROM starts firmware that it may start, cold after PERST_N, warm else, and serves the recovery
mailbox when the slot holds none; an expired watchdog or a lost word of the working region restarts base camp, a lost word of
the preserved region costs one record. -/
def Claims.FirmwareStartsAndRestarts : Prop :=
  ∀ (s : State) (k : SlabId) (x : TestFindings) (n : Nat),
    let c := (s.slab k).camp
    let loaded := s.modSlab k (fun sl => sl.modCamp Camp.loadFirmware)
    (((s.slab k).ready = false ∨ c.firmware ≠ .bootRom) → exec (.firmwareStart k x) s = .next s)
    ∧ ((s.slab k).ready = true → c.firmware = .bootRom → c.flash.bootable = true → c.restartCause ≠ 4 → exec (.firmwareStart k x) s = .next loaded)
    ∧ ((s.slab k).ready = true → c.firmware = .bootRom → c.flash.bootable = true → c.restartCause = 4 →
        exec (.firmwareStart k x) s = .next (loaded.coldStart k x)
        ∧ (k = .s1 → (loaded.coldStart k x).shared.mode = s.slab0.camp.flash.mode)
        ∧ (k = .s0 → (loaded.coldStart k x).shared.mode = s.slab0.countPowerOn.camp.flash.mode))
    ∧ (∀ sl : Slab, sl.countPowerOn.camp.powerOn.toNat = min ((sl.camp.flash.record 1).elim 0 (fun r => leAt r.payload 0 4) + 1) 0xFFFFFFFF
        ∧ (sl.camp.checkIdentity k).seedLocked = true)
    ∧ ((s.slab k).ready = true → c.firmware = .bootRom → c.flash.bootable = false → exec (.firmwareStart k x) s
        = .next ((s.modSlab k (fun sl => sl.modCamp (fun c => c.enterRecovery k))).modFunc k (fun f => f.signalIf 6)))
    ∧ ((s.slab k).ready = true → c.firmware = .running →
        exec (.watchdogExpiry k) s = .next (s.modSlab k (fun sl => sl.modCamp (fun c => c.restart 0)))
        ∧ exec (.sramUncorrectable k none) s = .next (s.modSlab k (fun sl => sl.modCamp (fun c => c.restart 1)))
        ∧ exec (.sramUncorrectable k (some n)) s = .next (s.invalidateRecord k n))
    ∧ (((s.slab k).ready = false ∨ c.firmware ≠ .running) → exec (.watchdogExpiry k) s = .next s
        ∧ exec (.sramUncorrectable k none) s = .next s ∧ exec (.sramUncorrectable k (some n)) s = .next s)
    ∧ (∀ r : LedgerRec, n < 256 → r ∈ c.ledger →
        { r with valid := r.valid && decide (r.step.toNat % 256 ≠ n) } ∈ ((s.invalidateRecord k n).slab k).camp.ledger)

/-- R358, R390, R393, R395, R402, R421, R431: started firmware serves: after a cold start the belay network issues idle pitch 0, after a
restart the host's commands are settled and FW_RESTARTED is posted. In recovery mailbox 3 takes IDENTIFY and a firmware update, and
the other mailboxes refuse. A changed fault map is committed as a flash record. -/
def Claims.FirmwareServesAndRecovers : Prop :=
  ∀ (s : State) (k : SlabId) (m : Fin 4) (bulk : List Byte) (r : Request),
    let c := (s.slab k).camp
    let run := s.modSlab k (fun sl => sl.modCamp (fun c => { c with firmware := .running, restartCause := 0 }))
    ((s.slab k).ready = true → c.firmware = .restarting →
      (c.restartCause ≠ 4 → exec (.firmwareServing k) s = .next ((run.afterRestart k c.restartCause).drainRing k))
      ∧ (c.restartCause = 4 → (s.slab k).fieldsPowered = true → exec (.firmwareServing k) s = .next (run.firstIdle k)
          ∧ (s.dev k = k → ((run.firstIdle k).root k).running = true ∧ ((run.firstIdle k).root k).pitch = 0
              ∧ ((run.firstIdle k).root k).kind = .idle ∧ ((run.firstIdle k).root k).length = 65536))
      ∧ (c.restartCause = 4 → (s.slab k).fieldsPowered = false → exec (.firmwareServing k) s = .next s))
    ∧ (c.firmware ≠ .restarting → exec (.firmwareServing k) s = .next s)
    ∧ (((s.func k).mailbox m).take = r → c.firmware = .recovery → (s.slab k).ready = true → ((s.func k).mailbox m).pending = true →
        (m ≠ 3 → exec (.recoveryMailbox k m bulk) s = .next (s.respond k m r stRefusedState []))
        ∧ (m = 3 → r.opcode ∉ [0x01, 0x70, 0x71, 0x72] → exec (.recoveryMailbox k m bulk) s = .next (s.respond k m r stBadOpcode []))
        ∧ (m = 3 → r.headerBad = false → r.bar2 = false → r.hostbuf = false →
            (r.opcode = 0x01 → exec (.recoveryMailbox k m bulk) s = .next (s.answer k m r ((s.slab k).identity k) []))
            ∧ (r.opcode = 0x70 → fwTotalOk (r.arg 0 4) = true → exec (.recoveryMailbox k m bulk) s
                = .next ((s.modSlab k (fun sl => sl.modCamp (fun c =>
                    { c with session := some { total := r.arg 0 4, bytes := [], activate := false, committing := false }
                             flash := { c.flash with fwImage := [], fwCommitted := false } }))).respond k m r stOk []))
            ∧ (r.opcode = 0x71 → c.session = none → exec (.recoveryMailbox k m bulk) s = .next (s.respond k m r stRefusedState []))
            ∧ (∀ z : FwSession, r.opcode = 0x72 → r.arg 0 1 ≤ 1 → c.session = some z → z.fault c.flash.minSvn = none →
                exec (.recoveryMailbox k m bulk) s = .next ((s.modSlab k (fun sl => (sl.modCamp (fun c =>
                  { c with session := none, firmware := .bootRom, flash := { c.flash with fwCommitted := true } })).count
                    Ctr.FW_COMMITS 1)).respond k m r stOk []))))
    ∧ (c.firmware ≠ .recovery → exec (.recoveryMailbox k m bulk) s = .next s)
    ∧ (c.firmware = .running → c.mapPending = true → exec (.faultMapCommit k) s
        = .next (s.modSlab k (fun sl => (sl.writeRecord 3 (s.mapBytes k)).modCamp (fun c => { c with mapPending := false }))))
    ∧ ((c.firmware ≠ .running ∨ c.mapPending = false) → exec (.faultMapCommit k) s = .next s)

/-- Base camp's firmware from the boot ROM to its service.
Model's choices: log 95, 106, 107. -/
def Obligations.FirmwareStartsServesAndRecovers : Prop := Claims.FirmwareStartsAndRestarts ∧ Claims.FirmwareServesAndRecovers

/-! ## Supply, temperatures and the sideband (chapters 18 and 19) -/

/-- R14, R451, R454, R459, R463, R464: the converters start when the input rises and stop for good supply's loss, overvoltage and a thermal
trip, which opens every fuse and pulls THERMTRIP_N; a slab that loses power keeps only flash, fuses and seated cables; the loss of
one slab's rails leaves the other as it is. -/
def Claims.SupplyStartsAndStopsTheSlabs : Prop :=
  ∀ (s : State) (k : SlabId) (x : Sensor),
    (s.shared.inputGood = true → exec .inputRise s = .next s)
    ∧ (s.shared.inputGood = false → ∃ t, exec .inputRise s = .next t ∧ t.shared.inputGood = true ∧ t.shared.converters = true
        ∧ t.shared.thermtripN = true ∧ t.shared.alertN = true ∧ (t.slab k).powered = true ∧ (t.slab k).camp = { Camp.reset with flash := (s.slab k).camp.flash }
        ∧ (t.slab k).clocks.running = false ∧ (t.slab k).clocks.locking = (s.shared.perstN && s.shared.reference)
        ∧ (∀ n : Nat, ((t.slab k).field n).fuseOpen = false))
    ∧ (let off (t : State) : Prop := ∀ i : SlabId, (t.slab i).powered = false ∧ (t.slab i).camp = { Camp.reset with flash := (s.slab i).camp.flash }
          ∧ (t.slab i).clocks.running = false ∧ (t.slab i).tiles = [] ∧ (t.slab i).mem = .reset ∧ (t.slab i).job = .reset
          ∧ (t.slab i).root = .reset ∧ (∀ n : Nat, ((t.slab i).field n).powered = false)
          ∧ (∀ p : Nat, ((t.slab i).port p).cable = ((s.slab i).port p).cable ∧ ((t.slab i).port p).up = false) ∧ t.func i = .reset
       (∃ t, exec .inputUndervoltage s = .next t ∧ off t ∧ t.shared.inputGood = false ∧ t.shared.converters = false
          ∧ t.shared.thermtripN = true ∧ t.shared.linkUp = false ∧ t.shared.alertN = true)
       ∧ (∃ t, exec .inputOvervoltage s = .next t ∧ off t ∧ t.shared.inputGood = false ∧ t.shared.converters = false ∧ t.shared.linkUp = false
          ∧ t.shared.thermtripN = s.shared.thermtripN)
       ∧ (s.shared.converters = true → (s.slab k).powered = true → ∃ t, exec (.thermalTrip k x) s = .next t ∧ off t
          ∧ t.shared.thermtripN = false ∧ t.shared.converters = false ∧ t.shared.inputGood = s.shared.inputGood ∧ t.shared.linkUp = false
          ∧ (∀ (i : SlabId) (n : Nat), n < 42 → ((t.slab i).field n).fuseOpen = true)))
    ∧ ((s.shared.converters = false ∨ (s.slab k).powered = false) → exec (.thermalTrip k x) s = .next s)
    ∧ ((s.slab k).powered = false → exec (.slabRailLoss k) s = .next s)
    ∧ ((s.slab k).powered = true → ∃ t, exec (.slabRailLoss k) s = .next t ∧ (t.slab k).powered = false
        ∧ (t.slab k).camp = { Camp.reset with flash := (s.slab k).camp.flash } ∧ (t.slab k).tiles = [] ∧ (t.slab k).clocks.running = false
        ∧ t.slab k.other = s.slab k.other ∧ t.func k = .reset ∧ t.func k.other = s.func k.other
        ∧ t.shared.converters = s.shared.converters ∧ t.shared.linkUp = s.shared.linkUp
        ∧ (t.shared.alertN = true ↔ (s.slab k.other).camp.conditions = []))

/-- R48, R446, R452, R453, R457: an open fuse takes the field's power and clamps it, and raises a cause or loses the field at the start; the
stages of six fields start at a time, and one that does not reach regulation is lost; a field critical for 1 s is taken out. -/
def Claims.FieldsStartAndLosePower : Prop :=
  ∀ (s : State) (f : FieldId) (k : SlabId) (failed : List (Fin 42)),
    let sl := s.slab f.slab
    let fd := sl.field (fieldNum f)
    let z := (s.modSlab f.slab (fun sl => sl.openFuse (fieldNum f))).fieldPowerLost f.slab f.c f.r
    (sl.powered = true → fd.powered = true → fd.fuseOpen = false → exec (.fieldFuseOpen f) s = .next z)
    ∧ ((sl.powered = false ∨ fd.powered = false ∨ fd.fuseOpen = true) → exec (.fieldFuseOpen f) s = .next s)
    ∧ (sl.ready = true → sl.camp.firmware = .running → 1000 ≤ fd.critSamples → fd.powered = true → fd.fuseOpen = false →
        exec (.fieldCriticalTimeout f) s = .next z)
    ∧ ((sl.ready = false ∨ sl.camp.firmware ≠ .running ∨ fd.critSamples < 1000 ∨ fd.powered = false ∨ fd.fuseOpen = true) →
        exec (.fieldCriticalTimeout f) s = .next s)
    ∧ (let y := (sl.openFuse (fieldNum f)).field (fieldNum f)
       y.powered = false ∧ y.fuseOpen = true ∧ y.clamped = true)
    ∧ ((s.slab k).ready = true → (s.slab k).camp.firmware = .restarting → (s.slab k).camp.restartCause = 4 →
        exec (.fieldStageStart k failed) s = .next (((s.slab k).nextStages.foldl (fun (s : State) n =>
          if failed.any (fun x => decide (x.val = n)) || ((s.slab k).field n).fuseOpen then s.loseAtStart k n 2
          else s.modSlab k (fun sl => sl.modField n (fun f =>
            { f with powered := true, clamped := false, since := sl.clocks.cycle }))) s).setHoles k))
    ∧ ((s.slab k).nextStages.length ≤ 6
        ∧ ∀ n ∈ (s.slab k).nextStages, n < 42 ∧ n ∉ (s.slab k).lostFields ∧ ((s.slab k).field n).powered = false)
    ∧ (((s.slab k).ready = false ∨ (s.slab k).camp.firmware ≠ .restarting ∨ (s.slab k).camp.restartCause ≠ 4) →
        exec (.fieldStageStart k failed) s = .next s)

/-- R456, Table 18.6, with R455, R458 and R460: base camp takes over a sample; a condition starts when a sample reaches its threshold, is
counted and posts a THERMAL record, and clears with another after 10 samples in a row at or below the clear level; a record of a critical
start signals vector 5. ALERT_N is low while a condition of either slab is in force.
Model's choices: log 93, 108. -/
def Obligations.TemperaturesSetConditions : Prop :=
  ∀ (s : State) (k : SlabId) (rs : List (Sensor × Int)) (x : Sensor) (v : Int) (crit : Bool) (d : Condition),
    let c := (s.slab k).camp
    let rest := c.conditions.filter (fun d => !(decide (d.sensor = x) && decide (d.critical = crit)))
    let camp (g : Camp → Camp) : State := s.modSlab k (fun sl => sl.modCamp g)
    ((s.slab k).ready = true → c.firmware = .running → exec (.thermalSample k rs) s
        = .next (((rs.foldl (fun (s : State) x => s.sampleSensor k x.1 x.2) s).modSlab k Slab.countCritical).updateAlert))
    ∧ (((s.slab k).ready = false ∨ c.firmware ≠ .running) → exec (.thermalSample k rs) s = .next s)
    ∧ (s.updateAlert.shared.alertN = true ↔ s.slab0.camp.conditions = [] ∧ s.slab1.camp.conditions = [])
    ∧ (c.has x crit = false → v < (thermalLevels x crit).1 → s.sampleCondition k x v crit = s)
    ∧ (c.has x crit = false → (thermalLevels x crit).1 ≤ v → s.sampleCondition k x v crit
        = ((s.modSlab k (fun sl => (sl.modCamp (fun c => { c with conditions := c.conditions ++ [{ sensor := x, critical := crit, below := 0 }] })).count
            (if crit then Ctr.THERMAL_CRITICAL else Ctr.THERMAL_HOT) 1)).stackCondition k x crit true).thermalEvent k x v (if crit then 1 else 0))
    ∧ (c.conditions.find? (fun d => decide (d.sensor = x) && decide (d.critical = crit)) = some d →
        ((thermalLevels x crit).2 < v → s.sampleCondition k x v crit
          = camp (fun c => { c with conditions := rest ++ [{ sensor := x, critical := crit, below := 0 }] }))
        ∧ (v ≤ (thermalLevels x crit).2 → d.below ≠ 9 → s.sampleCondition k x v crit
            = camp (fun c => { c with conditions := rest ++ [{ sensor := x, critical := crit, below := d.below + 1 }] }))
        ∧ (v ≤ (thermalLevels x crit).2 → d.below = 9 → s.sampleCondition k x v crit
            = ((camp (fun c => { c with conditions := rest })).stackCondition k x crit false).thermalEvent k x v 2))
    ∧ (∀ f : Fin 42, thermalLevels (.tile f) false = (95000, 90000) ∧ thermalLevels (.tile f) true = (105000, 100000)
        ∧ thermalLevels (.stage f) false = (110000, 105000) ∧ thermalLevels (.stage f) true = (125000, 120000))
    ∧ (∀ u : Fin 24, thermalLevels (.stack u) false = (90000, 85000) ∧ thermalLevels (.stack u) true = (100000, 95000))
    ∧ (∀ th : Byte,
        let r : EventRec :=
          { stamp := s.stamp k, type := 0x08, status := 0, mailbox := 0, tag := 0, opcode := 0
            detail := leBytes (sensorItem x s.free) 2 ++ leBytes (BitVec.ofInt 64 v).toNat 8 ++ [th] }
        s.thermalEvent k x v th = ({ s with free := s.free + 1 } : State).post k r
          ∧ (th = 1 → ∀ (f : Func) (m : Cells), if f.masked 5 then (f.writeRecord m r).1.msixPba.getLsbD 5 = true
              else (f.writeRecord m r).1.vectors.head? = some 5))

/-- R466, R467, R470, Tables 19.2 and 19.3: a Block Read gives the 32 bytes of its page while the slab's always-on rail has power, with THERMTRIP
and ALERT as the pins stand; any other access is rejected; the firmware refreshes the register file and counts SEQ; a cable seated
or removed sets its presence, and an enabled port trains or fails.
Model's choices: log 83, 109, 112. -/
def Obligations.SidebandAndCablesAreSeen : Prop :=
  ∀ (s : State) (k : SlabId) (code : Fin 3) (p : Fin 16),
    (s.railUp k = false → exec (.smbusBlockRead k code) s = .next { s with smbus := none })
    ∧ (s.railUp k = true → ∃ page, exec (.smbusBlockRead k code) s = .next { s with smbus := some page } ∧ page.length = 32
        ∧ (∀ j : Nat, j < 32 → (code ≠ 0 ∨ j ≠ 3) → page[j]? = some (Cells.read (s.slab k).camp.sideband (32 * code.val + j)))
        ∧ (code = 0 → ∃ b, page[3]? = some b ∧ b = s.sidebandFlags k))
    ∧ (s.shared.thermtripN = false → bit (s.sidebandFlags k) 3 = true) ∧ (s.shared.alertN = false → bit (s.sidebandFlags k) 4 = true)
    ∧ ((s.slab k).camp.sidebandStale = true → bit (s.sidebandFlags k) 1 = true)
    ∧ exec (.smbusRejected k) s = .next { s with smbus := none }
    ∧ ((s.slab k).ready = true → (s.slab k).camp.firmware = .running → exec (.sidebandRefresh k) s
        = .next (({ s with free := s.free + 4 } : State).modSlab k (fun sl => sl.modCamp (fun c =>
            { c with sideband := Cells.writeN [] 0 (s.sidebandFile k s.free), sidebandStale := false }))))
    ∧ (((s.slab k).ready = false ∨ (s.slab k).camp.firmware ≠ .running) → exec (.sidebandRefresh k) s = .next s)
    ∧ exec (.cableSeat k p) s = .next (s.modSlab k (fun sl => sl.modPort p.val (fun x => { x with cable := true, training := x.enabled && !x.up })))
    ∧ (∃ t, exec (.cableRemove k p) s = .next t ∧ ((t.slab k).port p.val).cable = false ∧ ((t.slab k).port p.val).training = false
        ∧ (((s.slab k).port p.val).up = true → ((t.slab k).port p.val).up = false))

/-- The supplies of slabs and fields.
Model's choices: log 106, 110, 111. -/
def Obligations.SuppliesStartAndStop : Prop := Claims.SupplyStartsAndStopsTheSlabs ∧ Claims.FieldsStartAndLosePower

/-! ## The whole module -/

/-- A step takes the command at the front of the queue and answers its outcome on the queue's rest; a waiting command is never
reordered, dropped or added to by the one that runs.
Model's choices: log 1. -/
def Obligations.StepRunsTheFrontCommand : Prop :=
  ∀ (s : State) (c : Instr) (q : List Instr), s.pending = c :: q → step s = exec c { s with pending := q }

/-- The queue is first in, first out: when a command takes place, exactly the commands behind it still wait, in their order.
Model's choices: log 1. -/
def Obligations.CommandsWaitInOrder : Prop :=
  ∀ (s t : State) (c : Instr) (q : List Instr), s.pending = c :: q → step s = .next t → t.pending = q

/-- The model's own choice for an empty queue (log entry 3): one arithmetic cycle passes on each slab whose divided clocks run, and a slab
whose clocks stand counts nothing (R442, Table 18.2). What has work in that cycle does it; where nothing has, the clocks alone go on.
No pin, supply or mode changes, and no command comes to wait. -/
def Claims.OneCyclePasses : Prop :=
  ∀ s : State, s.pending = [] →
    (∃ t, step s = .next t ∧ t.pending = [] ∧ t.shared.mode = s.shared.mode ∧ t.shared.inputGood = s.shared.inputGood
      ∧ t.shared.converters = s.shared.converters ∧ t.shared.reference = s.shared.reference ∧ t.shared.perstN = s.shared.perstN
      ∧ t.shared.thermtripN = s.shared.thermtripN)
    ∧ ((∀ k : SlabId, (s.slab k).camp.ctrlHeld = []
          ∧ ((s.slab k).ready = true → (s.slab k).clocks.cycle % 2 = 0 ∧ (s.slab k).tiles = [] ∧ (s.slab k).streams = [])) →
        s.slab0.ready = true →
        ∃ t, step s = .next t ∧ t.hostMem = s.hostMem ∧ t.smbus = s.smbus ∧ t.free = s.free ∧ t.shared = s.shared ∧ t.fn0 = s.fn0 ∧ t.fn1 = s.fn1
          ∧ ∀ k : SlabId, t.slab k = if (s.slab k).ready = true
              then { s.slab k with clocks := { (s.slab k).clocks with cycle := (s.slab k).clocks.cycle + 1 } } else s.slab k)

/-- R242, R243: one position of a controller's wheel passes in a fabric cycle, or in two at the hot threshold: the first r of 16 are read
positions, the next w write positions, the rest remote. A position without a request of its class stays idle and is counted; else it
grants 2,048 bytes in order of arrival, and a unit's request has what the streams leave. A stack out of service or under
maintenance serves nothing.
Model's choices: log 39. -/
def Claims.WheelsTurn : Prop :=
  (∀ (split : Half) (p : Nat), let r := (split.toNat % 16)
    let w := split.toNat / 16 % 16
    shareAt split p = if p < r then .read else if p < r + w then .write else .remote)
  ∧ ∀ (x : Stack) (split : Half) (busy : Bool) (u v : ShelfWork),
    let y := { x with wheelHalf := false, wheel := x.wheel + 1 }
    let c := shareAt split y.wheel.val
    (x.state ≠ .good → x.turn split busy = x)
    ∧ (x.state = .good → x.hot = true → x.wheelHalf = false → x.turn split busy = { x with wheelHalf := true })
    ∧ (x.state = .good → (x.hot = false ∨ x.wheelHalf = true) →
        (busy = true → x.turn split busy = y)
        ∧ (busy = false → (∀ q ∈ x.work, q.cls ≠ c) → x.turn split busy = { y with counters := Counters.bump x.counters c.idle 1 })
        ∧ (busy = false → x.work = [u] → u.cls = c →
            x.turn split busy = { y with work := if u.bytes ≤ 2048 then [] else [{ u with bytes := u.bytes - 2048 }] })
        ∧ (busy = false → x.work = [u, v] → u.cls = c → v.cls = c → c ≠ .remote → u.unit = true → v.unit = false → 0 < u.bytes →
            2048 ≤ v.bytes →
            x.turn split busy = { y with work := u :: (if v.bytes = 2048 then [] else [{ v with bytes := v.bytes - 2048 }]) })
        ∧ (busy = false → x.work = [u, v] → u.cls = c → v.cls = c → c = .remote → 2048 < u.bytes → 0 < v.bytes →
            x.turn split busy = { y with work := [{ u with bytes := u.bytes - 2048 }, v] }))

/-- R151, R152: a scrub reads the six rows after those before it; an error of one to three symbols is corrected, and the row rewritten in
its bank's next stream slot, which costs the scrub a turn. A rewrite whose slot has passed is counted and its symbols are kept for
the next scrub; one of a row that has been written since is dropped. -/
def Claims.ScrubsReadAndRewrite : Prop :=
  ∀ (t : Tile) (p : Bool) (now row at_ : Nat) (e : RowError) (d : Row),
    (t.scrubRead p now).scrubAt = t.scrubAt + 6
    ∧ (t.scrubErrs = [] → (t.scrubRead p now).scrubNext = now + 1 ∧ (t.scrubRead p now).rewrites = t.rewrites)
    ∧ (t.scrubErrs = [e] → e.row ∈ t.scrubRows now → t.rowPowered p e.row = true → 0 < e.symbols →
        (e.symbols ≤ 3 → (t.scrubRead p now).scrubNext = now + 5
          ∧ (t.scrubRead p now).rewrites = t.rewrites ++ [(e.row, slotFrom e.row streamClient (now + 1), e)])
        ∧ (3 < e.symbols → (t.scrubRead p now).scrubNext = now + 1 ∧ (t.scrubRead p now).rewrites = t.rewrites))
    ∧ (t.rewrites = [(row, at_, e)] →
        (now ≤ at_ → (t.settle now).rewrites = t.rewrites ∧ (t.settle now).counters = t.counters)
        ∧ (at_ < now → (t.settle now).rewrites = [] ∧ (t.settle now).counters = Counters.bump t.counters Ctr.SP_SCRUB_REWRITES 1
            ∧ (t.settle now).scrubbed = t.scrubbed ++ [(row, e.places)])
        ∧ (row < 49152 → (t.writeRow p row d).rewrites = if t.rowPowered p row = true then [] else t.rewrites))

/-- One arithmetic cycle with no command waiting: what passes, and what the wheels and the scrubs do in it.
Model's choices: log 3, 39. -/
def Obligations.IdleStepPassesOneCycle : Prop := Claims.OneCyclePasses ∧ Claims.WheelsTurn ∧ Claims.ScrubsReadAndRewrite

/-- R454, R459, R463: after every step, whatever command it runs, converters run only from a good input and none runs while THERMTRIP_N
is low, if this held before.
Model's choices: log 110. -/
def Obligations.SupplyInvariantIsKept : Prop :=
  ∀ s t : State, s.SupplyInv → step s = .next t → t.SupplyInv

/-- The supply invariant holds at reset.
Model's choices: log 5. -/
def Obligations.SupplyInvariantHoldsAtReset : Prop := State.reset.SupplyInv

/-- R32, R454, R463: the mode in force changes only when a slab's firmware starts cold, and then to one the flash records; the input's
state, the converters and the reference change only at their own events.
Model's choices: log 98, 110. -/
def Obligations.ModeAndSuppliesChangeAtTheirEvents : Prop :=
  ∀ (s t : State) (c : Instr), exec c s = .next t →
    (t.shared.mode ≠ s.shared.mode → ∃ k x, c = .firmwareStart k x ∧ (s.slab k).camp.firmware = .bootRom
        ∧ (s.slab k).camp.restartCause = 4 ∧ (s.slab k).camp.flash.bootable = true ∧ (s.slab k).ready = true)
    ∧ (t.shared.inputGood ≠ s.shared.inputGood → c = .inputRise ∨ c = .inputUndervoltage ∨ c = .inputOvervoltage)
    ∧ (s.shared.converters = false → t.shared.converters = true → c = .inputRise ∧ s.shared.inputGood = false)
    ∧ (s.shared.converters = true → t.shared.converters = false →
        c = .inputUndervoltage ∨ c = .inputOvervoltage ∨ ∃ k x, c = .thermalTrip k x)
    ∧ (t.shared.reference ≠ s.shared.reference → (∃ torn, c = .referenceLoss torn) ∨ c = .referenceDetectClear)
    ∧ (t.shared.perstN ≠ s.shared.perstN → c = .perstNAssert ∨ c = .perstNDeassert)

/-- R459: a trip of a powered slab pulls THERMTRIP_N, opens every field fuse of both slabs, stops every converter and loses every
volatile memory; the fault maps in flash stay as they are; THERMTRIP_N goes high again only with PERST_N, or when power is removed
(which INPUT_RISE shows as well: the input had fallen).
Model's choices: log 110. -/
def Obligations.TripsStayUntilPowerIsRemoved : Prop :=
  (∀ (s : State) (k : SlabId) (x : Sensor), s.shared.converters = true → (s.slab k).powered = true →
    ∃ t, exec (.thermalTrip k x) s = .next t ∧ t.shared.thermtripN = false ∧ t.shared.converters = false
      ∧ ∀ i : SlabId, (∀ n : Nat, n < 42 → ((t.slab i).field n).fuseOpen = true) ∧ (t.slab i).powered = false ∧ (t.slab i).tiles = []
        ∧ (t.slab i).mem = .reset ∧ (t.slab i).stackList = [] ∧ (t.slab i).streams = [] ∧ (t.slab i).engines = [] ∧ (t.slab i).links = .reset
        ∧ (t.slab i).root = .reset ∧ (t.slab i).job = .reset ∧ (t.slab i).camp = { Camp.reset with flash := (s.slab i).camp.flash })
  ∧ ∀ (s t : State) (c : Instr), exec c s = .next t → s.shared.thermtripN = false → t.shared.thermtripN = true →
      c = .perstNAssert ∨ c = .inputUndervoltage ∨ (c = .inputRise ∧ s.shared.inputGood = false)

/-- R417: in D3hot no access to a BAR has an effect, no vector is signalled, no record reaches the ring (it waits, R406),
and the slab keeps running; the return to D0 gives the function back as it was, and its records are posted. -/
def Obligations.D3hotKeepsTheFunctionAsItWas : Prop :=
  ∀ (s : State) (fn : SlabId) (m : Fin 4) (base value : DWord) (size : BitVec 5) (en : Bool) (off : Nat) (data : List Byte) (q : Fin 16)
    (r : EventRec) (v : Nat),
    (s.shared.linkUp = true → s.shared.perstN = true →
      ∃ t, exec (.d3hotEntry fn) s = .next t ∧ t.slab0 = s.slab0 ∧ t.slab1 = s.slab1 ∧ t.shared = s.shared ∧ t.hostMem = s.hostMem
        ∧ t.func fn = { s.func fn with d3hot := true } ∧ t.func fn.other = s.func fn.other
        ∧ ∃ u, exec (.d0Return fn) t = .next u ∧ u = (s.modFunc fn (fun f => { f with d3hot := false })).drainRing fn)
    ∧ ((s.func fn).d3hot = true →
        exec (.doorbell fn m) s = .next s ∧ exec (.mbxDoneRelease fn m) s = .next s ∧ exec (.evtCtrlEnable fn base size en) s = .next s
        ∧ exec (.evtConsumerWrite fn value) s = .next s
        ∧ (off + data.length ≤ 4096 → exec (.requestBufferWrite fn m off data) s = .next s)
        ∧ (off + data.length ≤ 16777216 → exec (.feedApertureWrite fn q off data) s = .next s)
        ∧ (off + data.length ≤ 0xF0000000 → exec (.stagingWrite fn off data) s = .next s)
        ∧ (s.func fn).signalIf v = s.func fn ∧ (s.post fn r).hostMem = s.hostMem
        ∧ (s.post fn r).func fn = (s.func fn).enqueue r)

/-- R10: the order of tags and sequence numbers: a is later than b when a − b modulo 2^w lies between 1 and 2^(w−1) − 1, so that of two
values whose difference is not exactly 2^(w−1) one is later, and never both. -/
def Obligations.WrappingOrderIsModuloItsWidth : Prop :=
  ∀ (w : Nat) (a b : BitVec w), 1 ≤ w →
    (later a b = true ↔ 1 ≤ (a - b).toNat ∧ (a - b).toNat ≤ 2 ^ (w - 1) - 1)
    ∧ (a ≠ b → (a - b).toNat ≠ 2 ^ (w - 1) → (later a b = true ↔ later b a = false))

/-- R8, R403: a counter adds until it reaches 2^48 − 1, where it stays with its overflow bit set; COUNTERS_CLEAR takes it and the bit to
0, and what the same management cycle counts comes after the clear, also what it had counted before; other counters keep their values.
The next management cycle finds nothing of that kind.
Model's choices: log 92. -/
def Obligations.CountersSaturateAndClear : Prop :=
  ∀ (cs : Counters) (id j n : Nat),
    ((Counters.get cs id).overflow = false → (Counters.get cs id).count.toNat + n < 2 ^ 48 - 1 →
      (Counters.get (Counters.bump cs id n) id).count.toNat = (Counters.get cs id).count.toNat + n
      ∧ (Counters.get (Counters.bump cs id n) id).overflow = false)
    ∧ (1 ≤ n → ((Counters.get cs id).overflow = true ∨ 2 ^ 48 - 1 ≤ (Counters.get cs id).count.toNat + n) →
        (Counters.get (Counters.bump cs id n) id).count.toNat = 2 ^ 48 - 1 ∧ (Counters.get (Counters.bump cs id n) id).overflow = true)
    ∧ (j ≠ id → Counters.get (Counters.bump cs id n) j = Counters.get cs j ∧ Counters.get (Counters.clear cs id) j = Counters.get cs j)
    ∧ (let m := (Counters.get cs id).fresh
       let c := Counters.get (Counters.clear cs id) id
       (Counters.get (Counters.bump cs id n) id).fresh = m + n
       ∧ (m < 2 ^ 48 - 1 → c.count.toNat = m ∧ c.overflow = false)
       ∧ (2 ^ 48 - 1 ≤ m → c.count.toNat = 2 ^ 48 - 1 ∧ c.overflow = true)
       ∧ c.fresh = m ∧ Counters.get (Counters.settle cs) id = { Counters.get cs id with fresh := 0 })

/-- The module right after reset, as R5, R14, R28, R93, R136, R379 to R381, R403, R407 and R421 have it: both slabs have power and stand in the
safe state of PERST_N, split mode from the factory record, no image, no step, empty queues, every counter 0.
Model's choices: log 5, 6. -/
def Obligations.ResetLeavesTheModuleInPerst : Prop :=
  let s := State.reset
  s.pending = [] ∧ s.shared.mode = .split ∧ s.shared.perstN = false ∧ s.shared.linkUp = false ∧ s.shared.thermtripN = true
  ∧ s.shared.alertN = true ∧ s.shared.reference = true ∧ s.shared.inputGood = true ∧ s.smbus = none
  ∧ (∀ k : SlabId, (s.slab k).clocks.running = false ∧ (s.slab k).clocks.locking = false ∧ (s.slab k).camp.firmware = .stopped
      ∧ (s.slab k).camp.restartCause = 4 ∧ (s.slab k).camp.ledger = [] ∧ (s.slab k).camp.faultLog = [] ∧ (s.slab k).job.state = .empty
      ∧ (s.slab k).job.image = none ∧ (s.slab k).root.running = false ∧ (s.func k).evtEnable = false ∧ (s.func k).outstanding = []
      ∧ (∀ m : Fin 4, ((s.func k).mailbox m).pending = false ∧ ((s.func k).mailbox m).done = false)
      ∧ (∀ id : Nat, Counters.get (s.slab k).counters id = Counter.zero ∧ Counters.get (s.func k).counters id = Counter.zero)
      ∧ ∀ (n : Nat), ((s.slab k).port n).up = false ∧ ((s.slab k).port n).enabled = false)
  ∧ (∀ (t : TileId) (q : SeqId) (r : Nat), ((s.tile t).seq q).reg 0 r = 0 ∧ (s.tile t).flags = 0)
end

