-- ==== Sys2Proof/Laws/Chassis.lean ====
section
/-! SUPPORT. What almost every command leaves alone: the commands that wait, the mode in force, and the supply, the
reference and the pins of the module. One lemma per state update; the files KeepChassis… say it of every operation. -/

namespace Sys2Proof.Machine

open Sys2Proof

/-- The part of the state that only supply, reset and reference events change. -/
structure Chassis where
  pending : List Instr
  mode : Mode
  inputGood : Bool
  converters : Bool
  reference : Bool
  perstN : Bool
  thermtripN : Bool

/-- The chassis of a state. -/
def State.chassis (s : State) : Chassis :=
  { pending := s.pending, mode := s.shared.mode, inputGood := s.shared.inputGood, converters := s.shared.converters
    reference := s.shared.reference, perstN := s.shared.perstN, thermtripN := s.shared.thermtripN }

/-- A result leaves the chassis of `s` alone. -/
def Keeps (s : State) : Result → Prop
  | .next t => t.chassis = s.chassis
  | .fault _ => True
  | .refused _ => True

@[simp] theorem keeps_next (s t : State) : Keeps s (.next t) ↔ t.chassis = s.chassis := Iff.rfl
@[simp] theorem keeps_fault (s : State) (f : Fault) : Keeps s (.fault f) := trivial
@[simp] theorem keeps_refused (s : State) (r : Refusal) : Keeps s (.refused r) := trivial

/-- An answer that is a state, when there is one, leaves the chassis of `s` alone. -/
def OptKeeps (s : State) : Option State → Prop
  | none => True
  | some t => t.chassis = s.chassis

/-- The same of an answer that carries a value beside the state. -/
def PairKeeps {α : Type} (s : State) : Option (State × α) → Prop
  | none => True
  | some x => x.1.chassis = s.chassis

@[simp] theorem optKeeps_none (s : State) : OptKeeps s none := trivial
@[simp] theorem optKeeps_some (s t : State) : OptKeeps s (some t) ↔ t.chassis = s.chassis := Iff.rfl
@[simp] theorem pairKeeps_none {α : Type} (s : State) : PairKeeps (α := α) s none := trivial
@[simp] theorem pairKeeps_some {α : Type} (s : State) (x : State × α) : PairKeeps s (some x) ↔ x.1.chassis = s.chassis := Iff.rfl

theorem OptKeeps.elim {s t : State} {o : Option State} (h : OptKeeps s o) (e : o = some t) : t.chassis = s.chassis := by
  subst e; exact h
theorem PairKeeps.elim {α : Type} {s t : State} {a : α} {o : Option (State × α)} (h : PairKeeps s o)
    (e : o = some (t, a)) : t.chassis = s.chassis := by
  subst e; exact h

/-- A state with the queue and the module's shared state of `s` has the chassis of `s`, whatever else it holds. -/
@[simp] theorem chassis_of_shared (s : State) (a b : Slab) (c d : Func) (m : Cells) (x : Option (List Byte)) (n : Nat) :
    State.chassis (State.mk s.pending a b s.shared c d m x n) = s.chassis := rfl

@[simp] theorem chassis_slab0 (s : State) (x : Slab) : State.chassis { s with slab0 := x } = s.chassis := rfl
@[simp] theorem chassis_slab1 (s : State) (x : Slab) : State.chassis { s with slab1 := x } = s.chassis := rfl
@[simp] theorem chassis_fn0 (s : State) (x : Func) : State.chassis { s with fn0 := x } = s.chassis := rfl
@[simp] theorem chassis_fn1 (s : State) (x : Func) : State.chassis { s with fn1 := x } = s.chassis := rfl
@[simp] theorem chassis_hostMem (s : State) (x : Cells) : State.chassis { s with hostMem := x } = s.chassis := rfl
@[simp] theorem chassis_smbus (s : State) (x : Option (List Byte)) : State.chassis { s with smbus := x } = s.chassis := rfl
@[simp] theorem chassis_free (s : State) (n : Nat) : State.chassis { s with free := n } = s.chassis := rfl
@[simp] theorem chassis_counters (s : State) (x : Counters) :
    State.chassis { s with shared := { s.shared with counters := x } } = s.chassis := rfl
@[simp] theorem chassis_colLanes (s : State) (x : List (Fin 96)) :
    State.chassis { s with shared := { s.shared with colLanes := x } } = s.chassis := rfl
@[simp] theorem chassis_belayPairs (s : State) (x : List (Fin 4)) :
    State.chassis { s with shared := { s.shared with belayPairs := x } } = s.chassis := rfl
@[simp] theorem chassis_crossings (s : State) (x : List (Fin 8)) :
    State.chassis { s with shared := { s.shared with crossings := x } } = s.chassis := rfl
@[simp] theorem chassis_gate (s : State) (x : Word) :
    State.chassis { s with shared := { s.shared with gate := x } } = s.chassis := rfl
@[simp] theorem chassis_setMode (s : State) (x : Option (SlabId × Half × Fin 4 × Mode)) :
    State.chassis { s with shared := { s.shared with setMode := x } } = s.chassis := rfl
@[simp] theorem chassis_linkUp (s : State) (x : Bool) :
    State.chassis { s with shared := { s.shared with linkUp := x } } = s.chassis := rfl
@[simp] theorem chassis_alertN (s : State) (x : Bool) :
    State.chassis { s with shared := { s.shared with alertN := x } } = s.chassis := rfl
@[simp] theorem chassis_supply (s : State) (x y : Nat) :
    State.chassis { s with shared := { s.shared with supplyMv := x, supplyMa := y } } = s.chassis := rfl

@[simp] theorem setSlab_chassis (s : State) (i : SlabId) (x : Slab) : (s.setSlab i x).chassis = s.chassis := by cases i <;> rfl
@[simp] theorem modSlab_chassis (s : State) (i : SlabId) (f : Slab → Slab) : (s.modSlab i f).chassis = s.chassis :=
  setSlab_chassis ..
@[simp] theorem setFunc_chassis (s : State) (i : SlabId) (x : Func) : (s.setFunc i x).chassis = s.chassis := by cases i <;> rfl
@[simp] theorem modFunc_chassis (s : State) (i : SlabId) (f : Func → Func) : (s.modFunc i f).chassis = s.chassis :=
  setFunc_chassis ..
@[simp] theorem modDev_chassis (s : State) (i : SlabId) (f : Slab → Slab) : (s.modDev i f).chassis = s.chassis := by
  unfold State.modDev; split <;> simp
@[simp] theorem modTile_chassis (s : State) (t : TileId) (f : Tile → Tile) : (s.modTile t f).chassis = s.chassis :=
  modSlab_chassis ..
@[simp] theorem modJob_chassis (s : State) (i : SlabId) (g : Job → Job) : (s.modJob i g).chassis = s.chassis :=
  modSlab_chassis ..
@[simp] theorem modRoot_chassis (s : State) (i : SlabId) (g : Root → Root) : (s.modRoot i g).chassis = s.chassis :=
  modSlab_chassis ..
@[simp] theorem takeFree_chassis (s : State) (n : Nat) : (s.takeFree n).2.chassis = s.chassis := rfl

@[simp] theorem ite_chassis (c : Prop) [Decidable c] (a b : State) :
    (if c then a else b).chassis = if c then a.chassis else b.chassis := by split <;> rfl

/-- A choice on an optional value leaves the chassis alone when both branches do. -/
theorem elim_chassis {α : Type} (s a : State) (o : Option α) (k : α → State) (ha : a.chassis = s.chassis)
    (hk : ∀ d, o = some d → (k d).chassis = s.chassis) : (o.elim a k).chassis = s.chassis := by
  cases o with
  | none => exact ha
  | some d => exact hk d rfl

/-- A fold of operations that may fail leaves the chassis alone when each does. -/
theorem foldl_bind_keeps {α : Type} (f : State → α → Option State) (h : ∀ s a, OptKeeps s (f s a)) (l : List α)
    (s : State) (o : Option State) (ho : OptKeeps s o) :
    OptKeeps s (l.foldl (fun (b : Option State) a => b.bind (fun s => f s a)) o) := by
  induction l generalizing o with
  | nil => exact ho
  | cons a l ih =>
    refine ih _ ?_
    cases o with
    | none => trivial
    | some t =>
      show OptKeeps s (f t a)
      cases e : f t a with
      | none => trivial
      | some x => exact (OptKeeps.elim (h t a) e).trans ho

/-- A fold of operations that leave the chassis alone leaves it alone. -/
@[simp] theorem foldl_chassis {α : Type} (f : State → α → State) (h : ∀ s a, (f s a).chassis = s.chassis) (l : List α)
    (s : State) : (l.foldl f s).chassis = s.chassis := by
  induction l generalizing s with
  | nil => rfl
  | cons a l ih => rw [List.foldl_cons, ih, h]

end Sys2Proof.Machine
end

