-- ==== Sys2Proof/Laws/State.lean ====
section
/-! SUPPORT. One lemma per field per update of the state's records, so that no proof unfolds a record update. -/

namespace Sys2Proof.Machine

open Sys2Proof

/-! ## Association lists -/

@[simp] theorem alookup_aset {α β : Type} [DecidableEq α] (k k' : α) (v : β) (l : List (α × β)) :
    alookup k (aset k' v l) = if k = k' then some v else alookup k l := by
  induction l with
  | nil => simp [aset, alookup]
  | cons p l ih =>
    obtain ⟨a, b⟩ := p
    by_cases h : k' = a
    · subst h; by_cases g : k = k' <;> simp [aset, alookup, g]
    · by_cases g : k = a
      · subst g; simp [aset, alookup, h, Ne.symm h]
      · simp [aset, alookup, h, g, ih]

@[simp] theorem agetD_aset {α β : Type} [DecidableEq α] (d : β) (k k' : α) (v : β) (l : List (α × β)) :
    agetD d k (aset k' v l) = if k = k' then v else agetD d k l := by
  unfold agetD; rw [alookup_aset]; split <;> rfl

@[simp] theorem alookup_nil {α β : Type} [DecidableEq α] (k : α) : alookup k ([] : List (α × β)) = none := rfl

/-- Two updates of one entry are the last. -/
@[simp] theorem aset_aset {α β : Type} [DecidableEq α] (k : α) (v w : β) (l : List (α × β)) : aset k w (aset k v l) = aset k w l := by
  induction l with
  | nil => simp [aset]
  | cons p l ih =>
    obtain ⟨a, b⟩ := p
    by_cases h : k = a
    · subst h; simp [aset]
    · simp [aset, h, ih]

/-! ## Slabs and functions of the module -/

@[simp] theorem slab_s0 (s : State) : s.slab .s0 = s.slab0 := rfl
@[simp] theorem slab_s1 (s : State) : s.slab .s1 = s.slab1 := rfl
@[simp] theorem func_s0 (s : State) : s.func .s0 = s.fn0 := rfl
@[simp] theorem func_s1 (s : State) : s.func .s1 = s.fn1 := rfl

theorem slab_setSlab (s : State) (i j : SlabId) (x : Slab) : (s.setSlab i x).slab j = if j = i then x else s.slab j := by
  cases i <;> cases j <;> rfl
@[simp] theorem slab_setSlab_self (s : State) (i : SlabId) (x : Slab) : (s.setSlab i x).slab i = x := by cases i <;> rfl
@[simp] theorem slab_modSlab_self (s : State) (i : SlabId) (f : Slab → Slab) : (s.modSlab i f).slab i = f (s.slab i) := by
  cases i <;> rfl
theorem slab_modSlab (s : State) (i j : SlabId) (f : Slab → Slab) :
    (s.modSlab i f).slab j = if j = i then f (s.slab j) else s.slab j := by cases i <;> cases j <;> rfl
theorem slab_modSlab_other (s : State) {i j : SlabId} (h : j ≠ i) (f : Slab → Slab) : (s.modSlab i f).slab j = s.slab j := by
  rw [slab_modSlab, if_neg h]
@[simp] theorem func_setSlab (s : State) (i j : SlabId) (x : Slab) : (s.setSlab i x).func j = s.func j := by
  cases i <;> cases j <;> rfl
@[simp] theorem func_modSlab (s : State) (i j : SlabId) (f : Slab → Slab) : (s.modSlab i f).func j = s.func j :=
  func_setSlab ..
@[simp] theorem slab_setFunc (s : State) (i j : SlabId) (x : Func) : (s.setFunc i x).slab j = s.slab j := by
  cases i <;> cases j <;> rfl
@[simp] theorem slab_modFunc (s : State) (i j : SlabId) (g : Func → Func) : (s.modFunc i g).slab j = s.slab j :=
  slab_setFunc ..
@[simp] theorem func_setFunc_self (s : State) (i : SlabId) (x : Func) : (s.setFunc i x).func i = x := by cases i <;> rfl
@[simp] theorem func_modFunc_self (s : State) (i : SlabId) (g : Func → Func) : (s.modFunc i g).func i = g (s.func i) := by
  cases i <;> rfl
theorem func_modFunc (s : State) (i j : SlabId) (g : Func → Func) :
    (s.modFunc i g).func j = if j = i then g (s.func j) else s.func j := by cases i <;> cases j <;> rfl

/-- A slab put back as it was changes nothing. -/
@[simp] theorem setSlab_slab (s : State) (i : SlabId) : s.setSlab i (s.slab i) = s := by cases i <;> rfl

@[simp] theorem pending_setSlab (s : State) (i : SlabId) (x : Slab) : (s.setSlab i x).pending = s.pending := by cases i <;> rfl
@[simp] theorem pending_modSlab (s : State) (i : SlabId) (f : Slab → Slab) : (s.modSlab i f).pending = s.pending := by cases i <;> rfl
@[simp] theorem pending_setFunc (s : State) (i : SlabId) (x : Func) : (s.setFunc i x).pending = s.pending := by cases i <;> rfl
@[simp] theorem pending_modFunc (s : State) (i : SlabId) (f : Func → Func) : (s.modFunc i f).pending = s.pending := by cases i <;> rfl
@[simp] theorem pending_modTile (s : State) (t : TileId) (f : Tile → Tile) : (s.modTile t f).pending = s.pending := pending_modSlab ..
@[simp] theorem shared_setSlab (s : State) (i : SlabId) (x : Slab) : (s.setSlab i x).shared = s.shared := by cases i <;> rfl
@[simp] theorem shared_modSlab (s : State) (i : SlabId) (f : Slab → Slab) : (s.modSlab i f).shared = s.shared := by cases i <;> rfl
@[simp] theorem shared_setFunc (s : State) (i : SlabId) (x : Func) : (s.setFunc i x).shared = s.shared := by cases i <;> rfl
@[simp] theorem shared_modFunc (s : State) (i : SlabId) (f : Func → Func) : (s.modFunc i f).shared = s.shared := by cases i <;> rfl
@[simp] theorem shared_modTile (s : State) (t : TileId) (f : Tile → Tile) : (s.modTile t f).shared = s.shared := shared_modSlab ..
@[simp] theorem hostMem_setSlab (s : State) (i : SlabId) (x : Slab) : (s.setSlab i x).hostMem = s.hostMem := by cases i <;> rfl
@[simp] theorem hostMem_modSlab (s : State) (i : SlabId) (f : Slab → Slab) : (s.modSlab i f).hostMem = s.hostMem := by cases i <;> rfl
@[simp] theorem hostMem_setFunc (s : State) (i : SlabId) (x : Func) : (s.setFunc i x).hostMem = s.hostMem := by cases i <;> rfl
@[simp] theorem hostMem_modFunc (s : State) (i : SlabId) (f : Func → Func) : (s.modFunc i f).hostMem = s.hostMem := by cases i <;> rfl
@[simp] theorem hostMem_modTile (s : State) (t : TileId) (f : Tile → Tile) : (s.modTile t f).hostMem = s.hostMem := hostMem_modSlab ..
@[simp] theorem smbus_setSlab (s : State) (i : SlabId) (x : Slab) : (s.setSlab i x).smbus = s.smbus := by cases i <;> rfl
@[simp] theorem smbus_modSlab (s : State) (i : SlabId) (f : Slab → Slab) : (s.modSlab i f).smbus = s.smbus := by cases i <;> rfl
@[simp] theorem smbus_setFunc (s : State) (i : SlabId) (x : Func) : (s.setFunc i x).smbus = s.smbus := by cases i <;> rfl
@[simp] theorem smbus_modFunc (s : State) (i : SlabId) (f : Func → Func) : (s.modFunc i f).smbus = s.smbus := by cases i <;> rfl
@[simp] theorem smbus_modTile (s : State) (t : TileId) (f : Tile → Tile) : (s.modTile t f).smbus = s.smbus := smbus_modSlab ..
@[simp] theorem free_setSlab (s : State) (i : SlabId) (x : Slab) : (s.setSlab i x).free = s.free := by cases i <;> rfl
@[simp] theorem free_modSlab (s : State) (i : SlabId) (f : Slab → Slab) : (s.modSlab i f).free = s.free := by cases i <;> rfl
@[simp] theorem free_setFunc (s : State) (i : SlabId) (x : Func) : (s.setFunc i x).free = s.free := by cases i <;> rfl
@[simp] theorem free_modFunc (s : State) (i : SlabId) (f : Func → Func) : (s.modFunc i f).free = s.free := by cases i <;> rfl
@[simp] theorem free_modTile (s : State) (t : TileId) (f : Tile → Tile) : (s.modTile t f).free = s.free := free_modSlab ..

/-! ## Updates of a slab -/

@[simp] theorem Slab.setTile_powered (sl : Slab) (x y : Nat) (t : Tile) : (sl.setTile x y t).powered = sl.powered := rfl
@[simp] theorem Slab.setTile_clocks (sl : Slab) (x y : Nat) (t : Tile) : (sl.setTile x y t).clocks = sl.clocks := rfl
@[simp] theorem Slab.setTile_fields (sl : Slab) (x y : Nat) (t : Tile) : (sl.setTile x y t).fields = sl.fields := rfl
@[simp] theorem Slab.setTile_lostFields (sl : Slab) (x y : Nat) (t : Tile) : (sl.setTile x y t).lostFields = sl.lostFields := rfl
@[simp] theorem Slab.setTile_hole (sl : Slab) (x y : Nat) (t : Tile) : (sl.setTile x y t).hole = sl.hole := rfl
@[simp] theorem Slab.setTile_root (sl : Slab) (x y : Nat) (t : Tile) : (sl.setTile x y t).root = sl.root := rfl
@[simp] theorem Slab.setTile_mem (sl : Slab) (x y : Nat) (t : Tile) : (sl.setTile x y t).mem = sl.mem := rfl
@[simp] theorem Slab.setTile_streams (sl : Slab) (x y : Nat) (t : Tile) : (sl.setTile x y t).streams = sl.streams := rfl
@[simp] theorem Slab.setTile_stacks (sl : Slab) (x y : Nat) (t : Tile) : (sl.setTile x y t).stackList = sl.stackList := rfl
@[simp] theorem Slab.setTile_ports (sl : Slab) (x y : Nat) (t : Tile) : (sl.setTile x y t).ports = sl.ports := rfl
@[simp] theorem Slab.setTile_engines (sl : Slab) (x y : Nat) (t : Tile) : (sl.setTile x y t).engines = sl.engines := rfl
@[simp] theorem Slab.setTile_links (sl : Slab) (x y : Nat) (t : Tile) : (sl.setTile x y t).links = sl.links := rfl
@[simp] theorem Slab.setTile_camp (sl : Slab) (x y : Nat) (t : Tile) : (sl.setTile x y t).camp = sl.camp := rfl
@[simp] theorem Slab.setTile_job (sl : Slab) (x y : Nat) (t : Tile) : (sl.setTile x y t).job = sl.job := rfl
@[simp] theorem Slab.setTile_gate (sl : Slab) (x y : Nat) (t : Tile) : (sl.setTile x y t).gate = sl.gate := rfl
@[simp] theorem Slab.setTile_feedCounters (sl : Slab) (x y : Nat) (t : Tile) : (sl.setTile x y t).feedCounters = sl.feedCounters := rfl
@[simp] theorem Slab.setTile_counters (sl : Slab) (x y : Nat) (t : Tile) : (sl.setTile x y t).counters = sl.counters := rfl
@[simp] theorem Slab.modTile_powered (sl : Slab) (x y : Nat) (g : Tile → Tile) : (sl.modTile x y g).powered = sl.powered := rfl
@[simp] theorem Slab.modTile_clocks (sl : Slab) (x y : Nat) (g : Tile → Tile) : (sl.modTile x y g).clocks = sl.clocks := rfl
@[simp] theorem Slab.modTile_fields (sl : Slab) (x y : Nat) (g : Tile → Tile) : (sl.modTile x y g).fields = sl.fields := rfl
@[simp] theorem Slab.modTile_lostFields (sl : Slab) (x y : Nat) (g : Tile → Tile) : (sl.modTile x y g).lostFields = sl.lostFields := rfl
@[simp] theorem Slab.modTile_hole (sl : Slab) (x y : Nat) (g : Tile → Tile) : (sl.modTile x y g).hole = sl.hole := rfl
@[simp] theorem Slab.modTile_root (sl : Slab) (x y : Nat) (g : Tile → Tile) : (sl.modTile x y g).root = sl.root := rfl
@[simp] theorem Slab.modTile_mem (sl : Slab) (x y : Nat) (g : Tile → Tile) : (sl.modTile x y g).mem = sl.mem := rfl
@[simp] theorem Slab.modTile_streams (sl : Slab) (x y : Nat) (g : Tile → Tile) : (sl.modTile x y g).streams = sl.streams := rfl
@[simp] theorem Slab.modTile_stacks (sl : Slab) (x y : Nat) (g : Tile → Tile) : (sl.modTile x y g).stackList = sl.stackList := rfl
@[simp] theorem Slab.modTile_ports (sl : Slab) (x y : Nat) (g : Tile → Tile) : (sl.modTile x y g).ports = sl.ports := rfl
@[simp] theorem Slab.modTile_engines (sl : Slab) (x y : Nat) (g : Tile → Tile) : (sl.modTile x y g).engines = sl.engines := rfl
@[simp] theorem Slab.modTile_links (sl : Slab) (x y : Nat) (g : Tile → Tile) : (sl.modTile x y g).links = sl.links := rfl
@[simp] theorem Slab.modTile_camp (sl : Slab) (x y : Nat) (g : Tile → Tile) : (sl.modTile x y g).camp = sl.camp := rfl
@[simp] theorem Slab.modTile_job (sl : Slab) (x y : Nat) (g : Tile → Tile) : (sl.modTile x y g).job = sl.job := rfl
@[simp] theorem Slab.modTile_gate (sl : Slab) (x y : Nat) (g : Tile → Tile) : (sl.modTile x y g).gate = sl.gate := rfl
@[simp] theorem Slab.modTile_feedCounters (sl : Slab) (x y : Nat) (g : Tile → Tile) : (sl.modTile x y g).feedCounters = sl.feedCounters := rfl
@[simp] theorem Slab.modTile_counters (sl : Slab) (x y : Nat) (g : Tile → Tile) : (sl.modTile x y g).counters = sl.counters := rfl
@[simp] theorem Slab.mapTiles_powered (sl : Slab) (g : Nat → Nat → Tile → Tile) : (sl.mapTiles g).powered = sl.powered := rfl
@[simp] theorem Slab.mapTiles_clocks (sl : Slab) (g : Nat → Nat → Tile → Tile) : (sl.mapTiles g).clocks = sl.clocks := rfl
@[simp] theorem Slab.mapTiles_fields (sl : Slab) (g : Nat → Nat → Tile → Tile) : (sl.mapTiles g).fields = sl.fields := rfl
@[simp] theorem Slab.mapTiles_lostFields (sl : Slab) (g : Nat → Nat → Tile → Tile) : (sl.mapTiles g).lostFields = sl.lostFields := rfl
@[simp] theorem Slab.mapTiles_hole (sl : Slab) (g : Nat → Nat → Tile → Tile) : (sl.mapTiles g).hole = sl.hole := rfl
@[simp] theorem Slab.mapTiles_root (sl : Slab) (g : Nat → Nat → Tile → Tile) : (sl.mapTiles g).root = sl.root := rfl
@[simp] theorem Slab.mapTiles_mem (sl : Slab) (g : Nat → Nat → Tile → Tile) : (sl.mapTiles g).mem = sl.mem := rfl
@[simp] theorem Slab.mapTiles_streams (sl : Slab) (g : Nat → Nat → Tile → Tile) : (sl.mapTiles g).streams = sl.streams := rfl
@[simp] theorem Slab.mapTiles_stacks (sl : Slab) (g : Nat → Nat → Tile → Tile) : (sl.mapTiles g).stackList = sl.stackList := rfl
@[simp] theorem Slab.mapTiles_ports (sl : Slab) (g : Nat → Nat → Tile → Tile) : (sl.mapTiles g).ports = sl.ports := rfl
@[simp] theorem Slab.mapTiles_engines (sl : Slab) (g : Nat → Nat → Tile → Tile) : (sl.mapTiles g).engines = sl.engines := rfl
@[simp] theorem Slab.mapTiles_links (sl : Slab) (g : Nat → Nat → Tile → Tile) : (sl.mapTiles g).links = sl.links := rfl
@[simp] theorem Slab.mapTiles_camp (sl : Slab) (g : Nat → Nat → Tile → Tile) : (sl.mapTiles g).camp = sl.camp := rfl
@[simp] theorem Slab.mapTiles_job (sl : Slab) (g : Nat → Nat → Tile → Tile) : (sl.mapTiles g).job = sl.job := rfl
@[simp] theorem Slab.mapTiles_gate (sl : Slab) (g : Nat → Nat → Tile → Tile) : (sl.mapTiles g).gate = sl.gate := rfl
@[simp] theorem Slab.mapTiles_feedCounters (sl : Slab) (g : Nat → Nat → Tile → Tile) : (sl.mapTiles g).feedCounters = sl.feedCounters := rfl
@[simp] theorem Slab.mapTiles_counters (sl : Slab) (g : Nat → Nat → Tile → Tile) : (sl.mapTiles g).counters = sl.counters := rfl
@[simp] theorem Slab.modField_powered (sl : Slab) (n : Nat) (g : Field → Field) : (sl.modField n g).powered = sl.powered := rfl
@[simp] theorem Slab.modField_clocks (sl : Slab) (n : Nat) (g : Field → Field) : (sl.modField n g).clocks = sl.clocks := rfl
@[simp] theorem Slab.modField_tiles (sl : Slab) (n : Nat) (g : Field → Field) : (sl.modField n g).tiles = sl.tiles := rfl
@[simp] theorem Slab.modField_lostFields (sl : Slab) (n : Nat) (g : Field → Field) : (sl.modField n g).lostFields = sl.lostFields := rfl
@[simp] theorem Slab.modField_hole (sl : Slab) (n : Nat) (g : Field → Field) : (sl.modField n g).hole = sl.hole := rfl
@[simp] theorem Slab.modField_root (sl : Slab) (n : Nat) (g : Field → Field) : (sl.modField n g).root = sl.root := rfl
@[simp] theorem Slab.modField_mem (sl : Slab) (n : Nat) (g : Field → Field) : (sl.modField n g).mem = sl.mem := rfl
@[simp] theorem Slab.modField_streams (sl : Slab) (n : Nat) (g : Field → Field) : (sl.modField n g).streams = sl.streams := rfl
@[simp] theorem Slab.modField_stacks (sl : Slab) (n : Nat) (g : Field → Field) : (sl.modField n g).stackList = sl.stackList := rfl
@[simp] theorem Slab.modField_ports (sl : Slab) (n : Nat) (g : Field → Field) : (sl.modField n g).ports = sl.ports := rfl
@[simp] theorem Slab.modField_engines (sl : Slab) (n : Nat) (g : Field → Field) : (sl.modField n g).engines = sl.engines := rfl
@[simp] theorem Slab.modField_links (sl : Slab) (n : Nat) (g : Field → Field) : (sl.modField n g).links = sl.links := rfl
@[simp] theorem Slab.modField_camp (sl : Slab) (n : Nat) (g : Field → Field) : (sl.modField n g).camp = sl.camp := rfl
@[simp] theorem Slab.modField_job (sl : Slab) (n : Nat) (g : Field → Field) : (sl.modField n g).job = sl.job := rfl
@[simp] theorem Slab.modField_gate (sl : Slab) (n : Nat) (g : Field → Field) : (sl.modField n g).gate = sl.gate := rfl
@[simp] theorem Slab.modField_feedCounters (sl : Slab) (n : Nat) (g : Field → Field) : (sl.modField n g).feedCounters = sl.feedCounters := rfl
@[simp] theorem Slab.modField_counters (sl : Slab) (n : Nat) (g : Field → Field) : (sl.modField n g).counters = sl.counters := rfl
@[simp] theorem Slab.modStack_powered (sl : Slab) (k : Nat) (g : Stack → Stack) : (sl.modStack k g).powered = sl.powered := rfl
@[simp] theorem Slab.modStack_clocks (sl : Slab) (k : Nat) (g : Stack → Stack) : (sl.modStack k g).clocks = sl.clocks := rfl
@[simp] theorem Slab.modStack_tiles (sl : Slab) (k : Nat) (g : Stack → Stack) : (sl.modStack k g).tiles = sl.tiles := rfl
@[simp] theorem Slab.modStack_fields (sl : Slab) (k : Nat) (g : Stack → Stack) : (sl.modStack k g).fields = sl.fields := rfl
@[simp] theorem Slab.modStack_lostFields (sl : Slab) (k : Nat) (g : Stack → Stack) : (sl.modStack k g).lostFields = sl.lostFields := rfl
@[simp] theorem Slab.modStack_hole (sl : Slab) (k : Nat) (g : Stack → Stack) : (sl.modStack k g).hole = sl.hole := rfl
@[simp] theorem Slab.modStack_root (sl : Slab) (k : Nat) (g : Stack → Stack) : (sl.modStack k g).root = sl.root := rfl
@[simp] theorem Slab.modStack_mem (sl : Slab) (k : Nat) (g : Stack → Stack) : (sl.modStack k g).mem = sl.mem := rfl
@[simp] theorem Slab.modStack_streams (sl : Slab) (k : Nat) (g : Stack → Stack) : (sl.modStack k g).streams = sl.streams := rfl
@[simp] theorem Slab.modStack_ports (sl : Slab) (k : Nat) (g : Stack → Stack) : (sl.modStack k g).ports = sl.ports := rfl
@[simp] theorem Slab.modStack_engines (sl : Slab) (k : Nat) (g : Stack → Stack) : (sl.modStack k g).engines = sl.engines := rfl
@[simp] theorem Slab.modStack_links (sl : Slab) (k : Nat) (g : Stack → Stack) : (sl.modStack k g).links = sl.links := rfl
@[simp] theorem Slab.modStack_camp (sl : Slab) (k : Nat) (g : Stack → Stack) : (sl.modStack k g).camp = sl.camp := rfl
@[simp] theorem Slab.modStack_job (sl : Slab) (k : Nat) (g : Stack → Stack) : (sl.modStack k g).job = sl.job := rfl
@[simp] theorem Slab.modStack_gate (sl : Slab) (k : Nat) (g : Stack → Stack) : (sl.modStack k g).gate = sl.gate := rfl
@[simp] theorem Slab.modStack_feedCounters (sl : Slab) (k : Nat) (g : Stack → Stack) : (sl.modStack k g).feedCounters = sl.feedCounters := rfl
@[simp] theorem Slab.modStack_counters (sl : Slab) (k : Nat) (g : Stack → Stack) : (sl.modStack k g).counters = sl.counters := rfl
@[simp] theorem Slab.modUnit_powered (sl : Slab) (k : Nat) (g : UpdateUnit → UpdateUnit) : (sl.modUnit k g).powered = sl.powered := rfl
@[simp] theorem Slab.modUnit_clocks (sl : Slab) (k : Nat) (g : UpdateUnit → UpdateUnit) : (sl.modUnit k g).clocks = sl.clocks := rfl
@[simp] theorem Slab.modUnit_tiles (sl : Slab) (k : Nat) (g : UpdateUnit → UpdateUnit) : (sl.modUnit k g).tiles = sl.tiles := rfl
@[simp] theorem Slab.modUnit_fields (sl : Slab) (k : Nat) (g : UpdateUnit → UpdateUnit) : (sl.modUnit k g).fields = sl.fields := rfl
@[simp] theorem Slab.modUnit_lostFields (sl : Slab) (k : Nat) (g : UpdateUnit → UpdateUnit) : (sl.modUnit k g).lostFields = sl.lostFields := rfl
@[simp] theorem Slab.modUnit_hole (sl : Slab) (k : Nat) (g : UpdateUnit → UpdateUnit) : (sl.modUnit k g).hole = sl.hole := rfl
@[simp] theorem Slab.modUnit_root (sl : Slab) (k : Nat) (g : UpdateUnit → UpdateUnit) : (sl.modUnit k g).root = sl.root := rfl
@[simp] theorem Slab.modUnit_mem (sl : Slab) (k : Nat) (g : UpdateUnit → UpdateUnit) : (sl.modUnit k g).mem = sl.mem := rfl
@[simp] theorem Slab.modUnit_streams (sl : Slab) (k : Nat) (g : UpdateUnit → UpdateUnit) : (sl.modUnit k g).streams = sl.streams := rfl
@[simp] theorem Slab.modUnit_ports (sl : Slab) (k : Nat) (g : UpdateUnit → UpdateUnit) : (sl.modUnit k g).ports = sl.ports := rfl
@[simp] theorem Slab.modUnit_engines (sl : Slab) (k : Nat) (g : UpdateUnit → UpdateUnit) : (sl.modUnit k g).engines = sl.engines := rfl
@[simp] theorem Slab.modUnit_links (sl : Slab) (k : Nat) (g : UpdateUnit → UpdateUnit) : (sl.modUnit k g).links = sl.links := rfl
@[simp] theorem Slab.modUnit_camp (sl : Slab) (k : Nat) (g : UpdateUnit → UpdateUnit) : (sl.modUnit k g).camp = sl.camp := rfl
@[simp] theorem Slab.modUnit_job (sl : Slab) (k : Nat) (g : UpdateUnit → UpdateUnit) : (sl.modUnit k g).job = sl.job := rfl
@[simp] theorem Slab.modUnit_gate (sl : Slab) (k : Nat) (g : UpdateUnit → UpdateUnit) : (sl.modUnit k g).gate = sl.gate := rfl
@[simp] theorem Slab.modUnit_feedCounters (sl : Slab) (k : Nat) (g : UpdateUnit → UpdateUnit) : (sl.modUnit k g).feedCounters = sl.feedCounters := rfl
@[simp] theorem Slab.modUnit_counters (sl : Slab) (k : Nat) (g : UpdateUnit → UpdateUnit) : (sl.modUnit k g).counters = sl.counters := rfl
@[simp] theorem Slab.modPort_powered (sl : Slab) (k : Nat) (g : Port → Port) : (sl.modPort k g).powered = sl.powered := rfl
@[simp] theorem Slab.modPort_clocks (sl : Slab) (k : Nat) (g : Port → Port) : (sl.modPort k g).clocks = sl.clocks := rfl
@[simp] theorem Slab.modPort_tiles (sl : Slab) (k : Nat) (g : Port → Port) : (sl.modPort k g).tiles = sl.tiles := rfl
@[simp] theorem Slab.modPort_fields (sl : Slab) (k : Nat) (g : Port → Port) : (sl.modPort k g).fields = sl.fields := rfl
@[simp] theorem Slab.modPort_lostFields (sl : Slab) (k : Nat) (g : Port → Port) : (sl.modPort k g).lostFields = sl.lostFields := rfl
@[simp] theorem Slab.modPort_hole (sl : Slab) (k : Nat) (g : Port → Port) : (sl.modPort k g).hole = sl.hole := rfl
@[simp] theorem Slab.modPort_root (sl : Slab) (k : Nat) (g : Port → Port) : (sl.modPort k g).root = sl.root := rfl
@[simp] theorem Slab.modPort_mem (sl : Slab) (k : Nat) (g : Port → Port) : (sl.modPort k g).mem = sl.mem := rfl
@[simp] theorem Slab.modPort_streams (sl : Slab) (k : Nat) (g : Port → Port) : (sl.modPort k g).streams = sl.streams := rfl
@[simp] theorem Slab.modPort_stacks (sl : Slab) (k : Nat) (g : Port → Port) : (sl.modPort k g).stackList = sl.stackList := rfl
@[simp] theorem Slab.modPort_engines (sl : Slab) (k : Nat) (g : Port → Port) : (sl.modPort k g).engines = sl.engines := rfl
@[simp] theorem Slab.modPort_links (sl : Slab) (k : Nat) (g : Port → Port) : (sl.modPort k g).links = sl.links := rfl
@[simp] theorem Slab.modPort_camp (sl : Slab) (k : Nat) (g : Port → Port) : (sl.modPort k g).camp = sl.camp := rfl
@[simp] theorem Slab.modPort_job (sl : Slab) (k : Nat) (g : Port → Port) : (sl.modPort k g).job = sl.job := rfl
@[simp] theorem Slab.modPort_gate (sl : Slab) (k : Nat) (g : Port → Port) : (sl.modPort k g).gate = sl.gate := rfl
@[simp] theorem Slab.modPort_feedCounters (sl : Slab) (k : Nat) (g : Port → Port) : (sl.modPort k g).feedCounters = sl.feedCounters := rfl
@[simp] theorem Slab.modPort_counters (sl : Slab) (k : Nat) (g : Port → Port) : (sl.modPort k g).counters = sl.counters := rfl
@[simp] theorem Slab.modEngine_powered (sl : Slab) (k : Nat) (g : Engine → Engine) : (sl.modEngine k g).powered = sl.powered := rfl
@[simp] theorem Slab.modEngine_clocks (sl : Slab) (k : Nat) (g : Engine → Engine) : (sl.modEngine k g).clocks = sl.clocks := rfl
@[simp] theorem Slab.modEngine_tiles (sl : Slab) (k : Nat) (g : Engine → Engine) : (sl.modEngine k g).tiles = sl.tiles := rfl
@[simp] theorem Slab.modEngine_fields (sl : Slab) (k : Nat) (g : Engine → Engine) : (sl.modEngine k g).fields = sl.fields := rfl
@[simp] theorem Slab.modEngine_lostFields (sl : Slab) (k : Nat) (g : Engine → Engine) : (sl.modEngine k g).lostFields = sl.lostFields := rfl
@[simp] theorem Slab.modEngine_hole (sl : Slab) (k : Nat) (g : Engine → Engine) : (sl.modEngine k g).hole = sl.hole := rfl
@[simp] theorem Slab.modEngine_root (sl : Slab) (k : Nat) (g : Engine → Engine) : (sl.modEngine k g).root = sl.root := rfl
@[simp] theorem Slab.modEngine_mem (sl : Slab) (k : Nat) (g : Engine → Engine) : (sl.modEngine k g).mem = sl.mem := rfl
@[simp] theorem Slab.modEngine_streams (sl : Slab) (k : Nat) (g : Engine → Engine) : (sl.modEngine k g).streams = sl.streams := rfl
@[simp] theorem Slab.modEngine_stacks (sl : Slab) (k : Nat) (g : Engine → Engine) : (sl.modEngine k g).stackList = sl.stackList := rfl
@[simp] theorem Slab.modEngine_ports (sl : Slab) (k : Nat) (g : Engine → Engine) : (sl.modEngine k g).ports = sl.ports := rfl
@[simp] theorem Slab.modEngine_links (sl : Slab) (k : Nat) (g : Engine → Engine) : (sl.modEngine k g).links = sl.links := rfl
@[simp] theorem Slab.modEngine_camp (sl : Slab) (k : Nat) (g : Engine → Engine) : (sl.modEngine k g).camp = sl.camp := rfl
@[simp] theorem Slab.modEngine_job (sl : Slab) (k : Nat) (g : Engine → Engine) : (sl.modEngine k g).job = sl.job := rfl
@[simp] theorem Slab.modEngine_gate (sl : Slab) (k : Nat) (g : Engine → Engine) : (sl.modEngine k g).gate = sl.gate := rfl
@[simp] theorem Slab.modEngine_feedCounters (sl : Slab) (k : Nat) (g : Engine → Engine) : (sl.modEngine k g).feedCounters = sl.feedCounters := rfl
@[simp] theorem Slab.modEngine_counters (sl : Slab) (k : Nat) (g : Engine → Engine) : (sl.modEngine k g).counters = sl.counters := rfl
@[simp] theorem Slab.modStream_powered (sl : Slab) (k : Nat) (g : StreamState → StreamState) : (sl.modStream k g).powered = sl.powered := rfl
@[simp] theorem Slab.modStream_clocks (sl : Slab) (k : Nat) (g : StreamState → StreamState) : (sl.modStream k g).clocks = sl.clocks := rfl
@[simp] theorem Slab.modStream_tiles (sl : Slab) (k : Nat) (g : StreamState → StreamState) : (sl.modStream k g).tiles = sl.tiles := rfl
@[simp] theorem Slab.modStream_fields (sl : Slab) (k : Nat) (g : StreamState → StreamState) : (sl.modStream k g).fields = sl.fields := rfl
@[simp] theorem Slab.modStream_lostFields (sl : Slab) (k : Nat) (g : StreamState → StreamState) : (sl.modStream k g).lostFields = sl.lostFields := rfl
@[simp] theorem Slab.modStream_hole (sl : Slab) (k : Nat) (g : StreamState → StreamState) : (sl.modStream k g).hole = sl.hole := rfl
@[simp] theorem Slab.modStream_root (sl : Slab) (k : Nat) (g : StreamState → StreamState) : (sl.modStream k g).root = sl.root := rfl
@[simp] theorem Slab.modStream_mem (sl : Slab) (k : Nat) (g : StreamState → StreamState) : (sl.modStream k g).mem = sl.mem := rfl
@[simp] theorem Slab.modStream_stacks (sl : Slab) (k : Nat) (g : StreamState → StreamState) : (sl.modStream k g).stackList = sl.stackList := rfl
@[simp] theorem Slab.modStream_ports (sl : Slab) (k : Nat) (g : StreamState → StreamState) : (sl.modStream k g).ports = sl.ports := rfl
@[simp] theorem Slab.modStream_engines (sl : Slab) (k : Nat) (g : StreamState → StreamState) : (sl.modStream k g).engines = sl.engines := rfl
@[simp] theorem Slab.modStream_links (sl : Slab) (k : Nat) (g : StreamState → StreamState) : (sl.modStream k g).links = sl.links := rfl
@[simp] theorem Slab.modStream_camp (sl : Slab) (k : Nat) (g : StreamState → StreamState) : (sl.modStream k g).camp = sl.camp := rfl
@[simp] theorem Slab.modStream_job (sl : Slab) (k : Nat) (g : StreamState → StreamState) : (sl.modStream k g).job = sl.job := rfl
@[simp] theorem Slab.modStream_gate (sl : Slab) (k : Nat) (g : StreamState → StreamState) : (sl.modStream k g).gate = sl.gate := rfl
@[simp] theorem Slab.modStream_feedCounters (sl : Slab) (k : Nat) (g : StreamState → StreamState) : (sl.modStream k g).feedCounters = sl.feedCounters := rfl
@[simp] theorem Slab.modStream_counters (sl : Slab) (k : Nat) (g : StreamState → StreamState) : (sl.modStream k g).counters = sl.counters := rfl
@[simp] theorem Slab.modRoot_powered (sl : Slab) (g : Root → Root) : (sl.modRoot g).powered = sl.powered := rfl
@[simp] theorem Slab.modRoot_clocks (sl : Slab) (g : Root → Root) : (sl.modRoot g).clocks = sl.clocks := rfl
@[simp] theorem Slab.modRoot_tiles (sl : Slab) (g : Root → Root) : (sl.modRoot g).tiles = sl.tiles := rfl
@[simp] theorem Slab.modRoot_fields (sl : Slab) (g : Root → Root) : (sl.modRoot g).fields = sl.fields := rfl
@[simp] theorem Slab.modRoot_lostFields (sl : Slab) (g : Root → Root) : (sl.modRoot g).lostFields = sl.lostFields := rfl
@[simp] theorem Slab.modRoot_hole (sl : Slab) (g : Root → Root) : (sl.modRoot g).hole = sl.hole := rfl
@[simp] theorem Slab.modRoot_mem (sl : Slab) (g : Root → Root) : (sl.modRoot g).mem = sl.mem := rfl
@[simp] theorem Slab.modRoot_streams (sl : Slab) (g : Root → Root) : (sl.modRoot g).streams = sl.streams := rfl
@[simp] theorem Slab.modRoot_stacks (sl : Slab) (g : Root → Root) : (sl.modRoot g).stackList = sl.stackList := rfl
@[simp] theorem Slab.modRoot_ports (sl : Slab) (g : Root → Root) : (sl.modRoot g).ports = sl.ports := rfl
@[simp] theorem Slab.modRoot_engines (sl : Slab) (g : Root → Root) : (sl.modRoot g).engines = sl.engines := rfl
@[simp] theorem Slab.modRoot_links (sl : Slab) (g : Root → Root) : (sl.modRoot g).links = sl.links := rfl
@[simp] theorem Slab.modRoot_camp (sl : Slab) (g : Root → Root) : (sl.modRoot g).camp = sl.camp := rfl
@[simp] theorem Slab.modRoot_job (sl : Slab) (g : Root → Root) : (sl.modRoot g).job = sl.job := rfl
@[simp] theorem Slab.modRoot_gate (sl : Slab) (g : Root → Root) : (sl.modRoot g).gate = sl.gate := rfl
@[simp] theorem Slab.modRoot_feedCounters (sl : Slab) (g : Root → Root) : (sl.modRoot g).feedCounters = sl.feedCounters := rfl
@[simp] theorem Slab.modRoot_counters (sl : Slab) (g : Root → Root) : (sl.modRoot g).counters = sl.counters := rfl
@[simp] theorem Slab.modJob_powered (sl : Slab) (g : Job → Job) : (sl.modJob g).powered = sl.powered := rfl
@[simp] theorem Slab.modJob_clocks (sl : Slab) (g : Job → Job) : (sl.modJob g).clocks = sl.clocks := rfl
@[simp] theorem Slab.modJob_tiles (sl : Slab) (g : Job → Job) : (sl.modJob g).tiles = sl.tiles := rfl
@[simp] theorem Slab.modJob_fields (sl : Slab) (g : Job → Job) : (sl.modJob g).fields = sl.fields := rfl
@[simp] theorem Slab.modJob_lostFields (sl : Slab) (g : Job → Job) : (sl.modJob g).lostFields = sl.lostFields := rfl
@[simp] theorem Slab.modJob_hole (sl : Slab) (g : Job → Job) : (sl.modJob g).hole = sl.hole := rfl
@[simp] theorem Slab.modJob_root (sl : Slab) (g : Job → Job) : (sl.modJob g).root = sl.root := rfl
@[simp] theorem Slab.modJob_mem (sl : Slab) (g : Job → Job) : (sl.modJob g).mem = sl.mem := rfl
@[simp] theorem Slab.modJob_streams (sl : Slab) (g : Job → Job) : (sl.modJob g).streams = sl.streams := rfl
@[simp] theorem Slab.modJob_stacks (sl : Slab) (g : Job → Job) : (sl.modJob g).stackList = sl.stackList := rfl
@[simp] theorem Slab.modJob_ports (sl : Slab) (g : Job → Job) : (sl.modJob g).ports = sl.ports := rfl
@[simp] theorem Slab.modJob_engines (sl : Slab) (g : Job → Job) : (sl.modJob g).engines = sl.engines := rfl
@[simp] theorem Slab.modJob_links (sl : Slab) (g : Job → Job) : (sl.modJob g).links = sl.links := rfl
@[simp] theorem Slab.modJob_camp (sl : Slab) (g : Job → Job) : (sl.modJob g).camp = sl.camp := rfl
@[simp] theorem Slab.modJob_gate (sl : Slab) (g : Job → Job) : (sl.modJob g).gate = sl.gate := rfl
@[simp] theorem Slab.modJob_feedCounters (sl : Slab) (g : Job → Job) : (sl.modJob g).feedCounters = sl.feedCounters := rfl
@[simp] theorem Slab.modJob_counters (sl : Slab) (g : Job → Job) : (sl.modJob g).counters = sl.counters := rfl
@[simp] theorem Slab.modCamp_powered (sl : Slab) (g : Camp → Camp) : (sl.modCamp g).powered = sl.powered := rfl
@[simp] theorem Slab.modCamp_clocks (sl : Slab) (g : Camp → Camp) : (sl.modCamp g).clocks = sl.clocks := rfl
@[simp] theorem Slab.modCamp_tiles (sl : Slab) (g : Camp → Camp) : (sl.modCamp g).tiles = sl.tiles := rfl
@[simp] theorem Slab.modCamp_fields (sl : Slab) (g : Camp → Camp) : (sl.modCamp g).fields = sl.fields := rfl
@[simp] theorem Slab.modCamp_lostFields (sl : Slab) (g : Camp → Camp) : (sl.modCamp g).lostFields = sl.lostFields := rfl
@[simp] theorem Slab.modCamp_hole (sl : Slab) (g : Camp → Camp) : (sl.modCamp g).hole = sl.hole := rfl
@[simp] theorem Slab.modCamp_root (sl : Slab) (g : Camp → Camp) : (sl.modCamp g).root = sl.root := rfl
@[simp] theorem Slab.modCamp_mem (sl : Slab) (g : Camp → Camp) : (sl.modCamp g).mem = sl.mem := rfl
@[simp] theorem Slab.modCamp_streams (sl : Slab) (g : Camp → Camp) : (sl.modCamp g).streams = sl.streams := rfl
@[simp] theorem Slab.modCamp_stacks (sl : Slab) (g : Camp → Camp) : (sl.modCamp g).stackList = sl.stackList := rfl
@[simp] theorem Slab.modCamp_ports (sl : Slab) (g : Camp → Camp) : (sl.modCamp g).ports = sl.ports := rfl
@[simp] theorem Slab.modCamp_engines (sl : Slab) (g : Camp → Camp) : (sl.modCamp g).engines = sl.engines := rfl
@[simp] theorem Slab.modCamp_links (sl : Slab) (g : Camp → Camp) : (sl.modCamp g).links = sl.links := rfl
@[simp] theorem Slab.modCamp_job (sl : Slab) (g : Camp → Camp) : (sl.modCamp g).job = sl.job := rfl
@[simp] theorem Slab.modCamp_gate (sl : Slab) (g : Camp → Camp) : (sl.modCamp g).gate = sl.gate := rfl
@[simp] theorem Slab.modCamp_feedCounters (sl : Slab) (g : Camp → Camp) : (sl.modCamp g).feedCounters = sl.feedCounters := rfl
@[simp] theorem Slab.modCamp_counters (sl : Slab) (g : Camp → Camp) : (sl.modCamp g).counters = sl.counters := rfl
@[simp] theorem Slab.modLinks_powered (sl : Slab) (g : Links → Links) : (sl.modLinks g).powered = sl.powered := rfl
@[simp] theorem Slab.modLinks_clocks (sl : Slab) (g : Links → Links) : (sl.modLinks g).clocks = sl.clocks := rfl
@[simp] theorem Slab.modLinks_tiles (sl : Slab) (g : Links → Links) : (sl.modLinks g).tiles = sl.tiles := rfl
@[simp] theorem Slab.modLinks_fields (sl : Slab) (g : Links → Links) : (sl.modLinks g).fields = sl.fields := rfl
@[simp] theorem Slab.modLinks_lostFields (sl : Slab) (g : Links → Links) : (sl.modLinks g).lostFields = sl.lostFields := rfl
@[simp] theorem Slab.modLinks_hole (sl : Slab) (g : Links → Links) : (sl.modLinks g).hole = sl.hole := rfl
@[simp] theorem Slab.modLinks_root (sl : Slab) (g : Links → Links) : (sl.modLinks g).root = sl.root := rfl
@[simp] theorem Slab.modLinks_mem (sl : Slab) (g : Links → Links) : (sl.modLinks g).mem = sl.mem := rfl
@[simp] theorem Slab.modLinks_streams (sl : Slab) (g : Links → Links) : (sl.modLinks g).streams = sl.streams := rfl
@[simp] theorem Slab.modLinks_stacks (sl : Slab) (g : Links → Links) : (sl.modLinks g).stackList = sl.stackList := rfl
@[simp] theorem Slab.modLinks_ports (sl : Slab) (g : Links → Links) : (sl.modLinks g).ports = sl.ports := rfl
@[simp] theorem Slab.modLinks_engines (sl : Slab) (g : Links → Links) : (sl.modLinks g).engines = sl.engines := rfl
@[simp] theorem Slab.modLinks_camp (sl : Slab) (g : Links → Links) : (sl.modLinks g).camp = sl.camp := rfl
@[simp] theorem Slab.modLinks_job (sl : Slab) (g : Links → Links) : (sl.modLinks g).job = sl.job := rfl
@[simp] theorem Slab.modLinks_gate (sl : Slab) (g : Links → Links) : (sl.modLinks g).gate = sl.gate := rfl
@[simp] theorem Slab.modLinks_feedCounters (sl : Slab) (g : Links → Links) : (sl.modLinks g).feedCounters = sl.feedCounters := rfl
@[simp] theorem Slab.modLinks_counters (sl : Slab) (g : Links → Links) : (sl.modLinks g).counters = sl.counters := rfl
@[simp] theorem Slab.modMem_powered (sl : Slab) (g : Memory → Memory) : (sl.modMem g).powered = sl.powered := rfl
@[simp] theorem Slab.modMem_clocks (sl : Slab) (g : Memory → Memory) : (sl.modMem g).clocks = sl.clocks := rfl
@[simp] theorem Slab.modMem_tiles (sl : Slab) (g : Memory → Memory) : (sl.modMem g).tiles = sl.tiles := rfl
@[simp] theorem Slab.modMem_fields (sl : Slab) (g : Memory → Memory) : (sl.modMem g).fields = sl.fields := rfl
@[simp] theorem Slab.modMem_lostFields (sl : Slab) (g : Memory → Memory) : (sl.modMem g).lostFields = sl.lostFields := rfl
@[simp] theorem Slab.modMem_hole (sl : Slab) (g : Memory → Memory) : (sl.modMem g).hole = sl.hole := rfl
@[simp] theorem Slab.modMem_root (sl : Slab) (g : Memory → Memory) : (sl.modMem g).root = sl.root := rfl
@[simp] theorem Slab.modMem_streams (sl : Slab) (g : Memory → Memory) : (sl.modMem g).streams = sl.streams := rfl
@[simp] theorem Slab.modMem_stacks (sl : Slab) (g : Memory → Memory) : (sl.modMem g).stackList = sl.stackList := rfl
@[simp] theorem Slab.modMem_ports (sl : Slab) (g : Memory → Memory) : (sl.modMem g).ports = sl.ports := rfl
@[simp] theorem Slab.modMem_engines (sl : Slab) (g : Memory → Memory) : (sl.modMem g).engines = sl.engines := rfl
@[simp] theorem Slab.modMem_links (sl : Slab) (g : Memory → Memory) : (sl.modMem g).links = sl.links := rfl
@[simp] theorem Slab.modMem_camp (sl : Slab) (g : Memory → Memory) : (sl.modMem g).camp = sl.camp := rfl
@[simp] theorem Slab.modMem_job (sl : Slab) (g : Memory → Memory) : (sl.modMem g).job = sl.job := rfl
@[simp] theorem Slab.modMem_gate (sl : Slab) (g : Memory → Memory) : (sl.modMem g).gate = sl.gate := rfl
@[simp] theorem Slab.modMem_feedCounters (sl : Slab) (g : Memory → Memory) : (sl.modMem g).feedCounters = sl.feedCounters := rfl
@[simp] theorem Slab.modMem_counters (sl : Slab) (g : Memory → Memory) : (sl.modMem g).counters = sl.counters := rfl
@[simp] theorem Slab.count_powered (sl : Slab) (c n : Nat) : (sl.count c n).powered = sl.powered := rfl
@[simp] theorem Slab.count_clocks (sl : Slab) (c n : Nat) : (sl.count c n).clocks = sl.clocks := rfl
@[simp] theorem Slab.count_tiles (sl : Slab) (c n : Nat) : (sl.count c n).tiles = sl.tiles := rfl
@[simp] theorem Slab.count_fields (sl : Slab) (c n : Nat) : (sl.count c n).fields = sl.fields := rfl
@[simp] theorem Slab.count_lostFields (sl : Slab) (c n : Nat) : (sl.count c n).lostFields = sl.lostFields := rfl
@[simp] theorem Slab.count_hole (sl : Slab) (c n : Nat) : (sl.count c n).hole = sl.hole := rfl
@[simp] theorem Slab.count_root (sl : Slab) (c n : Nat) : (sl.count c n).root = sl.root := rfl
@[simp] theorem Slab.count_mem (sl : Slab) (c n : Nat) : (sl.count c n).mem = sl.mem := rfl
@[simp] theorem Slab.count_streams (sl : Slab) (c n : Nat) : (sl.count c n).streams = sl.streams := rfl
@[simp] theorem Slab.count_stacks (sl : Slab) (c n : Nat) : (sl.count c n).stackList = sl.stackList := rfl
@[simp] theorem Slab.count_ports (sl : Slab) (c n : Nat) : (sl.count c n).ports = sl.ports := rfl
@[simp] theorem Slab.count_engines (sl : Slab) (c n : Nat) : (sl.count c n).engines = sl.engines := rfl
@[simp] theorem Slab.count_links (sl : Slab) (c n : Nat) : (sl.count c n).links = sl.links := rfl
@[simp] theorem Slab.count_camp (sl : Slab) (c n : Nat) : (sl.count c n).camp = sl.camp := rfl
@[simp] theorem Slab.count_job (sl : Slab) (c n : Nat) : (sl.count c n).job = sl.job := rfl
@[simp] theorem Slab.count_gate (sl : Slab) (c n : Nat) : (sl.count c n).gate = sl.gate := rfl
@[simp] theorem Slab.count_feedCounters (sl : Slab) (c n : Nat) : (sl.count c n).feedCounters = sl.feedCounters := rfl

@[simp] theorem Slab.modRoot_root (sl : Slab) (g : Root → Root) : (sl.modRoot g).root = g sl.root := rfl
@[simp] theorem Slab.modJob_job (sl : Slab) (g : Job → Job) : (sl.modJob g).job = g sl.job := rfl
@[simp] theorem Slab.modCamp_camp (sl : Slab) (g : Camp → Camp) : (sl.modCamp g).camp = g sl.camp := rfl
@[simp] theorem Slab.modLinks_links (sl : Slab) (g : Links → Links) : (sl.modLinks g).links = g sl.links := rfl
@[simp] theorem Slab.modMem_mem (sl : Slab) (g : Memory → Memory) : (sl.modMem g).mem = g sl.mem := rfl

/-! ## Entries of a slab -/

theorem Slab.tile_setTile (sl : Slab) (x y a b : Nat) (t : Tile) :
    (sl.setTile x y t).tile a b = if (a, b) = (x, y) then t else sl.tile a b := agetD_aset ..
@[simp] theorem Slab.tile_setTile_self (sl : Slab) (x y : Nat) (t : Tile) : (sl.setTile x y t).tile x y = t := by
  rw [Slab.tile_setTile, if_pos rfl]
theorem Slab.tile_modTile (sl : Slab) (x y a b : Nat) (g : Tile → Tile) :
    (sl.modTile x y g).tile a b = if (a, b) = (x, y) then g (sl.tile x y) else sl.tile a b := agetD_aset ..
@[simp] theorem Slab.tile_modTile_self (sl : Slab) (x y : Nat) (g : Tile → Tile) : (sl.modTile x y g).tile x y = g (sl.tile x y) := by
  rw [Slab.tile_modTile, if_pos rfl]
theorem Slab.field_modField (sl : Slab) (n k : Nat) (g : Field → Field) :
    (sl.modField n g).field k = if k = n then g (sl.field n) else sl.field k := agetD_aset ..
@[simp] theorem Slab.field_modField_self (sl : Slab) (n : Nat) (g : Field → Field) : (sl.modField n g).field n = g (sl.field n) := by
  rw [Slab.field_modField, if_pos rfl]
theorem Slab.stack_modStack (sl : Slab) (n k : Nat) (g : Stack → Stack) :
    (sl.modStack n g).stack k = if k = n then g (sl.stack n) else sl.stack k := agetD_aset ..
@[simp] theorem Slab.stack_modStack_self (sl : Slab) (n : Nat) (g : Stack → Stack) : (sl.modStack n g).stack n = g (sl.stack n) := by
  rw [Slab.stack_modStack, if_pos rfl]
theorem Slab.port_modPort (sl : Slab) (n k : Nat) (g : Port → Port) :
    (sl.modPort n g).port k = if k = n then g (sl.port n) else sl.port k := agetD_aset ..
@[simp] theorem Slab.port_modPort_self (sl : Slab) (n : Nat) (g : Port → Port) : (sl.modPort n g).port n = g (sl.port n) := by
  rw [Slab.port_modPort, if_pos rfl]
theorem Slab.engine_modEngine (sl : Slab) (n k : Nat) (g : Engine → Engine) :
    (sl.modEngine n g).engine k = if k = n then g (sl.engine n) else sl.engine k := agetD_aset ..
@[simp] theorem Slab.engine_modEngine_self (sl : Slab) (n : Nat) (g : Engine → Engine) :
    (sl.modEngine n g).engine n = g (sl.engine n) := by rw [Slab.engine_modEngine, if_pos rfl]
theorem Slab.stream_modStream (sl : Slab) (n k : Nat) (g : StreamState → StreamState) :
    (sl.modStream n g).stream k = if k = n then g (sl.stream n) else sl.stream k := agetD_aset ..
@[simp] theorem Slab.stream_modStream_self (sl : Slab) (n : Nat) (g : StreamState → StreamState) :
    (sl.modStream n g).stream n = g (sl.stream n) := by rw [Slab.stream_modStream, if_pos rfl]

@[simp] theorem Slab.field_setTile (sl : Slab) (x y : Nat) (t : Tile) (a : Nat) : (sl.setTile x y t).field a = sl.field a := rfl
@[simp] theorem Slab.stack_setTile (sl : Slab) (x y : Nat) (t : Tile) (a : Nat) : (sl.setTile x y t).stack a = sl.stack a := rfl
@[simp] theorem Slab.port_setTile (sl : Slab) (x y : Nat) (t : Tile) (a : Nat) : (sl.setTile x y t).port a = sl.port a := rfl
@[simp] theorem Slab.engine_setTile (sl : Slab) (x y : Nat) (t : Tile) (a : Nat) : (sl.setTile x y t).engine a = sl.engine a := rfl
@[simp] theorem Slab.stream_setTile (sl : Slab) (x y : Nat) (t : Tile) (a : Nat) : (sl.setTile x y t).stream a = sl.stream a := rfl
@[simp] theorem Slab.field_modTile (sl : Slab) (x y : Nat) (g : Tile → Tile) (a : Nat) : (sl.modTile x y g).field a = sl.field a := rfl
@[simp] theorem Slab.stack_modTile (sl : Slab) (x y : Nat) (g : Tile → Tile) (a : Nat) : (sl.modTile x y g).stack a = sl.stack a := rfl
@[simp] theorem Slab.port_modTile (sl : Slab) (x y : Nat) (g : Tile → Tile) (a : Nat) : (sl.modTile x y g).port a = sl.port a := rfl
@[simp] theorem Slab.engine_modTile (sl : Slab) (x y : Nat) (g : Tile → Tile) (a : Nat) : (sl.modTile x y g).engine a = sl.engine a := rfl
@[simp] theorem Slab.stream_modTile (sl : Slab) (x y : Nat) (g : Tile → Tile) (a : Nat) : (sl.modTile x y g).stream a = sl.stream a := rfl
@[simp] theorem Slab.field_mapTiles (sl : Slab) (g : Nat → Nat → Tile → Tile) (a : Nat) : (sl.mapTiles g).field a = sl.field a := rfl
@[simp] theorem Slab.stack_mapTiles (sl : Slab) (g : Nat → Nat → Tile → Tile) (a : Nat) : (sl.mapTiles g).stack a = sl.stack a := rfl
@[simp] theorem Slab.port_mapTiles (sl : Slab) (g : Nat → Nat → Tile → Tile) (a : Nat) : (sl.mapTiles g).port a = sl.port a := rfl
@[simp] theorem Slab.engine_mapTiles (sl : Slab) (g : Nat → Nat → Tile → Tile) (a : Nat) : (sl.mapTiles g).engine a = sl.engine a := rfl
@[simp] theorem Slab.stream_mapTiles (sl : Slab) (g : Nat → Nat → Tile → Tile) (a : Nat) : (sl.mapTiles g).stream a = sl.stream a := rfl
@[simp] theorem Slab.tile_modField (sl : Slab) (n : Nat) (g : Field → Field) (a b : Nat) : (sl.modField n g).tile a b = sl.tile a b := rfl
@[simp] theorem Slab.stack_modField (sl : Slab) (n : Nat) (g : Field → Field) (a : Nat) : (sl.modField n g).stack a = sl.stack a := rfl
@[simp] theorem Slab.port_modField (sl : Slab) (n : Nat) (g : Field → Field) (a : Nat) : (sl.modField n g).port a = sl.port a := rfl
@[simp] theorem Slab.engine_modField (sl : Slab) (n : Nat) (g : Field → Field) (a : Nat) : (sl.modField n g).engine a = sl.engine a := rfl
@[simp] theorem Slab.stream_modField (sl : Slab) (n : Nat) (g : Field → Field) (a : Nat) : (sl.modField n g).stream a = sl.stream a := rfl
@[simp] theorem Slab.tile_modStack (sl : Slab) (k : Nat) (g : Stack → Stack) (a b : Nat) : (sl.modStack k g).tile a b = sl.tile a b := rfl
@[simp] theorem Slab.field_modStack (sl : Slab) (k : Nat) (g : Stack → Stack) (a : Nat) : (sl.modStack k g).field a = sl.field a := rfl
@[simp] theorem Slab.port_modStack (sl : Slab) (k : Nat) (g : Stack → Stack) (a : Nat) : (sl.modStack k g).port a = sl.port a := rfl
@[simp] theorem Slab.engine_modStack (sl : Slab) (k : Nat) (g : Stack → Stack) (a : Nat) : (sl.modStack k g).engine a = sl.engine a := rfl
@[simp] theorem Slab.stream_modStack (sl : Slab) (k : Nat) (g : Stack → Stack) (a : Nat) : (sl.modStack k g).stream a = sl.stream a := rfl
@[simp] theorem Slab.tile_modUnit (sl : Slab) (k : Nat) (g : UpdateUnit → UpdateUnit) (a b : Nat) : (sl.modUnit k g).tile a b = sl.tile a b := rfl
@[simp] theorem Slab.field_modUnit (sl : Slab) (k : Nat) (g : UpdateUnit → UpdateUnit) (a : Nat) : (sl.modUnit k g).field a = sl.field a := rfl
@[simp] theorem Slab.port_modUnit (sl : Slab) (k : Nat) (g : UpdateUnit → UpdateUnit) (a : Nat) : (sl.modUnit k g).port a = sl.port a := rfl
@[simp] theorem Slab.engine_modUnit (sl : Slab) (k : Nat) (g : UpdateUnit → UpdateUnit) (a : Nat) : (sl.modUnit k g).engine a = sl.engine a := rfl
@[simp] theorem Slab.stream_modUnit (sl : Slab) (k : Nat) (g : UpdateUnit → UpdateUnit) (a : Nat) : (sl.modUnit k g).stream a = sl.stream a := rfl
@[simp] theorem Slab.tile_modPort (sl : Slab) (k : Nat) (g : Port → Port) (a b : Nat) : (sl.modPort k g).tile a b = sl.tile a b := rfl
@[simp] theorem Slab.field_modPort (sl : Slab) (k : Nat) (g : Port → Port) (a : Nat) : (sl.modPort k g).field a = sl.field a := rfl
@[simp] theorem Slab.stack_modPort (sl : Slab) (k : Nat) (g : Port → Port) (a : Nat) : (sl.modPort k g).stack a = sl.stack a := rfl
@[simp] theorem Slab.engine_modPort (sl : Slab) (k : Nat) (g : Port → Port) (a : Nat) : (sl.modPort k g).engine a = sl.engine a := rfl
@[simp] theorem Slab.stream_modPort (sl : Slab) (k : Nat) (g : Port → Port) (a : Nat) : (sl.modPort k g).stream a = sl.stream a := rfl
@[simp] theorem Slab.tile_modEngine (sl : Slab) (k : Nat) (g : Engine → Engine) (a b : Nat) : (sl.modEngine k g).tile a b = sl.tile a b := rfl
@[simp] theorem Slab.field_modEngine (sl : Slab) (k : Nat) (g : Engine → Engine) (a : Nat) : (sl.modEngine k g).field a = sl.field a := rfl
@[simp] theorem Slab.stack_modEngine (sl : Slab) (k : Nat) (g : Engine → Engine) (a : Nat) : (sl.modEngine k g).stack a = sl.stack a := rfl
@[simp] theorem Slab.port_modEngine (sl : Slab) (k : Nat) (g : Engine → Engine) (a : Nat) : (sl.modEngine k g).port a = sl.port a := rfl
@[simp] theorem Slab.stream_modEngine (sl : Slab) (k : Nat) (g : Engine → Engine) (a : Nat) : (sl.modEngine k g).stream a = sl.stream a := rfl
@[simp] theorem Slab.tile_modStream (sl : Slab) (k : Nat) (g : StreamState → StreamState) (a b : Nat) : (sl.modStream k g).tile a b = sl.tile a b := rfl
@[simp] theorem Slab.field_modStream (sl : Slab) (k : Nat) (g : StreamState → StreamState) (a : Nat) : (sl.modStream k g).field a = sl.field a := rfl
@[simp] theorem Slab.stack_modStream (sl : Slab) (k : Nat) (g : StreamState → StreamState) (a : Nat) : (sl.modStream k g).stack a = sl.stack a := rfl
@[simp] theorem Slab.port_modStream (sl : Slab) (k : Nat) (g : StreamState → StreamState) (a : Nat) : (sl.modStream k g).port a = sl.port a := rfl
@[simp] theorem Slab.engine_modStream (sl : Slab) (k : Nat) (g : StreamState → StreamState) (a : Nat) : (sl.modStream k g).engine a = sl.engine a := rfl
@[simp] theorem Slab.tile_modRoot (sl : Slab) (g : Root → Root) (a b : Nat) : (sl.modRoot g).tile a b = sl.tile a b := rfl
@[simp] theorem Slab.field_modRoot (sl : Slab) (g : Root → Root) (a : Nat) : (sl.modRoot g).field a = sl.field a := rfl
@[simp] theorem Slab.stack_modRoot (sl : Slab) (g : Root → Root) (a : Nat) : (sl.modRoot g).stack a = sl.stack a := rfl
@[simp] theorem Slab.port_modRoot (sl : Slab) (g : Root → Root) (a : Nat) : (sl.modRoot g).port a = sl.port a := rfl
@[simp] theorem Slab.engine_modRoot (sl : Slab) (g : Root → Root) (a : Nat) : (sl.modRoot g).engine a = sl.engine a := rfl
@[simp] theorem Slab.stream_modRoot (sl : Slab) (g : Root → Root) (a : Nat) : (sl.modRoot g).stream a = sl.stream a := rfl
@[simp] theorem Slab.tile_modJob (sl : Slab) (g : Job → Job) (a b : Nat) : (sl.modJob g).tile a b = sl.tile a b := rfl
@[simp] theorem Slab.field_modJob (sl : Slab) (g : Job → Job) (a : Nat) : (sl.modJob g).field a = sl.field a := rfl
@[simp] theorem Slab.stack_modJob (sl : Slab) (g : Job → Job) (a : Nat) : (sl.modJob g).stack a = sl.stack a := rfl
@[simp] theorem Slab.port_modJob (sl : Slab) (g : Job → Job) (a : Nat) : (sl.modJob g).port a = sl.port a := rfl
@[simp] theorem Slab.engine_modJob (sl : Slab) (g : Job → Job) (a : Nat) : (sl.modJob g).engine a = sl.engine a := rfl
@[simp] theorem Slab.stream_modJob (sl : Slab) (g : Job → Job) (a : Nat) : (sl.modJob g).stream a = sl.stream a := rfl
@[simp] theorem Slab.tile_modCamp (sl : Slab) (g : Camp → Camp) (a b : Nat) : (sl.modCamp g).tile a b = sl.tile a b := rfl
@[simp] theorem Slab.field_modCamp (sl : Slab) (g : Camp → Camp) (a : Nat) : (sl.modCamp g).field a = sl.field a := rfl
@[simp] theorem Slab.stack_modCamp (sl : Slab) (g : Camp → Camp) (a : Nat) : (sl.modCamp g).stack a = sl.stack a := rfl
@[simp] theorem Slab.port_modCamp (sl : Slab) (g : Camp → Camp) (a : Nat) : (sl.modCamp g).port a = sl.port a := rfl
@[simp] theorem Slab.engine_modCamp (sl : Slab) (g : Camp → Camp) (a : Nat) : (sl.modCamp g).engine a = sl.engine a := rfl
@[simp] theorem Slab.stream_modCamp (sl : Slab) (g : Camp → Camp) (a : Nat) : (sl.modCamp g).stream a = sl.stream a := rfl
@[simp] theorem Slab.tile_modLinks (sl : Slab) (g : Links → Links) (a b : Nat) : (sl.modLinks g).tile a b = sl.tile a b := rfl
@[simp] theorem Slab.field_modLinks (sl : Slab) (g : Links → Links) (a : Nat) : (sl.modLinks g).field a = sl.field a := rfl
@[simp] theorem Slab.stack_modLinks (sl : Slab) (g : Links → Links) (a : Nat) : (sl.modLinks g).stack a = sl.stack a := rfl
@[simp] theorem Slab.port_modLinks (sl : Slab) (g : Links → Links) (a : Nat) : (sl.modLinks g).port a = sl.port a := rfl
@[simp] theorem Slab.engine_modLinks (sl : Slab) (g : Links → Links) (a : Nat) : (sl.modLinks g).engine a = sl.engine a := rfl
@[simp] theorem Slab.stream_modLinks (sl : Slab) (g : Links → Links) (a : Nat) : (sl.modLinks g).stream a = sl.stream a := rfl
@[simp] theorem Slab.tile_modMem (sl : Slab) (g : Memory → Memory) (a b : Nat) : (sl.modMem g).tile a b = sl.tile a b := rfl
@[simp] theorem Slab.field_modMem (sl : Slab) (g : Memory → Memory) (a : Nat) : (sl.modMem g).field a = sl.field a := rfl
@[simp] theorem Slab.stack_modMem (sl : Slab) (g : Memory → Memory) (a : Nat) : (sl.modMem g).stack a = sl.stack a := rfl
@[simp] theorem Slab.port_modMem (sl : Slab) (g : Memory → Memory) (a : Nat) : (sl.modMem g).port a = sl.port a := rfl
@[simp] theorem Slab.engine_modMem (sl : Slab) (g : Memory → Memory) (a : Nat) : (sl.modMem g).engine a = sl.engine a := rfl
@[simp] theorem Slab.stream_modMem (sl : Slab) (g : Memory → Memory) (a : Nat) : (sl.modMem g).stream a = sl.stream a := rfl
@[simp] theorem Slab.tile_count (sl : Slab) (c n : Nat) (a b : Nat) : (sl.count c n).tile a b = sl.tile a b := rfl
@[simp] theorem Slab.field_count (sl : Slab) (c n : Nat) (a : Nat) : (sl.count c n).field a = sl.field a := rfl
@[simp] theorem Slab.stack_count (sl : Slab) (c n : Nat) (a : Nat) : (sl.count c n).stack a = sl.stack a := rfl
@[simp] theorem Slab.port_count (sl : Slab) (c n : Nat) (a : Nat) : (sl.count c n).port a = sl.port a := rfl
@[simp] theorem Slab.engine_count (sl : Slab) (c n : Nat) (a : Nat) : (sl.count c n).engine a = sl.engine a := rfl
@[simp] theorem Slab.stream_count (sl : Slab) (c n : Nat) (a : Nat) : (sl.count c n).stream a = sl.stream a := rfl

/-! ## Tiles of the module -/

@[simp] theorem tile_modTile_self (s : State) (t : TileId) (f : Tile → Tile) : (s.modTile t f).tile t = f (s.tile t) := by
  unfold State.tile State.modTile; rw [slab_modSlab_self, Slab.tile_modTile_self]
theorem tile_modTile_other (s : State) {t u : TileId} (h : u ≠ t) (f : Tile → Tile) : (s.modTile t f).tile u = s.tile u := by
  unfold State.tile State.modTile
  rw [slab_modSlab]
  split
  · rename_i e
    rw [Slab.tile_modTile, if_neg]
    intro k
    apply h
    obtain ⟨ts, tx, ty⟩ := t; obtain ⟨us, ux, uy⟩ := u
    simp only [Prod.mk.injEq] at k
    simp only at e
    subst e
    rw [TileId.mk.injEq]
    exact ⟨rfl, Fin.ext k.1, Fin.ext k.2⟩
  · rfl

/-! ## Updates of a tile -/

@[simp] theorem Tile.count_entry (t : Tile) (c n : Nat) : (t.count c n).entry = t.entry := rfl
@[simp] theorem Tile.count_fwd (t : Tile) (c n : Nat) : (t.count c n).fwd = t.fwd := rfl
@[simp] theorem Tile.count_bwd (t : Tile) (c n : Nat) : (t.count c n).bwd = t.bwd := rfl
@[simp] theorem Tile.count_svc (t : Tile) (c n : Nat) : (t.count c n).svc = t.svc := rfl
@[simp] theorem Tile.count_matrix (t : Tile) (c n : Nat) : (t.count c n).matrix = t.matrix := rfl
@[simp] theorem Tile.count_vector (t : Tile) (c n : Nat) : (t.count c n).vector = t.vector := rfl
@[simp] theorem Tile.count_fills (t : Tile) (c n : Nat) : (t.count c n).fills = t.fills := rfl
@[simp] theorem Tile.count_port (t : Tile) (c n : Nat) : (t.count c n).port = t.port := rfl
@[simp] theorem Tile.count_scratch (t : Tile) (c n : Nat) : (t.count c n).scratch = t.scratch := rfl
@[simp] theorem Tile.count_powered (t : Tile) (c n : Nat) : (t.count c n).powered = t.powered := rfl
@[simp] theorem Tile.count_overlay (t : Tile) (c n : Nat) : (t.count c n).overlay = t.overlay := rfl
@[simp] theorem Tile.count_ctxs (t : Tile) (c n : Nat) : (t.count c n).ctxs = t.ctxs := rfl
@[simp] theorem Tile.count_ac (t : Tile) (c n : Nat) : (t.count c n).ac = t.ac := rfl
@[simp] theorem Tile.count_flags (t : Tile) (c n : Nat) : (t.count c n).flags = t.flags := rfl
@[simp] theorem Tile.count_spError (t : Tile) (c n : Nat) : (t.count c n).spError = t.spError := rfl
@[simp] theorem Tile.count_gate (t : Tile) (c n : Nat) : (t.count c n).gate = t.gate := rfl
@[simp] theorem Tile.count_unacked (t : Tile) (c n : Nat) : (t.count c n).unacked = t.unacked := rfl
@[simp] theorem Tile.count_arrivals (t : Tile) (c n : Nat) : (t.count c n).arrivals = t.arrivals := rfl
@[simp] theorem Tile.count_released (t : Tile) (c n : Nat) : (t.count c n).released = t.released := rfl
@[simp] theorem Tile.count_localStart (t : Tile) (c n : Nat) : (t.count c n).localStart = t.localStart := rfl
@[simp] theorem Tile.count_releasedAt (t : Tile) (c n : Nat) : (t.count c n).releasedAt = t.releasedAt := rfl
@[simp] theorem Tile.count_router (t : Tile) (c n : Nat) : (t.count c n).router = t.router := rfl
@[simp] theorem Tile.count_xlate (t : Tile) (c n : Nat) : (t.count c n).xlate = t.xlate := rfl
@[simp] theorem Tile.count_loads (t : Tile) (c n : Nat) : (t.count c n).loads = t.loads := rfl
@[simp] theorem Tile.count_atomicWaits (t : Tile) (c n : Nat) : (t.count c n).atomicWaits = t.atomicWaits := rfl
@[simp] theorem Tile.count_lastUse (t : Tile) (c n : Nat) : (t.count c n).lastUse = t.lastUse := rfl
@[simp] theorem Tile.count_lending (t : Tile) (c n : Nat) : (t.count c n).lending = t.lending := rfl
@[simp] theorem Tile.count_failed (t : Tile) (c n : Nat) : (t.count c n).failed = t.failed := rfl
@[simp] theorem Tile.count_scrubbed (t : Tile) (c n : Nat) : (t.count c n).scrubbed = t.scrubbed := rfl
@[simp] theorem Tile.count_sends (t : Tile) (c n : Nat) : (t.count c n).sends = t.sends := rfl
@[simp] theorem Tile.count_flagsNow (t : Tile) (c n : Nat) : (t.count c n).flagsNow = t.flagsNow := rfl
@[simp] theorem Tile.count_ackedAt (t : Tile) (c n : Nat) : (t.count c n).ackedAt = t.ackedAt := rfl
@[simp] theorem Tile.count_forwards (t : Tile) (c n : Nat) : (t.count c n).forwards = t.forwards := rfl
@[simp] theorem Tile.count_scrubAt (t : Tile) (c n : Nat) : (t.count c n).scrubAt = t.scrubAt := rfl
@[simp] theorem Tile.count_scrubNext (t : Tile) (c n : Nat) : (t.count c n).scrubNext = t.scrubNext := rfl
@[simp] theorem Tile.count_scrubErrs (t : Tile) (c n : Nat) : (t.count c n).scrubErrs = t.scrubErrs := rfl
@[simp] theorem Tile.count_rewrites (t : Tile) (c n : Nat) : (t.count c n).rewrites = t.rewrites := rfl
@[simp] theorem Tile.count_ovlScrub (t : Tile) (c n : Nat) : (t.count c n).ovlScrub = t.ovlScrub := rfl
@[simp] theorem Tile.setSeq_entry (t : Tile) (q : SeqId) (x : Sequencer) : (t.setSeq q x).entry = t.entry := by cases q <;> rfl
@[simp] theorem Tile.modSeq_entry (t : Tile) (q : SeqId) (g : Sequencer → Sequencer) : (t.modSeq q g).entry = t.entry := by cases q <;> rfl
@[simp] theorem Tile.setSeq_matrix (t : Tile) (q : SeqId) (x : Sequencer) : (t.setSeq q x).matrix = t.matrix := by cases q <;> rfl
@[simp] theorem Tile.modSeq_matrix (t : Tile) (q : SeqId) (g : Sequencer → Sequencer) : (t.modSeq q g).matrix = t.matrix := by cases q <;> rfl
@[simp] theorem Tile.setSeq_vector (t : Tile) (q : SeqId) (x : Sequencer) : (t.setSeq q x).vector = t.vector := by cases q <;> rfl
@[simp] theorem Tile.modSeq_vector (t : Tile) (q : SeqId) (g : Sequencer → Sequencer) : (t.modSeq q g).vector = t.vector := by cases q <;> rfl
@[simp] theorem Tile.setSeq_fills (t : Tile) (q : SeqId) (x : Sequencer) : (t.setSeq q x).fills = t.fills := by cases q <;> rfl
@[simp] theorem Tile.modSeq_fills (t : Tile) (q : SeqId) (g : Sequencer → Sequencer) : (t.modSeq q g).fills = t.fills := by cases q <;> rfl
@[simp] theorem Tile.setSeq_port (t : Tile) (q : SeqId) (x : Sequencer) : (t.setSeq q x).port = t.port := by cases q <;> rfl
@[simp] theorem Tile.modSeq_port (t : Tile) (q : SeqId) (g : Sequencer → Sequencer) : (t.modSeq q g).port = t.port := by cases q <;> rfl
@[simp] theorem Tile.setSeq_scratch (t : Tile) (q : SeqId) (x : Sequencer) : (t.setSeq q x).scratch = t.scratch := by cases q <;> rfl
@[simp] theorem Tile.modSeq_scratch (t : Tile) (q : SeqId) (g : Sequencer → Sequencer) : (t.modSeq q g).scratch = t.scratch := by cases q <;> rfl
@[simp] theorem Tile.setSeq_powered (t : Tile) (q : SeqId) (x : Sequencer) : (t.setSeq q x).powered = t.powered := by cases q <;> rfl
@[simp] theorem Tile.modSeq_powered (t : Tile) (q : SeqId) (g : Sequencer → Sequencer) : (t.modSeq q g).powered = t.powered := by cases q <;> rfl
@[simp] theorem Tile.setSeq_overlay (t : Tile) (q : SeqId) (x : Sequencer) : (t.setSeq q x).overlay = t.overlay := by cases q <;> rfl
@[simp] theorem Tile.modSeq_overlay (t : Tile) (q : SeqId) (g : Sequencer → Sequencer) : (t.modSeq q g).overlay = t.overlay := by cases q <;> rfl
@[simp] theorem Tile.setSeq_ctxs (t : Tile) (q : SeqId) (x : Sequencer) : (t.setSeq q x).ctxs = t.ctxs := by cases q <;> rfl
@[simp] theorem Tile.modSeq_ctxs (t : Tile) (q : SeqId) (g : Sequencer → Sequencer) : (t.modSeq q g).ctxs = t.ctxs := by cases q <;> rfl
@[simp] theorem Tile.setSeq_ac (t : Tile) (q : SeqId) (x : Sequencer) : (t.setSeq q x).ac = t.ac := by cases q <;> rfl
@[simp] theorem Tile.modSeq_ac (t : Tile) (q : SeqId) (g : Sequencer → Sequencer) : (t.modSeq q g).ac = t.ac := by cases q <;> rfl
@[simp] theorem Tile.setSeq_flags (t : Tile) (q : SeqId) (x : Sequencer) : (t.setSeq q x).flags = t.flags := by cases q <;> rfl
@[simp] theorem Tile.modSeq_flags (t : Tile) (q : SeqId) (g : Sequencer → Sequencer) : (t.modSeq q g).flags = t.flags := by cases q <;> rfl
@[simp] theorem Tile.setSeq_spError (t : Tile) (q : SeqId) (x : Sequencer) : (t.setSeq q x).spError = t.spError := by cases q <;> rfl
@[simp] theorem Tile.modSeq_spError (t : Tile) (q : SeqId) (g : Sequencer → Sequencer) : (t.modSeq q g).spError = t.spError := by cases q <;> rfl
@[simp] theorem Tile.setSeq_gate (t : Tile) (q : SeqId) (x : Sequencer) : (t.setSeq q x).gate = t.gate := by cases q <;> rfl
@[simp] theorem Tile.modSeq_gate (t : Tile) (q : SeqId) (g : Sequencer → Sequencer) : (t.modSeq q g).gate = t.gate := by cases q <;> rfl
@[simp] theorem Tile.setSeq_unacked (t : Tile) (q : SeqId) (x : Sequencer) : (t.setSeq q x).unacked = t.unacked := by cases q <;> rfl
@[simp] theorem Tile.modSeq_unacked (t : Tile) (q : SeqId) (g : Sequencer → Sequencer) : (t.modSeq q g).unacked = t.unacked := by cases q <;> rfl
@[simp] theorem Tile.setSeq_arrivals (t : Tile) (q : SeqId) (x : Sequencer) : (t.setSeq q x).arrivals = t.arrivals := by cases q <;> rfl
@[simp] theorem Tile.modSeq_arrivals (t : Tile) (q : SeqId) (g : Sequencer → Sequencer) : (t.modSeq q g).arrivals = t.arrivals := by cases q <;> rfl
@[simp] theorem Tile.setSeq_released (t : Tile) (q : SeqId) (x : Sequencer) : (t.setSeq q x).released = t.released := by cases q <;> rfl
@[simp] theorem Tile.modSeq_released (t : Tile) (q : SeqId) (g : Sequencer → Sequencer) : (t.modSeq q g).released = t.released := by cases q <;> rfl
@[simp] theorem Tile.setSeq_localStart (t : Tile) (q : SeqId) (x : Sequencer) : (t.setSeq q x).localStart = t.localStart := by cases q <;> rfl
@[simp] theorem Tile.modSeq_localStart (t : Tile) (q : SeqId) (g : Sequencer → Sequencer) : (t.modSeq q g).localStart = t.localStart := by cases q <;> rfl
@[simp] theorem Tile.setSeq_releasedAt (t : Tile) (q : SeqId) (x : Sequencer) : (t.setSeq q x).releasedAt = t.releasedAt := by cases q <;> rfl
@[simp] theorem Tile.modSeq_releasedAt (t : Tile) (q : SeqId) (g : Sequencer → Sequencer) : (t.modSeq q g).releasedAt = t.releasedAt := by cases q <;> rfl
@[simp] theorem Tile.setSeq_router (t : Tile) (q : SeqId) (x : Sequencer) : (t.setSeq q x).router = t.router := by cases q <;> rfl
@[simp] theorem Tile.modSeq_router (t : Tile) (q : SeqId) (g : Sequencer → Sequencer) : (t.modSeq q g).router = t.router := by cases q <;> rfl
@[simp] theorem Tile.setSeq_xlate (t : Tile) (q : SeqId) (x : Sequencer) : (t.setSeq q x).xlate = t.xlate := by cases q <;> rfl
@[simp] theorem Tile.modSeq_xlate (t : Tile) (q : SeqId) (g : Sequencer → Sequencer) : (t.modSeq q g).xlate = t.xlate := by cases q <;> rfl
@[simp] theorem Tile.setSeq_loads (t : Tile) (q : SeqId) (x : Sequencer) : (t.setSeq q x).loads = t.loads := by cases q <;> rfl
@[simp] theorem Tile.modSeq_loads (t : Tile) (q : SeqId) (g : Sequencer → Sequencer) : (t.modSeq q g).loads = t.loads := by cases q <;> rfl
@[simp] theorem Tile.setSeq_atomicWaits (t : Tile) (q : SeqId) (x : Sequencer) : (t.setSeq q x).atomicWaits = t.atomicWaits := by cases q <;> rfl
@[simp] theorem Tile.modSeq_atomicWaits (t : Tile) (q : SeqId) (g : Sequencer → Sequencer) : (t.modSeq q g).atomicWaits = t.atomicWaits := by cases q <;> rfl
@[simp] theorem Tile.setSeq_lastUse (t : Tile) (q : SeqId) (x : Sequencer) : (t.setSeq q x).lastUse = t.lastUse := by cases q <;> rfl
@[simp] theorem Tile.modSeq_lastUse (t : Tile) (q : SeqId) (g : Sequencer → Sequencer) : (t.modSeq q g).lastUse = t.lastUse := by cases q <;> rfl
@[simp] theorem Tile.setSeq_lending (t : Tile) (q : SeqId) (x : Sequencer) : (t.setSeq q x).lending = t.lending := by cases q <;> rfl
@[simp] theorem Tile.modSeq_lending (t : Tile) (q : SeqId) (g : Sequencer → Sequencer) : (t.modSeq q g).lending = t.lending := by cases q <;> rfl
@[simp] theorem Tile.setSeq_failed (t : Tile) (q : SeqId) (x : Sequencer) : (t.setSeq q x).failed = t.failed := by cases q <;> rfl
@[simp] theorem Tile.modSeq_failed (t : Tile) (q : SeqId) (g : Sequencer → Sequencer) : (t.modSeq q g).failed = t.failed := by cases q <;> rfl
@[simp] theorem Tile.setSeq_scrubbed (t : Tile) (q : SeqId) (x : Sequencer) : (t.setSeq q x).scrubbed = t.scrubbed := by cases q <;> rfl
@[simp] theorem Tile.modSeq_scrubbed (t : Tile) (q : SeqId) (g : Sequencer → Sequencer) : (t.modSeq q g).scrubbed = t.scrubbed := by cases q <;> rfl
@[simp] theorem Tile.setSeq_sends (t : Tile) (q : SeqId) (x : Sequencer) : (t.setSeq q x).sends = t.sends := by cases q <;> rfl
@[simp] theorem Tile.modSeq_sends (t : Tile) (q : SeqId) (g : Sequencer → Sequencer) : (t.modSeq q g).sends = t.sends := by cases q <;> rfl
@[simp] theorem Tile.setSeq_flagsNow (t : Tile) (q : SeqId) (x : Sequencer) : (t.setSeq q x).flagsNow = t.flagsNow := by cases q <;> rfl
@[simp] theorem Tile.modSeq_flagsNow (t : Tile) (q : SeqId) (g : Sequencer → Sequencer) : (t.modSeq q g).flagsNow = t.flagsNow := by cases q <;> rfl
@[simp] theorem Tile.setSeq_ackedAt (t : Tile) (q : SeqId) (x : Sequencer) : (t.setSeq q x).ackedAt = t.ackedAt := by cases q <;> rfl
@[simp] theorem Tile.modSeq_ackedAt (t : Tile) (q : SeqId) (g : Sequencer → Sequencer) : (t.modSeq q g).ackedAt = t.ackedAt := by cases q <;> rfl
@[simp] theorem Tile.setSeq_forwards (t : Tile) (q : SeqId) (x : Sequencer) : (t.setSeq q x).forwards = t.forwards := by cases q <;> rfl
@[simp] theorem Tile.modSeq_forwards (t : Tile) (q : SeqId) (g : Sequencer → Sequencer) : (t.modSeq q g).forwards = t.forwards := by cases q <;> rfl
@[simp] theorem Tile.setSeq_scrubAt (t : Tile) (q : SeqId) (x : Sequencer) : (t.setSeq q x).scrubAt = t.scrubAt := by cases q <;> rfl
@[simp] theorem Tile.modSeq_scrubAt (t : Tile) (q : SeqId) (g : Sequencer → Sequencer) : (t.modSeq q g).scrubAt = t.scrubAt := by cases q <;> rfl
@[simp] theorem Tile.setSeq_scrubNext (t : Tile) (q : SeqId) (x : Sequencer) : (t.setSeq q x).scrubNext = t.scrubNext := by cases q <;> rfl
@[simp] theorem Tile.modSeq_scrubNext (t : Tile) (q : SeqId) (g : Sequencer → Sequencer) : (t.modSeq q g).scrubNext = t.scrubNext := by cases q <;> rfl
@[simp] theorem Tile.setSeq_scrubErrs (t : Tile) (q : SeqId) (x : Sequencer) : (t.setSeq q x).scrubErrs = t.scrubErrs := by cases q <;> rfl
@[simp] theorem Tile.modSeq_scrubErrs (t : Tile) (q : SeqId) (g : Sequencer → Sequencer) : (t.modSeq q g).scrubErrs = t.scrubErrs := by cases q <;> rfl
@[simp] theorem Tile.setSeq_rewrites (t : Tile) (q : SeqId) (x : Sequencer) : (t.setSeq q x).rewrites = t.rewrites := by cases q <;> rfl
@[simp] theorem Tile.modSeq_rewrites (t : Tile) (q : SeqId) (g : Sequencer → Sequencer) : (t.modSeq q g).rewrites = t.rewrites := by cases q <;> rfl
@[simp] theorem Tile.setSeq_ovlScrub (t : Tile) (q : SeqId) (x : Sequencer) : (t.setSeq q x).ovlScrub = t.ovlScrub := by cases q <;> rfl
@[simp] theorem Tile.modSeq_ovlScrub (t : Tile) (q : SeqId) (g : Sequencer → Sequencer) : (t.modSeq q g).ovlScrub = t.ovlScrub := by cases q <;> rfl
@[simp] theorem Tile.setSeq_counters (t : Tile) (q : SeqId) (x : Sequencer) : (t.setSeq q x).counters = t.counters := by cases q <;> rfl
@[simp] theorem Tile.modSeq_counters (t : Tile) (q : SeqId) (g : Sequencer → Sequencer) : (t.modSeq q g).counters = t.counters := by cases q <;> rfl

@[simp] theorem Tile.seq_count (t : Tile) (c n : Nat) (q : SeqId) : (t.count c n).seq q = t.seq q := by cases q <;> rfl
@[simp] theorem Tile.seq_modSeq_self (t : Tile) (q : SeqId) (g : Sequencer → Sequencer) : (t.modSeq q g).seq q = g (t.seq q) := by
  cases q <;> rfl
theorem Tile.seq_modSeq (t : Tile) (q r : SeqId) (g : Sequencer → Sequencer) :
    (t.modSeq q g).seq r = if r = q then g (t.seq r) else t.seq r := by cases q <;> cases r <;> rfl
theorem Tile.seq_modSeq_other (t : Tile) {q r : SeqId} (h : r ≠ q) (g : Sequencer → Sequencer) : (t.modSeq q g).seq r = t.seq r := by
  rw [Tile.seq_modSeq, if_neg h]

/-! ## Updates of one slab put together -/

/-- Two updates of a slab that agree on the slab as it is are one. -/
theorem modSlab_congr (s : State) (i : SlabId) {f g : Slab → Slab} (h : f (s.slab i) = g (s.slab i)) : s.modSlab i f = s.modSlab i g :=
  congrArg (s.setSlab i) h

/-- Two updates of a slab, one after the other. -/
theorem modSlab_modSlab (s : State) (i : SlabId) (f g : Slab → Slab) : (s.modSlab i f).modSlab i g = s.modSlab i (fun sl => g (f sl)) := by
  cases i <;> rfl

/-- Updates of the two slabs in either order. -/
theorem modSlab_comm (s : State) {i j : SlabId} (h : i ≠ j) (f g : Slab → Slab) :
    (s.modSlab i f).modSlab j g = (s.modSlab j g).modSlab i f := by
  cases i <;> cases j <;> first | rfl | exact absurd rfl h

/-- Two updates of a function's PCIe side, one after the other. -/
theorem modFunc_modFunc (s : State) (i : SlabId) (f g : Func → Func) : (s.modFunc i f).modFunc i g = s.modFunc i (fun x => g (f x)) := by
  cases i <;> rfl

end Sys2Proof.Machine
end

