-- ==== Sys2Proof/Laws/Tile.lean ====
section
/-! SUPPORT. What issuing an instruction does (R92, R95, R99, R116, R119): one lemma for each shared operation. -/

namespace Sys2Proof.Machine

open Sys2Proof

/-! ## A command at a tile -/

/-- An action at a live tile changes that tile and nothing else. -/
theorem onTile_live (s : State) (t : TileId) (f : Nat → Tile → Tile) (h : s.live t = true) :
    s.onTile t f = s.modTile t (f (s.cycle t.slab)) := by
  unfold State.live at h
  simp only [Bool.and_eq_true] at h
  obtain ⟨x, e⟩ := Option.isSome_iff_exists.mp h.2
  unfold State.onTile State.modTile State.modSlab State.cycle
  simp only [h.1, Bool.and_self, if_true, e]
  have : (s.slab t.slab).tile t.x.val t.y.val = x := by unfold Slab.tile agetD; rw [e]; rfl
  unfold Slab.modTile
  rw [this]

/-- An action at a tile that is not live changes nothing. -/
theorem onTile_dead (s : State) (t : TileId) (f : Nat → Tile → Tile) (h : s.live t = false) : s.onTile t f = s := by
  unfold State.live at h
  unfold State.onTile State.modSlab
  dsimp only
  split
  · rename_i r
    rw [r, Bool.true_and] at h
    split
    · simp
    · rename_i x e; rw [e] at h; cases h
  · simp

/-! ## Issue -/

@[simp] theorem settleStall_seq_other (t : Tile) {q r : SeqId} (h : r ≠ q) (now : Nat) : (t.settleStall q now).seq r = t.seq r := by
  unfold Tile.settleStall
  rw [Tile.seq_count, Tile.seq_modSeq_other _ h]

@[simp] theorem settleStall_seq_self (t : Tile) (q : SeqId) (now : Nat) :
    (t.settleStall q now).seq q = (t.seq q).settleSlip t.localStart now := by
  unfold Tile.settleStall
  simp

/-- An issue leaves every other sequencer alone. -/
theorem issue_seq_other (t : Tile) {q r : SeqId} (h : r ≠ q) (now : Nat) (w : IWord) (cost : Nat) (pc : BitVec 12) (st : SeqState) :
    (t.issue q now w cost pc st).seq r = t.seq r := by
  unfold Tile.issue
  rw [Tile.seq_modSeq_other _ h, settleStall_seq_other t h]

/-- What an issue writes to its sequencer: STATE, PC, OPCODE and the next issue cycle; and the slip count. -/
theorem issue_seq_self (t : Tile) (q : SeqId) (now : Nat) (w : IWord) (cost : Nat) (pc : BitVec 12) (st : SeqState) :
    (t.issue q now w cost pc st).seq q =
      { (t.seq q).settleSlip t.localStart now with
        state := st, issued := true, pc := pc, lastOp := BitVec.ofNat 8 (opOf w), nextIssue := now + cost } := by
  unfold Tile.issue
  simp

/-! Issuing changes one sequencer and the counters, nothing else of the tile. -/

@[simp] theorem settleStall_entry (t : Tile) (q : SeqId) (now : Nat) : (t.settleStall q now).entry = t.entry := by
  unfold Tile.settleStall; simp
@[simp] theorem stall_entry (t : Tile) (q : SeqId) (now : Nat) (c : BitVec 4) : (t.stall q now c).entry = t.entry := Tile.modSeq_entry ..
@[simp] theorem issue_entry (t : Tile) (q : SeqId) (now : Nat) (w : IWord) (cost : Nat) (pc : BitVec 12) (st : SeqState) :
    (t.issue q now w cost pc st).entry = t.entry := by unfold Tile.issue; simp
@[simp] theorem issueNext_entry (t : Tile) (q : SeqId) (now : Nat) (w : IWord) : (t.issueNext q now w).entry = t.entry := issue_entry ..
@[simp] theorem settleStall_matrix (t : Tile) (q : SeqId) (now : Nat) : (t.settleStall q now).matrix = t.matrix := by
  unfold Tile.settleStall; simp
@[simp] theorem stall_matrix (t : Tile) (q : SeqId) (now : Nat) (c : BitVec 4) : (t.stall q now c).matrix = t.matrix := Tile.modSeq_matrix ..
@[simp] theorem issue_matrix (t : Tile) (q : SeqId) (now : Nat) (w : IWord) (cost : Nat) (pc : BitVec 12) (st : SeqState) :
    (t.issue q now w cost pc st).matrix = t.matrix := by unfold Tile.issue; simp
@[simp] theorem issueNext_matrix (t : Tile) (q : SeqId) (now : Nat) (w : IWord) : (t.issueNext q now w).matrix = t.matrix := issue_matrix ..
@[simp] theorem settleStall_vector (t : Tile) (q : SeqId) (now : Nat) : (t.settleStall q now).vector = t.vector := by
  unfold Tile.settleStall; simp
@[simp] theorem stall_vector (t : Tile) (q : SeqId) (now : Nat) (c : BitVec 4) : (t.stall q now c).vector = t.vector := Tile.modSeq_vector ..
@[simp] theorem issue_vector (t : Tile) (q : SeqId) (now : Nat) (w : IWord) (cost : Nat) (pc : BitVec 12) (st : SeqState) :
    (t.issue q now w cost pc st).vector = t.vector := by unfold Tile.issue; simp
@[simp] theorem issueNext_vector (t : Tile) (q : SeqId) (now : Nat) (w : IWord) : (t.issueNext q now w).vector = t.vector := issue_vector ..
@[simp] theorem settleStall_fills (t : Tile) (q : SeqId) (now : Nat) : (t.settleStall q now).fills = t.fills := by
  unfold Tile.settleStall; simp
@[simp] theorem stall_fills (t : Tile) (q : SeqId) (now : Nat) (c : BitVec 4) : (t.stall q now c).fills = t.fills := Tile.modSeq_fills ..
@[simp] theorem issue_fills (t : Tile) (q : SeqId) (now : Nat) (w : IWord) (cost : Nat) (pc : BitVec 12) (st : SeqState) :
    (t.issue q now w cost pc st).fills = t.fills := by unfold Tile.issue; simp
@[simp] theorem issueNext_fills (t : Tile) (q : SeqId) (now : Nat) (w : IWord) : (t.issueNext q now w).fills = t.fills := issue_fills ..
@[simp] theorem settleStall_port (t : Tile) (q : SeqId) (now : Nat) : (t.settleStall q now).port = t.port := by
  unfold Tile.settleStall; simp
@[simp] theorem stall_port (t : Tile) (q : SeqId) (now : Nat) (c : BitVec 4) : (t.stall q now c).port = t.port := Tile.modSeq_port ..
@[simp] theorem issue_port (t : Tile) (q : SeqId) (now : Nat) (w : IWord) (cost : Nat) (pc : BitVec 12) (st : SeqState) :
    (t.issue q now w cost pc st).port = t.port := by unfold Tile.issue; simp
@[simp] theorem issueNext_port (t : Tile) (q : SeqId) (now : Nat) (w : IWord) : (t.issueNext q now w).port = t.port := issue_port ..
@[simp] theorem settleStall_scratch (t : Tile) (q : SeqId) (now : Nat) : (t.settleStall q now).scratch = t.scratch := by
  unfold Tile.settleStall; simp
@[simp] theorem stall_scratch (t : Tile) (q : SeqId) (now : Nat) (c : BitVec 4) : (t.stall q now c).scratch = t.scratch := Tile.modSeq_scratch ..
@[simp] theorem issue_scratch (t : Tile) (q : SeqId) (now : Nat) (w : IWord) (cost : Nat) (pc : BitVec 12) (st : SeqState) :
    (t.issue q now w cost pc st).scratch = t.scratch := by unfold Tile.issue; simp
@[simp] theorem issueNext_scratch (t : Tile) (q : SeqId) (now : Nat) (w : IWord) : (t.issueNext q now w).scratch = t.scratch := issue_scratch ..
@[simp] theorem settleStall_powered (t : Tile) (q : SeqId) (now : Nat) : (t.settleStall q now).powered = t.powered := by
  unfold Tile.settleStall; simp
@[simp] theorem stall_powered (t : Tile) (q : SeqId) (now : Nat) (c : BitVec 4) : (t.stall q now c).powered = t.powered := Tile.modSeq_powered ..
@[simp] theorem issue_powered (t : Tile) (q : SeqId) (now : Nat) (w : IWord) (cost : Nat) (pc : BitVec 12) (st : SeqState) :
    (t.issue q now w cost pc st).powered = t.powered := by unfold Tile.issue; simp
@[simp] theorem issueNext_powered (t : Tile) (q : SeqId) (now : Nat) (w : IWord) : (t.issueNext q now w).powered = t.powered := issue_powered ..
@[simp] theorem settleStall_overlay (t : Tile) (q : SeqId) (now : Nat) : (t.settleStall q now).overlay = t.overlay := by
  unfold Tile.settleStall; simp
@[simp] theorem stall_overlay (t : Tile) (q : SeqId) (now : Nat) (c : BitVec 4) : (t.stall q now c).overlay = t.overlay := Tile.modSeq_overlay ..
@[simp] theorem issue_overlay (t : Tile) (q : SeqId) (now : Nat) (w : IWord) (cost : Nat) (pc : BitVec 12) (st : SeqState) :
    (t.issue q now w cost pc st).overlay = t.overlay := by unfold Tile.issue; simp
@[simp] theorem issueNext_overlay (t : Tile) (q : SeqId) (now : Nat) (w : IWord) : (t.issueNext q now w).overlay = t.overlay := issue_overlay ..
@[simp] theorem settleStall_ctxs (t : Tile) (q : SeqId) (now : Nat) : (t.settleStall q now).ctxs = t.ctxs := by
  unfold Tile.settleStall; simp
@[simp] theorem stall_ctxs (t : Tile) (q : SeqId) (now : Nat) (c : BitVec 4) : (t.stall q now c).ctxs = t.ctxs := Tile.modSeq_ctxs ..
@[simp] theorem issue_ctxs (t : Tile) (q : SeqId) (now : Nat) (w : IWord) (cost : Nat) (pc : BitVec 12) (st : SeqState) :
    (t.issue q now w cost pc st).ctxs = t.ctxs := by unfold Tile.issue; simp
@[simp] theorem issueNext_ctxs (t : Tile) (q : SeqId) (now : Nat) (w : IWord) : (t.issueNext q now w).ctxs = t.ctxs := issue_ctxs ..
@[simp] theorem settleStall_ac (t : Tile) (q : SeqId) (now : Nat) : (t.settleStall q now).ac = t.ac := by
  unfold Tile.settleStall; simp
@[simp] theorem stall_ac (t : Tile) (q : SeqId) (now : Nat) (c : BitVec 4) : (t.stall q now c).ac = t.ac := Tile.modSeq_ac ..
@[simp] theorem issue_ac (t : Tile) (q : SeqId) (now : Nat) (w : IWord) (cost : Nat) (pc : BitVec 12) (st : SeqState) :
    (t.issue q now w cost pc st).ac = t.ac := by unfold Tile.issue; simp
@[simp] theorem issueNext_ac (t : Tile) (q : SeqId) (now : Nat) (w : IWord) : (t.issueNext q now w).ac = t.ac := issue_ac ..
@[simp] theorem settleStall_flags (t : Tile) (q : SeqId) (now : Nat) : (t.settleStall q now).flags = t.flags := by
  unfold Tile.settleStall; simp
@[simp] theorem stall_flags (t : Tile) (q : SeqId) (now : Nat) (c : BitVec 4) : (t.stall q now c).flags = t.flags := Tile.modSeq_flags ..
@[simp] theorem issue_flags (t : Tile) (q : SeqId) (now : Nat) (w : IWord) (cost : Nat) (pc : BitVec 12) (st : SeqState) :
    (t.issue q now w cost pc st).flags = t.flags := by unfold Tile.issue; simp
@[simp] theorem issueNext_flags (t : Tile) (q : SeqId) (now : Nat) (w : IWord) : (t.issueNext q now w).flags = t.flags := issue_flags ..
@[simp] theorem settleStall_spError (t : Tile) (q : SeqId) (now : Nat) : (t.settleStall q now).spError = t.spError := by
  unfold Tile.settleStall; simp
@[simp] theorem stall_spError (t : Tile) (q : SeqId) (now : Nat) (c : BitVec 4) : (t.stall q now c).spError = t.spError := Tile.modSeq_spError ..
@[simp] theorem issue_spError (t : Tile) (q : SeqId) (now : Nat) (w : IWord) (cost : Nat) (pc : BitVec 12) (st : SeqState) :
    (t.issue q now w cost pc st).spError = t.spError := by unfold Tile.issue; simp
@[simp] theorem issueNext_spError (t : Tile) (q : SeqId) (now : Nat) (w : IWord) : (t.issueNext q now w).spError = t.spError := issue_spError ..
@[simp] theorem settleStall_gate (t : Tile) (q : SeqId) (now : Nat) : (t.settleStall q now).gate = t.gate := by
  unfold Tile.settleStall; simp
@[simp] theorem stall_gate (t : Tile) (q : SeqId) (now : Nat) (c : BitVec 4) : (t.stall q now c).gate = t.gate := Tile.modSeq_gate ..
@[simp] theorem issue_gate (t : Tile) (q : SeqId) (now : Nat) (w : IWord) (cost : Nat) (pc : BitVec 12) (st : SeqState) :
    (t.issue q now w cost pc st).gate = t.gate := by unfold Tile.issue; simp
@[simp] theorem issueNext_gate (t : Tile) (q : SeqId) (now : Nat) (w : IWord) : (t.issueNext q now w).gate = t.gate := issue_gate ..
@[simp] theorem settleStall_unacked (t : Tile) (q : SeqId) (now : Nat) : (t.settleStall q now).unacked = t.unacked := by
  unfold Tile.settleStall; simp
@[simp] theorem stall_unacked (t : Tile) (q : SeqId) (now : Nat) (c : BitVec 4) : (t.stall q now c).unacked = t.unacked := Tile.modSeq_unacked ..
@[simp] theorem issue_unacked (t : Tile) (q : SeqId) (now : Nat) (w : IWord) (cost : Nat) (pc : BitVec 12) (st : SeqState) :
    (t.issue q now w cost pc st).unacked = t.unacked := by unfold Tile.issue; simp
@[simp] theorem issueNext_unacked (t : Tile) (q : SeqId) (now : Nat) (w : IWord) : (t.issueNext q now w).unacked = t.unacked := issue_unacked ..
@[simp] theorem settleStall_arrivals (t : Tile) (q : SeqId) (now : Nat) : (t.settleStall q now).arrivals = t.arrivals := by
  unfold Tile.settleStall; simp
@[simp] theorem stall_arrivals (t : Tile) (q : SeqId) (now : Nat) (c : BitVec 4) : (t.stall q now c).arrivals = t.arrivals := Tile.modSeq_arrivals ..
@[simp] theorem issue_arrivals (t : Tile) (q : SeqId) (now : Nat) (w : IWord) (cost : Nat) (pc : BitVec 12) (st : SeqState) :
    (t.issue q now w cost pc st).arrivals = t.arrivals := by unfold Tile.issue; simp
@[simp] theorem issueNext_arrivals (t : Tile) (q : SeqId) (now : Nat) (w : IWord) : (t.issueNext q now w).arrivals = t.arrivals := issue_arrivals ..
@[simp] theorem settleStall_released (t : Tile) (q : SeqId) (now : Nat) : (t.settleStall q now).released = t.released := by
  unfold Tile.settleStall; simp
@[simp] theorem stall_released (t : Tile) (q : SeqId) (now : Nat) (c : BitVec 4) : (t.stall q now c).released = t.released := Tile.modSeq_released ..
@[simp] theorem issue_released (t : Tile) (q : SeqId) (now : Nat) (w : IWord) (cost : Nat) (pc : BitVec 12) (st : SeqState) :
    (t.issue q now w cost pc st).released = t.released := by unfold Tile.issue; simp
@[simp] theorem issueNext_released (t : Tile) (q : SeqId) (now : Nat) (w : IWord) : (t.issueNext q now w).released = t.released := issue_released ..
@[simp] theorem settleStall_localStart (t : Tile) (q : SeqId) (now : Nat) : (t.settleStall q now).localStart = t.localStart := by
  unfold Tile.settleStall; simp
@[simp] theorem stall_localStart (t : Tile) (q : SeqId) (now : Nat) (c : BitVec 4) : (t.stall q now c).localStart = t.localStart := Tile.modSeq_localStart ..
@[simp] theorem issue_localStart (t : Tile) (q : SeqId) (now : Nat) (w : IWord) (cost : Nat) (pc : BitVec 12) (st : SeqState) :
    (t.issue q now w cost pc st).localStart = t.localStart := by unfold Tile.issue; simp
@[simp] theorem issueNext_localStart (t : Tile) (q : SeqId) (now : Nat) (w : IWord) : (t.issueNext q now w).localStart = t.localStart := issue_localStart ..
@[simp] theorem settleStall_releasedAt (t : Tile) (q : SeqId) (now : Nat) : (t.settleStall q now).releasedAt = t.releasedAt := by
  unfold Tile.settleStall; simp
@[simp] theorem stall_releasedAt (t : Tile) (q : SeqId) (now : Nat) (c : BitVec 4) : (t.stall q now c).releasedAt = t.releasedAt := Tile.modSeq_releasedAt ..
@[simp] theorem issue_releasedAt (t : Tile) (q : SeqId) (now : Nat) (w : IWord) (cost : Nat) (pc : BitVec 12) (st : SeqState) :
    (t.issue q now w cost pc st).releasedAt = t.releasedAt := by unfold Tile.issue; simp
@[simp] theorem issueNext_releasedAt (t : Tile) (q : SeqId) (now : Nat) (w : IWord) : (t.issueNext q now w).releasedAt = t.releasedAt := issue_releasedAt ..
@[simp] theorem settleStall_router (t : Tile) (q : SeqId) (now : Nat) : (t.settleStall q now).router = t.router := by
  unfold Tile.settleStall; simp
@[simp] theorem stall_router (t : Tile) (q : SeqId) (now : Nat) (c : BitVec 4) : (t.stall q now c).router = t.router := Tile.modSeq_router ..
@[simp] theorem issue_router (t : Tile) (q : SeqId) (now : Nat) (w : IWord) (cost : Nat) (pc : BitVec 12) (st : SeqState) :
    (t.issue q now w cost pc st).router = t.router := by unfold Tile.issue; simp
@[simp] theorem issueNext_router (t : Tile) (q : SeqId) (now : Nat) (w : IWord) : (t.issueNext q now w).router = t.router := issue_router ..
@[simp] theorem settleStall_xlate (t : Tile) (q : SeqId) (now : Nat) : (t.settleStall q now).xlate = t.xlate := by
  unfold Tile.settleStall; simp
@[simp] theorem stall_xlate (t : Tile) (q : SeqId) (now : Nat) (c : BitVec 4) : (t.stall q now c).xlate = t.xlate := Tile.modSeq_xlate ..
@[simp] theorem issue_xlate (t : Tile) (q : SeqId) (now : Nat) (w : IWord) (cost : Nat) (pc : BitVec 12) (st : SeqState) :
    (t.issue q now w cost pc st).xlate = t.xlate := by unfold Tile.issue; simp
@[simp] theorem issueNext_xlate (t : Tile) (q : SeqId) (now : Nat) (w : IWord) : (t.issueNext q now w).xlate = t.xlate := issue_xlate ..
@[simp] theorem settleStall_loads (t : Tile) (q : SeqId) (now : Nat) : (t.settleStall q now).loads = t.loads := by
  unfold Tile.settleStall; simp
@[simp] theorem stall_loads (t : Tile) (q : SeqId) (now : Nat) (c : BitVec 4) : (t.stall q now c).loads = t.loads := Tile.modSeq_loads ..
@[simp] theorem issue_loads (t : Tile) (q : SeqId) (now : Nat) (w : IWord) (cost : Nat) (pc : BitVec 12) (st : SeqState) :
    (t.issue q now w cost pc st).loads = t.loads := by unfold Tile.issue; simp
@[simp] theorem issueNext_loads (t : Tile) (q : SeqId) (now : Nat) (w : IWord) : (t.issueNext q now w).loads = t.loads := issue_loads ..
@[simp] theorem settleStall_atomicWaits (t : Tile) (q : SeqId) (now : Nat) : (t.settleStall q now).atomicWaits = t.atomicWaits := by
  unfold Tile.settleStall; simp
@[simp] theorem stall_atomicWaits (t : Tile) (q : SeqId) (now : Nat) (c : BitVec 4) : (t.stall q now c).atomicWaits = t.atomicWaits := Tile.modSeq_atomicWaits ..
@[simp] theorem issue_atomicWaits (t : Tile) (q : SeqId) (now : Nat) (w : IWord) (cost : Nat) (pc : BitVec 12) (st : SeqState) :
    (t.issue q now w cost pc st).atomicWaits = t.atomicWaits := by unfold Tile.issue; simp
@[simp] theorem issueNext_atomicWaits (t : Tile) (q : SeqId) (now : Nat) (w : IWord) : (t.issueNext q now w).atomicWaits = t.atomicWaits := issue_atomicWaits ..
@[simp] theorem settleStall_lastUse (t : Tile) (q : SeqId) (now : Nat) : (t.settleStall q now).lastUse = t.lastUse := by
  unfold Tile.settleStall; simp
@[simp] theorem stall_lastUse (t : Tile) (q : SeqId) (now : Nat) (c : BitVec 4) : (t.stall q now c).lastUse = t.lastUse := Tile.modSeq_lastUse ..
@[simp] theorem issue_lastUse (t : Tile) (q : SeqId) (now : Nat) (w : IWord) (cost : Nat) (pc : BitVec 12) (st : SeqState) :
    (t.issue q now w cost pc st).lastUse = t.lastUse := by unfold Tile.issue; simp
@[simp] theorem issueNext_lastUse (t : Tile) (q : SeqId) (now : Nat) (w : IWord) : (t.issueNext q now w).lastUse = t.lastUse := issue_lastUse ..
@[simp] theorem settleStall_lending (t : Tile) (q : SeqId) (now : Nat) : (t.settleStall q now).lending = t.lending := by
  unfold Tile.settleStall; simp
@[simp] theorem stall_lending (t : Tile) (q : SeqId) (now : Nat) (c : BitVec 4) : (t.stall q now c).lending = t.lending := Tile.modSeq_lending ..
@[simp] theorem issue_lending (t : Tile) (q : SeqId) (now : Nat) (w : IWord) (cost : Nat) (pc : BitVec 12) (st : SeqState) :
    (t.issue q now w cost pc st).lending = t.lending := by unfold Tile.issue; simp
@[simp] theorem issueNext_lending (t : Tile) (q : SeqId) (now : Nat) (w : IWord) : (t.issueNext q now w).lending = t.lending := issue_lending ..
@[simp] theorem settleStall_failed (t : Tile) (q : SeqId) (now : Nat) : (t.settleStall q now).failed = t.failed := by
  unfold Tile.settleStall; simp
@[simp] theorem stall_failed (t : Tile) (q : SeqId) (now : Nat) (c : BitVec 4) : (t.stall q now c).failed = t.failed := Tile.modSeq_failed ..
@[simp] theorem issue_failed (t : Tile) (q : SeqId) (now : Nat) (w : IWord) (cost : Nat) (pc : BitVec 12) (st : SeqState) :
    (t.issue q now w cost pc st).failed = t.failed := by unfold Tile.issue; simp
@[simp] theorem issueNext_failed (t : Tile) (q : SeqId) (now : Nat) (w : IWord) : (t.issueNext q now w).failed = t.failed := issue_failed ..
@[simp] theorem settleStall_scrubbed (t : Tile) (q : SeqId) (now : Nat) : (t.settleStall q now).scrubbed = t.scrubbed := by
  unfold Tile.settleStall; simp
@[simp] theorem stall_scrubbed (t : Tile) (q : SeqId) (now : Nat) (c : BitVec 4) : (t.stall q now c).scrubbed = t.scrubbed := Tile.modSeq_scrubbed ..
@[simp] theorem issue_scrubbed (t : Tile) (q : SeqId) (now : Nat) (w : IWord) (cost : Nat) (pc : BitVec 12) (st : SeqState) :
    (t.issue q now w cost pc st).scrubbed = t.scrubbed := by unfold Tile.issue; simp
@[simp] theorem issueNext_scrubbed (t : Tile) (q : SeqId) (now : Nat) (w : IWord) : (t.issueNext q now w).scrubbed = t.scrubbed := issue_scrubbed ..
@[simp] theorem settleStall_sends (t : Tile) (q : SeqId) (now : Nat) : (t.settleStall q now).sends = t.sends := by
  unfold Tile.settleStall; simp
@[simp] theorem stall_sends (t : Tile) (q : SeqId) (now : Nat) (c : BitVec 4) : (t.stall q now c).sends = t.sends := Tile.modSeq_sends ..
@[simp] theorem issue_sends (t : Tile) (q : SeqId) (now : Nat) (w : IWord) (cost : Nat) (pc : BitVec 12) (st : SeqState) :
    (t.issue q now w cost pc st).sends = t.sends := by unfold Tile.issue; simp
@[simp] theorem issueNext_sends (t : Tile) (q : SeqId) (now : Nat) (w : IWord) : (t.issueNext q now w).sends = t.sends := issue_sends ..
@[simp] theorem settleStall_flagsNow (t : Tile) (q : SeqId) (now : Nat) : (t.settleStall q now).flagsNow = t.flagsNow := by
  unfold Tile.settleStall; simp
@[simp] theorem stall_flagsNow (t : Tile) (q : SeqId) (now : Nat) (c : BitVec 4) : (t.stall q now c).flagsNow = t.flagsNow := Tile.modSeq_flagsNow ..
@[simp] theorem issue_flagsNow (t : Tile) (q : SeqId) (now : Nat) (w : IWord) (cost : Nat) (pc : BitVec 12) (st : SeqState) :
    (t.issue q now w cost pc st).flagsNow = t.flagsNow := by unfold Tile.issue; simp
@[simp] theorem issueNext_flagsNow (t : Tile) (q : SeqId) (now : Nat) (w : IWord) : (t.issueNext q now w).flagsNow = t.flagsNow := issue_flagsNow ..
@[simp] theorem settleStall_ackedAt (t : Tile) (q : SeqId) (now : Nat) : (t.settleStall q now).ackedAt = t.ackedAt := by
  unfold Tile.settleStall; simp
@[simp] theorem stall_ackedAt (t : Tile) (q : SeqId) (now : Nat) (c : BitVec 4) : (t.stall q now c).ackedAt = t.ackedAt := Tile.modSeq_ackedAt ..
@[simp] theorem issue_ackedAt (t : Tile) (q : SeqId) (now : Nat) (w : IWord) (cost : Nat) (pc : BitVec 12) (st : SeqState) :
    (t.issue q now w cost pc st).ackedAt = t.ackedAt := by unfold Tile.issue; simp
@[simp] theorem issueNext_ackedAt (t : Tile) (q : SeqId) (now : Nat) (w : IWord) : (t.issueNext q now w).ackedAt = t.ackedAt := issue_ackedAt ..
@[simp] theorem settleStall_forwards (t : Tile) (q : SeqId) (now : Nat) : (t.settleStall q now).forwards = t.forwards := by
  unfold Tile.settleStall; simp
@[simp] theorem stall_forwards (t : Tile) (q : SeqId) (now : Nat) (c : BitVec 4) : (t.stall q now c).forwards = t.forwards := Tile.modSeq_forwards ..
@[simp] theorem issue_forwards (t : Tile) (q : SeqId) (now : Nat) (w : IWord) (cost : Nat) (pc : BitVec 12) (st : SeqState) :
    (t.issue q now w cost pc st).forwards = t.forwards := by unfold Tile.issue; simp
@[simp] theorem issueNext_forwards (t : Tile) (q : SeqId) (now : Nat) (w : IWord) : (t.issueNext q now w).forwards = t.forwards := issue_forwards ..
@[simp] theorem settleStall_scrubAt (t : Tile) (q : SeqId) (now : Nat) : (t.settleStall q now).scrubAt = t.scrubAt := by
  unfold Tile.settleStall; simp
@[simp] theorem stall_scrubAt (t : Tile) (q : SeqId) (now : Nat) (c : BitVec 4) : (t.stall q now c).scrubAt = t.scrubAt := Tile.modSeq_scrubAt ..
@[simp] theorem issue_scrubAt (t : Tile) (q : SeqId) (now : Nat) (w : IWord) (cost : Nat) (pc : BitVec 12) (st : SeqState) :
    (t.issue q now w cost pc st).scrubAt = t.scrubAt := by unfold Tile.issue; simp
@[simp] theorem issueNext_scrubAt (t : Tile) (q : SeqId) (now : Nat) (w : IWord) : (t.issueNext q now w).scrubAt = t.scrubAt := issue_scrubAt ..
@[simp] theorem settleStall_scrubNext (t : Tile) (q : SeqId) (now : Nat) : (t.settleStall q now).scrubNext = t.scrubNext := by
  unfold Tile.settleStall; simp
@[simp] theorem stall_scrubNext (t : Tile) (q : SeqId) (now : Nat) (c : BitVec 4) : (t.stall q now c).scrubNext = t.scrubNext := Tile.modSeq_scrubNext ..
@[simp] theorem issue_scrubNext (t : Tile) (q : SeqId) (now : Nat) (w : IWord) (cost : Nat) (pc : BitVec 12) (st : SeqState) :
    (t.issue q now w cost pc st).scrubNext = t.scrubNext := by unfold Tile.issue; simp
@[simp] theorem issueNext_scrubNext (t : Tile) (q : SeqId) (now : Nat) (w : IWord) : (t.issueNext q now w).scrubNext = t.scrubNext := issue_scrubNext ..
@[simp] theorem settleStall_scrubErrs (t : Tile) (q : SeqId) (now : Nat) : (t.settleStall q now).scrubErrs = t.scrubErrs := by
  unfold Tile.settleStall; simp
@[simp] theorem stall_scrubErrs (t : Tile) (q : SeqId) (now : Nat) (c : BitVec 4) : (t.stall q now c).scrubErrs = t.scrubErrs := Tile.modSeq_scrubErrs ..
@[simp] theorem issue_scrubErrs (t : Tile) (q : SeqId) (now : Nat) (w : IWord) (cost : Nat) (pc : BitVec 12) (st : SeqState) :
    (t.issue q now w cost pc st).scrubErrs = t.scrubErrs := by unfold Tile.issue; simp
@[simp] theorem issueNext_scrubErrs (t : Tile) (q : SeqId) (now : Nat) (w : IWord) : (t.issueNext q now w).scrubErrs = t.scrubErrs := issue_scrubErrs ..
@[simp] theorem settleStall_rewrites (t : Tile) (q : SeqId) (now : Nat) : (t.settleStall q now).rewrites = t.rewrites := by
  unfold Tile.settleStall; simp
@[simp] theorem stall_rewrites (t : Tile) (q : SeqId) (now : Nat) (c : BitVec 4) : (t.stall q now c).rewrites = t.rewrites := Tile.modSeq_rewrites ..
@[simp] theorem issue_rewrites (t : Tile) (q : SeqId) (now : Nat) (w : IWord) (cost : Nat) (pc : BitVec 12) (st : SeqState) :
    (t.issue q now w cost pc st).rewrites = t.rewrites := by unfold Tile.issue; simp
@[simp] theorem issueNext_rewrites (t : Tile) (q : SeqId) (now : Nat) (w : IWord) : (t.issueNext q now w).rewrites = t.rewrites := issue_rewrites ..
@[simp] theorem settleStall_ovlScrub (t : Tile) (q : SeqId) (now : Nat) : (t.settleStall q now).ovlScrub = t.ovlScrub := by
  unfold Tile.settleStall; simp
@[simp] theorem stall_ovlScrub (t : Tile) (q : SeqId) (now : Nat) (c : BitVec 4) : (t.stall q now c).ovlScrub = t.ovlScrub := Tile.modSeq_ovlScrub ..
@[simp] theorem issue_ovlScrub (t : Tile) (q : SeqId) (now : Nat) (w : IWord) (cost : Nat) (pc : BitVec 12) (st : SeqState) :
    (t.issue q now w cost pc st).ovlScrub = t.ovlScrub := by unfold Tile.issue; simp
@[simp] theorem issueNext_ovlScrub (t : Tile) (q : SeqId) (now : Nat) (w : IWord) : (t.issueNext q now w).ovlScrub = t.ovlScrub := issue_ovlScrub ..
@[simp] theorem stall_counters (t : Tile) (q : SeqId) (now : Nat) (c : BitVec 4) : (t.stall q now c).counters = t.counters := Tile.modSeq_counters ..

theorem issueNext_seq_self (t : Tile) (q : SeqId) (now : Nat) (w : IWord) :
    (t.issueNext q now w).seq q =
      { (t.seq q).settleSlip t.localStart now with
        state := .issuing, issued := true, pc := (t.seq q).pc + 1, lastOp := BitVec.ofNat 8 (opOf w), nextIssue := now + 1 } :=
  issue_seq_self ..
theorem issueNext_seq_other (t : Tile) {q r : SeqId} (h : r ≠ q) (now : Nat) (w : IWord) :
    (t.issueNext q now w).seq r = t.seq r := issue_seq_other t h ..

/-- An instruction that may issue takes its effect. -/
theorem issueOp_issues (t : Tile) (op : Nat) (q : SeqId) (now : Nat) (w : IWord) (act : Tile → Tile) (h : t.canIssue op q now w = true) :
    t.issueOp op q now w act = act t := by
  unfold Tile.canIssue at h
  simp only [Bool.and_eq_true, Bool.not_eq_true'] at h
  unfold Tile.issueOp
  simp [h.1.1.1, h.1.2, h.2, of_decide_eq_true h.1.1.2]

/-- An instruction command at a live tile whose sequencer may issue it changes that tile by its effect, and nothing else. -/
theorem state_issue_issues (s : State) (t : TileId) (op : Nat) (q : SeqId) (w : IWord) (act : Nat → Tile → Tile) (hl : s.live t = true)
    (h : (s.tile t).canIssue op q (s.cycle t.slab) w = true) :
    s.issue t op q w act = s.modTile t (fun _ => act (s.cycle t.slab) (s.tile t)) := by
  unfold State.issue
  rw [onTile_live s t _ hl]
  unfold State.modTile State.modSlab Slab.modTile
  exact congrArg (fun x => s.setSlab t.slab ((s.slab t.slab).setTile t.x.val t.y.val x)) (issueOp_issues _ _ _ _ _ _ h)

end Sys2Proof.Machine
end

