-- ==== Sys2Proof/Laws/Issued.lean ====
section
/-! SUPPORT. The shape of every instruction's answer: what `State.issue` does to an instruction that may issue, and updates of
one tile put together. -/

namespace Sys2Proof.Machine

open Sys2Proof

/-! ## Updates of one tile -/

/-- Two updates of a tile that agree on the tile as it is are one. -/
theorem modTile_congr (s : State) (t : TileId) {f g : Tile → Tile} (h : f (s.tile t) = g (s.tile t)) :
    s.modTile t f = s.modTile t g := by
  unfold State.modTile State.modSlab Slab.modTile
  exact congrArg (fun x => s.setSlab t.slab ((s.slab t.slab).setTile t.x.val t.y.val x)) h

/-- Two updates of a tile, one after the other. -/
theorem modTile_modTile (s : State) (t : TileId) (f g : Tile → Tile) :
    (s.modTile t f).modTile t g = s.modTile t (fun a => g (f a)) := by
  unfold State.modTile State.modSlab
  rw [slab_setSlab_self]; dsimp only
  have h : Slab.modTile (Slab.modTile (s.slab t.slab) t.x.val t.y.val f) t.x.val t.y.val g
      = Slab.modTile (s.slab t.slab) t.x.val t.y.val (fun a => g (f a)) := by
    rw [Slab.modTile, Slab.tile_modTile_self]
    unfold Slab.modTile Slab.setTile
    simp
  rw [h]
  cases t.slab <;> rfl

/-! ## Issue -/

/-- An instruction that may issue takes its effect on its tile, and nothing else changes. -/
theorem issue_of_issuable {s : State} {t : TileId} {q : SeqId} {op : Nat} {w : IWord} (h : s.issuable t q op w = true)
    (act : Nat → Tile → Tile) : s.issue t op q w act = s.modTile t (fun a => act (s.cycle t.slab) a) := by
  unfold State.issuable at h
  rw [Bool.and_eq_true] at h
  rw [state_issue_issues s t op q w act h.1 h.2]
  exact modTile_congr s t rfl

/-- Counting a stall changes SLIP, its spans and the next issue cycle. -/
theorem settleSlip_eq (q : Sequencer) (start now : Nat) :
    q.settleSlip start now = { q with
      slip := (q.settleSlip start now).slip, spans := (q.settleSlip start now).spans, nextIssue := (q.settleSlip start now).nextIssue } := by
  unfold Sequencer.settleSlip Sequencer.slipSpan
  (repeat' split) <;> rfl

/-- What counting a stall adds depends on STATE, the next issue cycle, SLIP and its spans alone. -/
theorem settleSlip_congr {a b : Sequencer} (start now : Nat) (h1 : a.state = b.state) (h2 : a.nextIssue = b.nextIssue)
    (h3 : a.slip = b.slip) (h4 : a.spans = b.spans) :
    (a.settleSlip start now).slip = (b.settleSlip start now).slip
      ∧ (a.settleSlip start now).spans = (b.settleSlip start now).spans := by
  unfold Sequencer.settleSlip Sequencer.slipSpan
  rw [h1, h2, h3, h4]
  constructor <;> (repeat' split) <;> simp_all

/-- Tile `a` after an issue by sequencer `q`, which stands as `x`. -/
theorem tile_issued (s : State) (t : TileId) (q : SeqId) (w : IWord) (x : Sequencer) (now cost : Nat) (pc : BitVec 12) (st : SeqState)
    (hx : x = { s.seqAt t q with state := st, pc := pc, nextIssue := now + cost }) (hn : now = s.cycle t.slab) :
    s.modTile t (fun a => a.issue q now w cost pc st) = s.issued t q w x := by
  subst hx hn
  refine modTile_congr s t ?_
  unfold Tile.issue Tile.settleStall State.stalled State.settledSeq State.seqAt
  rw [settleSlip_eq]
  cases q <;> (dsimp only [Tile.modSeq, Tile.setSeq, Tile.seq, Tile.count]; rw [settleSlip_eq])

/-- The same of an instruction that first changes registers of its sequencer. -/
theorem tile_issued_modSeq (s : State) (t : TileId) (q : SeqId) (w : IWord) (f : Sequencer → Sequencer) (x : Sequencer) (now cost : Nat)
    (pc : BitVec 12) (st : SeqState) (h1 : (f (s.seqAt t q)).state = (s.seqAt t q).state)
    (h2 : (f (s.seqAt t q)).nextIssue = (s.seqAt t q).nextIssue) (h3 : (f (s.seqAt t q)).slip = (s.seqAt t q).slip)
    (h4 : (f (s.seqAt t q)).spans = (s.seqAt t q).spans)
    (hx : x = { f (s.seqAt t q) with state := st, pc := pc, nextIssue := now + cost }) (hn : now = s.cycle t.slab) :
    s.modTile t (fun a => (a.modSeq q f).issue q now w cost pc st) = s.issued t q w x := by
  subst hx hn
  refine modTile_congr s t ?_
  have e : (f (s.seqAt t q)).stallCycles (s.cycle t.slab) = (s.seqAt t q).stallCycles (s.cycle t.slab) := by
    unfold Sequencer.stallCycles; rw [h1, h2]
  have c := settleSlip_congr (s.tile t).localStart (s.cycle t.slab) h1 h2 h3 h4
  unfold Tile.issue Tile.settleStall State.stalled State.settledSeq
  unfold State.seqAt at e c ⊢
  rw [Tile.seq_modSeq_self, e, ← c.1, ← c.2]
  cases q <;> (dsimp only [Tile.modSeq, Tile.setSeq, Tile.seq, Tile.count]; rw [settleSlip_eq])

/-- `issueNext` as an issue to the next word. -/
theorem tile_issuedNext (s : State) (t : TileId) (q : SeqId) (w : IWord) (now : Nat) (hn : now = s.cycle t.slab) :
    s.modTile t (fun a => a.issueNext q now w) = s.issued t q w (s.nextWord t q) := by
  have h : s.modTile t (fun a => a.issueNext q now w)
      = s.modTile t (fun a => a.issue q now w 1 ((s.seqAt t q).pc + 1) .issuing) := modTile_congr s t rfl
  rw [h]
  exact tile_issued s t q w _ now 1 _ _ (by rw [hn]; rfl) hn

/-- What a write of a scalar register leaves of the sequencer: its file and its late write only. -/
theorem setReg_eq (q : Sequencer) (now r : Nat) (v : Word) :
    q.setReg now r v = { q with regs := (q.setReg now r v).regs, late := (q.setReg now r v).late } := by
  unfold Sequencer.setReg Sequencer.settle
  split <;> split <;> (try split) <;> rfl

/-- What a scalar register reads after a write (R93). -/
theorem reg_setReg (q : Sequencer) (now d : Nat) (v : Word) (r : Nat) :
    (q.setReg now d v).reg now r = if r = 0 then 0 else if r = d then v
      else q.reg now r := by
  unfold Sequencer.setReg Sequencer.settle
  cases hl : q.late with
  | none =>
    by_cases h0 : r = 0
    · simp [Sequencer.reg, h0]
    · by_cases hd : d = 0
      · have : r ≠ d := fun e => h0 (e.trans hd)
        simp [Sequencer.reg, h0, hd, hl]
      · by_cases e : r = d
        · subst e; simp [Sequencer.reg, h0, hl, RegMap.get, RegMap.set]
        · simp [Sequencer.reg, h0, hl, hd, e, RegMap.get, RegMap.set]
  | some l =>
    by_cases h0 : r = 0
    · simp [Sequencer.reg, h0]
    · by_cases ha : l.at_ ≤ now
      · by_cases hd : d = 0
        · have : r ≠ d := fun e => h0 (e.trans hd)
          by_cases el : l.reg.toNat = r
          · simp [Sequencer.reg, h0, hd, hl, ha, RegMap.get, RegMap.set, el]
          · simp [Sequencer.reg, h0, hd, hl, ha, RegMap.get, RegMap.set, el, Ne.symm el]
        · by_cases e : r = d
          · subst e; simp [Sequencer.reg, h0, ha, RegMap.get, RegMap.set]
          · by_cases el : l.reg.toNat = r
            · simp [Sequencer.reg, h0, hl, ha, hd, e, RegMap.get, RegMap.set, el]
            · simp [Sequencer.reg, h0, hl, ha, hd, e, RegMap.get, RegMap.set, el, Ne.symm el]
      · by_cases hd : d = 0
        · have : r ≠ d := fun e => h0 (e.trans hd)
          simp [Sequencer.reg, h0, hd, hl, ha]
        · by_cases e : r = d
          · subst e; simp [Sequencer.reg, h0, hl, ha, RegMap.get, RegMap.set]
          · simp [Sequencer.reg, h0, hl, ha, hd, e, RegMap.get, RegMap.set]

end Sys2Proof.Machine
end

