-- ==== Sys2Proof/Laws/RegFile.lean ====
section
/-! SUPPORT. Reads after writes of register files: one entry, a run of entries, and the entries an MMA fills. -/

namespace Sys2Proof.Machine

open Sys2Proof

theorem RegMap.get_set (r : RegMap) (i k : Nat) (v : Word) : (r.set i v).get k = if k = i then v else r.get k := by
  unfold RegMap.get RegMap.set
  by_cases h : k = i <;> simp [h]

/-- Entries below a run of writes, or above it, keep their value. -/
theorem RegMap.get_setMany_outside (vs : List Word) (r : RegMap) (i k : Nat) (h : k < i ∨ i + vs.length ≤ k) :
    (r.setMany i vs).get k = r.get k := by
  induction vs generalizing r i with
  | nil => rfl
  | cons v vs ih =>
    simp only [List.length_cons] at h
    rw [RegMap.setMany, ih _ _ (by omega), RegMap.get_set, if_neg (by omega)]

/-- Entries of a run of writes read as written. -/
theorem RegMap.get_setMany_inside (vs : List Word) (r : RegMap) (i j : Nat) (v : Word) (h : vs[j]? = some v) :
    (r.setMany i vs).get (i + j) = v := by
  induction vs generalizing r i j with
  | nil => simp at h
  | cons x vs ih =>
    rw [RegMap.setMany]
    cases j with
    | zero =>
      simp at h; subst h
      rw [RegMap.get_setMany_outside _ _ _ _ (by omega), RegMap.get_set, if_pos (by omega)]
    | succ j =>
      have := ih (r.set i x) (i + 1) j (by simpa using h)
      rw [← this]; congr 1; omega

/-- Entries that a fold over `range n` sets, one each, from the entry's own value: entry `f j` for `j` below `n`. -/
theorem foldl_set (n : Nat) (f : Nat → Nat) (g : Nat → Word → Word) (h : Nat → Word → Bool) (hf : ∀ a b, a < n → b < n → f a = f b → a = b)
    (acc : RegMap × Bool) :
    let r := (List.range n).foldl (fun (acc : RegMap × Bool) j =>
      (acc.1.set (f j) (g j (acc.1.get (f j))), acc.2 || h j (acc.1.get (f j)))) acc
    (∀ j, j < n → r.1.get (f j) = g j (acc.1.get (f j))) ∧ (∀ k, (∀ j, j < n → k ≠ f j) → r.1.get k = acc.1.get k) := by
  induction n with
  | zero => exact ⟨fun j hj => absurd hj (Nat.not_lt_zero j), fun k _ => rfl⟩
  | succ n ih =>
    have ih := ih (fun a b ha hb => hf a b (by omega) (by omega))
    dsimp only at ih ⊢
    rw [List.range_succ, List.foldl_append, List.foldl_cons, List.foldl_nil]
    refine ⟨fun j hj => ?_, fun k hk => ?_⟩
    · rw [RegMap.get_set]
      by_cases e : j = n
      · subst e
        rw [if_pos rfl, ih.2 _ (fun i hi c => absurd (hf _ _ (by omega) (by omega) c) (by omega))]
      · rw [if_neg (fun c => e (hf _ _ (by omega) (by omega) c)), ih.1 j (by omega)]
    · rw [RegMap.get_set, if_neg (hk n (by omega)), ih.2 k (fun j hj => hk j (by omega))]

end Sys2Proof.Machine
end

