-- ==== Sys2Proof/Laws/Memory.lean ====
section
/-! SUPPORT. Byte memory: every operation keeps the canonical form, a read after a write to the same place gives the value
written, and a write leaves every other place alone. -/

namespace Sys2Proof.Machine

open Sys2Proof

/-! ## The canonical form -/

theorem Cells.wfFrom_mono {lo lo' : Nat} (h : lo' ≤ lo) : ∀ m : Cells, Cells.wfFrom lo m = true → Cells.wfFrom lo' m = true
  | [], _ => rfl
  | (k, b) :: m, w => by
    simp only [Cells.wfFrom, Bool.and_eq_true, decide_eq_true_eq] at w ⊢
    exact ⟨⟨by omega, w.1.2⟩, w.2⟩

/-- A filter keeps the canonical form. -/
theorem Cells.wfFrom_filter (f : Host.Cell → Bool) (l : Nat) : ∀ m : Cells, Cells.wfFrom l m = true → Cells.wfFrom l (m.filter f) = true := by
  intro m
  induction m generalizing l with
  | nil => exact id
  | cons p m ih =>
    obtain ⟨k, c⟩ := p
    intro w
    simp only [Cells.wfFrom, Bool.and_eq_true, decide_eq_true_eq] at w
    rw [List.filter_cons]
    split
    · simp only [Cells.wfFrom, Bool.and_eq_true, decide_eq_true_eq]
      exact ⟨w.1, ih _ w.2⟩
    · exact Cells.wfFrom_mono (by omega) _ (ih _ w.2)

/-- Clearing a range keeps the canonical form. -/
theorem Cells.wf_clear (m : Cells) (lo hi : Nat) (w : m.wf = true) : (Cells.clear m lo hi).wf = true :=
  Cells.wfFrom_filter _ 0 m w

theorem Cells.wfFrom_put {lo a : Nat} {b : Byte} (h : lo ≤ a) (hb : b ≠ 0) :
    ∀ m : Cells, Cells.wfFrom lo m = true → (∀ c ∈ m, c.1 ≠ a) → Cells.wfFrom lo (m.put a b) = true := by
  intro m
  induction m generalizing lo with
  | nil =>
    intro _ _
    simp only [Cells.put, Cells.wfFrom, Bool.and_eq_true, decide_eq_true_eq]
    exact ⟨⟨h, hb⟩, trivial⟩
  | cons p m ih =>
    obtain ⟨k, c⟩ := p
    intro w na
    simp only [Cells.wfFrom, Bool.and_eq_true, decide_eq_true_eq] at w
    have hka : k ≠ a := na (k, c) (List.mem_cons_self ..)
    unfold Cells.put
    split
    · rename_i hk
      have hak : a + 1 ≤ k := hk
      simp only [Cells.wfFrom, Bool.and_eq_true, decide_eq_true_eq]
      exact ⟨⟨h, hb⟩, ⟨hak, w.1.2⟩, w.2⟩
    · rename_i hk
      simp only [Cells.wfFrom, Bool.and_eq_true, decide_eq_true_eq]
      exact ⟨w.1, ih (by omega) w.2 (fun x hx => na x (List.mem_cons_of_mem _ hx))⟩

theorem Cells.without_ne (m : Cells) (a : Nat) : ∀ c ∈ m.without a, c.1 ≠ a := by
  intro c hc
  unfold Cells.without at hc
  simpa using (List.mem_filter.mp hc).2

/-- A write keeps the canonical form. -/
theorem Cells.wf_write (m : Cells) (a : Nat) (b : Byte) (w : m.wf = true) : (Cells.write m a b).wf = true := by
  have d : Cells.wfFrom 0 (m.without a) = true := Cells.wfFrom_filter _ 0 m w
  unfold Cells.write
  split
  · exact d
  · rename_i hb; exact Cells.wfFrom_put (Nat.zero_le a) hb _ d (Cells.without_ne m a)

/-- Writes of a run of bytes keep the canonical form. -/
theorem Cells.wf_writeN (m : Cells) (a : Nat) (bs : List Byte) (w : m.wf = true) : (Cells.writeN m a bs).wf = true := by
  induction bs generalizing m a with
  | nil => exact w
  | cons b bs ih => exact ih _ _ (Cells.wf_write m a b w)

/-! ## Reads after writes: they hold of every list of cells -/

theorem Cells.read_without (m : Cells) (a c : Nat) : Cells.read (m.without a) c = if c = a then 0 else Cells.read m c := by
  unfold Cells.without
  induction m with
  | nil => simp [Cells.read]
  | cons p m ih =>
    obtain ⟨k, d⟩ := p
    rw [List.filter_cons]
    by_cases e : k = a
    · subst e
      simp only [ne_eq, not_true_eq_false, decide_false, Bool.false_eq_true, if_false]
      rw [ih]
      by_cases g : c = k <;> simp [Cells.read, g]
    · simp only [ne_eq, e, not_false_eq_true, decide_true, if_true, Cells.read]
      by_cases g : c = k
      · subst g; simp [e]
      · rw [if_neg g, if_neg g, ih]

theorem Cells.read_put (a c : Nat) (b : Byte) (m : Cells) (h : ∀ x ∈ m, x.1 ≠ a) :
    Cells.read (m.put a b) c = if c = a then b else Cells.read m c := by
  induction m with
  | nil => simp [Cells.put, Cells.read]
  | cons p m ih =>
    obtain ⟨k, d⟩ := p
    have hk : k ≠ a := h (k, d) (List.mem_cons_self ..)
    unfold Cells.put
    split
    · simp [Cells.read]
    · simp only [Cells.read]
      rw [ih (fun x hx => h x (List.mem_cons_of_mem _ hx))]
      by_cases g : c = k
      · subst g; simp [hk]
      · simp [g]

/-- A read after a write: the value written at its place, the old value everywhere else. -/
theorem Cells.read_write (m : Cells) (a c : Nat) (b : Byte) :
    Cells.read (Cells.write m a b) c = if c = a then b else Cells.read m c := by
  unfold Cells.write
  split
  · rename_i hb; subst hb; exact Cells.read_without m a c
  · rw [Cells.read_put _ _ _ _ (Cells.without_ne m a), Cells.read_without]
    by_cases g : c = a <;> simp [g]

/-- A byte outside a run that was written reads as before. -/
theorem Cells.read_writeN_outside (m : Cells) (a c : Nat) (bs : List Byte) (h : c < a ∨ a + bs.length ≤ c) :
    Cells.read (Cells.writeN m a bs) c = Cells.read m c := by
  induction bs generalizing m a with
  | nil => rfl
  | cons b bs ih =>
    simp only [List.length_cons] at h
    unfold Cells.writeN
    rw [ih _ (a + 1) (by omega), Cells.read_write, if_neg (by omega)]

/-- A byte of a run that was written reads as written. -/
theorem Cells.read_writeN_inside (m : Cells) (a k : Nat) (bs : List Byte) (h : k < bs.length) :
    Cells.read (Cells.writeN m a bs) (a + k) = bs[k] := by
  induction bs generalizing m a k with
  | nil => exact absurd h (Nat.not_lt_zero _)
  | cons b bs ih =>
    unfold Cells.writeN
    cases k with
    | zero =>
      rw [Cells.read_writeN_outside _ _ _ _ (by omega), Cells.read_write]
      simp
    | succ k =>
      have e : a + (k + 1) = a + 1 + k := by omega
      simp only [List.length_cons] at h
      rw [e, ih _ (a + 1) k (by omega)]
      rfl

/-- What a run of writes reads as, anywhere. -/
theorem Cells.read_writeN (m : Cells) (a c : Nat) (bs : List Byte) :
    Cells.read (Cells.writeN m a bs) c = if a ≤ c then (bs[c - a]?).getD (Cells.read m c) else Cells.read m c := by
  by_cases h : a ≤ c
  · rw [if_pos h]
    by_cases g : c - a < bs.length
    · have e : c = a + (c - a) := by omega
      rw [List.getElem?_eq_getElem g, Option.getD_some]
      conv => lhs; rw [e]
      rw [Cells.read_writeN_inside _ _ _ _ g]
    · rw [Cells.read_writeN_outside _ _ _ _ (by omega), List.getElem?_eq_none (by omega)]; rfl
  · rw [if_neg h, Cells.read_writeN_outside _ _ _ _ (by omega)]

end Sys2Proof.Machine
end

