-- ==== Sys2Proof/Laws/Rows.lean ====
section
/-! SUPPORT. Bytes and numbers (R5), and what writes of scratchpad rows leave (R107, R156). -/

namespace Sys2Proof.Machine

open Sys2Proof

/-! ## Little-endian bytes -/

@[simp] theorem leBytes_length (v n : Nat) : (leBytes v n).length = n := by
  induction n generalizing v with
  | zero => rfl
  | succ n ih => simp [leBytes, ih]

/-- Byte `k` of a number. -/
theorem leBytes_getElem? (v n k : Nat) (h : k < n) : (leBytes v n)[k]? = some (BitVec.ofNat 8 (v / 256 ^ k)) := by
  induction n generalizing v k with
  | zero => omega
  | succ n ih =>
    cases k with
    | zero => simp [leBytes]
    | succ k =>
      rw [leBytes, List.getElem?_cons_succ, ih _ _ (by omega), Nat.div_div_eq_div_mul, Nat.pow_succ, Nat.mul_comm]

theorem leNat_lt (bs : List Byte) : leNat bs < 256 ^ bs.length := by
  induction bs with
  | nil => simp [leNat]
  | cons b bs ih =>
    have := b.isLt
    simp only [leNat, List.length_cons, Nat.pow_succ]
    omega

/-- The bytes of the number that bytes spell. -/
theorem leBytes_leNat (bs : List Byte) : leBytes (leNat bs) bs.length = bs := by
  induction bs with
  | nil => rfl
  | cons b bs ih =>
    have hb := b.isLt
    have h1 : (b.toNat + 256 * leNat bs) / 256 = leNat bs := by omega
    have h2 : BitVec.ofNat 8 (b.toNat + 256 * leNat bs) = b := by
      apply BitVec.eq_of_toNat_eq
      simp only [BitVec.toNat_ofNat]
      omega
    simp only [leNat, List.length_cons, leBytes, h1, h2, ih]

/-- The 64 bytes of the row that 64 bytes spell. -/
theorem rowBytes_leNat (bs : List Byte) (h : bs.length = 64) : rowBytes (BitVec.ofNat 512 (leNat bs)) = bs := by
  have hl := leNat_lt bs
  have hl' : leNat bs < 2 ^ 512 := by
    rw [h] at hl
    have e : (2 : Nat) ^ 512 = (2 ^ 8) ^ 64 := by rw [← Nat.pow_mul]
    rw [e]; exact hl
  unfold rowBytes
  rw [BitVec.toNat_ofNat, Nat.mod_eq_of_lt hl', ← h]
  exact leBytes_leNat bs

/-! ## Rows of the scratchpad -/

/-- A byte of the scratchpad after bytes were put into one row. -/
theorem read_putBytes (t : Tile) (p : Bool) (r off : Nat) (bs : List Byte) (x : Nat) :
    Cells.read (t.putBytes p r off bs).scratch x =
      if r < spRows ∧ t.rowPowered p r = true ∧ 64 * r + off ≤ x then (bs[x - (64 * r + off)]?).getD (Cells.read t.scratch x)
      else Cells.read t.scratch x := by
  unfold Tile.putBytes
  by_cases h : r < spRows
  · cases hp : t.rowPowered p r with
    | true =>
      rw [if_neg (by simp [h])]
      rw [Cells.read_writeN]
      simp [h]
    | false => simp
  · rw [if_pos (by simp; omega), if_neg (fun c => h c.1)]

theorem putBytes_eq (t : Tile) (p : Bool) (r off : Nat) (bs : List Byte) :
    t.putBytes p r off bs = { t with scratch := (t.putBytes p r off bs).scratch, rewrites := (t.putBytes p r off bs).rewrites } := by
  unfold Tile.putBytes; split <;> rfl

@[simp] theorem putBytes_rowPowered (t : Tile) (p : Bool) (r off : Nat) (bs : List Byte) (k : Nat) :
    (t.putBytes p r off bs).rowPowered p k = t.rowPowered p k := by rw [putBytes_eq]; rfl

theorem putRun_eq (bs : List Byte) (t : Tile) (p : Bool) (a : Nat) :
    t.putRun p a bs = { t with scratch := (t.putRun p a bs).scratch, rewrites := (t.putRun p a bs).rewrites } := by
  induction bs generalizing t a with
  | nil => rfl
  | cons b bs ih => unfold Tile.putRun; rw [ih, putBytes_eq]

/-! ## Faults of accesses: flags and counters only -/

theorem opndFaults_eq (t : Tile) (n : Nat) :
    t.opndFaults n =
      { t with flags := (t.opndFaults n).flags, flagsNow := (t.opndFaults n).flagsNow, counters := (t.opndFaults n).counters } := by
  unfold Tile.opndFaults; split <;> rfl

theorem rowFaults_eq (t : Tile) (p : Bool) (rs : List Nat) :
    t.rowFaults p rs =
      { t with flags := (t.rowFaults p rs).flags, flagsNow := (t.rowFaults p rs).flagsNow, counters := (t.rowFaults p rs).counters } := by
  unfold Tile.rowFaults Tile.offBank
  dsimp only
  rw [opndFaults_eq (t.opndFaults _), opndFaults_eq t]; rfl

theorem setFlagIf_eq (t : Tile) (c : Bool) (m : Word) : t.setFlagIf c m = { t with flags := (t.setFlagIf c m).flags, flagsNow := (t.setFlagIf c m).flagsNow } := by
  unfold Tile.setFlagIf; cases c <;> rfl

end Sys2Proof.Machine
end

