-- ==== Sys2Proof/Laws/Engines.lean ====
section
/-! SUPPORT. What the engines of a tile do with the head of their queue: the matrix engine (R108 to R113), the vector engine (R131
to R137) and the overlay port (R256 to R261). -/

namespace Sys2Proof.Machine

open Sys2Proof

/-- A live tile lies on a slab whose clocks run. -/
theorem live_ready {s : State} {t : TileId} (hl : s.live t = true) : (s.slab t.slab).ready = true := by
  unfold State.live at hl; simp only [Bool.and_eq_true] at hl; exact hl.1.1

/-- MATRIX_BEGIN without errors runs the head of the queue on its tile, with a free pause within its bound, and nothing else
changes. -/
theorem matrixBegin_eq (s : State) (t : TileId) (e : MatrixEntry) (hl : s.live t = true)
    (h : (s.tile t).matrixHead (s.cycle t.slab) = some e) :
    exec (.matrixBegin t noErrors) s = .next ((s.takeFree (e.missBound (isPortal t) + 1)).2.modTile t (fun a =>
      a.runMatrix (isPortal t) (s.cycle t.slab) (s.takeFree (e.missBound (isPortal t) + 1)).1 e noErrors)) := by
  show execMatrixBegin t noErrors s = _
  unfold execMatrixBegin
  dsimp only
  rw [live_ready hl, if_pos rfl, h]
  dsimp only
  rw [onTile_live (s.takeFree _).2 t _ hl]
  rfl

theorem count_eq (t : Tile) (c n : Nat) : t.count c n = { t with counters := (t.count c n).counters } := rfl

/-- The end of a matrix instruction: faults, counters and the sequencer's completion cycle. -/
theorem matrix_tail (t : Tile) (p : Bool) (f : Nat) (rs : List Nat) (c1 n1 c2 n2 : Nat) (q : SeqId) (from_ upto d : Nat) :
    let b := (((((t.opndFaults f).rowFaults p rs).recordRowErrors p false 0 []).count c1 n1).count c2 n2).slip q from_ upto
      |>.modSeq q (fun s => { s with doneAt := max s.doneAt d })
    b = { t with flags := b.flags, flagsNow := b.flagsNow, counters := b.counters, fwd := b.fwd, bwd := b.bwd, svc := b.svc }
    ∧ (∀ r, r ≠ q → b.seq r = t.seq r)
    ∧ b.seq q = { (t.seq q).slipSpan from_ upto with doneAt := max ((t.seq q).slipSpan from_ upto).doneAt d } := by
  intro b
  have e : b = ((({ t with
      flags := ((t.opndFaults f).rowFaults p rs).flags, flagsNow := ((t.opndFaults f).rowFaults p rs).flagsNow
      counters := (((t.opndFaults f).rowFaults p rs).counters.bump c1 n1).bump c2 n2 } : Tile)).slip q from_ upto).modSeq q
        (fun s => { s with doneAt := max s.doneAt d }) := by
    show Tile.modSeq (Tile.slip (Tile.count (Tile.count ((t.opndFaults f).rowFaults p rs) c1 n1) c2 n2) q from_ upto) q _ = _
    rw [rowFaults_eq, opndFaults_eq t]; rfl
  rw [e]
  cases q <;> refine ⟨rfl, fun r h => ?_, rfl⟩ <;> cases r <;> first | rfl | exact absurd rfl h

/-- A matrix instruction that meets no error: its effect, then its faults, counters and timing. -/
theorem runMatrix_clean (t : Tile) (p : Bool) (now miss : Nat) (e : MatrixEntry) :
    let w := e.word
    let fin := now + e.duration + miss
    let t0 : Tile := { t with matrix := { t.matrix with
      queue := t.matrix.queue.drop 1, freeAt := fin
      undrained := if matrixWrites w then t.matrix.undrained ++ [(matrixBank w, fin + 10)] else t.matrix.undrained } }
    let t1 : Tile :=
      if opOf w = 0x40 then
        { t0 with matrix := { t0.matrix.setBank (mmaBank w) (mmaResult t p e).1 with
            transA := e.opA.buffers t p (mmaK w) t.matrix.transA
            transB := e.opB.buffers t p (mmaK w) t.matrix.transB } }.setFlagIf (mmaResult t p e).2 flagInvalidM
      else if opOf w = 0x41 then { t0 with matrix := t0.matrix.setBank (mmoveBank w) (mloadResult t p e) }
      else (List.range 64).foldl (fun (tl : Tile) i =>
        tl.putBytes p (addIdx (mmoveBase w) e.i0A + i) 0 (rowBytes ((mstoreRows t e).getD i 0))) t0
    let faults := (if opOf w = 0x40 then e.opA.faults + e.opB.faults else 0) + scaleFaults e.scales
    t.runMatrix p now miss e noErrors
      = ((((((t1.opndFaults faults).rowFaults p e.rows).recordRowErrors p false 0 []).count Ctr.MATRIX_STEPS e.duration).count
          Ctr.MATRIX_PAUSES miss).slip e.seq now (now + miss)).modSeq e.seq
          (fun s => { s with doneAt := max s.doneAt (fin + (if matrixWrites w then 10 else 0)) }) := by
  intro w fin t0 t1 faults
  have hd : t.delivered [] = t := rfl
  unfold Tile.runMatrix
  simp only [noErrors, List.filter_nil, rowsUncorrectable, List.any_nil, Bool.or_self, Bool.false_eq_true, if_false, show slowCycles [] = 0 from rfl, Nat.zero_add, hd]
  rfl
theorem setBank_bank (m : MatrixEngine) (x : Bool) (r : RegMap) : (m.setBank x r).bank x = r := by cases x <;> rfl

theorem setBank_other (m : MatrixEngine) (x : Bool) (r : RegMap) : (m.setBank x r).bank (!x) = m.bank (!x) := by cases x <;> rfl

/-- The entries an MMA writes, and those it leaves (R77, R108). -/
theorem mma_entries (a : Tile) (p : Bool) (e : MatrixEntry) :
    let w := e.word
    let start := if mmaInit w then RegMap.zero else a.matrix.bank (mmaBank w)
    let row (i : Nat) : List Fp := (List.range (mmaK w)).map (fun k => e.opA.elem a p i k)
    let col (j : Nat) : List Fp := (List.range (mmaK w)).map (fun k => e.opB.elem a p j k)
    (∀ i j : Nat, i < mmaRows w → j < mmaCols w → (mmaResult a p e).1.get (32 * i + j)
            = (accumulate (mmaFmtA w) (mmaFmtB w) (start.get (32 * i + j)) ((row i).zip (col j))).1)
      ∧ (∀ n : Nat, (∀ i j : Nat, i < mmaRows w → j < mmaCols w → n ≠ 32 * i + j) → (mmaResult a p e).1.get n = start.get n) := by
  intro w start row col
  have hc : mmaCols w ≤ 32 := by
    unfold mmaCols bits
    have : (w.toNat >>> 94) % 2 ^ (98 + 1 - 94) < 32 := Nat.mod_lt _ (by decide)
    omega
  have inner := fun (i : Nat) (acc : RegMap × Bool) => foldl_set (mmaCols w) (fun j => 32 * i + j)
    (fun j x => (accumulate (mmaFmtA w) (mmaFmtB w) x ((row i).zip (col j))).1)
    (fun j x => (accumulate (mmaFmtA w) (mmaFmtB w) x ((row i).zip (col j))).2) (by intro a b _ _ h; omega) acc
  let step : RegMap × Bool → Nat → RegMap × Bool := fun acc i => (List.range (mmaCols w)).foldl (fun (acc : RegMap × Bool) j =>
      (acc.1.set (32 * i + j) (accumulate (mmaFmtA w) (mmaFmtB w) (acc.1.get (32 * i + j)) ((row i).zip (col j))).1, acc.2 || (accumulate (mmaFmtA w) (mmaFmtB w) (acc.1.get (32 * i + j)) ((row i).zip (col j))).2)) acc
  have hr : mmaResult a p e = (List.range (mmaRows w)).foldl step (start, false) := rfl
  rw [hr]
  generalize mmaRows w = R
  induction R with
  | zero => exact ⟨fun i j h => absurd h (Nat.not_lt_zero i), fun n _ => rfl⟩
  | succ R ih =>
    rw [List.range_succ, List.foldl_append, List.foldl_cons, List.foldl_nil]
    have hi := inner R ((List.range R).foldl step (start, false))
    dsimp only at hi
    refine ⟨fun i j h hj => ?_, fun n hn => ?_⟩
    · by_cases e : i = R
      · subst e
        have := hi.1 j hj
        rw [ih.2 (32 * i + j) (fun i' j' h1 h2 => by omega)] at this
        exact this
      · have := hi.2 (32 * i + j) (fun j' h' => by omega)
        exact this.trans (ih.1 i j (by omega) hj)
    · have := hi.2 n (fun j h' => hn R j (by omega) h')
      exact this.trans (ih.2 n (fun i j h1 h2 => hn i j (by omega) h2))

/-- Rows written one after another from `row` on, byte by byte. -/
theorem foldl_putBytes (p : Bool) (row : Nat) (f : Nat → List Byte) (hf : ∀ i, (f i).length = 64) (t : Tile) (n : Nat) :
    let r := (List.range n).foldl (fun (tl : Tile) i => tl.putBytes p (row + i) 0 (f i)) t
    r = { t with scratch := r.scratch, rewrites := r.rewrites } ∧
    ∀ x, Cells.read r.scratch x = if 64 * row ≤ x ∧ x < 64 * (row + n) ∧ x / 64 < spRows ∧ t.rowPowered p (x / 64) = true then
        ((f (x / 64 - row))[x % 64]?).getD 0 else Cells.read t.scratch x := by
  induction n with
  | zero =>
    refine ⟨rfl, fun x => ?_⟩
    rw [if_neg (by omega)]; rfl
  | succ n ih =>
    dsimp only at ih ⊢
    rw [List.range_succ, List.foldl_append, List.foldl_cons, List.foldl_nil]
    revert ih
    generalize (List.range n).foldl _ t = u
    intro ih
    refine ⟨by rw [putBytes_eq, ih.1], fun x => ?_⟩
    have hp : ∀ k, u.rowPowered p k = t.rowPowered p k := by intro k; rw [ih.1]; rfl
    rw [read_putBytes, ih.2, hp]
    by_cases hx : 64 * (row + n) ≤ x ∧ x < 64 * (row + n + 1)
    · have hd : x / 64 = row + n := by omega
      have e1 : x - (64 * (row + n) + 0) = x % 64 := by omega
      rw [e1, hd]
      have hlen : x % 64 < (f n).length := by rw [hf]; exact Nat.mod_lt _ (by decide)
      by_cases c : row + n < spRows ∧ t.rowPowered p (row + n) = true
      · have : row + n - row = n := by omega
        rw [if_pos ⟨c.1, c.2, by omega⟩, List.getElem?_eq_getElem hlen, Option.getD_some, if_pos ⟨by omega, by omega, c.1, c.2⟩, this, List.getElem?_eq_getElem hlen]; rfl
      · rw [if_neg (fun h => c ⟨h.1, h.2.1⟩), if_neg (fun h => c ⟨h.2.2.1, h.2.2.2⟩), if_neg (fun h => c ⟨h.2.2.1, h.2.2.2⟩)]
    · have e2 : (64 * row ≤ x ∧ x < 64 * (row + (n + 1)) ∧ x / 64 < spRows ∧ t.rowPowered p (x / 64) = true) ↔ (64 * row ≤ x ∧ x < 64 * (row + n) ∧ x / 64 < spRows ∧ t.rowPowered p (x / 64) = true) := by
        constructor
        · rintro ⟨a, b, c, d⟩; exact ⟨a, by omega, c, d⟩
        · rintro ⟨a, b, c, d⟩; exact ⟨a, by omega, c, d⟩
      simp only [e2]
      split
      · rename_i h
        rw [List.getElem?_eq_none (by rw [hf]; omega)]; rfl
      · rfl

theorem getMany_get? (r : RegMap) (i n k : Nat) (h : k < n) : (r.getMany i n)[k]? = some (r.get (i + k)) := by
  induction n generalizing i k with
  | zero => omega
  | succ n ih =>
    cases k with
    | zero => rfl
    | succ k => rw [RegMap.getMany, List.getElem?_cons_succ, ih _ _ (by omega)]; congr 2; omega

theorem getMany_length (r : RegMap) (i n : Nat) : (r.getMany i n).length = n := by
  induction n generalizing i with
  | zero => rfl
  | succ n ih => simp [RegMap.getMany, ih]

/-- Byte `k` of a run of 32-bit words. -/
theorem flatMap_leBytes_get? (ws : List Word) (k : Nat) (h : k < 4 * ws.length) :
    (ws.flatMap (fun v => leBytes v.toNat 4))[k]? = some (BitVec.ofNat 8 ((ws.getD (k / 4) 0).toNat / 256 ^ (k % 4))) := by
  induction ws generalizing k with
  | nil => simp at h
  | cons w ws ih =>
    simp only [List.length_cons] at h
    rw [List.flatMap_cons]
    by_cases hk : k < 4
    · rw [List.getElem?_append_left (by simp; exact hk), leBytes_getElem? _ _ _ hk]
      have e1 : k / 4 = 0 := by omega
      have e2 : k % 4 = k := by omega
      rw [e1, e2]; rfl
    · rw [List.getElem?_append_right (by simp; omega), leBytes_length, ih _ (by omega)]
      have e1 : k / 4 = (k - 4) / 4 + 1 := by omega
      have e2 : k % 4 = (k - 4) % 4 := by omega
      rw [e1, e2]; rfl

theorem flatMap_leBytes_length (ws : List Word) : (ws.flatMap (fun v => leBytes v.toNat 4)).length = 4 * ws.length := by
  induction ws with
  | nil => rfl
  | cons w ws ih => rw [List.flatMap_cons, List.length_append, ih, leBytes_length, List.length_cons]; omega

/-- The bound of the free pause of a vector instruction at the head of a tile's queue (R131). -/
def State.vectorMiss (s : State) (t : TileId) (e : VectorEntry) : Nat :=
  e.missBound (isPortal t) ((s.tile t).vectorLength (s.cycle t.slab) e)

/-- VECTOR_BEGIN without errors runs the head of the queue on its tile, with a free pause within its bound, and nothing else
changes. -/
theorem vectorBegin_eq (s : State) (t : TileId) (e : VectorEntry) (hl : s.live t = true)
    (h : (s.tile t).vectorHead (s.cycle t.slab) = some e) :
    exec (.vectorBegin t noErrors) s = .next ((s.takeFree (s.vectorMiss t e + 1)).2.modTile t (fun a =>
      a.runVector (isPortal t) (s.fp8Nan t.slab) (s.cycle t.slab) (s.takeFree (s.vectorMiss t e + 1)).1 e noErrors)) := by
  show execVectorBegin t noErrors s = _
  unfold execVectorBegin
  dsimp only
  rw [live_ready hl, if_pos rfl, h]
  dsimp only
  rw [onTile_live (s.takeFree _).2 t _ hl]
  rfl

/-- The end of a vector instruction: counters and the sequencer's completion cycle. -/
theorem vector_tail (t : Tile) (p : Bool) (c1 n1 c2 n2 : Nat) (q : SeqId) (from_ upto d : Nat) :
    let b := (((t.recordRowErrors p false 1 []).count c1 n1).count c2 n2).slip q from_ upto |>.modSeq q (fun s => { s with doneAt := max s.doneAt d })
    b = { t with counters := b.counters, fwd := b.fwd, bwd := b.bwd, svc := b.svc }
    ∧ (∀ r, r ≠ q → b.seq r = t.seq r)
    ∧ b.seq q = { (t.seq q).slipSpan from_ upto with doneAt := max ((t.seq q).slipSpan from_ upto).doneAt d } := by
  intro b
  have e : b = ((({ t with counters := (t.counters.bump c1 n1).bump c2 n2 } : Tile)).slip q from_ upto).modSeq q
      (fun s => { s with doneAt := max s.doneAt d }) := rfl
  rw [e]
  cases q <;> refine ⟨rfl, fun r h => ?_, rfl⟩ <;> cases r <;> first | rfl | exact absurd rfl h

/-- A vector instruction that meets no error: its effect, then its timing. -/
theorem runVector_clean (t : Tile) (p ovf : Bool) (now miss : Nat) (e : VectorEntry) :
    let n := t.vectorLength now e
    let fin := now + e.duration n + miss
    let last := fin + vectorLatency (opOf e.word)
    let t1 := if decide (n = 0) && decide (opOf e.word ∉ [0x80, 0xB8, 0xB9]) then t else t.vectorEffect p ovf now e n []
    let b := t.runVector p ovf now miss e noErrors
    b = { t1 with vector := b.vector, counters := b.counters, fwd := b.fwd, bwd := b.bwd, svc := b.svc }
    ∧ b.vector.regs = t1.vector.regs ∧ b.vector.queue = t.vector.queue.drop 1 ∧ b.vector.freeAt = fin
    ∧ (∀ r, r ≠ e.seq → b.seq r = t1.seq r)
    ∧ b.seq e.seq = { (t1.seq e.seq).slipSpan now (now + miss) with
        doneAt := max ((t1.seq e.seq).slipSpan now (now + miss)).doneAt last } := by
  intro n fin last t1 b
  let t2 : Tile := { t1 with vector := { t1.vector with
    queue := t.vector.queue.drop 1, freeAt := fin,
    writeAt := (vectorWrites e.word).foldl (fun l r => aset r last l) t.vector.writeAt,
    bankRead := (if opOf e.word = 0x80 then
      (vaccBank e.word, fin) :: t.vector.bankRead.filter (fun b => now < b.2) else t.vector.bankRead),
    storeAt := if opOf e.word = 0xB1 ∨ opOf e.word = 0xB9 then max t.vector.storeAt last else t.vector.storeAt } }
  have hb : b = Tile.modSeq (Tile.slip (Tile.count (Tile.count (t2.recordRowErrors p false 1 []) Ctr.VECTOR_GROUPS (e.groups n))
      Ctr.VECTOR_PAUSES miss) e.seq now (now + miss)) e.seq (fun s => { s with doneAt := max s.doneAt last }) := by
    show t.runVector p ovf now miss e noErrors = _
    unfold Tile.runVector
    simp only [noErrors, List.filter_nil, rowsUncorrectable, List.any_nil, Bool.or_self, slowCycles, List.length_nil, Nat.mul_zero, Nat.zero_add, Bool.false_or]
    rfl
  have tail := vector_tail t2 p Ctr.VECTOR_GROUPS (e.groups n) Ctr.VECTOR_PAUSES miss e.seq now (now + miss) last
  dsimp only at tail
  rw [← hb] at tail
  obtain ⟨h1, h2, h3⟩ := tail
  have hv : b.vector = t2.vector := by rw [h1]
  have hs : ∀ r, t2.seq r = t1.seq r := by intro r; cases r <;> rfl
  refine ⟨?_, by rw [hv], by rw [hv], by rw [hv], fun r hr => ?_, ?_⟩
  · rw [h1]
  · rw [h2 r hr, hs]
  · rw [h3, hs]

/-- OVERLAY_PORT_BEGIN without errors runs the head of the queue on its tile, and nothing else changes. -/
theorem portBegin_eq (s : State) (t : TileId) (e : PortEntry) (hl : s.live t = true) (h : (s.tile t).portHead (s.cycle t.slab) = some e) :
    exec (.overlayPortBegin t [] []) s = .next ((s.takeFree 65536).2.modTile t (fun a =>
      let a' : Tile := { a with port := { a.port with queue := a.port.queue.drop 1 } }
      if opOf e.word = 0x24 then a'.runOvrd (s.cycle t.slab) 0 e
      else a'.runStack (isPortal t) (s.cycle t.slab) e (s.stackEnv t.slab (stkCtx e.word)) [] [])) := by
  show execOverlayPortBegin t [] [] s = _
  unfold execOverlayPortBegin
  dsimp only
  rw [live_ready hl, if_pos rfl, h]
  simp only [List.filter_nil, List.length_nil, List.isEmpty_nil, if_true, Bool.not_true, Bool.false_and, Bool.and_false, Bool.false_eq_true, if_false, rowsUncorrectable, List.any_nil, Bool.or_self, State.tileErrorIf, Nat.sub_self, List.map_nil]
  rw [onTile_live (s.takeFree 65536).2 t _ hl]
  refine congrArg _ (modTile_congr (s.takeFree 65536).2 t ?_)
  have c (a : Tile) : (((a.recordRowErrors (isPortal t) false 2 []).count Ctr.OVL_CORRECTED 0).count Ctr.OVL_UNCORRECTABLE 0) = a := rfl
  simp only [decide_eq_true_eq, c]
  rfl

/-- Rows written by an engine change the scratchpad, flags and counters only. -/
theorem writeRows_eq (ds : List Row) (t : Tile) (p : Bool) (r : Nat) :
    t.writeRows p r ds = { t with
      scratch := (t.writeRows p r ds).scratch, rewrites := (t.writeRows p r ds).rewrites, flags := (t.writeRows p r ds).flags
      flagsNow := (t.writeRows p r ds).flagsNow, counters := (t.writeRows p r ds).counters } := by
  induction ds generalizing t r with
  | nil => rfl
  | cons d ds ih =>
    unfold Tile.writeRows Tile.writeRow
    rw [ih, rowFaults_eq, putBytes_eq]

theorem setOvlRows_eq (ds : List Row) (t : Tile) (r : Nat) : t.setOvlRows r ds = { t with overlay := (t.setOvlRows r ds).overlay } := by
  induction ds generalizing t r with
  | nil => rfl
  | cons d ds ih => unfold Tile.setOvlRows Tile.setOvlRow; rw [ih]

/-- Rows written to the overlay, byte by byte. -/
theorem setOvlRows_read (ds : List Row) (t : Tile) (r x : Nat) : Cells.read (t.setOvlRows r ds).overlay x =
    if 64 * r ≤ x ∧ x < 64 * (r + ds.length) then ((rowBytes (ds.getD (x / 64 - r) 0))[x % 64]?).getD 0 else Cells.read t.overlay x := by
  induction ds generalizing t r with
  | nil => rw [if_neg (by simp only [List.length_nil]; omega)]; rfl
  | cons d ds ih =>
    unfold Tile.setOvlRows
    rw [ih]
    unfold Tile.setOvlRow
    dsimp only
    rw [Cells.read_writeN]
    have hl : (rowBytes d).length = 64 := leBytes_length _ _
    simp only [List.length_cons]
    by_cases h1 : 64 * (r + 1) ≤ x ∧ x < 64 * (r + 1 + ds.length)
    · rw [if_pos h1, if_pos (by omega)]
      have : x / 64 - r = (x / 64 - (r + 1)) + 1 := by omega
      rw [this]; rfl
    · rw [if_neg h1]
      by_cases h2 : 64 * r ≤ x
      · rw [if_pos h2]
        by_cases h3 : x < 64 * r + 64
        · rw [if_pos ⟨h2, by omega⟩]
          have e1 : x / 64 - r = 0 := by omega
          have e2 : x - 64 * r = x % 64 := by omega
          have h4 : x % 64 < (rowBytes d).length := by omega
          rw [e1, e2, List.getElem?_eq_getElem h4, Option.getD_some]
          show _ = ((rowBytes d)[x % 64]?).getD 0
          rw [List.getElem?_eq_getElem h4, Option.getD_some]
        · rw [if_neg (by omega), List.getElem?_eq_none (by omega), Option.getD_none]
      · rw [if_neg h2, if_neg (by omega)]

theorem setOvlRow_overlay (t : Tile) (r : Nat) (d : Row) : (t.setOvlRow r d).overlay = Cells.writeN t.overlay (64 * r) (rowBytes d) := rfl

theorem ctx_setCtx (t : Tile) (c : Nat) (w : DWord) : (t.setCtx c w).ctx c = w := by
  unfold Tile.ctx Tile.setCtx; simp

end Sys2Proof.Machine
end

