-- ==== Sys2Proof/Laws/KeepEvents.lean ====
section
/-! SUPPORT. The operations of Machine/Events.lean leave the chassis alone. -/

namespace Sys2Proof.Machine

open Sys2Proof

@[simp] theorem drainRing_chassis (s : State) (fn : SlabId) : (State.drainRing s fn).chassis = s.chassis :=
  by simp [State.drainRing]

@[simp] theorem post_chassis (s : State) (fn : SlabId) (r : EventRec) : (State.post s fn r).chassis = s.chassis :=
  by simp only [State.post]; (repeat' split) <;> simp

@[simp] theorem event_chassis (s : State) (fn i : SlabId) (type : Byte) (detail : List Byte) : (State.event s fn i type detail).chassis = s.chassis :=
  by simp [State.event]

@[simp] theorem setJobState_chassis (s : State) (i : SlabId) (st : JobState) (r : Reason) : (State.setJobState s i st r).chassis = s.chassis :=
  by simp [State.setJobState]

@[simp] theorem modLedger_chassis (s : State) (i : SlabId) (n : DWord) (f : LedgerRec → LedgerRec) : (State.modLedger s i n f).chassis = s.chassis :=
  by simp [State.modLedger]

@[simp] theorem logFaultAt_chassis (s : State) (i : SlabId) (st : Stamp) (e : FaultEntry) : (State.logFaultAt s i st e).chassis = s.chassis :=
  by simp [State.logFaultAt]

@[simp] theorem logFault_chassis (s : State) (i : SlabId) (e : FaultEntry) : (State.logFault s i e).chassis = s.chassis :=
  by simp [State.logFault]

@[simp] theorem raiseCause_chassis (s : State) (c : Cause) : (State.raiseCause s c).chassis = s.chassis :=
  by simp [State.raiseCause]

@[simp] theorem raise_chassis (s : State) (i : SlabId) (code : Byte) (unit : Option (Fin 24)) : (State.raise s i code unit).chassis = s.chassis :=
  by simp [State.raise]

@[simp] theorem stopLending_chassis (s : State) (t : TileId) : (State.stopLending s t).chassis = s.chassis :=
  by simp [State.stopLending]

@[simp] theorem tileFault_chassis (s : State) (t : TileId) (code : Byte) : (State.tileFault s t code).chassis = s.chassis :=
  by simp only [State.tileFault]; (repeat' split) <;> simp

@[simp] theorem tileErrorIf_chassis (s : State) (c : Bool) (t : TileId) : (State.tileErrorIf s c t).chassis = s.chassis :=
  by unfold State.tileErrorIf; (repeat' split) <;> simp

@[simp] theorem tileDegraded_chassis (s : State) (t : TileId) : (State.tileDegraded s t).chassis = s.chassis :=
  by simp [State.tileDegraded]

@[simp] theorem onTile_chassis (s : State) (t : TileId) (f : Nat → Tile → Tile) : (State.onTile s t f).chassis = s.chassis :=
  by simp [State.onTile]

end Sys2Proof.Machine
end

