-- ==== Sys2Proof/Laws/KeepIssue.lean ====
section
/-! SUPPORT. The operations of Machine/Issue.lean leave the chassis alone. -/

namespace Sys2Proof.Machine

open Sys2Proof

@[simp] theorem issue_chassis (s : State) (t : TileId) (op : Nat) (q : SeqId) (w : IWord) (act : Nat → Tile → Tile) : (State.issue s t op q w act).chassis = s.chassis :=
  by simp [State.issue]

end Sys2Proof.Machine
end

