-- ==== Sys2Proof/Laws/KeepControl.lean ====
section
/-! SUPPORT. The operations of Machine/Control.lean leave the chassis alone. -/

namespace Sys2Proof.Machine

open Sys2Proof

@[simp] theorem execNop_chassis (t : TileId) (q : SeqId) (w : IWord) (s : State) : Keeps s (execNop t q w s) :=
  by simp [execNop]

@[simp] theorem execWaitc_chassis (t : TileId) (q : SeqId) (w : IWord) (s : State) : Keeps s (execWaitc t q w s) :=
  by simp [execWaitc]

@[simp] theorem execWaituntil_chassis (t : TileId) (q : SeqId) (w : IWord) (s : State) : Keeps s (execWaituntil t q w s) :=
  by simp [execWaituntil]

@[simp] theorem execWaitarr_chassis (t : TileId) (q : SeqId) (w : IWord) (s : State) : Keeps s (execWaitarr t q w s) :=
  by simp [execWaitarr]

@[simp] theorem execWaitEnd_chassis (t : TileId) (q : SeqId) (s : State) : Keeps s (execWaitEnd t q s) :=
  by simp [execWaitEnd]

@[simp] theorem execSeti_chassis (t : TileId) (q : SeqId) (w : IWord) (s : State) : Keeps s (execSeti t q w s) :=
  by simp [execSeti]

@[simp] theorem execAddi_chassis (t : TileId) (q : SeqId) (w : IWord) (s : State) : Keeps s (execAddi t q w s) :=
  by simp [execAddi]

@[simp] theorem execJmp_chassis (t : TileId) (q : SeqId) (w : IWord) (s : State) : Keeps s (execJmp t q w s) :=
  by simp [execJmp]

@[simp] theorem execBnzd_chassis (t : TileId) (q : SeqId) (w : IWord) (s : State) : Keeps s (execBnzd t q w s) :=
  by simp [execBnzd]

@[simp] theorem execIfill_chassis (t : TileId) (q : SeqId) (w : IWord) (s : State) : Keeps s (execIfill t q w s) :=
  by simp [execIfill]

@[simp] theorem execIfillBegin_chassis (t : TileId) (s : State) : Keeps s (execIfillBegin t s) :=
  by simp [execIfillBegin]

@[simp] theorem execIfillDone_chassis (t : TileId) (target : SeqId) (errs : List RowError) (s : State) : Keeps s (execIfillDone t target errs s) :=
  by simp only [execIfillDone]; (repeat' split) <;> simp

@[simp] theorem execBelay_chassis (t : TileId) (q : SeqId) (w : IWord) (s : State) : Keeps s (execBelay t q w s) :=
  by simp [execBelay]

@[simp] theorem execBelayArrival_chassis (t : TileId) (ch : Fin 64) (s : State) : Keeps s (execBelayArrival t ch s) :=
  by simp only [execBelayArrival]; (repeat' split) <;> simp

@[simp] theorem execBelayResume_chassis (t : TileId) (ch : Fin 64) (s : State) : Keeps s (execBelayResume t ch s) :=
  by simp [execBelayResume]

@[simp] theorem execReservedOpcodeDecode_chassis (t : TileId) (q : SeqId) (w : IWord) (s : State) : Keeps s (execReservedOpcodeDecode t q w s) :=
  by simp [execReservedOpcodeDecode]

@[simp] theorem execWrongClassDecode_chassis (t : TileId) (q : SeqId) (w : IWord) (s : State) : Keeps s (execWrongClassDecode t q w s) :=
  by simp [execWrongClassDecode]

end Sys2Proof.Machine
end

