-- ==== Sys2Proof/Laws/KeepMesh.lean ====
section
/-! SUPPORT. The operations of Machine/Mesh.lean leave the chassis alone. -/

namespace Sys2Proof.Machine

open Sys2Proof

@[simp] theorem modRouter_chassis (s : State) (t : TileId) (f : Router → Router) : (State.modRouter s t f).chassis = s.chassis :=
  by simp [State.modRouter]

@[simp] theorem putFlit_chassis (s : State) (t : TileId) (o : FlitOut) : (State.putFlit s t o).chassis = s.chassis :=
  by unfold State.putFlit; (repeat' split) <;> simp

@[simp] theorem popInput_chassis (s : State) (t : TileId) (inp : InPort) (vc : Bool) : (State.popInput s t inp vc).chassis = s.chassis :=
  by simp [State.popInput]

@[simp] theorem countHop_chassis (s : State) (t : TileId) (inp : InPort) (f : Flit) (outs : List FlitOut) : (State.countHop s t inp f outs).chassis = s.chassis :=
  by simp [State.countHop]

@[simp] theorem clearFails_chassis (s : State) (t : TileId) (inp : InPort) : (State.clearFails s t inp).chassis = s.chassis :=
  by unfold State.clearFails; (repeat' split) <;> simp

@[simp] theorem discardInput_chassis (s : State) (t : TileId) (d : Dir) (vc : Bool) : (State.discardInput s t d vc).chassis = s.chassis :=
  by unfold State.discardInput; (repeat' split) <;> simp

@[simp] theorem putAck_chassis (s : State) (t : TileId) (a : Ack) : (State.putAck s t a).chassis = s.chassis :=
  by simp [State.putAck]

@[simp] theorem sendAck_chassis (s : State) (t : TileId) (a : Ack) : (State.sendAck s t a).chassis = s.chassis :=
  by simp only [State.sendAck, State.takeFree]; (repeat' split) <;> simp

@[simp] theorem partDone_chassis (s : State) (t : TileId) (sx sy msg : Nat) : (State.partDone s t sx sy msg).chassis = s.chassis :=
  by simp only [State.partDone]; (repeat' split) <;> simp

@[simp] theorem forwardDone_chassis (s : State) (t : TileId) (msg : Nat) : (State.forwardDone s t msg).chassis = s.chassis :=
  by unfold State.forwardDone; (repeat' split) <;> simp

@[simp] theorem execMeshAck_chassis (t : Heard TileId) (s : State) : Keeps s (execMeshAck t s) :=
  by simp only [execMeshAck, State.takeFree]; (repeat' split) <;> simp

@[simp] theorem execMeshFlitReceive_chassis (t : TileId) (inp : InPort) (vc : Bool) (chk : LinkCheck) (s : State) : Keeps s (execMeshFlitReceive t inp vc chk s) :=
  by simp only [execMeshFlitReceive]; (repeat' split) <;> simp

@[simp] theorem execMulticastForward_chassis (t : TileId) (inp : InPort) (vc : Bool) (s : State) : Keeps s (execMulticastForward t inp vc s) :=
  by simp only [execMulticastForward]; (repeat' split) <;> simp

@[simp] theorem execMeshFlitEject_chassis (t : TileId) (s : State) : Keeps s (execMeshFlitEject t s) :=
  by unfold execMeshFlitEject; (repeat' split) <;> simp

@[simp] theorem failLink_chassis (s : State) (t : TileId) (d : Dir) : (State.failLink s t d).chassis = s.chassis :=
  by simp only [State.failLink]; (repeat' split) <;> simp

@[simp] theorem countCol_chassis (s : State) (id n : Nat) : (State.countCol s id n).chassis = s.chassis :=
  rfl

@[simp] theorem moveBelay_chassis (s : State) : (State.moveBelay s).chassis = s.chassis :=
  by
  unfold State.moveBelay
  split
  · rfl
  · rw [logFault_chassis, countCol_chassis]; rfl

@[simp] theorem failColLane_chassis (s : State) (i : SlabId) (l : Fin 96) : (State.failColLane s i l).chassis = s.chassis :=
  by simp only [State.failColLane]; (repeat' split) <;> simp

@[simp] theorem rerouteOne_chassis (s : State) (t : TileId) (d : Dir) : (State.rerouteOne s t d).chassis = s.chassis :=
  by simp only [State.rerouteOne]; (repeat' split) <;> simp

@[simp] theorem execMeshRetry_chassis (t : TileId) (d : Dir) (returnError : Bool) (s : State) : Keeps s (execMeshRetry t d returnError s) :=
  by simp only [execMeshRetry]; (repeat' split) <;> simp

end Sys2Proof.Machine
end

