-- ==== Sys2Proof/Laws/KeepService.lean ====
section
/-! SUPPORT. The operations of Machine/Service.lean leave the chassis alone. -/

namespace Sys2Proof.Machine

open Sys2Proof

@[simp] theorem execSend_chassis (t : TileId) (q : SeqId) (w : IWord) (errs : List RowError) (s : State) : Keeps s (execSend t q w errs s) :=
  by simp [execSend]

@[simp] theorem execOvrd_chassis (t : TileId) (q : SeqId) (w : IWord) (s : State) : Keeps s (execOvrd t q w s) :=
  by simp [execOvrd]

@[simp] theorem execPush_chassis (t : TileId) (q : SeqId) (w : IWord) (s : State) : Keeps s (execPush t q w s) :=
  by simp [execPush]

@[simp] theorem execPop_chassis (t : TileId) (q : SeqId) (w : IWord) (s : State) : Keeps s (execPop t q w s) :=
  by simp [execPop]

@[simp] theorem execPeek_chassis (t : TileId) (q : SeqId) (w : IWord) (s : State) : Keeps s (execPeek t q w s) :=
  by simp [execPeek]

@[simp] theorem execDrop_chassis (t : TileId) (q : SeqId) (w : IWord) (s : State) : Keeps s (execDrop t q w s) :=
  by simp [execDrop]

@[simp] theorem execCairn_chassis (t : TileId) (q : SeqId) (w : IWord) (s : State) : Keeps s (execCairn t q w s) :=
  by simp [execCairn]

end Sys2Proof.Machine
end

