-- ==== Sys2Proof/Laws/KeepGates.lean ====
section
/-! SUPPORT. The operations of Machine/Gates.lean leave the chassis alone. -/

namespace Sys2Proof.Machine

open Sys2Proof

@[simp] theorem setGate_chassis (s : State) (n : GateNode) (w : Word) : (State.setGate s n w).chassis = s.chassis :=
  by unfold State.setGate; (repeat' split) <;> simp

@[simp] theorem gateBit_chassis (s : State) (by_ : SlabId) (n : GateNode) (k : Nat) (on : Bool) : (State.gateBit s by_ n k on).chassis = s.chassis :=
  by simp only [State.gateBit]; (repeat' split) <;> simp

@[simp] theorem gatePass_chassis (s : State) (by_ : SlabId) (ws : List (GateNode × Word)) (level : Nat) (engines on : Bool) : (State.gatePass s by_ ws level engines on).chassis = s.chassis :=
  by simp [State.gatePass]

@[simp] theorem gateClear_chassis (s : State) (ws : List (GateNode × Word)) : (State.gateClear s ws).chassis = s.chassis :=
  by simp [State.gateClear]

@[simp] theorem gateWrites_chassis (s : State) (by_ : SlabId) (ws : List (GateNode × Word)) : (State.gateWrites s by_ ws).chassis = s.chassis :=
  by simp [State.gateWrites]

@[simp] theorem execGateWordWrite_chassis (slab : SlabId) (writes : List (GateNode × Word)) (s : State) : Keeps s (execGateWordWrite slab writes s) :=
  by unfold execGateWordWrite; (repeat' split) <;> simp

end Sys2Proof.Machine
end

