-- ==== Sys2Proof/Laws/KeepCtrlNet.lean ====
section
/-! SUPPORT. The operations of Machine/CtrlNet.lean leave the chassis alone. -/

namespace Sys2Proof.Machine

open Sys2Proof

@[simp] theorem ctrlWrite_chassis (s : State) (t : TileId) (v : DWord) (r : CtrlReg) : (State.ctrlWrite s t v r).chassis = s.chassis :=
  by cases r <;> unfold State.ctrlWrite <;> (repeat' split) <;> simp

@[simp] theorem ctrlDiscard_chassis (s : State) (t : TileId) : (State.ctrlDiscard s t).chassis = s.chassis :=
  by simp [State.ctrlDiscard]

@[simp] theorem ctrlRespond_chassis (s : State) (t : TileId) (tag : Half) (v : DWord) : (State.ctrlRespond s t tag v).chassis = s.chassis :=
  by simp [State.ctrlRespond]

@[simp] theorem ctrlStore_chassis (s : State) (t : TileId) (target : StoreTarget) : (State.ctrlStore s t target).chassis = s.chassis :=
  by cases target <;> unfold State.ctrlStore <;> dsimp only <;> (repeat' split) <;> simp

@[simp] theorem ctrlArrive_chassis (s : State) (i : SlabId) (tag : Half) (p : CtrlPacket) : (State.ctrlArrive s i tag p).chassis = s.chassis :=
  by cases p <;> simp [State.ctrlArrive]

@[simp] theorem ctrlHold_chassis (s : State) (i : SlabId) (tag : Half) (p : CtrlPacket) : (State.ctrlHold s i tag p).chassis = s.chassis :=
  by simp [State.ctrlHold]

@[simp] theorem request_chassis (s : State) (t : TileId) (tag : Half) (p : CtrlPacket) (chk : LinkCheck) : (State.request s t tag p chk).chassis = s.chassis :=
  by
  unfold State.request
  dsimp only
  (repeat' split) <;> simp

@[simp] theorem execCtrlRegisterWrite_chassis (t : TileId) (reg : CtrlReg) (value : DWord) (tag : Heard Half) (s : State) : Keeps s (execCtrlRegisterWrite t reg value tag s) :=
  by simp only [execCtrlRegisterWrite]; (repeat' split) <;> simp

@[simp] theorem execCtrlRegisterRead_chassis (t : TileId) (reg : CtrlReg) (tag : Half) (chk : LinkCheck) (s : State) : Keeps s (execCtrlRegisterRead t reg tag chk s) :=
  by simp only [execCtrlRegisterRead]; (repeat' split) <;> simp

@[simp] theorem execCtrlStoreWrite_chassis (t : TileId) (target : StoreTarget) (tag : Heard Half) (s : State) : Keeps s (execCtrlStoreWrite t target tag s) :=
  by simp only [execCtrlStoreWrite]; (repeat' split) <;> simp

@[simp] theorem execCtrlReadResponse_chassis (slab : SlabId) (tag : Half) (chk : LinkCheck) (s : State) : Keeps s (execCtrlReadResponse slab tag chk s) :=
  by simp only [execCtrlReadResponse]; (repeat' split) <;> simp

@[simp] theorem execCtrlRequestTimeout_chassis (slab : SlabId) (tag : Half) (s : State) : Keeps s (execCtrlRequestTimeout slab tag s) :=
  by simp only [execCtrlRequestTimeout]; (repeat' split) <;> simp

@[simp] theorem execCtrlStatusReport_chassis (slab : SlabId) (src : Half) (payload : Heard (List DWord)) (s : State) : Keeps s (execCtrlStatusReport slab src payload s) :=
  by
  unfold execCtrlStatusReport
  dsimp only
  (repeat' split) <;> simp

end Sys2Proof.Machine
end

