-- ==== Sys2Proof/Laws/KeepMatrix.lean ====
section
/-! SUPPORT. The operations of Machine/Matrix.lean leave the chassis alone. -/

namespace Sys2Proof.Machine

open Sys2Proof

@[simp] theorem execMdesc_chassis (t : TileId) (q : SeqId) (w : IWord) (s : State) : Keeps s (execMdesc t q w s) :=
  by simp [execMdesc]

@[simp] theorem execMma_chassis (t : TileId) (q : SeqId) (w : IWord) (s : State) : Keeps s (execMma t q w s) :=
  by simp [execMma]

@[simp] theorem execMload_chassis (t : TileId) (q : SeqId) (w : IWord) (s : State) : Keeps s (execMload t q w s) :=
  by simp [execMload]

@[simp] theorem execMstore_chassis (t : TileId) (q : SeqId) (w : IWord) (s : State) : Keeps s (execMstore t q w s) :=
  by simp [execMstore]

@[simp] theorem execMatrixBegin_chassis (t : TileId) (e : EngineErrors) (s : State) : Keeps s (execMatrixBegin t e s) :=
  by simp only [execMatrixBegin]; (repeat' split) <;> simp

@[simp] theorem execMatrixDrain_chassis (t : TileId) (s : State) : Keeps s (execMatrixDrain t s) :=
  by simp [execMatrixDrain]

end Sys2Proof.Machine
end

