-- ==== Sys2Proof/Laws/KeepVector.lean ====
section
/-! SUPPORT. The operations of Machine/Vector.lean leave the chassis alone. -/

namespace Sys2Proof.Machine

open Sys2Proof

@[simp] theorem execVacc_chassis (t : TileId) (q : SeqId) (w : IWord) (s : State) : Keeps s (execVacc t q w s) :=
  by simp [execVacc]

@[simp] theorem execVadd_chassis (t : TileId) (q : SeqId) (w : IWord) (s : State) : Keeps s (execVadd t q w s) :=
  by simp [execVadd]

@[simp] theorem execVsub_chassis (t : TileId) (q : SeqId) (w : IWord) (s : State) : Keeps s (execVsub t q w s) :=
  by simp [execVsub]

@[simp] theorem execVmul_chassis (t : TileId) (q : SeqId) (w : IWord) (s : State) : Keeps s (execVmul t q w s) :=
  by simp [execVmul]

@[simp] theorem execVfma_chassis (t : TileId) (q : SeqId) (w : IWord) (s : State) : Keeps s (execVfma t q w s) :=
  by simp [execVfma]

@[simp] theorem execVmax_chassis (t : TileId) (q : SeqId) (w : IWord) (s : State) : Keeps s (execVmax t q w s) :=
  by simp [execVmax]

@[simp] theorem execVmin_chassis (t : TileId) (q : SeqId) (w : IWord) (s : State) : Keeps s (execVmin t q w s) :=
  by simp [execVmin]

@[simp] theorem execVcvt_chassis (t : TileId) (q : SeqId) (w : IWord) (s : State) : Keeps s (execVcvt t q w s) :=
  by simp [execVcvt]

@[simp] theorem execVexp_chassis (t : TileId) (q : SeqId) (w : IWord) (s : State) : Keeps s (execVexp t q w s) :=
  by simp [execVexp]

@[simp] theorem execVrcp_chassis (t : TileId) (q : SeqId) (w : IWord) (s : State) : Keeps s (execVrcp t q w s) :=
  by simp [execVrcp]

@[simp] theorem execVrsq_chassis (t : TileId) (q : SeqId) (w : IWord) (s : State) : Keeps s (execVrsq t q w s) :=
  by simp [execVrsq]

@[simp] theorem execVrsum_chassis (t : TileId) (q : SeqId) (w : IWord) (s : State) : Keeps s (execVrsum t q w s) :=
  by simp [execVrsum]

@[simp] theorem execVrmax_chassis (t : TileId) (q : SeqId) (w : IWord) (s : State) : Keeps s (execVrmax t q w s) :=
  by simp [execVrmax]

@[simp] theorem execVrmin_chassis (t : TileId) (q : SeqId) (w : IWord) (s : State) : Keeps s (execVrmin t q w s) :=
  by simp [execVrmin]

@[simp] theorem execVperm_chassis (t : TileId) (q : SeqId) (w : IWord) (s : State) : Keeps s (execVperm t q w s) :=
  by simp [execVperm]

@[simp] theorem execViota_chassis (t : TileId) (q : SeqId) (w : IWord) (s : State) : Keeps s (execViota t q w s) :=
  by simp [execViota]

@[simp] theorem execViadd_chassis (t : TileId) (q : SeqId) (w : IWord) (s : State) : Keeps s (execViadd t q w s) :=
  by simp [execViadd]

@[simp] theorem execVld_chassis (t : TileId) (q : SeqId) (w : IWord) (s : State) : Keeps s (execVld t q w s) :=
  by simp [execVld]

@[simp] theorem execVst_chassis (t : TileId) (q : SeqId) (w : IWord) (s : State) : Keeps s (execVst t q w s) :=
  by simp [execVst]

@[simp] theorem execVgetf_chassis (t : TileId) (q : SeqId) (w : IWord) (s : State) : Keeps s (execVgetf t q w s) :=
  by simp [execVgetf]

@[simp] theorem execVclrf_chassis (t : TileId) (q : SeqId) (w : IWord) (s : State) : Keeps s (execVclrf t q w s) :=
  by simp [execVclrf]

@[simp] theorem execVectorBegin_chassis (t : TileId) (e : EngineErrors) (s : State) : Keeps s (execVectorBegin t e s) :=
  by simp only [execVectorBegin]; (repeat' split) <;> simp

end Sys2Proof.Machine
end

