-- ==== Sys2Proof/Laws/KeepShelf.lean ====
section
/-! SUPPORT. The operations of Machine/Shelf.lean leave the chassis alone. -/

namespace Sys2Proof.Machine

open Sys2Proof

@[simp] theorem writeRange_chassis (s : State) (i : SlabId) (a : Nat) (bs : List Byte) : (State.writeRange s i a bs).chassis = s.chassis :=
  by unfold State.writeRange; refine foldl_chassis _ (fun s p => ?_) _ _; (repeat' split) <;> simp

@[simp] theorem invalidate_chassis (s : State) (i : SlabId) (v : Nat) : (State.invalidate s i v).chassis = s.chassis :=
  by simp [State.invalidate]

@[simp] theorem setPte_chassis (s : State) (i : SlabId) (k : SlabId) (v : Nat) (e : DWord) : (State.setPte s i k v e).chassis = s.chassis :=
  by simp [State.setPte]

@[simp] theorem dropResidence_chassis (s : State) (i : SlabId) (v : Nat) : (State.dropResidence s i v).chassis = s.chassis :=
  by unfold State.dropResidence; (repeat' split) <;> simp

@[simp] theorem leaveResidence_chassis (s : State) (k : SlabId) (key : Nat × Nat × Nat) : (State.leaveResidence s k key).chassis = s.chassis :=
  by unfold State.leaveResidence; (repeat' split) <;> simp

@[simp] theorem leaveAll_chassis (s : State) (k : SlabId) (c : (Nat × Nat × Nat) × Nat × DWord → Bool) : (State.leaveAll s k c).chassis = s.chassis :=
  by simp [State.leaveAll]

@[simp] theorem leavePage_chassis (s : State) (i : SlabId) (v : Nat) : (State.leavePage s i v).chassis = s.chassis :=
  by simp [State.leavePage]

@[simp] theorem allocLines_chassis (s : State) (i : SlabId) (a n : Nat) : (State.allocLines s i a n).chassis = s.chassis :=
  by unfold State.allocLines; refine foldl_chassis _ (fun s p => ?_) _ _; (repeat' split) <;> simp

@[simp] theorem walkLines_chassis (s : State) (k : SlabId) (v : Nat) : (State.walkLines s k v).chassis = s.chassis :=
  by simp only [State.walkLines]; (repeat' split) <;> simp

@[simp] theorem addWork_chassis (s : State) (i : SlabId) (a n : Nat) (cls : ShareClass) (unit : Bool) (owner : Option (Nat × Nat)) : (State.addWork s i a n cls unit owner).chassis = s.chassis :=
  by unfold State.addWork; refine foldl_chassis _ (fun s p => ?_) _ _; (repeat' split) <;> simp

@[simp] theorem unitWrite_chassis (s : State) (i : SlabId) (a : Nat) (bs : List Byte) : (State.unitWrite s i a bs).chassis = s.chassis :=
  by simp [State.unitWrite]

@[simp] theorem unitRead_chassis (s : State) (i : SlabId) (a n : Nat) : (State.unitRead s i a n).chassis = s.chassis :=
  by simp [State.unitRead]

@[simp] theorem doneWork_chassis (s : State) (i : SlabId) (owner : Nat × Nat) : (State.doneWork s i owner).chassis = s.chassis :=
  by simp [State.doneWork]

@[simp] theorem execTranslationWalk_chassis (t : TileId) (vpn : BitVec 27) (s : State) : Keeps s (execTranslationWalk t vpn s) :=
  by simp only [execTranslationWalk]; (repeat' split) <;> simp

@[simp] theorem atomicDone_chassis (s : State) (a : Atomic) : (State.atomicDone s a).chassis = s.chassis :=
  by simp only [State.atomicDone]; (repeat' split) <;> simp

@[simp] theorem execAtomicApply_chassis (slab : SlabId) (stack : Fin 24) (s₀ : State) : Keeps s₀ (execAtomicApply slab stack s₀) :=
  by simp only [execAtomicApply]; (repeat' split) <;> simp

@[simp] theorem execParityDelta_chassis (slab : SlabId) (stack : Fin 24) (s : State) : Keeps s (execParityDelta slab stack s) :=
  by simp only [execParityDelta]; (repeat' split) <;> simp

@[simp] theorem sectorLost_chassis (s : State) (i : SlabId) (stack frame k : Nat) : (State.sectorLost s i stack frame k).chassis = s.chassis :=
  by simp [State.sectorLost]

@[simp] theorem sectorError_chassis (s : State) (slab : SlabId) (vpn sector : Nat) : (State.sectorError s slab vpn sector).chassis = s.chassis :=
  by simp only [State.sectorError]; (repeat' split) <;> simp

@[simp] theorem execShelfSectorUncorrectable_chassis (slab : SlabId) (vpn : BitVec 27) (sector : Fin 65536) (s : State) : Keeps s (execShelfSectorUncorrectable slab vpn sector s) :=
  by simp only [execShelfSectorUncorrectable]; (repeat' split) <;> simp

end Sys2Proof.Machine
end

