-- ==== Sys2Proof/Laws/KeepUnits.lean ====
section
/-! SUPPORT. The operations of Machine/Units.lean leave the chassis alone. -/

namespace Sys2Proof.Machine

open Sys2Proof

@[simp] theorem passOwnership_chassis (s : State) (i : SlabId) (v u w : Nat) : (State.passOwnership s i v u w).chassis = s.chassis :=
  by unfold State.passOwnership; (repeat' split) <;> simp

@[simp] theorem readPlanes_chassis (s : State) (i : SlabId) (o : ObjectEntry) (b : Nat) (ks : List Nat) : (State.readPlanes s i o b ks).chassis = s.chassis :=
  by simp [State.readPlanes]

end Sys2Proof.Machine
end

