-- ==== Sys2Proof/Laws/KeepLinks.lean ====
section
/-! SUPPORT. The operations of Machine/Links.lean leave the chassis alone. -/

namespace Sys2Proof.Machine

open Sys2Proof

@[simp] theorem linkEvent_chassis (s : State) (i : SlabId) (p : Nat) : (State.linkEvent s i p).chassis = s.chassis :=
  by simp [State.linkEvent]

@[simp] theorem linkFail_chassis (s : State) (i : SlabId) (p : Nat) : (State.linkFail s i p).chassis = s.chassis :=
  by simp only [State.linkFail]; (repeat' split) <;> simp

@[simp] theorem checkResends_chassis (s : State) (i : SlabId) (p : Nat) : (State.checkResends s i p).chassis = s.chassis :=
  by unfold State.checkResends; (repeat' split) <;> simp

@[simp] theorem linkIn_chassis (s : State) (i : SlabId) (p : Nat) (f : ZFrame) (type : Nat) : (State.linkIn s i p f type).1.chassis = s.chassis :=
  by simp only [State.linkIn]; (repeat' split) <;> simp

@[simp] theorem linkInOwn_chassis (s : State) (i : SlabId) (p : Nat) (f : ZFrame) (type : Nat) : (State.linkInOwn s i p f type).1.chassis = s.chassis :=
  by unfold State.linkInOwn; (repeat' split) <;> simp

@[simp] theorem ctrlIn_chassis (s : State) (i : SlabId) (p : Nat) (f : ZFrame) (op : Nat) : (State.ctrlIn s i p f op).1.chassis = s.chassis :=
  by unfold State.ctrlIn; (repeat' split) <;> simp

@[simp] theorem execZetraIdleFrame_chassis (slab : SlabId) (port : Fin 16) (f : ZFrame) (s : State) : Keeps s (execZetraIdleFrame slab port f s) :=
  by simp [execZetraIdleFrame]

@[simp] theorem execZetraTransitFrame_chassis (slab : SlabId) (port : Fin 16) (f : ZFrame) (s : State) : Keeps s (execZetraTransitFrame slab port f s) :=
  by simp only [execZetraTransitFrame]; (repeat' split) <;> simp

@[simp] theorem execRetryTimeout_chassis (slab : SlabId) (port : Fin 16) (s : State) : Keeps s (execRetryTimeout slab port s) :=
  by simp only [execRetryTimeout]; (repeat' split) <;> simp

@[simp] theorem execLinkSilenceTimeout_chassis (slab : SlabId) (port : Fin 16) (s : State) : Keeps s (execLinkSilenceTimeout slab port s) :=
  by simp only [execLinkSilenceTimeout]; (repeat' split) <;> simp

@[simp] theorem execPortTrainingDone_chassis (slab : SlabId) (port : Fin 16) (s : State) : Keeps s (execPortTrainingDone slab port s) :=
  by simp only [execPortTrainingDone]; (repeat' split) <;> simp

@[simp] theorem execHello_chassis (slab : SlabId) (port : Fin 16) (f : ZFrame) (endpoint : Half) (peerPort : BitVec 4) (lanes : Byte) (s : State) : Keeps s (execHello slab port f endpoint peerPort lanes s) :=
  by simp only [execHello]; (repeat' split) <;> simp

@[simp] theorem execLaneMap_chassis (slab : SlabId) (port : Fin 16) (f : ZFrame) (lanes : BitVec 8) (s : State) : Keeps s (execLaneMap slab port f lanes s) :=
  by simp only [execLaneMap]; (repeat' split) <;> simp

@[simp] theorem laneFail_chassis (s : State) (i : SlabId) (p l : Nat) : (State.laneFail s i p l).chassis = s.chassis :=
  by simp only [State.laneFail]; (repeat' split) <;> simp

@[simp] theorem execZetraLaneFailure_chassis (slab : SlabId) (port : Fin 16) (lane : Fin 8) (s : State) : Keeps s (execZetraLaneFailure slab port lane s) :=
  by simp only [execZetraLaneFailure]; (repeat' split) <;> simp

@[simp] theorem execZetraLaneErrorWindow_chassis (slab : SlabId) (port : Fin 16) (marginal : BitVec 8) (s : State) : Keeps s (execZetraLaneErrorWindow slab port marginal s) :=
  by simp only [execZetraLaneErrorWindow]; (repeat' split) <;> simp

@[simp] theorem execCableSeat_chassis (slab : SlabId) (port : Fin 16) (s : State) : Keeps s (execCableSeat slab port s) :=
  by simp [execCableSeat]

@[simp] theorem execCableRemove_chassis (slab : SlabId) (port : Fin 16) (s : State) : Keeps s (execCableRemove slab port s) :=
  by simp [execCableRemove]

@[simp] theorem execColLaneFailure_chassis (lane : Fin 96) (s : State) : Keeps s (execColLaneFailure lane s) :=
  by unfold execColLaneFailure; (repeat' split) <;> simp

@[simp] theorem execColBelayPairFailure_chassis (pair : Fin 4) (s : State) : Keeps s (execColBelayPairFailure pair s) :=
  by unfold execColBelayPairFailure; (repeat' split) <;> simp

@[simp] theorem execColCrossingFailure_chassis (crossing : Fin 8) (s : State) : Keeps s (execColCrossingFailure crossing s) :=
  by unfold execColCrossingFailure; (repeat' split) <;> simp

end Sys2Proof.Machine
end

