-- ==== Sys2Proof/Laws/KeepWindows.lean ====
section
/-! SUPPORT. The operations of Machine/Windows.lean leave the chassis alone. -/

namespace Sys2Proof.Machine

open Sys2Proof

@[simp] theorem rejectFrame_chassis (s : State) (i : SlabId) (f : ZFrame) (c : NackCode) : (State.rejectFrame s i f c).chassis = s.chassis :=
  by simp [State.rejectFrame]

@[simp] theorem injectRows_chassis (s : State) (t : TileId) (g : RowTarget) (rows : List Row) (last : Bool) : (State.injectRows s t g rows last).chassis = s.chassis :=
  by unfold State.injectRows; (repeat' split) <;> simp

@[simp] theorem refuseWrite_chassis (s : State) (t : TileId) (a : Nat) : (State.refuseWrite s t a).chassis = s.chassis :=
  by unfold State.refuseWrite; (repeat' split) <;> simp

@[simp] theorem portalWrite_chassis (s : State) (t : TileId) (cls : ShareClass) (a : Nat) (bs : List Byte) : (State.portalWrite s t cls a bs).chassis = s.chassis :=
  by unfold State.portalWrite; (repeat' split) <;> simp

@[simp] theorem feedRows_chassis (s : State) (i : SlabId) (w off n : Nat) : (State.feedRows s i w off n).chassis = s.chassis :=
  by unfold State.feedRows; (repeat' split) <;> simp

@[simp] theorem deliverRows_chassis (s : State) (i : SlabId) (d off : Nat) (rows : List Row) : (State.deliverRows s i d off rows).chassis = s.chassis :=
  by unfold State.deliverRows; (repeat' split) <;> simp

@[simp] theorem windowWrite_chassis (s : State) (i : SlabId) (p w off : Nat) (bs : List Byte) : (State.windowWrite s i p w off bs).chassis = s.chassis :=
  by simp only [State.windowWrite]; (repeat' split) <;> simp

@[simp] theorem execZetraWriteFrame_chassis (slab : SlabId) (port : Fin 16) (f : ZFrame) (s : State) : Keeps s (execZetraWriteFrame slab port f s) :=
  by simp only [execZetraWriteFrame]; (repeat' split) <;> simp

end Sys2Proof.Machine
end

