-- ==== Sys2Proof/Laws/KeepReduce.lean ====
section
/-! SUPPORT. The operations of Machine/Reduce.lean leave the chassis alone. -/

namespace Sys2Proof.Machine

open Sys2Proof

@[simp] theorem openBucket_chassis (s : State) (i : SlabId) (e c b : Nat) (ep : Half) : (State.openBucket s i e c b ep).chassis = s.chassis :=
  by unfold State.openBucket; (repeat' split) <;> simp

@[simp] theorem giveLanding_chassis (s : State) (i : SlabId) (l : Landing) : (State.giveLanding s i l).chassis = s.chassis :=
  by unfold State.giveLanding; (repeat' split) <;> simp

@[simp] theorem landBucket_chassis (s : State) (i : SlabId) (e : Nat) (co : Collective) (x : Bucket) : (State.landBucket s i e co x).chassis = s.chassis :=
  by unfold State.landBucket; (repeat' split) <;> simp

@[simp] theorem addBlock_chassis (s : State) (i : SlabId) (e : Nat) (co : Collective) (ep : Half) (c r b j : Nat) (data : List Byte) : (State.addBlock s i e co ep c r b j data).chassis = s.chassis :=
  by simp only [State.addBlock]; (repeat' split) <;> simp

@[simp] theorem noteRetry_chassis (s : State) (i : SlabId) (c b : Nat) : (State.noteRetry s i c b).chassis = s.chassis :=
  by unfold State.noteRetry; (repeat' split) <;> simp

@[simp] theorem askResend_chassis (s : State) (i : SlabId) (e : Nat) (co : Collective) (b : Nat) (ep : Half) (r : Nat) (js : List Nat) : (State.askResend s i e co b ep r js).chassis = s.chassis :=
  by simp only [State.askResend]; (repeat' split) <;> simp

@[simp] theorem sendBucketAck_chassis (s : State) (i : SlabId) (co : Collective) (b : Nat) (ep : Half) (r : Nat) : (State.sendBucketAck s i co b ep r).chassis = s.chassis :=
  by simp only [State.sendBucketAck]; (repeat' split) <;> simp

@[simp] theorem afterLast_chassis (s : State) (i : SlabId) (e : Nat) (co : Collective) (ep : Half) (c r b : Nat) : (State.afterLast s i e co ep c r b).chassis = s.chassis :=
  by simp only [State.afterLast]; (repeat' split) <;> simp

@[simp] theorem stageFrame_chassis (s : State) (i : SlabId) (f : ZFrame) (c : Nat) (co : Collective) (r e : Nat) : (State.stageFrame s i f c co r e).chassis = s.chassis :=
  by simp only [State.stageFrame]; (repeat' split) <;> simp

@[simp] theorem execZetraReduceFrame_chassis (slab : SlabId) (port : Fin 16) (f : ZFrame) (s : State) : Keeps s (execZetraReduceFrame slab port f s) :=
  by simp only [execZetraReduceFrame]; (repeat' split) <;> simp

@[simp] theorem execBucketLanded_chassis (slab : SlabId) (engine : Fin 16) (coll : Nat) (bucket : Half) (s : State) : Keeps s (execBucketLanded slab engine coll bucket s) :=
  by simp only [execBucketLanded]; (repeat' split) <;> simp

@[simp] theorem sendRetained_chassis (s : State) (i : SlabId) (co : Collective) (x : Retained) (ep : Half) : (State.sendRetained s i co x ep).chassis = s.chassis :=
  by simp [State.sendRetained]

@[simp] theorem contribute_chassis (s : State) (i : SlabId) (e c : Nat) (n : DWord) (b j : Nat) (last : Bool) (data : List Byte) : OptKeeps s (State.contribute s i e c n b j last data) :=
  by simp only [State.contribute]; (repeat' split) <;> simp

@[simp] theorem execNack_chassis (slab : SlabId) (port : Fin 16) (f : ZFrame) (code : NackCode) (epoch : Half) (rejected : BitVec 128) (s : State) : Keeps s (execNack slab port f code epoch rejected s) :=
  by simp only [execNack]; (repeat' split) <;> simp

@[simp] theorem execResendDelay_chassis (slab : SlabId) (engine : Fin 16) (s : State) : Keeps s (execResendDelay slab engine s) :=
  by
  unfold execResendDelay
  dsimp only
  split
  · simp
  · split
    · simp
    · rw [keeps_next]
      refine (foldl_chassis _ (fun s x => ?_) _ _).trans (by simp)
      split <;> simp

@[simp] theorem execResend_chassis (slab : SlabId) (port : Fin 16) (f : ZFrame) (window : Byte) (epoch bucket : Half) (missing : BitVec 128) (s : State) : Keeps s (execResend slab port f window epoch bucket missing s) :=
  by simp only [execResend]; (repeat' split) <;> simp

@[simp] theorem execBucketAck_chassis (slab : SlabId) (port : Fin 16) (f : ZFrame) (window : Byte) (epoch bucket : Half) (s : State) : Keeps s (execBucketAck slab port f window epoch bucket s) :=
  by simp only [execBucketAck]; (repeat' split) <;> simp

@[simp] theorem reland_chassis (s : State) (i : SlabId) (n : DWord) : (State.reland s i n).chassis = s.chassis :=
  by simp [State.reland]

@[simp] theorem execReduceSlotError_chassis (slab : SlabId) (engine : Fin 16) (s : State) : Keeps s (execReduceSlotError slab engine s) :=
  by unfold execReduceSlotError; (repeat' split) <;> (try simp) <;> (refine (foldl_chassis _ (fun s a => ?_) _ _).trans ?_ <;> (repeat' split) <;> simp)

@[simp] theorem sendProbe_chassis (s : State) (i : SlabId) (dest : Half) (awaited : Nat) : (State.sendProbe s i dest awaited).chassis = s.chassis :=
  by simp [State.sendProbe]

@[simp] theorem reportUnreachable_chassis (s : State) (i : SlabId) (e : Half) (awaited : Nat) : (State.reportUnreachable s i e awaited).chassis = s.chassis :=
  by simp [State.reportUnreachable]

@[simp] theorem execCollTimeout_chassis (slab : SlabId) (engine : Fin 16) (coll : Nat) (bucket : Half) (s : State) : Keeps s (execCollTimeout slab engine coll bucket s) :=
  by simp only [execCollTimeout]; (repeat' split) <;> simp

@[simp] theorem execProbe_chassis (slab : SlabId) (port : Fin 16) (f : ZFrame) (step : DWord) (awaited : Byte) (s : State) : Keeps s (execProbe slab port f step awaited s) :=
  by simp only [execProbe]; (repeat' split) <;> simp

@[simp] theorem execAlive_chassis (slab : SlabId) (port : Fin 16) (f : ZFrame) (step : DWord) (windowState : Byte) (slow : Half) (s : State) : Keeps s (execAlive slab port f step windowState slow s) :=
  by simp only [execAlive]; (repeat' split) <;> simp

@[simp] theorem execAdvisory_chassis (slab : SlabId) (port : Fin 16) (f : ZFrame) (step : DWord) (slow : Half) (s : State) : Keeps s (execAdvisory slab port f step slow s) :=
  by simp only [execAdvisory]; (repeat' split) <;> simp

end Sys2Proof.Machine
end

