-- ==== Sys2Proof/Laws/KeepMulticast.lean ====
section
/-! SUPPORT. The operations of Machine/Multicast.lean leave the chassis alone. -/

namespace Sys2Proof.Machine

open Sys2Proof

@[simp] theorem sendPacket_chassis (s : State) (i : SlabId) (g e : Nat) (payload : List Byte) : (State.sendPacket s i g e payload).chassis = s.chassis :=
  by unfold State.sendPacket; (repeat' split) <;> simp

@[simp] theorem sendPackets_chassis (s : State) (i : SlabId) (g e : Nat) (bs : List Byte) : (State.sendPackets s i g e bs).chassis = s.chassis :=
  by simp [State.sendPackets]

@[simp] theorem execMcastAck_chassis (slab : SlabId) (port : Fin 16) (f : ZFrame) (group : Byte) (source : Half) (seq : Word) (s : State) : Keeps s (execMcastAck slab port f group source seq s) :=
  by simp only [execMcastAck]; (repeat' split) <;> simp

@[simp] theorem execMcastRetry_chassis (slab : SlabId) (engine : Fin 16) (group : Byte) (seq : Word) (s : State) : Keeps s (execMcastRetry slab engine group seq s) :=
  by simp only [execMcastRetry]; (repeat' split) <;> simp

@[simp] theorem ringWrite_chassis (s : State) (i : SlabId) (p w off : Nat) (bs : List Byte) : (State.ringWrite s i p w off bs).chassis = s.chassis :=
  by simp only [State.ringWrite]; (repeat' split) <;> simp

@[simp] theorem ackPackets_chassis (s : State) (i : SlabId) (x : McastRx) : (State.ackPackets s i x).chassis = s.chassis :=
  by simp [State.ackPackets]

@[simp] theorem deliverPacket_chassis (s : State) (i : SlabId) (p : Nat) (x : McastRx) (seq : Word) (bs : List Byte) : (State.deliverPacket s i p x seq bs).chassis = s.chassis :=
  by unfold State.deliverPacket; (repeat' split) <;> simp

@[simp] theorem mcastFrame_chassis (s : State) (i : SlabId) (p : Nat) (f : ZFrame) : (State.mcastFrame s i p f).chassis = s.chassis :=
  by simp only [State.mcastFrame]; (repeat' split) <;> simp

@[simp] theorem execZetraMcastFrame_chassis (slab : SlabId) (port : Fin 16) (f : ZFrame) (s : State) : Keeps s (execZetraMcastFrame slab port f s) :=
  by simp only [execZetraMcastFrame]; (repeat' split) <;> simp

@[simp] theorem execMcastAckTimer_chassis (slab : SlabId) (source : Half) (group : Byte) (s : State) : Keeps s (execMcastAckTimer slab source group s) :=
  by unfold execMcastAckTimer; (repeat' split) <;> simp

@[simp] theorem execDetach_chassis (slab : SlabId) (port : Fin 16) (f : ZFrame) (group : Byte) (target : Half) (seq : Word) (s : State) : Keeps s (execDetach slab port f group target seq s) :=
  by simp only [execDetach]; (repeat' split) <;> simp

@[simp] theorem sendCatchup_chassis (s : State) (i : SlabId) (p : Nat) (f : ZFrame) : (State.sendCatchup s i p f).chassis = s.chassis :=
  by simp only [State.sendCatchup]; (repeat' split) <;> simp

@[simp] theorem execCatchupFrame_chassis (slab : SlabId) (port : Fin 16) (f : ZFrame) (s : State) : Keeps s (execCatchupFrame slab port f s) :=
  by simp only [execCatchupFrame]; (repeat' split) <;> simp

@[simp] theorem execCatchupAbandon_chassis (slab : SlabId) (group : Byte) (target : Half) (s : State) : Keeps s (execCatchupAbandon slab group target s) :=
  by simp only [execCatchupAbandon]; (repeat' split) <;> simp

end Sys2Proof.Machine
end

