-- ==== Sys2Proof/Laws/KeepLanding.lean ====
section
/-! SUPPORT. The operations of Machine/Landing.lean leave the chassis alone. -/

namespace Sys2Proof.Machine

open Sys2Proof

@[simp] theorem completeBlock_chassis (s : State) (i : SlabId) (k : SlabId) (u : Nat) (o : ObjectEntry) (b : Nat) : (State.completeBlock s i k u o b).chassis = s.chassis :=
  by simp [State.completeBlock]

@[simp] theorem applyGroup_chassis (s : State) (i : SlabId) (o : ObjectEntry) (b : Nat) (fresh : Nat) (g : Fin 128 × BitVec 512 × Byte) : (State.applyGroup s i o b fresh g).chassis = s.chassis :=
  by unfold State.applyGroup; (repeat' split) <;> simp

@[simp] theorem putSector1_chassis (s : State) (i : SlabId) (o : ObjectEntry) (b : Nat) (n : DWord) (r landed fresh : Nat) : (State.putSector1 s i o b n r landed fresh).chassis = s.chassis :=
  by simp [State.putSector1]

@[simp] theorem noteShort_chassis (s : State) (k : SlabId) (u : Nat) (o : ObjectEntry) (old new : Nat) : (State.noteShort s k u o old new).chassis = s.chassis :=
  by simp [State.noteShort]

@[simp] theorem landFrozen_chassis (s : State) (i k : SlabId) (u : Nat) (o : ObjectEntry) (l : Landing) (n : DWord) (r : Nat) : (State.landFrozen s i k u o l n r).chassis = s.chassis :=
  by unfold State.landFrozen; (repeat' split) <;> simp

@[simp] theorem landApply_chassis (s : State) (i k : SlabId) (u : Nat) (o : ObjectEntry) (l : Landing) (n : DWord) (r : Nat) : (State.landApply s i k u o l n r).chassis = s.chassis :=
  by simp only [State.landApply]; (repeat' split) <;> simp

@[simp] theorem setLandings_chassis (s : State) (k : SlabId) (u : Nat) (ls : List Landing) : (State.setLandings s k u ls).chassis = s.chassis :=
  by simp [State.setLandings]

@[simp] theorem headerError_chassis (s : State) (i : SlabId) (o : ObjectEntry) (b : Nat) : (State.headerError s i o b).chassis = s.chassis :=
  by simp only [State.headerError]; (repeat' split) <;> simp

@[simp] theorem execGradientLanding_chassis (slab : SlabId) (unit : Fin 24) (s : State) : Keeps s (execGradientLanding slab unit s) :=
  by simp only [execGradientLanding]; (repeat' split) <;> simp

@[simp] theorem execLandingWaitRelease_chassis (slab : SlabId) (unit : Fin 24) (s : State) : Keeps s (execLandingWaitRelease slab unit s) :=
  by simp only [execLandingWaitRelease]; (repeat' split) <;> simp

@[simp] theorem putFrozen_chassis (s : State) (i : SlabId) (o : ObjectEntry) (b : Nat) (frozen : Bool) : (State.putFrozen s i o b frozen).chassis = s.chassis :=
  by simp [State.putFrozen]

@[simp] theorem execFrozenChange_chassis (slab : SlabId) (object : Half) (block : Word) (s : State) : Keeps s (execFrozenChange slab object block s) :=
  by simp only [execFrozenChange]; (repeat' split) <;> simp

end Sys2Proof.Machine
end

