-- ==== Sys2Proof/Laws/KeepSummit.lean ====
section
/-! SUPPORT. The operations of Machine/Summit.lean leave the chassis alone. -/

namespace Sys2Proof.Machine

open Sys2Proof

@[simp] theorem forwardResult_chassis (s : State) (i : SlabId) (r : SummitResult) : (State.forwardResult s i r).chassis = s.chassis :=
  by unfold State.forwardResult; (repeat' split) <;> simp

@[simp] theorem summitAdvance_chassis (s : State) (i : SlabId) : (State.summitAdvance s i).chassis = s.chassis :=
  by unfold State.summitAdvance; (repeat' split) <;> simp

@[simp] theorem execSummitContributionSend_chassis (slab : SlabId) (s : State) : Keeps s (execSummitContributionSend slab s) :=
  by simp only [execSummitContributionSend]; (repeat' split) <;> simp

@[simp] theorem execSummitFrame_chassis (slab : SlabId) (port : Fin 16) (f : ZFrame) (s : State) : Keeps s (execSummitFrame slab port f s) :=
  by simp only [execSummitFrame]; (repeat' split) <;> simp

@[simp] theorem noteCommit_chassis (s : State) (i : SlabId) (n : DWord) : (State.noteCommit s i n).chassis = s.chassis :=
  by simp [State.noteCommit]

@[simp] theorem execSummitResult_chassis (slab : SlabId) (s : State) : Keeps s (execSummitResult slab s) :=
  by simp only [execSummitResult]; (repeat' split) <;> simp

@[simp] theorem execSummitTimeout_chassis (slab : SlabId) (s : State) : Keeps s (execSummitTimeout slab s) :=
  by
  unfold execSummitTimeout
  dsimp only
  split
  · simp
  · split <;> (split <;> first
      | (simp; done)
      | (rw [keeps_next, modSlab_chassis]; exact foldl_chassis _ (fun s x => by simp) _ _))

end Sys2Proof.Machine
end

