-- ==== Sys2Proof/Laws/KeepPass2.lean ====
section
/-! SUPPORT. The operations of Machine/Pass2.lean leave the chassis alone. -/

namespace Sys2Proof.Machine

open Sys2Proof

@[simp] theorem putCopy_chassis (s : State) (i : SlabId) (o c : ObjectEntry) (b : Nat) (ws : List Byte) : (State.putCopy s i o c b ws).chassis = s.chassis :=
  by
  have h (ps : List (Nat × Nat × Nat × Nat)) (acc : State × List Byte × List Byte) :
      (ps.foldl (fun (acc : State × List Byte × List Byte) p =>
        ((acc.1.unitWrite i p.1 (acc.2.1.take p.2.1)).unitWrite i p.2.2.1 (acc.2.2.take p.2.2.2), acc.2.1.drop p.2.1,
          acc.2.2.drop p.2.2.2)) acc).1.chassis = acc.1.chassis := by
    induction ps generalizing acc with
    | nil => rfl
    | cons p ps ih => rw [List.foldl_cons, ih]; simp
  exact h _ _

@[simp] theorem mismatch_chassis (s : State) (i k : SlabId) (u object block : Nat) (step : DWord) : (State.mismatch s i k u object block step).chassis = s.chassis :=
  by simp [State.mismatch]

@[simp] theorem checkCopy_chassis (s : State) (i : SlabId) (o c : ObjectEntry) (r : DiffRecord) : (State.checkCopy s i o c r).chassis = s.chassis :=
  by simp only [State.checkCopy]; (repeat' split) <;> simp

@[simp] theorem applyRecord_chassis (s : State) (i : SlabId) (o c : ObjectEntry) (r : DiffRecord) : (State.applyRecord s i o c r).chassis = s.chassis :=
  by simp only [State.applyRecord]; (repeat' split) <;> simp

@[simp] theorem nextSeq_chassis (s : State) (k : SlabId) (u dest : Nat) : (State.nextSeq s k u dest).2.chassis = s.chassis :=
  by simp [State.nextSeq]

@[simp] theorem toSink_chassis (s : State) (k : SlabId) (u : Nat) (x : BlockResult) (kind : Nat) : (State.toSink s k u x kind).chassis = s.chassis :=
  by simp only [State.toSink]; (repeat' split) <;> simp

@[simp] theorem emitRecord_chassis (s : State) (i k : SlabId) (u : Nat) (o : ObjectEntry) (x : BlockResult) (kinds : List Nat) : (State.emitRecord s i k u o x kinds).chassis = s.chassis :=
  by simp only [State.emitRecord]; (repeat' split) <;> simp

@[simp] theorem baseline_chassis (s : State) (k : SlabId) (u : Nat) : (State.baseline s k u).chassis = s.chassis :=
  by unfold State.baseline; (repeat' split) <;> simp

@[simp] theorem commitBlock_chassis (s : State) (i k : SlabId) (u : Nat) (o : ObjectEntry) (x : BlockResult) : (State.commitBlock s i k u o x).chassis = s.chassis :=
  by simp only [State.commitBlock]; (repeat' split) <;> simp

@[simp] theorem writeResult_chassis (s : State) (i : SlabId) (x : BlockResult) : (State.writeResult s i x).chassis = s.chassis :=
  by simp [State.writeResult]

@[simp] theorem execPass2Block_chassis (slab : SlabId) (unit : Fin 24) (s : State) : Keeps s (execPass2Block slab unit s) :=
  by simp only [execPass2Block]; (repeat' split) <;> simp

@[simp] theorem tear_chassis (s : State) (k : SlabId) (u f j : Nat) : (State.tear s k u f j).chassis = s.chassis :=
  by unfold State.tear; (repeat' split) <;> simp

@[simp] theorem completeTorn_chassis (s : State) (k : SlabId) (u : Nat) : (State.completeTorn s k u).chassis = s.chassis :=
  by simp only [State.completeTorn]; (repeat' split) <;> simp

@[simp] theorem completeAllTorn_chassis (s : State) (i : SlabId) : (State.completeAllTorn s i).chassis = s.chassis :=
  by simp [State.completeAllTorn]

@[simp] theorem execUpdateUnitError_chassis (slab : SlabId) (unit : Fin 24) (torn : Option (Nat × Nat)) (s : State) : Keeps s (execUpdateUnitError slab unit torn s) :=
  by unfold execUpdateUnitError; (repeat' split) <;> simp

@[simp] theorem resetBlock_chassis (s : State) (i k : SlabId) (w : Nat) (o : ObjectEntry) (b : Nat) (ws : List Byte) : (State.resetBlock s i k w o b ws).chassis = s.chassis :=
  by simp [State.resetBlock]

@[simp] theorem execLostBlockReset_chassis (slab : SlabId) (object : Half) (block : Word) (peerWeights : List Byte) (s : State) : Keeps s (execLostBlockReset slab object block peerWeights s) :=
  by simp only [execLostBlockReset]; (repeat' split) <;> simp

@[simp] theorem execDifferenceRecord_chassis (slab : SlabId) (r : DiffRecord) (s : State) : Keeps s (execDifferenceRecord slab r s) :=
  by simp only [execDifferenceRecord]; (repeat' split) <;> simp

@[simp] theorem putPlanes_chassis (s : State) (i : SlabId) (o : ObjectEntry) (b : Nat) (bs : List Byte) (ps : List Nat) : (State.putPlanes s i o b bs ps).chassis = s.chassis :=
  by
  induction ps generalizing s bs with
  | nil => rfl
  | cons p ps ih => unfold State.putPlanes; rw [ih]; simp

@[simp] theorem execRepairRecord_chassis (slab : SlabId) (r : DiffRecord) (s : State) : Keeps s (execRepairRecord slab r s) :=
  by
  unfold execRepairRecord
  dsimp only
  (repeat' split) <;> simp

end Sys2Proof.Machine
end

