-- ==== Sys2Proof/Laws/KeepStacks.lean ====
section
/-! SUPPORT. The operations of Machine/Stacks.lean leave the chassis alone. -/

namespace Sys2Proof.Machine

open Sys2Proof

@[simp] theorem setStack_chassis (s : State) (i : SlabId) (k : Nat) (st : StackState) : (State.setStack s i k st).chassis = s.chassis :=
  by simp [State.setStack]

@[simp] theorem noteLostPages_chassis (s : State) (i : SlabId) : (State.noteLostPages s i).chassis = s.chassis :=
  by simp only [State.noteLostPages]; (repeat' split) <;> simp

@[simp] theorem stackEntry_chassis (s : State) (i : SlabId) (k : Nat) (cls : Byte) : (State.stackEntry s i k cls).chassis = s.chassis :=
  by simp [State.stackEntry]

@[simp] theorem execStackFailure_chassis (slab : SlabId) (stack : Fin 24) (s : State) : Keeps s (execStackFailure slab stack s) :=
  by simp only [execStackFailure]; (repeat' split) <;> simp

@[simp] theorem rehome_chassis (s : State) (i : SlabId) (v : Nat) (e : DWord) : (State.rehome s i v e).chassis = s.chassis :=
  by simp only [State.rehome]; (repeat' split) <;> simp

@[simp] theorem execStackPark_chassis (slab : SlabId) (stack : Fin 24) (s : State) : Keeps s (execStackPark slab stack s) :=
  by simp only [execStackPark]; (repeat' split) <;> simp

@[simp] theorem moveRebuilt_chassis (s : State) (i : SlabId) (v : Nat) (e : DWord) (cs : Cells) (tgt : Nat × Nat × Bool) : (State.moveRebuilt s i v e cs tgt).chassis = s.chassis :=
  by simp [State.moveRebuilt]

@[simp] theorem resetPage_chassis (s : State) (i : SlabId) (v : Nat) : (State.resetPage s i v).chassis = s.chassis :=
  by unfold State.resetPage; (repeat' split) <;> (try simp) <;> (refine (foldl_chassis _ (fun s a => ?_) _ _).trans ?_ <;> (repeat' split) <;> simp)

@[simp] theorem countRebuild_chassis (s : State) (i : SlabId) (st : Nat) (readable : Bool) : (State.countRebuild s i st readable).chassis = s.chassis :=
  by simp [State.countRebuild]

@[simp] theorem execPageRebuild_chassis (slab : SlabId) (vpn : BitVec 27) (s : State) : Keeps s (execPageRebuild slab vpn s) :=
  by simp only [execPageRebuild]; (repeat' split) <;> simp

@[simp] theorem execShelfControllerLost_chassis (slab : SlabId) (stack : Fin 24) (s : State) : Keeps s (execShelfControllerLost slab stack s) :=
  by simp only [execShelfControllerLost]; (repeat' split) <;> simp

end Sys2Proof.Machine
end

