-- ==== Sys2Proof/Laws/KeepStreams.lean ====
section
/-! SUPPORT. The operations of Machine/Streams.lean leave the chassis alone. -/

namespace Sys2Proof.Machine

open Sys2Proof

@[simp] theorem fetchWork_chassis (s : State) (i : SlabId) (d : Nat) (p : Pass) : (State.fetchWork s i d p).chassis = s.chassis :=
  by simp [State.fetchWork]

@[simp] theorem beginFetch_chassis (s : State) (i : SlabId) (d : Nat) (p : Pass) : (State.beginFetch s i d p).chassis = s.chassis :=
  by unfold State.beginFetch; (repeat' split) <;> simp

@[simp] theorem execStreamFetchStart_chassis (slab : SlabId) (d : Fin 16384) (s : State) : Keeps s (execStreamFetchStart slab d s) :=
  by simp only [execStreamFetchStart]; (repeat' split) <;> simp

@[simp] theorem execCommitWaitRelease_chassis (slab : SlabId) (d : Fin 16384) (s : State) : Keeps s (execCommitWaitRelease slab d s) :=
  by simp only [execCommitWaitRelease]; (repeat' split) <;> simp

@[simp] theorem endFetch_chassis (s : State) (i : SlabId) (d : Nat) : (State.endFetch s i d).chassis = s.chassis :=
  by simp only [State.endFetch]; (repeat' split) <;> simp

@[simp] theorem execStreamFetchEnd_chassis (slab : SlabId) (d : Fin 16384) (s : State) : Keeps s (execStreamFetchEnd slab d s) :=
  by simp only [execStreamFetchEnd]; (repeat' split) <;> simp

@[simp] theorem useXlate_chassis (s : State) (t : TileId) (a n : Nat) : (State.useXlate s t a n).chassis = s.chassis :=
  by simp [State.useXlate]

@[simp] theorem countDegraded_chassis (s : State) (i : SlabId) (a n : Nat) : (State.countDegraded s i a n).chassis = s.chassis :=
  by unfold State.countDegraded; refine foldl_chassis _ (fun s p => ?_) _ _; (repeat' split) <;> simp

@[simp] theorem served_chassis (s : State) (l : TileId) (frame : Nat) : (State.served s l frame).chassis = s.chassis :=
  by simp [State.served]

@[simp] theorem readLent_chassis (s : State) (i : SlabId) (a n : Nat) : (State.readLent s i a n).chassis = s.chassis :=
  by unfold State.readLent; refine foldl_chassis _ (fun s p => ?_) _ _; (repeat' split) <;> simp

@[simp] theorem bufferPiece_chassis (s : State) (i : SlabId) (d : Nat) (f : Fetched) : (State.bufferPiece s i d f).chassis = s.chassis :=
  by simp [State.bufferPiece]

@[simp] theorem bufferPieces_chassis (s : State) (i : SlabId) (d k : Nat) (fs : List Fetched) (bytes faults : Nat) : (State.bufferPieces s i d k fs bytes faults).chassis = s.chassis :=
  by unfold State.bufferPieces; (repeat' split) <;> simp

@[simp] theorem waitBuffer_chassis (s : State) (i : SlabId) (d : Nat) : (State.waitBuffer s i d).chassis = s.chassis :=
  by simp [State.waitBuffer]

@[simp] theorem dropRead_chassis (s : State) (i : SlabId) (d bytes : Nat) : (State.dropRead s i d bytes).chassis = s.chassis :=
  by simp [State.dropRead]

@[simp] theorem askLender_chassis (s : State) (t : TileId) (p : Pass) (b : BufferedRun) : (State.askLender s t p b).chassis = s.chassis :=
  by unfold State.askLender; (repeat' split) <;> simp

@[simp] theorem freePiece_chassis (s : State) (i : SlabId) (d : Nat) (b : BufferedRun) : (State.freePiece s i d b).chassis = s.chassis :=
  by simp [State.freePiece]

@[simp] theorem readPiece_chassis (s : State) (st : StreamState) (b : BufferedRun) : (State.readPiece s st b).1.chassis = s.chassis :=
  by simp only [State.readPiece]; split <;> simp

@[simp] theorem flushScales_chassis (s : State) (i : SlabId) (d : Nat) (p : Pass) (all : Bool) : (State.flushScales s i d p all).chassis = s.chassis :=
  by simp [State.flushScales]

@[simp] theorem deliverPiece_chassis (s : State) (i : SlabId) (d : Nat) (p : Pass) (b : BufferedRun) : (State.deliverPiece s i d p b).chassis = s.chassis :=
  by
  unfold State.deliverPiece
  dsimp only
  have h := readPiece_chassis s ((s.slab i).stream d) b
  (repeat' split) <;> simp_all

@[simp] theorem endPass_chassis (s : State) (i : SlabId) (d : Nat) : (State.endPass s i d).chassis = s.chassis :=
  by simp [State.endPass]

@[simp] theorem sendRun_chassis (s : State) (i : SlabId) (d : Nat) (p : Pass) : (State.sendRun s i d p).chassis = s.chassis :=
  by
  unfold State.sendRun
  dsimp only
  rw [modSlab_chassis, sendPackets_chassis]
  refine foldl_chassis _ (fun s b => ?_) _ _
  rw [freePiece_chassis]
  exact readPiece_chassis ..

@[simp] theorem deliverRuns_chassis (s : State) (i : SlabId) (d : Nat) (p : Pass) (n : Nat) : (State.deliverRuns s i d p n).chassis = s.chassis :=
  by
  induction n generalizing s with
  | zero => rfl
  | succ n ih => unfold State.deliverRuns; dsimp only; (repeat' split) <;> simp [ih]

@[simp] theorem deliverOn_chassis (s : State) (i : SlabId) (d : Nat) : (State.deliverOn s i d).chassis = s.chassis :=
  by unfold State.deliverOn; dsimp only; split <;> simp

@[simp] theorem deliver_chassis (s : State) (i : SlabId) : (State.deliver s i).chassis = s.chassis :=
  by simp [State.deliver]

@[simp] theorem execStreamDeliveryStart_chassis (slab : SlabId) (d : Delivery) (s : State) : Keeps s (execStreamDeliveryStart slab d s) :=
  by simp only [execStreamDeliveryStart, State.takeFree]; (repeat' split) <;> simp

@[simp] theorem execStreamReadReturn_chassis (slab : SlabId) (d : Fin 16384) (epoch : Half) (run : Nat) (s : State) : Keeps s (execStreamReadReturn slab d epoch run s) :=
  by simp only [execStreamReadReturn]; (repeat' split) <;> simp

@[simp] theorem gatherItem_chassis (s : State) (i : SlabId) (t : TileId) (p : Pass) (a : Nat) : (State.gatherItem s i t p a).chassis = s.chassis :=
  by simp only [State.gatherItem]; (repeat' split) <;> simp

@[simp] theorem execGatherRequest_chassis (slab : SlabId) (d : Fin 16384) (epoch : Half) (req : Nat) (s : State) : Keeps s (execGatherRequest slab d epoch req s) :=
  by
  unfold execGatherRequest
  dsimp only
  (repeat' split) <;> simp

@[simp] theorem execStreamDescriptorLoad_chassis (lender : TileId) (errs : List RowError) (s : State) : Keeps s (execStreamDescriptorLoad lender errs s) :=
  by simp only [execStreamDescriptorLoad]; (repeat' split) <;> simp

end Sys2Proof.Machine
end

