-- ==== Sys2Proof/Laws/KeepPortal.lean ====
section
/-! SUPPORT. The operations of Machine/Portal.lean leave the chassis alone. -/

namespace Sys2Proof.Machine

open Sys2Proof

@[simp] theorem dropPortal_chassis (s : State) (t : TileId) (f : Flit) : (State.dropPortal s t f).chassis = s.chassis :=
  by unfold State.dropPortal; (repeat' split) <;> simp

@[simp] theorem streamFaults_chassis (s : State) (i : SlabId) (d n : Nat) : (State.streamFaults s i d n).chassis = s.chassis :=
  by unfold State.streamFaults; (repeat' split) <;> simp

@[simp] theorem forwardFlit_chassis (s : State) (t : TileId) (f : Flit) (cls : ShareClass) (dst : TileId) (a : Nat) (bs : List Byte) : (State.forwardFlit s t f cls dst a bs).chassis = s.chassis :=
  by simp [State.forwardFlit]

@[simp] theorem streamWrite_chassis (s : State) (t : TileId) (f : Flit) (p : Pass) (k a : Nat) (bs : List Byte) : (State.streamWrite s t f p k a bs).chassis = s.chassis :=
  by simp [State.streamWrite]

@[simp] theorem noteParts_chassis (s : State) (t : TileId) (f : Flit) (n : Nat) : (State.noteParts s t f n).chassis = s.chassis :=
  by simp [State.noteParts]

@[simp] theorem acceptWrite_chassis (s : State) (t : TileId) (d : Nat) (p : Pass) (f : Flit) (k pos : Nat) (kept data : List Byte) : PairKeeps s (State.acceptWrite s t d p f k pos kept data) :=
  by simp only [State.acceptWrite, State.takeFree]; (repeat' split) <;> simp

@[simp] theorem landingFault_chassis (s : State) (i : SlabId) (d a : Nat) : (State.landingFault s i d a).chassis = s.chassis :=
  by simp only [State.landingFault]; (repeat' split) <;> simp

@[simp] theorem acceptLanding_chassis (s : State) (t : TileId) (d : Nat) (p : Pass) (o : ObjectEntry) (k pos : Nat) (kept data : List Byte) : PairKeeps s (State.acceptLanding s t d p o k pos kept data) :=
  by simp only [State.acceptLanding]; (repeat' split) <;> simp

@[simp] theorem acceptAtomic_chassis (s : State) (t : TileId) (d : Nat) (p : Pass) (f : Flit) (pos : Nat) (data : List Byte) : OptKeeps s (State.acceptAtomic s t d p f pos data) :=
  by
  unfold State.acceptAtomic
  dsimp only
  (repeat' split) <;> try trivial
  rw [optKeeps_some, noteParts_chassis, streamFaults_chassis, modTile_chassis]
  refine (foldl_chassis _ (fun s a => ?_) _ _).trans (by simp)
  (repeat' split) <;> simp

@[simp] theorem acceptCollect_chassis (s : State) (t : TileId) (d : Nat) (p : Pass) (k pos : Nat) (kept data : List Byte) : PairKeeps s (State.acceptCollect s t d p k pos kept data) :=
  by
  unfold State.acceptCollect
  dsimp only
  split
  · simp
  · rename_i h
    generalize e : State.contribute s _ _ _ _ _ _ _ _ = o
    cases o with
    | none => trivial
    | some t => exact OptKeeps.elim (contribute_chassis ..) e

@[simp] theorem acceptWindowOut_chassis (s : State) (t : TileId) (p : Pass) (k pos : Nat) (data : List Byte) : (State.acceptWindowOut s t p k pos data).chassis = s.chassis :=
  by simp [State.acceptWindowOut]

@[simp] theorem acceptData_chassis (s : State) (t : TileId) (f : Flit) (p : Pass) (k pos : Nat) (kept data : List Byte) : PairKeeps s (State.acceptData s t f p k pos kept data) :=
  by
  unfold State.acceptData
  dsimp only
  (repeat' split) <;> try simp
  generalize e : State.acceptAtomic s _ _ _ _ _ _ = o
  cases o with
  | none => trivial
  | some t => exact OptKeeps.elim (acceptAtomic_chassis ..) e

@[simp] theorem acceptFlit_chassis (s : State) (t : TileId) (f : Flit) (p : Pass) (k pass pos : Nat) : (State.acceptFlit s t f p k pass pos).chassis = s.chassis :=
  by
  unfold State.acceptFlit
  dsimp only
  split
  · rfl
  · rename_i t r e
    have k := PairKeeps.elim (acceptData_chassis ..) e
    split <;> simp [k]

@[simp] theorem takeForward_chassis (s : State) (t : TileId) (f : Flit) (w : Forward) : (State.takeForward s t f w).chassis = s.chassis :=
  by simp [State.takeForward]

@[simp] theorem execPortalFlitAccept_chassis (t : TileId) (s : State) : Keeps s (execPortalFlitAccept t s) :=
  by simp only [execPortalFlitAccept]; (repeat' split) <;> simp

end Sys2Proof.Machine
end

