-- ==== Sys2Proof/Laws/KeepRepair.lean ====
section
/-! SUPPORT. The operations of Machine/Repair.lean leave the chassis alone. -/

namespace Sys2Proof.Machine

open Sys2Proof

@[simp] theorem setHoles_chassis (s : State) (i : SlabId) : (State.setHoles s i).chassis = s.chassis :=
  by simp [State.setHoles]

@[simp] theorem loseField_chassis (s : State) (k : SlabId) (n why : Nat) : (State.loseField s k n why).chassis = s.chassis :=
  by unfold State.loseField; (repeat' split) <;> simp

@[simp] theorem reclaimTile_chassis (s : State) (k : SlabId) (x y : Nat) : (State.reclaimTile s k x y).chassis = s.chassis :=
  by simp only [State.reclaimTile]; (repeat' split) <;> simp

@[simp] theorem fillResidence_chassis (s : State) (i : SlabId) (k : SlabId) (lx ly frame v res : Nat) : (State.fillResidence s i k lx ly frame v res).chassis = s.chassis :=
  by unfold State.fillResidence; (repeat' split) <;> simp

@[simp] theorem fillLocal_chassis (s : State) (i : SlabId) (number : Nat) (only : Nat → Nat → Bool) : (State.fillLocal s i number only).chassis = s.chassis :=
  by
  unfold State.fillLocal
  refine foldl_chassis _ (fun s k => foldl_chassis _ (fun s o => foldl_chassis _ (fun s f => ?_) _ _) _ _) _ _
  (repeat' split) <;> simp

@[simp] theorem switchPlacement_chassis (s : State) (i : SlabId) (im : Image) (number : Nat) (all : Bool) (fresh : SlabId → Nat → Nat → Bool) : (State.switchPlacement s i im number all fresh).chassis = s.chassis :=
  by unfold State.switchPlacement; refine (foldl_chassis _ (fun s p => ?_) _ _).trans (by simp); (repeat' split) <;> simp

end Sys2Proof.Machine
end

