-- ==== Sys2Proof/Laws/KeepSteps.lean ====
section
/-! SUPPORT. The operations of Machine/Steps.lean leave the chassis alone. -/

namespace Sys2Proof.Machine

open Sys2Proof

@[simp] theorem countFeed_chassis (s : State) (i : SlabId) (q id : Nat) : (State.countFeed s i q id).chassis = s.chassis :=
  by simp [State.countFeed]

@[simp] theorem closeStep_chassis (s : State) (i : SlabId) (n : DWord) : (State.closeStep s i n).chassis = s.chassis :=
  by simp only [State.closeStep]; (repeat' split) <;> simp

@[simp] theorem closeSteps_chassis (s : State) (i : SlabId) (all : Bool) : (State.closeSteps s i all).chassis = s.chassis :=
  by simp [State.closeSteps]

@[simp] theorem resetDescriptors_chassis (s : State) (i : SlabId) : (State.resetDescriptors s i).chassis = s.chassis :=
  by unfold State.resetDescriptors; (repeat' split) <;> (try simp) <;> (refine (foldl_chassis _ (fun s a => ?_) _ _).trans ?_ <;> (repeat' split) <;> simp)

@[simp] theorem nextEpoch_chassis (s : State) (i : SlabId) : (State.nextEpoch s i).chassis = s.chassis :=
  by simp [State.nextEpoch]

@[simp] theorem openWindow_chassis (s : State) (i : SlabId) (n : DWord) (r : Nat) : (State.openWindow s i n r).chassis = s.chassis :=
  by simp [State.openWindow]

@[simp] theorem closeWindow_chassis (s : State) (i : SlabId) : (State.closeWindow s i).chassis = s.chassis :=
  by simp [State.closeWindow]

@[simp] theorem stepStreams_chassis (s : State) (i : SlabId) (n : DWord) : (State.stepStreams s i n).chassis = s.chassis :=
  by unfold State.stepStreams; refine foldl_chassis _ (fun s p => ?_) _ _; (repeat' split) <;> simp

@[simp] theorem openRecord_chassis (s : State) (i : SlabId) (n : DWord) (replay : Nat) (pitch : DWord) (placement : Nat) : (State.openRecord s i n replay pitch placement).chassis = s.chassis :=
  by unfold State.openRecord; (repeat' split) <;> simp

@[simp] theorem beginStep_chassis (s : State) (i : SlabId) : (State.beginStep s i).chassis = s.chassis :=
  by
  unfold State.beginStep
  dsimp only
  (repeat' split) <;> simp

@[simp] theorem endStep_chassis (s : State) (i : SlabId) : (State.endStep s i).chassis = s.chassis :=
  by simp [State.endStep]

@[simp] theorem releaseTiles_chassis (s : State) (i : SlabId) (tick : Bool) (f : Nat → Tile → Tile) : (State.releaseTiles s i tick f).chassis = s.chassis :=
  by unfold State.releaseTiles; (repeat' split) <;> simp

@[simp] theorem gatherSlips_chassis (s : State) (i : SlabId) : (State.gatherSlips s i).chassis = s.chassis :=
  by simp [State.gatherSlips]

@[simp] theorem retrainPort_chassis (s : State) (i : SlabId) (p : Nat) : (State.retrainPort s i p).chassis = s.chassis :=
  by simp [State.retrainPort]

@[simp] theorem retrainLanes_chassis (s : State) (i : SlabId) : (State.retrainLanes s i).chassis = s.chassis :=
  by simp [State.retrainLanes]

@[simp] theorem endPitch_chassis (s : State) (i : SlabId) : (State.endPitch s i).chassis = s.chassis :=
  by simp only [State.endPitch]; (repeat' split) <;> simp

@[simp] theorem feedWaited_chassis (s : State) (i : SlabId) : (State.feedWaited s i).chassis = s.chassis :=
  by simp [State.feedWaited]

@[simp] theorem countGate_chassis (s : State) (i : SlabId) : (State.countGate s i).chassis = s.chassis :=
  by simp [State.countGate]

@[simp] theorem beginPitch_chassis (s : State) (i : SlabId) (kind : PitchKind) : (State.beginPitch s i kind).chassis = s.chassis :=
  by simp only [State.beginPitch]; (repeat' split) <;> simp

end Sys2Proof.Machine
end

