-- ==== Sys2Proof/Laws/KeepCoordination.lean ====
section
/-! SUPPORT. The operations of Machine/Coordination.lean leave the chassis alone. -/

namespace Sys2Proof.Machine

open Sys2Proof

@[simp] theorem colArrive_chassis (s : State) (src : SlabId) (m : ColMsg) : (State.colArrive s src m).chassis = s.chassis :=
  by unfold State.colArrive; (repeat' split) <;> simp

@[simp] theorem execColCoordination_chassis (src : SlabId) (m : Heard ColMsg) (s : State) : Keeps s (execColCoordination src m s) :=
  by simp only [execColCoordination]; (repeat' split) <;> simp

@[simp] theorem releaseHeld_chassis (s : State) (i : SlabId) : (State.releaseHeld s i).chassis = s.chassis :=
  by
  unfold State.releaseHeld
  dsimp only
  split
  · rfl
  · refine (foldl_chassis _ (fun s a => ?_) _ _).trans (by simp)
    split <;> simp

end Sys2Proof.Machine
end

