-- ==== Sys2Proof/Laws/KeepPitch.lean ====
section
/-! SUPPORT. The operations of Machine/Pitch.lean leave the chassis alone. -/

namespace Sys2Proof.Machine

open Sys2Proof

@[simp] theorem execHeartbeatToggle_chassis (f : FieldId) (pr pc : Fin 17) (s : State) : Keeps s (execHeartbeatToggle f pr pc s) :=
  by simp only [execHeartbeatToggle]; (repeat' split) <;> simp

@[simp] theorem spareDeath_chassis (s : State) (k : SlabId) (n : Nat) (p : PhysTile) : (State.spareDeath s k n p).chassis = s.chassis :=
  by simp [State.spareDeath]

@[simp] theorem execHeartbeatDeath_chassis (f : FieldId) (pr pc : Fin 17) (s : State) : Keeps s (execHeartbeatDeath f pr pc s) :=
  by simp only [execHeartbeatDeath]; (repeat' split) <;> simp

@[simp] theorem execTickCheck_chassis (slab : SlabId) (s : State) : Keeps s (execTickCheck slab s) :=
  by simp only [execTickCheck]; (repeat' split) <;> simp

@[simp] theorem execPitchOverrun_chassis (slab : SlabId) (s : State) : Keeps s (execPitchOverrun slab s) :=
  by simp only [execPitchOverrun]; (repeat' split) <;> simp

@[simp] theorem nextPitch_chassis (s : State) (i : SlabId) : PairKeeps s (State.nextPitch s i) :=
  by
  unfold State.nextPitch
  dsimp only
  split
  · split <;> simp
  · simp

@[simp] theorem scrubFinds_chassis (s : State) (t : TileId) (es : List RowError) (again : Bool) : (State.scrubFinds s t es again).chassis = s.chassis :=
  by simp [State.scrubFinds]

@[simp] theorem scrubCycle_chassis (s : State) (k : SlabId) : (State.scrubCycle s k).chassis = s.chassis :=
  by simp [State.scrubCycle]

@[simp] theorem startScrub_chassis (s : State) (i : SlabId) (errs : List (TileId × RowError)) : (State.startScrub s i errs).chassis = s.chassis :=
  by simp [State.startScrub]

@[simp] theorem scrubOverlay_chassis (s : State) (t : TileId) (errs : List RowError) : (State.scrubOverlay s t errs).chassis = s.chassis :=
  by simp only [State.scrubOverlay]; (repeat' split) <;> simp

@[simp] theorem scrubOverlays_chassis (s : State) (i : SlabId) (errs : List (TileId × RowError)) : (State.scrubOverlays s i errs).chassis = s.chassis :=
  by simp [State.scrubOverlays]

@[simp] theorem dropFrames_chassis (s : State) (k : SlabId) : (State.dropFrames s k).chassis = s.chassis :=
  by unfold State.dropFrames; (repeat' split) <;> (try simp) <;> (refine (foldl_chassis _ (fun s a => ?_) _ _).trans ?_ <;> (repeat' split) <;> simp)

@[simp] theorem makeRoom_chassis (s : State) (k : SlabId) (dx q : Nat) : (State.makeRoom s k dx q).chassis = s.chassis :=
  by unfold State.makeRoom; (repeat' split) <;> simp

@[simp] theorem fillOne_chassis (s : State) (k : SlabId) (dx v : Nat) : (State.fillOne s k dx v).chassis = s.chassis :=
  by unfold State.fillOne; (repeat' split) <;> simp

@[simp] theorem fillNear_chassis (s : State) (k : SlabId) (n : Nat) : (State.fillNear s k n).chassis = s.chassis :=
  by
  induction n generalizing s with
  | zero => rfl
  | succ n ih => unfold State.fillNear; dsimp only; split <;> first | rfl | (rw [ih]; simp)

@[simp] theorem startMigration_chassis (s : State) (k : SlabId) (v st : Nat) : (State.startMigration s k v st).chassis = s.chassis :=
  by simp only [State.startMigration]; (repeat' split) <;> simp

@[simp] theorem execMigrationCopyDone_chassis (slab : SlabId) (vpn : BitVec 27) (s : State) : Keeps s (execMigrationCopyDone slab vpn s) :=
  by simp only [execMigrationCopyDone]; (repeat' split) <;> simp

@[simp] theorem chooseTask_chassis (s : State) (i : SlabId) : (State.chooseTask s i).chassis = s.chassis :=
  by simp [State.chooseTask]

@[simp] theorem migrate_chassis (s : State) (i : SlabId) : (State.migrate s i).chassis = s.chassis :=
  by simp [State.migrate]

@[simp] theorem setRefresh_chassis (s : State) (i : SlabId) : (State.setRefresh s i).chassis = s.chassis :=
  by simp [State.setRefresh]

@[simp] theorem maintain_chassis (s : State) (i : SlabId) : (State.maintain s i).chassis = s.chassis :=
  by
  unfold State.maintain
  dsimp only
  (repeat' split) <;> simp

@[simp] theorem openPitch_chassis (s : State) (i : SlabId) (kind : PitchKind) (scrub ovl : List (TileId × RowError)) : (State.openPitch s i kind scrub ovl).chassis = s.chassis :=
  by simp [State.openPitch]

@[simp] theorem endHold_chassis (s : State) (i : SlabId) (scrub ovl : List (TileId × RowError)) : (State.endHold s i scrub ovl).chassis = s.chassis :=
  by unfold State.endHold; (repeat' split) <;> simp

@[simp] theorem execTickRelease_chassis (slab : SlabId) (s : State) : Keeps s (execTickRelease slab s) :=
  by
  unfold execTickRelease
  split
  · simp
  · split
    · simp
    · rename_i t k e
      have h := PairKeeps.elim (nextPitch_chassis ..) e
      simp [h]

@[simp] theorem releaseOf_chassis (s : State) (i : SlabId) (kind : PitchKind) (scrub ovl : List (TileId × RowError)) : (State.releaseOf s i kind scrub ovl).chassis = s.chassis :=
  by
  unfold State.releaseOf
  split
  · split <;> simp
  · split
    · rfl
    · rename_i t k e
      have h := PairKeeps.elim (nextPitch_chassis ..) e
      split <;> simp [h]

@[simp] theorem execIdlePitch_chassis (slab : SlabId) (s : State) : Keeps s (execIdlePitch slab s) :=
  by simp [execIdlePitch]

@[simp] theorem execGatePitch_chassis (slab : SlabId) (s : State) : Keeps s (execGatePitch slab s) :=
  by simp [execGatePitch]

@[simp] theorem execMaintenancePitch_chassis (slab : SlabId) (scrub : ScrubErrors) (s : State) : Keeps s (execMaintenancePitch slab scrub s) :=
  by simp [execMaintenancePitch]

@[simp] theorem execStepGateMet_chassis (slab : SlabId) (s : State) : Keeps s (execStepGateMet slab s) :=
  by simp only [execStepGateMet]; (repeat' split) <;> simp

@[simp] theorem execPhaseBelayRelease_chassis (slab : SlabId) (s : State) : Keeps s (execPhaseBelayRelease slab s) :=
  by simp only [execPhaseBelayRelease]; (repeat' split) <;> simp

@[simp] theorem execRegionBelayRelease_chassis (slab : SlabId) (ch : Fin 64) (s : State) : Keeps s (execRegionBelayRelease slab ch s) :=
  by simp only [execRegionBelayRelease]; (repeat' split) <;> simp

end Sys2Proof.Machine
end

