-- ==== Sys2Proof/Laws/KeepWheel.lean ====
section
/-! SUPPORT. The operations of Machine/Wheel.lean leave the chassis alone. -/

namespace Sys2Proof.Machine

open Sys2Proof

@[simp] theorem turnWheels_chassis (s : State) (i : SlabId) : (State.turnWheels s i).chassis = s.chassis :=
  by simp [State.turnWheels]

end Sys2Proof.Machine
end

