-- ==== Sys2Proof/Laws/KeepClock.lean ====
section
/-! SUPPORT. The operations of Machine/Clock.lean leave the chassis alone. -/

namespace Sys2Proof.Machine

open Sys2Proof

@[simp] theorem settleShared_chassis (s : State) : (State.settleShared s).chassis = s.chassis :=
  by unfold State.settleShared; split <;> rfl

@[simp] theorem passTraffic_chassis (s : State) (i : SlabId) : (State.passTraffic s i).chassis = s.chassis :=
  by simp [State.passTraffic]

@[simp] theorem passSlab_chassis (s : State) (i : SlabId) : (State.passSlab s i).chassis = s.chassis :=
  by simp [State.passSlab]

@[simp] theorem passCycle_chassis (s : State) : (State.passCycle s).chassis = s.chassis :=
  by simp [State.passCycle]

end Sys2Proof.Machine
end

