-- ==== Sys2Proof/Laws/KeepHolds.lean ====
section
/-! SUPPORT. The operations of Machine/Holds.lean leave the chassis alone. -/

namespace Sys2Proof.Machine

open Sys2Proof

@[simp] theorem failStragglers_chassis (s : State) (i : SlabId) : (State.failStragglers s i).chassis = s.chassis :=
  by simp only [State.failStragglers]; (repeat' split) <;> simp

@[simp] theorem holdSlab_chassis (s : State) (k : SlabId) : (State.holdSlab s k).chassis = s.chassis :=
  (chassis_free _ _).trans (modSlab_chassis ..)

@[simp] theorem enterHold_chassis (s : State) (i : SlabId) (kind : PitchKind) (mid : Bool) : (State.enterHold s i kind mid).chassis = s.chassis :=
  by simp [State.enterHold]

@[simp] theorem execHoldEntry_chassis (slab : SlabId) (s : State) : Keeps s (execHoldEntry slab s) :=
  by simp only [execHoldEntry]; (repeat' split) <;> simp

@[simp] theorem requestPark_chassis (s : State) (i : SlabId) (u : Fin 24) : (State.requestPark s i u).chassis = s.chassis :=
  by simp [State.requestPark]

@[simp] theorem execHoldRequest_chassis (slab : SlabId) (code : HoldCode) (unit : Fin 24) (s : State) : Keeps s (execHoldRequest slab code unit s) :=
  by simp only [execHoldRequest]; (repeat' split) <;> simp

@[simp] theorem execRoutersEmpty_chassis (slab : SlabId) (s : State) : Keeps s (execRoutersEmpty slab s) :=
  by simp only [execRoutersEmpty]; (repeat' split) <;> simp

@[simp] theorem repairField_chassis (s : State) (k : SlabId) (n : Nat) (load : Bool) : (State.repairField s k n load).chassis = s.chassis :=
  by simp only [State.repairField, State.takeFree]; (repeat' split) <;> simp

@[simp] theorem repairFields_chassis (s : State) (i : SlabId) (load : Bool) : (State.repairFields s i load).chassis = s.chassis :=
  by unfold State.repairFields; (repeat' split) <;> simp

@[simp] theorem breakField_chassis (s : State) (k : SlabId) (n : Nat) : (State.breakField s k n).chassis = s.chassis :=
  by simp [State.breakField]

@[simp] theorem settleFields_chassis (s : State) (i : SlabId) (n : Nat) : (State.settleFields s i n).chassis = s.chassis :=
  by
  induction n generalizing s with
  | zero => rfl
  | succ n ih => unfold State.settleFields; split <;> first | rfl | (rw [ih]; simp)

@[simp] theorem losePowered_chassis (s : State) (i : SlabId) : (State.losePowered s i).chassis = s.chassis :=
  by unfold State.losePowered; refine foldl_chassis _ (fun s p => ?_) _ _; (repeat' split) <;> simp

@[simp] theorem reloadSequencers_chassis (s : State) (i : SlabId) : (State.reloadSequencers s i).chassis = s.chassis :=
  by unfold State.reloadSequencers; refine foldl_chassis _ (fun s p => ?_) _ _; (repeat' split) <;> simp

@[simp] theorem repairDevice_chassis (s : State) (i : SlabId) : (State.repairDevice s i).chassis = s.chassis :=
  by simp only [State.repairDevice]; (repeat' split) <;> simp

@[simp] theorem logCauses_chassis (s old : State) (i : SlabId) (causes : List Cause) (switched replays paused : Bool) : (State.logCauses s old i causes switched replays paused).chassis = s.chassis :=
  by simp [State.logCauses]

@[simp] theorem askHost_chassis (s : State) (i : SlabId) (step : DWord) : (State.askHost s i step).chassis = s.chassis :=
  by simp only [State.askHost]; (repeat' split) <;> simp

@[simp] theorem abandonStep_chassis (s : State) (i : SlabId) : (State.abandonStep s i).chassis = s.chassis :=
  by simp only [State.abandonStep]; (repeat' split) <;> simp

@[simp] theorem pauseForHost_chassis (s : State) (i : SlabId) : (State.pauseForHost s i).chassis = s.chassis :=
  by unfold State.pauseForHost; (repeat' split) <;> simp

@[simp] theorem reopenWindow_chassis (s : State) (i : SlabId) (n : DWord) (r : Nat) : (State.reopenWindow s i n r).chassis = s.chassis :=
  by unfold State.reopenWindow; (repeat' split) <;> simp

@[simp] theorem replayStep_chassis (s : State) (i : SlabId) (past : Bool) : (State.replayStep s i past).chassis = s.chassis :=
  by unfold State.replayStep; (repeat' split) <;> simp

@[simp] theorem recover_chassis (s : State) (i : SlabId) : (State.recover s i).chassis = s.chassis :=
  by simp [State.recover]

@[simp] theorem execHoldRecovery_chassis (slab : SlabId) (s : State) : Keeps s (execHoldRecovery slab s) :=
  by unfold execHoldRecovery; (repeat' split) <;> simp

end Sys2Proof.Machine
end

