-- ==== Sys2Proof/Laws/KeepFlashStore.lean ====
section
/-! SUPPORT. The operations of Machine/FlashStore.lean leave the chassis alone. -/

namespace Sys2Proof.Machine

open Sys2Proof

@[simp] theorem execFaultMapCommit_chassis (slab : SlabId) (s : State) : Keeps s (execFaultMapCommit slab s) :=
  by simp only [execFaultMapCommit]; (repeat' split) <;> simp

end Sys2Proof.Machine
end

