-- ==== Sys2Proof/Laws/KeepMailbox.lean ====
section
/-! SUPPORT. The operations of Machine/Mailbox.lean leave the chassis alone. -/

namespace Sys2Proof.Machine

open Sys2Proof

@[simp] theorem writeResponse_chassis (s : State) (fn : SlabId) (m : Fin 4) (r : Request) (status : Byte) (payload : List Byte) (out : Nat) : (State.writeResponse s fn m r status payload out).chassis = s.chassis :=
  by simp [State.writeResponse]

@[simp] theorem respond_chassis (s : State) (fn : SlabId) (m : Fin 4) (r : Request) (status : Byte) (payload : List Byte) : (State.respond s fn m r status payload).chassis = s.chassis :=
  by simp [State.respond]

@[simp] theorem accept_chassis (s : State) (fn : SlabId) (m : Fin 4) (r : Request) (status : Byte) (committed : Bool) (detail : List Byte) : (State.accept s fn m r status committed detail).chassis = s.chassis :=
  by simp [State.accept]

@[simp] theorem complete_chassis (s : State) (fn : SlabId) (tag : Half) (status : Byte) (detail : List Byte) : (State.complete s fn tag status detail).chassis = s.chassis :=
  by unfold State.complete; (repeat' split) <;> simp

@[simp] theorem completeAll_chassis (s : State) (fn : SlabId) (op : Nat) : (State.completeAll s fn op).chassis = s.chassis :=
  by simp [State.completeAll]

@[simp] theorem answer_chassis (s : State) (fn : SlabId) (m : Fin 4) (r : Request) (head bulk : List Byte) : (State.answer s fn m r head bulk).chassis = s.chassis :=
  by unfold State.answer; (repeat' split) <;> simp

theorem serve_keeps (s : State) (fn : SlabId) (m : Fin 4) (op : Nat) (pick : Request → Bool) (run : State → Request → State) (h : ∀ r, (run s r).chassis = s.chassis) : Keeps s (State.serve s fn m op pick run) :=
  by
  unfold State.serve
  dsimp only
  split
  · split <;> simp [h]
  · simp

end Sys2Proof.Machine
end

