-- ==== Sys2Proof/Laws/KeepObjects.lean ====
section
/-! SUPPORT. The operations of Machine/Objects.lean leave the chassis alone. -/

namespace Sys2Proof.Machine

open Sys2Proof

@[simp] theorem mapPage_chassis (s : State) (i k : SlabId) (o : ObjectEntry) (n : Nat) : OptKeeps s (State.mapPage s i k o n) :=
  by simp only [State.mapPage]; (repeat' split) <;> simp

@[simp] theorem mapObject_chassis (s : State) (i : SlabId) (o : ObjectEntry) : OptKeeps s (State.mapObject s i o) :=
  by
  unfold State.mapObject
  exact foldl_bind_keeps _ (fun t n => mapPage_chassis ..) _ _ _ (by simp)

@[simp] theorem mapObjects_chassis (s : State) (i : SlabId) (os : List ObjectEntry) : OptKeeps s (State.mapObjects s i os) :=
  by
  have h := foldl_bind_keeps (fun (t : State) o => t.mapObject i o) (fun t o => mapObject_chassis ..) os s (some s) rfl
  unfold State.mapObjects
  split
  · trivial
  · rename_i t e
    split
    · exact OptKeeps.elim h e
    · trivial

@[simp] theorem fillObject_chassis (s : State) (i : SlabId) (o : ObjectEntry) (data : List Byte) : (State.fillObject s i o data).chassis = s.chassis :=
  by unfold State.fillObject; (repeat' split) <;> simp

@[simp] theorem unmapPage_chassis (s : State) (i : SlabId) (v : Nat) : (State.unmapPage s i v).chassis = s.chassis :=
  by unfold State.unmapPage; (repeat' split) <;> simp

@[simp] theorem unmapObject_chassis (s : State) (i : SlabId) (o : ObjectEntry) : (State.unmapObject s i o).chassis = s.chassis :=
  by simp [State.unmapObject]

@[simp] theorem execMapObject_chassis (fn : SlabId) (m : Fin 4) (bulk : List Byte) (s : State) : Keeps s (execMapObject fn m bulk s) :=
  by
  unfold execMapObject
  refine serve_keeps _ _ _ _ _ _ (fun r => ?_)
  refine elim_chassis s _ _ _ (respond_chassis ..) (fun d _ => ?_)
  refine elim_chassis s _ _ _ (respond_chassis ..) (fun t h => ?_)
  exact (accept_chassis ..).trans ((fillObject_chassis ..).trans (OptKeeps.elim (mapObjects_chassis ..) h))

@[simp] theorem execMapObjectComplete_chassis (fn : SlabId) (s : State) : Keeps s (execMapObjectComplete fn s) :=
  by unfold execMapObjectComplete; (repeat' split) <;> simp

@[simp] theorem execUnmapObject_chassis (fn : SlabId) (m : Fin 4) (s : State) : Keeps s (execUnmapObject fn m s) :=
  by unfold execUnmapObject; refine serve_keeps _ _ _ _ _ _ (fun r => ?_); (repeat' split) <;> simp

@[simp] theorem dropUnhinted_chassis (s : State) (i : SlabId) (o : ObjectEntry) (hint : Nat) : (State.dropUnhinted s i o hint).chassis = s.chassis :=
  by simp [State.dropUnhinted]

@[simp] theorem execPlaceHint_chassis (fn : SlabId) (m : Fin 4) (s : State) : Keeps s (execPlaceHint fn m s) :=
  by unfold execPlaceHint; refine serve_keeps _ _ _ _ _ _ (fun r => ?_); (repeat' split) <;> simp

@[simp] theorem restored_chassis (s : State) (i : SlabId) : (State.restored s i).chassis = s.chassis :=
  by simp only [State.restored]; (repeat' split) <;> simp

@[simp] theorem refill_chassis (s : State) (i : SlabId) (v : Nat) : (State.refill s i v).chassis = s.chassis :=
  by
  unfold State.refill
  refine foldl_chassis _ (fun s k => foldl_chassis _ (fun s p => ?_) _ _) _ _
  split <;> simp

@[simp] theorem execHostPageWrite_chassis (fn : SlabId) (vpn : BitVec 27) (data : List Byte) (s : State) : Keeps s (execHostPageWrite fn vpn data s) :=
  by simp only [execHostPageWrite]; (repeat' split) <;> simp

end Sys2Proof.Machine
end

