-- ==== Sys2Proof/Laws/KeepImages.lean ====
section
/-! SUPPORT. The operations of Machine/Images.lean leave the chassis alone. -/

namespace Sys2Proof.Machine

open Sys2Proof

@[simp] theorem remap_chassis (s : State) (i : SlabId) (im : Image) : OptKeeps s (State.remap s i im) :=
  by
  unfold State.remap
  have h (t : State) (n : List ObjectEntry) (g : State → State) (hg : ∀ x, (g x).chassis = x.chassis) :
      OptKeeps t ((t.mapObjects i n).map g) := by
    cases e : t.mapObjects i n with
    | none => trivial
    | some x => exact (hg x).trans (OptKeeps.elim (mapObjects_chassis ..) e)
  have b (a c : State) (o : Option State) (e : c.chassis = a.chassis) (k : OptKeeps c o) : OptKeeps a o := by
    cases o with
    | none => trivial
    | some x => exact Eq.trans k e
  exact b _ _ _ (by simp) (h _ _ _ (fun x => by simp))

@[simp] theorem rejectImage_chassis (s : State) (fn : SlabId) (m : Fin 4) (r : Request) (bs : List Byte) (e : Byte × Nat × Nat) : (State.rejectImage s fn m r bs e).chassis = s.chassis :=
  by simp [State.rejectImage]

@[simp] theorem execLoadImage_chassis (fn : SlabId) (m : Fin 4) (bulk : List Byte) (s : State) : Keeps s (execLoadImage fn m bulk s) :=
  by unfold execLoadImage; refine serve_keeps _ _ _ _ _ _ (fun r => ?_); (repeat' split) <;> simp

@[simp] theorem execVerifyImage_chassis (fn : SlabId) (m : Fin 4) (bulk : List Byte) (s : State) : Keeps s (execVerifyImage fn m bulk s) :=
  by unfold execVerifyImage; refine serve_keeps _ _ _ _ _ _ (fun r => ?_); (repeat' split) <;> simp

@[simp] theorem repairAtLoad_chassis (s : State) (i : SlabId) : (State.repairAtLoad s i).chassis = s.chassis :=
  by simp [State.repairAtLoad]

@[simp] theorem unparkStacks_chassis (s : State) (i : SlabId) : (State.unparkStacks s i).chassis = s.chassis :=
  by simp [State.unparkStacks]

@[simp] theorem writePlacement_chassis (s : State) (i : SlabId) (im : Image) (n : Nat) : (State.writePlacement s i im n).chassis = s.chassis :=
  by unfold State.writePlacement; (repeat' split) <;> (try simp) <;> (refine (foldl_chassis _ (fun s a => ?_) _ _).trans ?_ <;> (repeat' split) <;> simp)

@[simp] theorem keepContexts_chassis (s : State) (i : SlabId) (cs : List ContextEntry) : (State.keepContexts s i cs).chassis = s.chassis :=
  by unfold State.keepContexts; (repeat' split) <;> simp

@[simp] theorem installImage_chassis (s : State) (i : SlabId) (im : Image) : OptKeeps s (State.installImage s i im) :=
  by
  unfold State.installImage
  dsimp only
  split
  · rename_i t n ht _
    have k := OptKeeps.elim (remap_chassis ..) ht
    rw [optKeeps_some]
    split <;> simp [k]
  · trivial

@[simp] theorem execLoadImageComplete_chassis (fn : SlabId) (s : State) : Keeps s (execLoadImageComplete fn s) :=
  by
  unfold execLoadImageComplete
  split
  · simp
  · split
    · rename_i t h
      have k := OptKeeps.elim (installImage_chassis ..) h
      simp [k]
    · simp

@[simp] theorem unloadImage_chassis (s : State) (i : SlabId) : (State.unloadImage s i).chassis = s.chassis :=
  by simp [State.unloadImage]

@[simp] theorem execLoadImageUnload_chassis (fn : SlabId) (m : Fin 4) (s : State) : Keeps s (execLoadImageUnload fn m s) :=
  by unfold execLoadImageUnload; refine serve_keeps _ _ _ _ _ _ (fun r => ?_); (repeat' split) <;> simp

end Sys2Proof.Machine
end

