-- ==== Sys2Proof/Laws/KeepJobs.lean ====
section
/-! SUPPORT. The operations of Machine/Jobs.lean leave the chassis alone. -/

namespace Sys2Proof.Machine

open Sys2Proof

@[simp] theorem applyFrozen_chassis (s : State) (i : SlabId) (im : Image) : (State.applyFrozen s i im).chassis = s.chassis :=
  by simp [State.applyFrozen]

@[simp] theorem startTiles_chassis (s : State) (i : SlabId) : (State.startTiles s i).chassis = s.chassis :=
  by unfold State.startTiles; (repeat' split) <;> (try simp) <;> (refine (foldl_chassis _ (fun s a => ?_) _ _).trans ?_ <;> (repeat' split) <;> simp)

@[simp] theorem startJob_chassis (s : State) (i : SlabId) (im : Image) (seed : DWord) : (State.startJob s i im seed).chassis = s.chassis :=
  by simp [State.startJob]

@[simp] theorem execJobStart_chassis (fn : SlabId) (m : Fin 4) (s : State) : Keeps s (execJobStart fn m s) :=
  by unfold execJobStart; refine serve_keeps _ _ _ _ _ _ (fun r => ?_); (repeat' split) <;> simp

@[simp] theorem endJob_chassis (s : State) (i : SlabId) : (State.endJob s i).chassis = s.chassis :=
  by simp [State.endJob]

@[simp] theorem beginForced_chassis (s : State) (i : SlabId) : (State.beginForced s i).chassis = s.chassis :=
  by simp [State.beginForced]

@[simp] theorem execPausedEntry_chassis (slab : SlabId) (s : State) : Keeps s (execPausedEntry slab s) :=
  by simp only [execPausedEntry]; (repeat' split) <;> simp

@[simp] theorem execJobStopEnd_chassis (slab : SlabId) (s : State) : Keeps s (execJobStopEnd slab s) :=
  by simp only [execJobStopEnd]; (repeat' split) <;> simp

@[simp] theorem execJobPause_chassis (fn : SlabId) (m : Fin 4) (s : State) : Keeps s (execJobPause fn m s) :=
  by
  unfold execJobPause
  refine serve_keeps _ _ _ _ _ _ (fun r => ?_)
  dsimp only
  (repeat' split) <;> simp

@[simp] theorem resumeJob_chassis (s : State) (i : SlabId) : (State.resumeJob s i).chassis = s.chassis :=
  by simp [State.resumeJob]

@[simp] theorem execJobResume_chassis (fn : SlabId) (m : Fin 4) (s : State) : Keeps s (execJobResume fn m s) :=
  by
  unfold execJobResume
  refine serve_keeps _ _ _ _ _ _ (fun r => ?_)
  dsimp only
  (repeat' split) <;> simp

@[simp] theorem stopJob_chassis (s : State) (fn : SlabId) (m : Fin 4) (r : Request) (force : Bool) : (State.stopJob s fn m r force).chassis = s.chassis :=
  by simp only [State.stopJob]; (repeat' split) <;> simp

@[simp] theorem execJobStop_chassis (fn : SlabId) (m : Fin 4) (s : State) : Keeps s (execJobStop fn m s) :=
  by unfold execJobStop; refine serve_keeps _ _ _ _ _ _ (fun r => ?_); (repeat' split) <;> simp

@[simp] theorem execJobStopForce_chassis (fn : SlabId) (m : Fin 4) (s : State) : Keeps s (execJobStopForce fn m s) :=
  by unfold execJobStopForce; refine serve_keeps _ _ _ _ _ _ (fun r => ?_); (repeat' split) <;> simp

@[simp] theorem execStepControl_chassis (fn : SlabId) (m : Fin 4) (s : State) : Keeps s (execStepControl fn m s) :=
  by unfold execStepControl; refine serve_keeps _ _ _ _ _ _ (fun r => ?_); (repeat' split) <;> simp

end Sys2Proof.Machine
end

