-- ==== Sys2Proof/Laws/KeepInfo.lean ====
section
/-! SUPPORT. The operations of Machine/Info.lean leave the chassis alone. -/

namespace Sys2Proof.Machine

open Sys2Proof

@[simp] theorem execIdentify_chassis (fn : SlabId) (m : Fin 4) (s : State) : Keeps s (execIdentify fn m s) :=
  by unfold execIdentify; refine serve_keeps _ _ _ _ _ _ (fun r => ?_); (repeat' split) <;> simp

@[simp] theorem execGetStatus_chassis (fn : SlabId) (m : Fin 4) (s : State) : Keeps s (execGetStatus fn m s) :=
  by unfold execGetStatus; refine serve_keeps _ _ _ _ _ _ (fun r => ?_); (repeat' split) <;> simp

@[simp] theorem execLedgerRead_chassis (fn : SlabId) (m : Fin 4) (s : State) : Keeps s (execLedgerRead fn m s) :=
  by unfold execLedgerRead; refine serve_keeps _ _ _ _ _ _ (fun r => ?_); (repeat' split) <;> simp

@[simp] theorem execFaultLogRead_chassis (fn : SlabId) (m : Fin 4) (s : State) : Keeps s (execFaultLogRead fn m s) :=
  by unfold execFaultLogRead; refine serve_keeps _ _ _ _ _ _ (fun r => ?_); (repeat' split) <;> simp

@[simp] theorem clearAt_chassis (s : State) (fn : SlabId) (scope aux index id : Nat) : (State.clearAt s fn scope aux index id).chassis = s.chassis :=
  by unfold State.clearAt; (repeat' split) <;> simp

@[simp] theorem execCountersRead_chassis (fn : SlabId) (m : Fin 4) (s : State) : Keeps s (execCountersRead fn m s) :=
  by unfold execCountersRead; refine serve_keeps _ _ _ _ _ _ (fun r => ?_); (repeat' split) <;> simp

@[simp] theorem execCountersClear_chassis (fn : SlabId) (m : Fin 4) (s : State) : Keeps s (execCountersClear fn m s) :=
  by unfold execCountersClear; refine serve_keeps _ _ _ _ _ _ (fun r => ?_); (repeat' split) <;> simp

@[simp] theorem execTelemetry_chassis (fn : SlabId) (m : Fin 4) (s : State) : Keeps s (execTelemetry fn m s) :=
  by unfold execTelemetry; refine serve_keeps _ _ _ _ _ _ (fun r => ?_); (repeat' split) <;> simp

@[simp] theorem execAttest_chassis (fn : SlabId) (m : Fin 4) (s : State) : Keeps s (execAttest fn m s) :=
  by unfold execAttest; refine serve_keeps _ _ _ _ _ _ (fun r => ?_); (repeat' split) <;> simp

@[simp] theorem execGetCert_chassis (fn : SlabId) (m : Fin 4) (s : State) : Keeps s (execGetCert fn m s) :=
  by unfold execGetCert; refine serve_keeps _ _ _ _ _ _ (fun r => ?_); (repeat' split) <;> simp

end Sys2Proof.Machine
end

