-- ==== Sys2Proof/Laws/KeepMaintain.lean ====
section
/-! SUPPORT. The operations of Machine/Maintain.lean leave the chassis alone. -/

namespace Sys2Proof.Machine

open Sys2Proof

@[simp] theorem addOperation_chassis (s : State) (fn : SlabId) (m : Fin 4) (r : Request) (deferred forced running : Bool) : (State.addOperation s fn m r deferred forced running).chassis = s.chassis :=
  by simp [State.addOperation]

@[simp] theorem startOperation_chassis (s : State) (fn : SlabId) (m : Fin 4) (r : Request) : (State.startOperation s fn m r).chassis = s.chassis :=
  by simp only [State.startOperation]; (repeat' split) <;> simp

@[simp] theorem execSelfTest_chassis (fn : SlabId) (m : Fin 4) (s : State) : Keeps s (execSelfTest fn m s) :=
  by unfold execSelfTest; refine serve_keeps _ _ _ _ _ _ (fun r => ?_); (repeat' split) <;> simp

@[simp] theorem execCalibrate_chassis (fn : SlabId) (m : Fin 4) (s : State) : Keeps s (execCalibrate fn m s) :=
  by unfold execCalibrate; refine serve_keeps _ _ _ _ _ _ (fun r => ?_); (repeat' split) <;> simp

@[simp] theorem execDeferredStart_chassis (slab : SlabId) (s : State) : Keeps s (execDeferredStart slab s) :=
  by unfold execDeferredStart; (repeat' split) <;> simp

@[simp] theorem operationFailure_chassis (s : State) (i : SlabId) (o : Operation) (node : Half) : (State.operationFailure s i o node).chassis = s.chassis :=
  by unfold State.operationFailure; (repeat' split) <;> simp

@[simp] theorem dropScratchFrames_chassis (s : State) (i : SlabId) (all : Bool) : (State.dropScratchFrames s i all).chassis = s.chassis :=
  by simp [State.dropScratchFrames]

@[simp] theorem reloadTested_chassis (s : State) (i : SlabId) (all : Bool) : (State.reloadTested s i all).chassis = s.chassis :=
  by simp only [State.reloadTested]; (repeat' split) <;> simp

@[simp] theorem execOperationComplete_chassis (slab : SlabId) (tested : Word) (failed : List Half) (s : State) : Keeps s (execOperationComplete slab tested failed s) :=
  by simp only [execOperationComplete]; (repeat' split) <;> simp

@[simp] theorem execFwBegin_chassis (fn : SlabId) (m : Fin 4) (s : State) : Keeps s (execFwBegin fn m s) :=
  by unfold execFwBegin; refine serve_keeps _ _ _ _ _ _ (fun r => ?_); (repeat' split) <;> simp

@[simp] theorem execFwChunk_chassis (fn : SlabId) (m : Fin 4) (bulk : List Byte) (s : State) : Keeps s (execFwChunk fn m bulk s) :=
  by unfold execFwChunk; refine serve_keeps _ _ _ _ _ _ (fun r => ?_); (repeat' split) <;> simp

@[simp] theorem execFwCommit_chassis (fn : SlabId) (m : Fin 4) (s : State) : Keeps s (execFwCommit fn m s) :=
  by unfold execFwCommit; refine serve_keeps _ _ _ _ _ _ (fun r => ?_); (repeat' split) <;> simp

@[simp] theorem execFwCommitComplete_chassis (fn : SlabId) (s : State) : Keeps s (execFwCommitComplete fn s) :=
  by unfold execFwCommitComplete; (repeat' split) <;> simp

@[simp] theorem execSetMode_chassis (fn : SlabId) (m : Fin 4) (s : State) : Keeps s (execSetMode fn m s) :=
  by unfold execSetMode; refine serve_keeps _ _ _ _ _ _ (fun r => ?_); (repeat' split) <;> simp

@[simp] theorem execSetModeComplete_chassis (s : State) : Keeps s (execSetModeComplete s) :=
  by
  unfold execSetModeComplete
  split
  · simp
  · rw [keeps_next, completeAll_chassis]
    refine (chassis_setMode _ _).trans ?_
    rw [modSlab_chassis, modSlab_chassis]

end Sys2Proof.Machine
end

