-- ==== Sys2Proof/Laws/KeepLinkConfig.lean ====
section
/-! SUPPORT. The operations of Machine/LinkConfig.lean leave the chassis alone. -/

namespace Sys2Proof.Machine

open Sys2Proof

@[simp] theorem linkOk_chassis (s : State) (fn : SlabId) (m : Fin 4) (r : Request) : (State.linkOk s fn m r).chassis = s.chassis :=
  by simp [State.linkOk]

@[simp] theorem execLinkConfigEndpoint_chassis (fn : SlabId) (m : Fin 4) (s : State) : Keeps s (execLinkConfigEndpoint fn m s) :=
  by unfold execLinkConfigEndpoint; refine serve_keeps _ _ _ _ _ _ (fun r => ?_); (repeat' split) <;> simp

@[simp] theorem disablePort_chassis (s : State) (i : SlabId) (p : Nat) : (State.disablePort s i p).chassis = s.chassis :=
  by simp only [State.disablePort]; (repeat' split) <;> simp

@[simp] theorem execLinkConfigPort_chassis (fn : SlabId) (m : Fin 4) (s : State) : Keeps s (execLinkConfigPort fn m s) :=
  by unfold execLinkConfigPort; refine serve_keeps _ _ _ _ _ _ (fun r => ?_); (repeat' split) <;> simp

@[simp] theorem execLinkConfigRoutes_chassis (fn : SlabId) (m : Fin 4) (bulk : List Byte) (s : State) : Keeps s (execLinkConfigRoutes fn m bulk s) :=
  by unfold execLinkConfigRoutes; refine serve_keeps _ _ _ _ _ _ (fun r => ?_); (repeat' split) <;> simp

@[simp] theorem execLinkConfigGroup_chassis (fn : SlabId) (m : Fin 4) (bulk : List Byte) (s : State) : Keeps s (execLinkConfigGroup fn m bulk s) :=
  by unfold execLinkConfigGroup; refine serve_keeps _ _ _ _ _ _ (fun r => ?_); (repeat' split) <;> simp

@[simp] theorem execLinkConfigMcastTx_chassis (fn : SlabId) (m : Fin 4) (bulk : List Byte) (s : State) : Keeps s (execLinkConfigMcastTx fn m bulk s) :=
  by unfold execLinkConfigMcastTx; refine serve_keeps _ _ _ _ _ _ (fun r => ?_); (repeat' split) <;> simp

@[simp] theorem execLinkConfigMcastRx_chassis (fn : SlabId) (m : Fin 4) (s : State) : Keeps s (execLinkConfigMcastRx fn m s) :=
  by unfold execLinkConfigMcastRx; refine serve_keeps _ _ _ _ _ _ (fun r => ?_); (repeat' split) <;> simp

@[simp] theorem execLinkConfigTimers_chassis (fn : SlabId) (m : Fin 4) (s : State) : Keeps s (execLinkConfigTimers fn m s) :=
  by unfold execLinkConfigTimers; refine serve_keeps _ _ _ _ _ _ (fun r => ?_); (repeat' split) <;> simp

@[simp] theorem execExportConfig_chassis (fn : SlabId) (m : Fin 4) (s : State) : Keeps s (execExportConfig fn m s) :=
  by unfold execExportConfig; refine serve_keeps _ _ _ _ _ _ (fun r => ?_); (repeat' split) <;> simp

@[simp] theorem putFeed_chassis (s : State) (i : SlabId) (x : FeedQueue) : (State.putFeed s i x).chassis = s.chassis :=
  by simp [State.putFeed]

@[simp] theorem feedWindow_chassis (s : State) (i : SlabId) (w : Nat) (on : Bool) : (State.feedWindow s i w on).chassis = s.chassis :=
  by simp [State.feedWindow]

@[simp] theorem unbindFeed_chassis (s : State) (i : SlabId) (q : FeedQueue) : (State.unbindFeed s i q).chassis = s.chassis :=
  by unfold State.unbindFeed; (repeat' split) <;> simp

@[simp] theorem execFeedConfigBind_chassis (fn : SlabId) (m : Fin 4) (s : State) : Keeps s (execFeedConfigBind fn m s) :=
  by unfold execFeedConfigBind; refine serve_keeps _ _ _ _ _ _ (fun r => ?_); (repeat' split) <;> simp

@[simp] theorem execFeedConfigClose_chassis (fn : SlabId) (m : Fin 4) (s : State) : Keeps s (execFeedConfigClose fn m s) :=
  by unfold execFeedConfigClose; refine serve_keeps _ _ _ _ _ _ (fun r => ?_); (repeat' split) <;> simp

end Sys2Proof.Machine
end

