-- ==== Sys2Proof/Laws/KeepHostPort.lean ====
section
/-! SUPPORT. The operations of Machine/HostPort.lean leave the chassis alone. -/

namespace Sys2Proof.Machine

open Sys2Proof

theorem barAccess_keeps (s : State) (fn : SlabId) (f : State → State) (h : ∀ s, (f s).chassis = s.chassis) : Keeps s (State.barAccess s fn f) :=
  by
  unfold State.barAccess
  split <;> simp [h]

@[simp] theorem modMailbox_chassis (s : State) (fn : SlabId) (m : Fin 4) (g : Mailbox → Mailbox) : (State.modMailbox s fn m g).chassis = s.chassis :=
  by simp [State.modMailbox]

@[simp] theorem ringDoorbell_chassis (s : State) (fn : SlabId) (m : Fin 4) : (State.ringDoorbell s fn m).chassis = s.chassis :=
  by simp only [State.ringDoorbell]; (repeat' split) <;> simp

@[simp] theorem execDoorbell_chassis (fn : SlabId) (m : Fin 4) (s : State) : Keeps s (execDoorbell fn m s) :=
  by unfold execDoorbell; (repeat' split) <;> (try simp) <;> (refine barAccess_keeps _ _ _ (fun s => ?_); (repeat' split) <;> simp)

@[simp] theorem execRequestBufferWrite_chassis (fn : SlabId) (m : Fin 4) (offset : Nat) (data : List Byte) (s : State) : Keeps s (execRequestBufferWrite fn m offset data s) :=
  by unfold execRequestBufferWrite; (repeat' split) <;> (try simp) <;> (refine barAccess_keeps _ _ _ (fun s => ?_); (repeat' split) <;> simp)

@[simp] theorem execMbxDoneRelease_chassis (fn : SlabId) (m : Fin 4) (s : State) : Keeps s (execMbxDoneRelease fn m s) :=
  by unfold execMbxDoneRelease; (repeat' split) <;> (try simp) <;> (refine barAccess_keeps _ _ _ (fun s => ?_); (repeat' split) <;> simp)

@[simp] theorem execEvtCtrlEnable_chassis (fn : SlabId) (base : DWord) (size : BitVec 5) (enable : Bool) (s : State) : Keeps s (execEvtCtrlEnable fn base size enable s) :=
  by unfold execEvtCtrlEnable; (repeat' split) <;> (try simp) <;> (refine barAccess_keeps _ _ _ (fun s => ?_); (repeat' split) <;> simp)

@[simp] theorem execEvtConsumerWrite_chassis (fn : SlabId) (value : DWord) (s : State) : Keeps s (execEvtConsumerWrite fn value s) :=
  by unfold execEvtConsumerWrite; (repeat' split) <;> (try simp) <;> (refine barAccess_keeps _ _ _ (fun s => ?_); (repeat' split) <;> simp)

@[simp] theorem apertureWrite_chassis (s : State) (fn : SlabId) (q : FeedQueue) (offset : Nat) (data : List Byte) : (State.apertureWrite s fn q offset data).chassis = s.chassis :=
  by simp only [State.apertureWrite]; (repeat' split) <;> simp

@[simp] theorem execFeedApertureWrite_chassis (fn : SlabId) (queue : Fin 16) (offset : Nat) (data : List Byte) (s : State) : Keeps s (execFeedApertureWrite fn queue offset data s) :=
  by unfold execFeedApertureWrite; (repeat' split) <;> (try simp) <;> (refine barAccess_keeps _ _ _ (fun s => ?_); (repeat' split) <;> simp)

@[simp] theorem execStagingWrite_chassis (fn : SlabId) (offset : Nat) (data : List Byte) (s : State) : Keeps s (execStagingWrite fn offset data s) :=
  by unfold execStagingWrite; (repeat' split) <;> (try simp) <;> (refine barAccess_keeps _ _ _ (fun s => ?_); (repeat' split) <;> simp)

@[simp] theorem execDmaReadError_chassis (fn : SlabId) (m : Fin 4) (s : State) : Keeps s (execDmaReadError fn m s) :=
  by simp only [execDmaReadError]; (repeat' split) <;> simp

@[simp] theorem withdrawTestPause_chassis (s : State) (i : SlabId) : (State.withdrawTestPause s i).chassis = s.chassis :=
  by simp only [State.withdrawTestPause]; (repeat' split) <;> simp

@[simp] theorem pcieReset_chassis (s : State) (fn : SlabId) : (State.pcieReset s fn).chassis = s.chassis :=
  by simp [State.pcieReset]

@[simp] theorem execFunctionLevelReset_chassis (fn : SlabId) (s : State) : Keeps s (execFunctionLevelReset fn s) :=
  by unfold execFunctionLevelReset; (repeat' split) <;> simp

@[simp] theorem execHotReset_chassis (s : State) : Keeps s (execHotReset s) :=
  by unfold execHotReset; (repeat' split) <;> simp

@[simp] theorem loseLink_chassis (s : State) : (State.loseLink s).chassis = s.chassis :=
  by unfold State.loseLink; (repeat' split) <;> simp

@[simp] theorem execPcieLinkLoss_chassis (s : State) : Keeps s (execPcieLinkLoss s) :=
  by simp [execPcieLinkLoss]

@[simp] theorem execPcieLinkRetrained_chassis (s : State) : Keeps s (execPcieLinkRetrained s) :=
  by unfold execPcieLinkRetrained; (repeat' split) <;> simp

@[simp] theorem execD3hotEntry_chassis (fn : SlabId) (s : State) : Keeps s (execD3hotEntry fn s) :=
  by unfold execD3hotEntry; (repeat' split) <;> simp

@[simp] theorem execD0Return_chassis (fn : SlabId) (s : State) : Keeps s (execD0Return fn s) :=
  by unfold execD0Return; (repeat' split) <;> simp

end Sys2Proof.Machine
end

