-- ==== Sys2Proof/Laws/KeepBoot.lean ====
section
/-! SUPPORT. The operations of Machine/Boot.lean leave the chassis alone. -/

namespace Sys2Proof.Machine

open Sys2Proof

@[simp] theorem startLocks_chassis (s : State) : (State.startLocks s).chassis = s.chassis :=
  by unfold State.startLocks; (repeat' split) <;> simp

@[simp] theorem execPllLockRestart_chassis (slab : SlabId) (s : State) : Keeps s (execPllLockRestart slab s) :=
  by unfold execPllLockRestart; (repeat' split) <;> simp

@[simp] theorem relockHold_chassis (s : State) (i : SlabId) : (State.relockHold s i).chassis = s.chassis :=
  by simp only [State.relockHold]; (repeat' split) <;> simp

@[simp] theorem execPllLock_chassis (slab : SlabId) (s : State) : Keeps s (execPllLock slab s) :=
  by simp only [execPllLock]; (repeat' split) <;> simp

@[simp] theorem execPllPhaseExcursion_chassis (slab : SlabId) (torn : List (Fin 24 × Nat × Nat)) (s : State) : Keeps s (execPllPhaseExcursion slab torn s) :=
  by simp only [execPllPhaseExcursion]; (repeat' split) <;> simp

@[simp] theorem loseAtStart_chassis (s : State) (k : SlabId) (n why : Nat) : (State.loseAtStart s k n why).chassis = s.chassis :=
  by unfold State.loseAtStart; (repeat' split) <;> simp

@[simp] theorem testTile_chassis (s : State) (k : SlabId) (x : Fin 42 × Fin 17 × Fin 17) : (State.testTile s k x).chassis = s.chassis :=
  by simp only [State.testTile]; (repeat' split) <;> simp

@[simp] theorem testStack_chassis (s : State) (k : SlabId) (u : Fin 24) : (State.testStack s k u).chassis = s.chassis :=
  by unfold State.testStack; (repeat' split) <;> simp

@[simp] theorem testLane_chassis (s : State) (k : SlabId) (x : Fin 16 × Fin 8) : (State.testLane s k x).chassis = s.chassis :=
  by unfold State.testLane; (repeat' split) <;> simp

@[simp] theorem testLink_chassis (s : State) (k : SlabId) (x : Fin 42 × Fin 17 × Fin 17 × Dir) : (State.testLink s k x).chassis = s.chassis :=
  by simp only [State.testLink]; (repeat' split) <;> simp

@[simp] theorem powerOnTest_chassis (s : State) (k : SlabId) (x : TestFindings) : (State.powerOnTest s k x).chassis = s.chassis :=
  by simp [State.powerOnTest]

@[simp] theorem execWatchdogExpiry_chassis (slab : SlabId) (s : State) : Keeps s (execWatchdogExpiry slab s) :=
  by simp only [execWatchdogExpiry]; (repeat' split) <;> simp

@[simp] theorem invalidateRecord_chassis (s : State) (k : SlabId) (n : Nat) : (State.invalidateRecord s k n).chassis = s.chassis :=
  by unfold State.invalidateRecord; (repeat' split) <;> simp

@[simp] theorem execSramUncorrectable_chassis (slab : SlabId) (preserved : Option Nat) (s : State) : Keeps s (execSramUncorrectable slab preserved s) :=
  by unfold execSramUncorrectable; (repeat' split) <;> simp

@[simp] theorem answerPending_chassis (s : State) (fn : SlabId) : (State.answerPending s fn).chassis = s.chassis :=
  by simp [State.answerPending]

@[simp] theorem dropUncommitted_chassis (s : State) (fn : SlabId) : (State.dropUncommitted s fn).chassis = s.chassis :=
  by simp [State.dropUncommitted]

@[simp] theorem afterRestart_chassis (s : State) (k : SlabId) (cause : Nat) : (State.afterRestart s k cause).chassis = s.chassis :=
  by unfold State.afterRestart; (repeat' split) <;> simp

@[simp] theorem firstIdle_chassis (s : State) (k : SlabId) : (State.firstIdle s k).chassis = s.chassis :=
  by unfold State.firstIdle; (repeat' split) <;> simp

@[simp] theorem execFirmwareServing_chassis (slab : SlabId) (s : State) : Keeps s (execFirmwareServing slab s) :=
  by simp only [execFirmwareServing]; (repeat' split) <;> simp

@[simp] theorem recoveryCommand_chassis (s : State) (fn : SlabId) (m : Fin 4) (r : Request) (bulk : List Byte) : (State.recoveryCommand s fn m r bulk).chassis = s.chassis :=
  by simp only [State.recoveryCommand]; (repeat' split) <;> simp

@[simp] theorem execRecoveryMailbox_chassis (fn : SlabId) (m : Fin 4) (bulk : List Byte) (s : State) : Keeps s (execRecoveryMailbox fn m bulk s) :=
  by simp only [execRecoveryMailbox]; (repeat' split) <;> simp

end Sys2Proof.Machine
end

