-- ==== Sys2Proof/Laws/KeepOverlayPort.lean ====
section
/-! SUPPORT. The operations of Machine/OverlayPort.lean leave the chassis alone. -/

namespace Sys2Proof.Machine

open Sys2Proof

@[simp] theorem execOverlayPortBegin_chassis (t : TileId) (overlayErrs spErrs : List RowError) (s : State) : Keeps s (execOverlayPortBegin t overlayErrs spErrs s) :=
  by simp only [execOverlayPortBegin]; (repeat' split) <;> simp

end Sys2Proof.Machine
end

