-- ==== Sys2Proof/Laws/KeepPower.lean ====
section
/-! SUPPORT. The operations of Machine/Power.lean leave the chassis alone. -/

namespace Sys2Proof.Machine

open Sys2Proof

@[simp] theorem updateAlert_chassis (s : State) : (State.updateAlert s).chassis = s.chassis :=
  rfl

@[simp] theorem execSlabRailLoss_chassis (slab : SlabId) (s : State) : Keeps s (execSlabRailLoss slab s) :=
  by unfold execSlabRailLoss; (repeat' split) <;> simp

@[simp] theorem fieldPowerLost_chassis (s : State) (k : SlabId) (c : Fin 7) (r : Fin 6) : (State.fieldPowerLost s k c r).chassis = s.chassis :=
  by unfold State.fieldPowerLost; (repeat' split) <;> simp

@[simp] theorem execFieldFuseOpen_chassis (f : FieldId) (s : State) : Keeps s (execFieldFuseOpen f s) :=
  by simp only [execFieldFuseOpen]; (repeat' split) <;> simp

@[simp] theorem execFieldStageStart_chassis (slab : SlabId) (failed : List (Fin 42)) (s : State) : Keeps s (execFieldStageStart slab failed s) :=
  by simp only [execFieldStageStart]; (repeat' split) <;> simp

@[simp] theorem thermalEvent_chassis (s : State) (k : SlabId) (x : Sensor) (v : Int) (threshold : Byte) : (State.thermalEvent s k x v threshold).chassis = s.chassis :=
  by simp [State.thermalEvent]

@[simp] theorem stackHot_chassis (s : State) (k : SlabId) (u : Nat) : (State.stackHot s k u).chassis = s.chassis :=
  by simp [State.stackHot]

@[simp] theorem stackCondition_chassis (s : State) (k : SlabId) (x : Sensor) (critical on : Bool) : (State.stackCondition s k x critical on).chassis = s.chassis :=
  by unfold State.stackCondition; (repeat' split) <;> simp

@[simp] theorem sampleCondition_chassis (s : State) (k : SlabId) (x : Sensor) (v : Int) (critical : Bool) : (State.sampleCondition s k x v critical).chassis = s.chassis :=
  by simp only [State.sampleCondition]; (repeat' split) <;> simp

@[simp] theorem sampleSensor_chassis (s : State) (k : SlabId) (x : Sensor) (v : Int) : (State.sampleSensor s k x v).chassis = s.chassis :=
  by simp [State.sampleSensor]

@[simp] theorem execThermalSample_chassis (slab : SlabId) (readings : List (Sensor × Int)) (s : State) : Keeps s (execThermalSample slab readings s) :=
  by unfold execThermalSample; (repeat' split) <;> simp

@[simp] theorem execFieldCriticalTimeout_chassis (f : FieldId) (s : State) : Keeps s (execFieldCriticalTimeout f s) :=
  by simp only [execFieldCriticalTimeout]; (repeat' split) <;> simp

@[simp] theorem execSmbusBlockRead_chassis (slab : SlabId) (code : Fin 3) (s : State) : Keeps s (execSmbusBlockRead slab code s) :=
  by unfold execSmbusBlockRead; (repeat' split) <;> simp

@[simp] theorem execSmbusRejected_chassis (slab : SlabId) (s : State) : Keeps s (execSmbusRejected slab s) :=
  rfl

@[simp] theorem execSidebandRefresh_chassis (slab : SlabId) (s : State) : Keeps s (execSidebandRefresh slab s) :=
  by unfold execSidebandRefresh; (repeat' split) <;> simp

end Sys2Proof.Machine
end

