-- ==== Sys2Proof/Laws/Exec.lean ====
section
/-! SUPPORT. Every command but the events of supply, reset and reference, and a firmware start, leaves the chassis alone. -/

namespace Sys2Proof.Machine

open Sys2Proof

/-- A command leaves the queue, the mode, the supply, the reference and the pins alone unless it is one of their events. -/
theorem exec_keeps_chassis (c : Instr) (s : State) :
    Keeps s (exec c s) ∨ (∃ k x, c = .firmwareStart k x) ∨ (∃ torn, c = .referenceLoss torn) ∨ c = .referenceDetectClear
      ∨ c = .perstNAssert ∨ c = .perstNDeassert ∨ c = .inputRise ∨ c = .inputUndervoltage ∨ c = .inputOvervoltage
      ∨ (∃ k x, c = .thermalTrip k x) := by
  cases c <;> first
    | (left; unfold exec; simp; done)
    | (right; simp; done)

end Sys2Proof.Machine
end

