-- ==== Sys2Proof/Laws/Records.lean ====
section
/-! SUPPORT. What the shared operations that keep records change: the event rings (R405, R406), the fault log (R362), the job
state's record, the causes at the root (R46) and the fault map (R347). -/

namespace Sys2Proof.Machine

open Sys2Proof

/-! ## Event rings: functions and host memory only -/

@[simp] theorem slab_hostMem (s : State) (m : Cells) (j : SlabId) : State.slab { s with hostMem := m } j = s.slab j := by
  cases j <;> rfl
@[simp] theorem dev_setFunc (s : State) (i j : SlabId) (f : Func) : (s.setFunc i f).dev j = s.dev j := by
  unfold State.dev; simp
@[simp] theorem dev_modSlab (s : State) (i j : SlabId) (g : Slab → Slab) : (s.modSlab i g).dev j = s.dev j := by
  unfold State.dev; simp
@[simp] theorem dev_modFunc (s : State) (i j : SlabId) (g : Func → Func) : (s.modFunc i g).dev j = s.dev j := by
  unfold State.dev; simp

@[simp] theorem slab_drainRing (s : State) (fn j : SlabId) : (s.drainRing fn).slab j = s.slab j := by
  unfold State.drainRing; cases fn <;> cases j <;> rfl
@[simp] theorem shared_drainRing (s : State) (fn : SlabId) : (s.drainRing fn).shared = s.shared := by
  unfold State.drainRing; cases fn <;> rfl
@[simp] theorem slab_post (s : State) (fn j : SlabId) (r : EventRec) : (s.post fn r).slab j = s.slab j := by
  unfold State.post
  dsimp only
  split
  · cases fn <;> cases j <;> rfl
  · simp
@[simp] theorem shared_post (s : State) (fn : SlabId) (r : EventRec) : (s.post fn r).shared = s.shared := by
  unfold State.post
  dsimp only
  split
  · cases fn <;> rfl
  · simp
@[simp] theorem slab_event (s : State) (fn i j : SlabId) (ty : Byte) (d : List Byte) : (s.event fn i ty d).slab j = s.slab j :=
  slab_post ..
@[simp] theorem shared_event (s : State) (fn i : SlabId) (ty : Byte) (d : List Byte) : (s.event fn i ty d).shared = s.shared :=
  shared_post ..
@[simp] theorem dev_event (s : State) (fn i j : SlabId) (ty : Byte) (d : List Byte) : (s.event fn i ty d).dev j = s.dev j := by
  unfold State.dev; simp

/-! ## The fault log -/

/-- Base camp after an entry of the fault log: the entry last, its SEQ the next, and the step's ledger record. -/
theorem slab_logFaultAt (s : State) (i j : SlabId) (st : Stamp) (e : FaultEntry) :
    (s.logFaultAt i st e).slab j =
      if j = i then
        let c := (s.slab i).camp
        let full := decide (4096 ≤ c.faultLog.length)
        let e := { e with seq := c.logSeq, stamp := st, step := s.stepNow i }
        { s.slab i with
          camp := Camp.modLedger
            { c with faultLog := (if full then c.faultLog.drop 1 else c.faultLog) ++ [e], logSeq := c.logSeq + 1 }
            (s.stepNow i) (fun r =>
              { r with logFirst := if r.logCount = 0 then e.seq else r.logFirst, logCount := r.logCount + 1 })
          counters := Counters.bump (s.slab i).counters Ctr.FAULT_LOG_OVERWRITES (if full then 1 else 0) }
      else s.slab j := by
  unfold State.logFaultAt
  dsimp only
  rw [slab_event, slab_modSlab]
  split
  · rename_i h; subst h; rfl
  · rfl

theorem slab_logFault (s : State) (i j : SlabId) (e : FaultEntry) :
    (s.logFault i e).slab j = (s.logFaultAt i (s.stamp i) e).slab j := rfl
@[simp] theorem shared_logFaultAt (s : State) (i : SlabId) (st : Stamp) (e : FaultEntry) :
    (s.logFaultAt i st e).shared = s.shared := by
  unfold State.logFaultAt; dsimp only; simp
@[simp] theorem shared_logFault (s : State) (i : SlabId) (e : FaultEntry) : (s.logFault i e).shared = s.shared :=
  shared_logFaultAt ..

/-! ## Causes and the fault map -/

theorem slab_raiseCause (s : State) (c : Cause) (j : SlabId) :
    (s.raiseCause c).slab j =
      if j = s.dev c.slab then
        { s.slab j with root := { (s.slab j).root with causes := insertNew c (s.slab j).root.causes } }
      else s.slab j := by
  unfold State.raiseCause State.modRoot
  rw [slab_modSlab]; rfl
@[simp] theorem shared_raiseCause (s : State) (c : Cause) : (s.raiseCause c).shared = s.shared := shared_modSlab ..

/-- An element put into a list is in it. -/
theorem mem_insertNew {α : Type} [DecidableEq α] (a : α) (l : List α) : a ∈ insertNew a l := by
  unfold insertNew; split
  · assumption
  · simp

/-- What was in the list stays. -/
theorem mem_insertNew_of_mem {α : Type} [DecidableEq α] {a b : α} {l : List α} (h : b ∈ l) : b ∈ insertNew a l := by
  unfold insertNew; split
  · exact h
  · simp [h]

end Sys2Proof.Machine
end

