-- ==== Sys2Proof/WellFormed.lean ====
section
/-! DEFINITION. Well-formed commands: operands whose types admit more than the spec gives the row. A command that is not
well-formed is not a command of the table; `exec` is total on it all the same. -/

namespace Sys2Proof

/-- The opcode a tile instruction command issues (Tables 4.2, 4.4, 5.2 to 5.4, 9.3, 10.3): bits [127:120] of its word. -/
def Instr.opcode : Instr → Option (Nat × IWord)
  | .nop _ _ w => some (0x00, w)
  | .waitc _ _ w => some (0x01, w)
  | .waituntil _ _ w => some (0x02, w)
  | .waitarr _ _ w => some (0x03, w)
  | .seti _ _ w => some (0x04, w)
  | .addi _ _ w => some (0x05, w)
  | .jmp _ _ w => some (0x08, w)
  | .bnzd _ _ w => some (0x09, w)
  | .ifill _ _ w => some (0x0C, w)
  | .belay _ _ w => some (0x10, w)
  | .mdesc _ _ w => some (0x48, w)
  | .mma _ _ w => some (0x40, w)
  | .mload _ _ w => some (0x41, w)
  | .mstore _ _ w => some (0x42, w)
  | .vacc _ _ w => some (0x80, w)
  | .vadd _ _ w => some (0x84, w)
  | .vsub _ _ w => some (0x85, w)
  | .vmul _ _ w => some (0x86, w)
  | .vfma _ _ w => some (0x87, w)
  | .vmax _ _ w => some (0x88, w)
  | .vmin _ _ w => some (0x89, w)
  | .vcvt _ _ w => some (0x8A, w)
  | .vexp _ _ w => some (0x98, w)
  | .vrcp _ _ w => some (0x99, w)
  | .vrsq _ _ w => some (0x9A, w)
  | .vrsum _ _ w => some (0xA0, w)
  | .vrmax _ _ w => some (0xA1, w)
  | .vrmin _ _ w => some (0xA2, w)
  | .vperm _ _ w => some (0xA8, w)
  | .viota _ _ w => some (0xA9, w)
  | .viadd _ _ w => some (0xAA, w)
  | .vld _ _ w => some (0xB0, w)
  | .vst _ _ w => some (0xB1, w)
  | .vgetf _ _ w => some (0xB8, w)
  | .vclrf _ _ w => some (0xB9, w)
  | .send _ _ w _ => some (0x20, w)
  | .ovrd _ _ w => some (0x24, w)
  | .push _ _ w => some (0x28, w)
  | .pop _ _ w => some (0x29, w)
  | .peek _ _ w => some (0x2A, w)
  | .drop _ _ w => some (0x2B, w)
  | .cairn _ _ w => some (0x2C, w)
  | _ => none

/-- A row error: at least one symbol of a row that exists. -/
def RowError.wf (rows : Nat) (e : RowError) : Bool :=
  !e.pattern.isEmpty && e.pattern.all (fun p => decide (p.2 ≠ 0)) && decide ((e.pattern.map Prod.fst).Nodup)
    && decide (e.row < rows)

/-- Row errors of a scratchpad of 49,152 rows, and of an overlay slice of 64 frames of 32,768 rows. -/
def scratchErrorsWf (es : List RowError) : Bool := es.all (RowError.wf 49152)
def overlayErrorsWf (es : List RowError) : Bool := es.all (RowError.wf 2097152)

/-- A frame carries 640 payload bytes (R309). -/
def ZFrame.wf (f : ZFrame) : Bool := decide (f.payload.length = 640)

/-- A difference record has one of the kinds 1 to 4 of Table 11.7, and LEN counts its payload in KiB. -/
def DiffRecord.wf (r : DiffRecord) : Bool :=
  decide (1 ≤ r.kind.toNat) && decide (r.kind.toNat ≤ 4) && decide (r.payload.length ≤ 255 * 1024)

/-- A list names nothing twice. -/
def distinct {α : Type} [DecidableEq α] : List α → Bool
  | [] => true
  | a :: l => decide (a ∉ l) && distinct l

/-- The frame a link command carries. -/
def Instr.frame : Instr → Option ZFrame
  | .summitFrame _ _ f => some f
  | .zetraIdleFrame _ _ f => some f
  | .zetraWriteFrame _ _ f => some f
  | .zetraReduceFrame _ _ f => some f
  | .zetraMcastFrame _ _ f => some f
  | .zetraTransitFrame _ _ f => some f
  | .nack _ _ f _ _ _ => some f
  | .resend _ _ f _ _ _ _ => some f
  | .bucketAck _ _ f _ _ _ => some f
  | .mcastAck _ _ f _ _ _ => some f
  | .detach _ _ f _ _ _ => some f
  | .catchupFrame _ _ f => some f
  | .probe _ _ f _ _ => some f
  | .alive _ _ f _ _ _ => some f
  | .advisory _ _ f _ _ => some f
  | .laneMap _ _ f _ => some f
  | .hello _ _ f _ _ _ => some f
  | _ => none

/-- The checks of single rows. -/
def Instr.operandsWf : Instr → Bool
  | .ifillDone _ _ es => scratchErrorsWf es
  | .matrixBegin _ e => scratchErrorsWf e.rows
  | .vectorBegin _ e => scratchErrorsWf e.rows
  | .send _ _ _ es => scratchErrorsWf es
  | .overlayPortBegin _ o es => overlayErrorsWf o && scratchErrorsWf es
  | .streamDescriptorLoad _ es => overlayErrorsWf es
  | .ctrlStatusReport _ _ p => decide (p.what.length ≤ 255)
  | .colCoordination _ ⟨.supply mV mA, _⟩ => decide (mV < 2 ^ 32) && decide (mA < 2 ^ 32)
  | .streamDeliveryStart _ d => d.errs.all (fun e => RowError.wf 49152 e.2)
  | .maintenancePitch _ es => es.rows.all (fun e => RowError.wf 49152 e.2) && es.ovl.all (fun e => RowError.wf 2097152 e.2)
  | .differenceRecord _ r => r.wf
  | .repairRecord _ r => r.wf
  | .requestBufferWrite _ _ o bs => decide (o + bs.length ≤ 4096)
  | .stagingWrite _ o bs => decide (o + bs.length ≤ 0xF0000000)
  | .hostPageWrite _ _ bs => decide (bs.length = 2097152)
  | .operationComplete _ _ failed => distinct failed
  | .referenceLoss torn => distinct (torn.map (fun x => (x.1, x.2.1)))
  | .pllPhaseExcursion _ torn => distinct (torn.map (fun x => x.1))
  | .firmwareStart _ x => distinct x.failedTiles && distinct x.failedStacks && distinct x.failedLanes && distinct x.failedLinks
  | .fieldStageStart _ failed => distinct failed
  | .thermalSample _ rs => distinct (rs.map (fun r => r.1))
  | .gateWordWrite _ ws => distinct (ws.map (fun p => p.1))
  | _ => true

/-- A well-formed command: a tile instruction's word has the row's opcode, a frame its payload, and the other operands
lie in their ranges. -/
def Instr.wf (c : Instr) : Bool :=
  (match c.opcode with
    | none => true
    | some x => decide (x.2.toNat / 2 ^ 120 = x.1))
  && (match c.frame with
    | none => true
    | some f => f.wf)
  && c.operandsWf

end Sys2Proof
end

