-- ==== Sys2Proof/Tests/Slice0.lean ====
section
/-! SUPPORT. The model's own tests: every check of well-formedness refuses an ill-formed command; for every statement with
hypotheses a small state and operands that meet them, clause by clause; and figures that the spec itself works out. -/

namespace Sys2Proof.Tests

open Sys2Proof Sys2Proof.Machine

set_option Elab.async false

/-! ## States to test on -/

/-- Tile (0, 0) of slab 0. -/
def t0 : TileId := { slab := .s0, x := 0, y := 0 }

/-- A word of opcode `op` with the other bits `rest`. -/
def word (op rest : Nat) : IWord := BitVec.ofNat 128 (op * 2 ^ 120 + rest)

/-- A tile in use with all its gates on. -/
def tileOn : Tile := { Tile.reset with powered := 0xFFFFFF, gate := 0x1F }

/-- A sequencer that stands at word 0 of `ws`. -/
def seqOn (ws : List IWord) : Sequencer :=
  { Sequencer.reset with loaded := true, state := .issuing, store := storeWords [] 0 ws }

/-- A slab that runs, with its tile (0, 0) as given. -/
def slabOn (t : Tile) : Slab :=
  { Slab.reset with
    clocks := { Clocks.reset with running := true, cycle := 1000 }
    fields := [(0, { Field.reset with powered := true })]
    camp := { Camp.reset with firmware := .running, restartCause := 0 }
    tiles := [((0, 0), t)] }

/-- The module in split mode with both slabs running, the PCIe link up and both functions in use. -/
def sOn (t : Tile) : State :=
  { State.reset with
    slab0 := slabOn t, slab1 := slabOn tileOn
    shared := { Shared.reset with perstN := true, linkUp := true }
    fn0 := { Func.reset with busMaster := true }, fn1 := { Func.reset with busMaster := true } }

/-- The running module with slab 0 changed. -/
def sl0 (f : Slab → Slab) : State := { sOn tileOn with slab0 := f (slabOn tileOn) }

/-- The running module whose tile (0, 0) stands with sequencer `q` at the words `ws`. -/
def sAt (q : SeqId) (ws : List IWord) : State := sOn (tileOn.setSeq q (seqOn ws))

/-! ## Well-formed commands: each check refuses an ill-formed one -/

def frame0 : ZFrame := { header := 0, payload := [], lane := 0, check := .clean }

def record0 : DiffRecord :=
  { kind := 1, wfmt := 0, object := 0, block := 0, step := 0, fingerprint := 0, seq := 0, source := 0, unit := 0, payload := [] }

def rowErr (row symbols : Nat) : RowError :=
  { row := row, pattern := (List.range symbols).map (fun k => (⟨k % 72, Nat.mod_lt _ (by decide)⟩, 1)), merge := false }

theorem test_wf_opcode : (Instr.nop t0 .fwd (word 0x01 0)).wf = false ∧ (Instr.nop t0 .fwd (word 0x00 7)).wf = true := by decide

theorem test_wf_frame : (Instr.probe .s0 0 frame0 0 0).wf = false ∧ frame0.wf = false := by decide

theorem test_wf_rows :
    (Instr.matrixBegin t0 { rows := [rowErr 49152 1], parity := false }).wf = false
      ∧ (Instr.vectorBegin t0 { rows := [rowErr 0 0], parity := false }).wf = false
      ∧ (Instr.matrixBegin t0 { rows := [rowErr 49151 1], parity := false }).wf = true
      ∧ (Instr.ifillDone t0 .fwd [rowErr 0 0]).wf = false ∧ (Instr.send t0 .svc (word 0x20 0) [rowErr 49152 1]).wf = false
      ∧ (Instr.overlayPortBegin t0 [rowErr 2097152 1] []).wf = false ∧ (Instr.overlayPortBegin t0 [] [rowErr 49152 1]).wf = false
      ∧ (Instr.streamDescriptorLoad t0 [rowErr 0 0]).wf = false
      ∧ (Instr.maintenancePitch .s0 ⟨[(t0, rowErr 49152 1)], []⟩).wf = false
      ∧ (Instr.maintenancePitch .s0 ⟨[], [(t0, rowErr 2097152 1)]⟩).wf = false
      ∧ (Instr.streamDeliveryStart .s0 ⟨0, [(t0, { rowErr 0 1 with pattern := [(0, 0)] })]⟩).wf = false
      ∧ (Instr.matrixBegin t0 { rows := [{ rowErr 0 1 with pattern := [(5, 1), (5, 2)] }], parity := false }).wf = false := by decide

theorem test_wf_records :
    (Instr.differenceRecord .s0 { record0 with kind := 5 }).wf = false ∧ (Instr.repairRecord .s0 { record0 with kind := 0 }).wf = false
      ∧ (Instr.differenceRecord .s0 record0).wf = true := by decide

theorem test_wf_ranges :
    (Instr.ctrlStatusReport .s0 0 ⟨List.replicate 256 0, .clean⟩).wf = false
      ∧ (Instr.colCoordination .s0 ⟨.supply (2 ^ 32) 0, .clean⟩).wf = false ∧ (Instr.requestBufferWrite .s0 0 4096 [0]).wf = false
      ∧ (Instr.requestBufferWrite .s0 0 4095 [0]).wf = true ∧ (Instr.stagingWrite .s0 0xF0000000 [0]).wf = false
      ∧ (Instr.hostPageWrite .s0 0 []).wf = false := by decide +kernel

theorem test_wf_distinct :
    (Instr.operationComplete .s0 0 [1, 1]).wf = false ∧ (Instr.referenceLoss [(.s0, 0, 0, 0), (.s0, 0, 1, 1)]).wf = false
      ∧ (Instr.pllPhaseExcursion .s0 [(0, 0, 0), (0, 1, 1)]).wf = false ∧ (Instr.fieldStageStart .s0 [3, 3]).wf = false
      ∧ (Instr.thermalSample .s0 [(.tile 0, 1), (.tile 0, 2)]).wf = false
      ∧ (Instr.gateWordWrite .s0 [(.module, 0), (.module, 1)]).wf = false
      ∧ (Instr.firmwareStart .s0 { failedTiles := [], failedStacks := [1, 1], failedLanes := [], failedLinks := [] }).wf = false := by
  decide

/-! ## Tile instructions (chapters 4, 5, 9 and 10) -/

def stateOf (q : SeqId) (st : SeqState) : State := sOn (tileOn.setSeq q { seqOn [] with state := st })

theorem witness_WaitsHoldOnlyTheirSequencer :
    (sAt .fwd [word 0x00 0]).issuable t0 .fwd 0x00 (word 0x00 0) = true
      ∧ (sAt .bwd [word 0x01 (5 * 2 ^ 80)]).issuable t0 .bwd 0x01 (word 0x01 (5 * 2 ^ 80)) = true
      ∧ (sAt .svc [word 0x02 0]).issuable t0 .svc 0x02 (word 0x02 0) = true
      ∧ ((sAt .fwd [word 0x03 0]).issuable t0 .fwd 0x03 (word 0x03 0) = true
          ∧ opOf (((sAt .fwd [word 0x03 0]).seqAt t0 .fwd).word 1) ≠ 0x02)
      ∧ ((sAt .fwd [word 0x03 0, word 0x02 0]).issuable t0 .fwd 0x03 (word 0x03 0) = true
          ∧ opOf (((sAt .fwd [word 0x03 0, word 0x02 0]).seqAt t0 .fwd).word 1) = 0x02
          ∧ ctlSD (((sAt .fwd [word 0x03 0, word 0x02 0]).seqAt t0 .fwd).word 1) = ctlSD (word 0x03 0)) := by decide

theorem witness_WaitEndsAtItsCycleOrArrivalCount :
    ((stateOf .fwd (.waitCycle 1000)).live t0 = true ∧ ((stateOf .fwd (.waitCycle 1000)).seqAt t0 .fwd).state = .waitCycle 1000
        ∧ 1000 ≤ (stateOf .fwd (.waitCycle 1000)).cycle .s0)
      ∧ (((stateOf .fwd (.waitArr 2 0 none 999)).seqAt t0 .fwd).state = .waitArr 2 0 none 999
          ∧ 999 < (stateOf .fwd (.waitArr 2 0 none 999)).cycle .s0
          ∧ (0 : Word).toNat ≤ (((stateOf .fwd (.waitArr 2 0 none 999)).tile t0).ac.get 2).toNat)
      ∧ (((stateOf .fwd (.waitArr 2 0 (some 7) 999)).seqAt t0 .fwd).state = .waitArr 2 0 (some 7) 999
          ∧ (0 : Word).toNat ≤ (((stateOf .fwd (.waitArr 2 0 (some 7) 999)).tile t0).ac.get 2).toNat)
      ∧ (Sequencer.reset.spans = [] ∧ 7 < 8) := by decide

theorem witness_ScalarWritesReachOneRegister :
    (sAt .fwd [word 0x04 (3 * 2 ^ 116)]).issuable t0 .fwd 0x04 (word 0x04 (3 * 2 ^ 116)) = true
      ∧ (sAt .fwd [word 0x05 0]).issuable t0 .fwd 0x05 (word 0x05 0) = true := by decide

theorem witness_BranchesGoToTheirTarget :
    (sAt .fwd [word 0x08 (4095 * 2 ^ 80)]).issuable t0 .fwd 0x08 (word 0x08 (4095 * 2 ^ 80)) = true
      ∧ (sAt .bwd [word 0x09 0]).issuable t0 .bwd 0x09 (word 0x09 0) = true := by decide

/-- A tile whose service sequencer stands at an IFILL of the upper half of the forward store. -/
def wFill : IWord := word 0x0C (2 ^ 117)

def fill0 (rows : Nat) : Fill := { target := .fwd, half := true, row := 48640, begun := 400, next := 1000, rows := List.replicate rows 0 }

def sFilling : State := sOn { tileOn with fills := [fill0 512] }

theorem witness_IfillLocksCopiesAndUnlocks :
    fillSeq wFill = some .fwd ∧ (sAt .svc [wFill]).issuable t0 .svc 0x0C wFill = true
      ∧ ((∀ f ∈ ((sAt .svc [wFill]).tile t0).fills, f.target ≠ .fwd)
          ∧ halfOf (((sAt .svc [wFill]).tile t0).seq .fwd).pc ≠ fillHalf wFill)
      ∧ (let s := sOn (tileOn.setSeq .svc { seqOn [wFill] with state := .stalled 4 })
         s.live t0 = true ∧ (s.tile t0).svc.state = .stalled 4 ∧ (s.tile t0).svc.word (s.tile t0).svc.pc = wFill ∧ opOf wFill = 0x0C
          ∧ (∀ f ∈ (s.tile t0).fills, f.target ≠ .fwd) ∧ halfOf ((s.tile t0).seq .fwd).pc ≠ fillHalf wFill)
      ∧ (let a := { tileOn with fills := [fill0 511] }
         a.fills = [fill0 511] ∧ a.port.moves = [] ∧ (fill0 511).rows.length < 512)
      ∧ (sFilling.live t0 = true ∧ (sFilling.tile t0).fills = [fill0 512] ∧ (fill0 512).rows.length = 512
          ∧ (fill0 512).next ≤ sFilling.cycle .s0 ∧ 48640 + 512 ≤ spRows ∧ ∀ i : Nat, i < 24 → (sFilling.tile t0).powered.getLsbD i = true) := by
  decide +kernel

def sBelayed : State := sOn { tileOn.setSeq .fwd { seqOn [] with state := .inBelay 2 } with released := [{ ch := 2, seenAt := 1000 }] }

/-- A tile entry with nothing in it. -/
def entry0 : TileEntry :=
  { x := 0, y := 0, banks := 0xFFFFFF, stack := 8, bufRows := 0, bufBase := 0, progFwd := 0, progBwd := 0, progSvc := 0, resident := 0 }

def sReached : State :=
  sOn { tileOn.setSeq .fwd { seqOn [] with state := .inBelay 0 } with entry := some entry0 }

theorem witness_BelayHoldsUntilRelease :
    (sAt .fwd [word 0x10 (2 * 2 ^ 80)]).issuable t0 .fwd 0x10 (word 0x10 (2 * 2 ^ 80)) = true
      ∧ (sReached.live t0 = true ∧ sReached.belayReady t0 0 = true)
      ∧ (sBelayed.live t0 = true ∧ (sBelayed.tile t0).released = [{ ch := 2, seenAt := 1000 }] ∧ 1000 ≤ sBelayed.cycle .s0) := by decide

theorem witness_WrongWordsFault :
    ((sAt .fwd [word 0x20 0]).live t0 = true ∧ ((sAt .fwd [word 0x20 0]).tile t0).atIssue .fwd 1000 (word 0x20 0) = true
        ∧ opClass (opOf (word 0x20 0)) ≠ .reserved ∧ classAllowed .fwd (opClass (opOf (word 0x20 0))) = false
        ∧ ((sAt .fwd [word 0x20 0]).seqAt t0 .fwd).fetchLocked = false)
      ∧ (((sAt .fwd []).seqAt t0 .fwd).ready 1000 = true ∧ 2 ≤ bitErrors (word 0 3) (((sAt .fwd []).seqAt t0 .fwd).word 0)
          ∧ bitErrors (word 0 1) (((sAt .fwd []).seqAt t0 .fwd).word 0) < 2)
      ∧ (((sAt .fwd [word 0x06 0]).seqAt t0 .fwd).ready 1000 = true ∧ word 0x06 0 = ((sAt .fwd [word 0x06 0]).seqAt t0 .fwd).word 0
          ∧ opClass (opOf (word 0x06 0)) = .reserved) := by decide

theorem witness_MatrixInstructionsCaptureAndQueue :
    (sAt .fwd [word 0x48 0]).issuable t0 .fwd 0x48 (word 0x48 0) = true ∧ (sAt .fwd [word 0x40 0]).issuable t0 .fwd 0x40 (word 0x40 0) = true
      ∧ (sAt .bwd [word 0x41 0]).issuable t0 .bwd 0x41 (word 0x41 0) = true
      ∧ (sAt .bwd [word 0x42 0]).issuable t0 .bwd 0x42 (word 0x42 0) = true := by decide

/-- A tile in a pitch of the image: its faults are raised at the root. -/
def sImagePitch : State :=
  { sReached with slab0 := { sReached.slab0 with root := { Root.reset with running := true, kind := .image }, job := { Job.reset with ran := true } } }

theorem witness_TileFaultIsRecordedAndRaised : sImagePitch.participates t0 = true ∧ sReached.participates t0 = false := by decide

/-! ### The engines -/

def mmaEntry (w : IWord) : MatrixEntry :=
  { seq := .fwd, word := w, issued := 900, order := 0, descA := .zero, descB := .zero, i0A := 0, i0B := 0, k0 := 0 }

def sMatrix (w : IWord) : State := sOn { tileOn with matrix := { MatrixEngine.reset with queue := [mmaEntry w] } }

/-- An MMA of one row, one column and one product of FP32 elements (formats 0). -/
def wMma : IWord := word 0x40 0

theorem witness_MmaAccumulatesItsEntries :
    (sMatrix wMma).live t0 = true ∧ opOf (mmaEntry wMma).word = 0x40 ∧ ((sMatrix wMma).tile t0).matrixHead 1000 = some (mmaEntry wMma) := by
  decide

theorem witness_BanksLoadStoreAndDrain :
    ((sMatrix (word 0x41 0)).live t0 = true ∧ ((sMatrix (word 0x41 0)).tile t0).matrixHead 1000 = some (mmaEntry (word 0x41 0)))
      ∧ ((sMatrix (word 0x42 0)).live t0 = true ∧ ((sMatrix (word 0x42 0)).tile t0).matrixHead 1000 = some (mmaEntry (word 0x42 0)))
      ∧ (let s := sOn { tileOn with matrix := { MatrixEngine.reset with undrained := [(true, 1000)] } }
         s.live t0 = true ∧ (s.tile t0).matrix.undrained = [(true, 1000)] ∧ 1000 ≤ s.cycle .s0) := by decide

def vecEntry (w : IWord) : VectorEntry := { seq := .fwd, word := w, issued := 900, order := 0, sb := 0, idx := 0, sidx := 0 }

def sVector (w : IWord) : State := sOn { tileOn with vector := { VectorEngine.reset with queue := [vecEntry w] } }

theorem witness_VectorInstructionsQueueInOrder :
    ∀ p ∈ vectorInstructions t0 .fwd (word 0x84 0), (sAt .fwd [word p.2 0]).issuable t0 .fwd p.2 (word p.2 0) = true := by decide

theorem witness_VectorResultsFillTheirRegister :
    ∀ op ∈ [0x80, 0x84, 0x85, 0x86, 0x87, 0x88, 0x89, 0x8A, 0x98, 0x99, 0x9A, 0xA0, 0xA1, 0xA2, 0xA8, 0xA9, 0xAA, 0xB0],
      (sVector (word op 0)).live t0 = true ∧ ((sVector (word op 0)).tile t0).vectorHead 1000 = some (vecEntry (word op 0))
        ∧ op ∉ [0xB1, 0xB8, 0xB9] ∧ (op, op) ∈ (vectorInstructions t0 .fwd (word op 0)).map (fun p => (p.2, p.2)) := by decide

theorem witness_VectorStoreAndFlagInstructions :
    (((sVector (word 0xB1 0)).tile t0).vectorHead 1000 = some (vecEntry (word 0xB1 0))
        ∧ 0 < ((sVector (word 0xB1 0)).tile t0).vectorLength 1000 (vecEntry (word 0xB1 0)))
      ∧ ((sVector (word 0xB8 0)).tile t0).vectorHead 1000 = some (vecEntry (word 0xB8 0))
      ∧ ((sVector (word 0xB9 0)).tile t0).vectorHead 1000 = some (vecEntry (word 0xB9 0)) := by decide

/-! ### Service instructions -/

theorem witness_SendQueuesItsMessage :
    ((sAt .svc [word 0x20 0]).issuable t0 .svc 0x20 (word 0x20 0) = true ∧ ((sAt .svc [word 0x20 0]).tile t0).unacked < 64
        ∧ sendInGrid .split (word 0x20 0) = true)
      ∧ (let s := sOn { tileOn.setSeq .svc (seqOn [word 0x20 0]) with unacked := 64 }
         s.issuable t0 .svc 0x20 (word 0x20 0) = true ∧ 64 ≤ (s.tile t0).unacked) := by decide

/-- A message of `rows` rows of a word, from row 0 on, with its first row read or not. -/
def sendJob (rows flits : Nat) (half : Option Row) (at_ : Nat) : SendJob :=
  { word := word 0x20 ((rows - 1) * 2 ^ 86), phase := 0, msg := 0, src := 0, drow := 0, flits := flits, half := half, readAt := at_, errs := [] }

theorem witness_MessagesAreInjectedRowByRow :
    (let j := sendJob 2 0 none 1003
     let a := { tileOn with sends := [j] }
     a.sends = j :: [] ∧ j.errs = [] ∧ j.readAt ≤ 1003 ∧ (a.router.input .loc false).length < 8 ∧ j.half = none
      ∧ slotFrom (j.src + 2 * j.flits) 3 1003 = 1003 ∧ 2 * j.flits + 1 < sendRows j.word)
      ∧ (let j := sendJob 3 1 none 1001
         j.half = none ∧ j.readAt ≤ 1001 ∧ slotFrom (j.src + 2 * j.flits) 3 1001 = 1001 ∧ 2 * j.flits + 1 = sendRows j.word)
      ∧ (let j := sendJob 3 0 (some 7) 1004
         j.half = some 7 ∧ slotFrom (j.src + 2 * j.flits + 1) 3 1004 = 1004 ∧ 2 * j.flits + 2 < sendRows j.word)
      ∧ (let j := sendJob 2 0 (some 7) 1004
         j.half = some 7 ∧ slotFrom (j.src + 2 * j.flits + 1) 3 1004 = 1004 ∧ sendRows j.word ≤ 2 * j.flits + 2) := by decide +kernel

theorem witness_PortRowsArrive :
    ∀ m ∈ [PortAct.take 0 0 1096 0, .store 0 5, .fetch 0 0, .deliver 0 5, .uncairn 0 noCairn],
      (let a := { tileOn with port := { OverlayPort.reset with moves := [(1000, m)] } }
       a.port.moves = [(1000, m)] ∧ 1000 ≤ (1000 : Nat)) := by decide +kernel

theorem witness_PortInstructionsQueue :
    ∀ op ∈ [0x24, 0x28, 0x29, 0x2A, 0x2B, 0x2C], (sAt .svc [word op 0]).issuable t0 .svc op (word op 0) = true := by decide

def portEntry (w : IWord) : PortEntry := { word := w, issued := 999, idx := 0, didx := 0 }

/-- An image without objects, with `placements` and one sequence context of one frame. -/
def image0 (placements : List Placement) : Image :=
  { joined := false, signed := false, keyId := [], declaredLost := 0, pairs := 0
    pitch := { length := 50176, margin := 512, stretchLimit := 1024, maintLength := 65536, maintIntervalLog2 := 20, joined := false
               flagsReserved := 0, phaseBelays := 0, reserved := 0 }
    step := { stepLength := 4, microbatches := 1, split := 0, gate := 0, maxNorm := 0, skipNorm := 0, fp8Overflow := 0, feeds := 0
              diffGroup := 0, reserved := 0 }
    objects := [], updateList := [], contexts := [{ valid := true, segBase := 0, segFrames := 1, reserved := 0 }], collectives := []
    windows := [], feeds := [], data := [], placements := placements, digest := [] }

/-- A job that runs the image. -/
def jobOn (im : Image) : Job := { Job.reset with state := .running, image := some im, inStep := true }

/-- A tile whose overlay port has `w` at its head and context 0 at SP `sp`, with a cairn at CP 0 when `sp` is not 0. -/
def sPort (w : IWord) (none_ : Bool) (cp sp : Nat) : State :=
  let s := sOn { tileOn with entry := some entry0, port := { OverlayPort.reset with queue := [portEntry w] }, ctxs := [(0, mkCtx none_ cp sp)] }
  let im := image0 []
  { s with slab0 := { s.slab0 with job := jobOn im, camp := { s.slab0.camp with contexts := im.contexts } } }

/-- The head of the port, and the pointer words it acts on. -/
def portReady (s : State) (w : IWord) : Bool := s.live t0 && decide ((s.tile t0).portHead 1000 = some (portEntry w))

theorem witness_OverlayPortMovesRows :
    (portReady (sPort (word 0x28 0) true 0 32767) (word 0x28 0) = true
        ∧ ctxSP (((sPort (word 0x28 0) true 0 32767).tile t0).ctx 0) + 1 ≤ 32768 * ((sPort (word 0x28 0) true 0 32767).stackEnv .s0 0).frames)
      ∧ (portReady (sPort (word 0x28 0) true 0 32768) (word 0x28 0) = true
          ∧ 32768 * ((sPort (word 0x28 0) true 0 32768).stackEnv .s0 0).frames < ctxSP (((sPort (word 0x28 0) true 0 32768).tile t0).ctx 0) + 1)
      ∧ (portReady (sPort (word 0x29 0) true 0 1) (word 0x29 0) = true
          ∧ takeAllowed (((sPort (word 0x29 0) true 0 1).tile t0).ctx 0) 1 1 = true)
      ∧ (portReady (sPort (word 0x2A 0) false 0 1) (word 0x2A 0) = true
          ∧ takeAllowed (((sPort (word 0x2A 0) false 0 1).tile t0).ctx 0) 1 1 = false)
      ∧ (portReady (sPort (word 0x2B 0) true 0 1) (word 0x2B 0) = true
          ∧ takeAllowed (((sPort (word 0x2B 0) true 0 1).tile t0).ctx 0) 1 1 = true)
      ∧ (portReady (sPort (word 0x2C 0) true 0 32767) (word 0x2C 0) = true ∧ stkRemove (word 0x2C 0) = false
          ∧ ctxSP (((sPort (word 0x2C 0) true 0 32767).tile t0).ctx 0) + 1 ≤ 32768)
      ∧ (portReady (sPort (word 0x2C (2 ^ 59)) false 0 1) (word 0x2C (2 ^ 59)) = true ∧ stkRemove (word 0x2C (2 ^ 59)) = true
          ∧ ctxNone (((sPort (word 0x2C (2 ^ 59)) false 0 1).tile t0).ctx 0) = false
          ∧ ctxSP (((sPort (word 0x2C (2 ^ 59)) false 0 1).tile t0).ctx 0) = ctxCP (((sPort (word 0x2C (2 ^ 59)) false 0 1).tile t0).ctx 0) + 1
          ∧ bits (((sPort (word 0x2C (2 ^ 59)) false 0 1).tile t0).ovlRow (stackRow 0 0)) 15 0 = stkLabel (word 0x2C (2 ^ 59)))
      ∧ (portReady (sPort (word 0x24 (8 * 2 ^ 114 + 32767 * 2 ^ 99)) true 0 0) (word 0x24 (8 * 2 ^ 114 + 32767 * 2 ^ 99)) = true
          ∧ (entry0.stack) ≤ ovrdFrame (word 0x24 (8 * 2 ^ 114 + 32767 * 2 ^ 99))
          ∧ addIdx (ovrdFrow (word 0x24 (8 * 2 ^ 114 + 32767 * 2 ^ 99))) 0 + ovrdRows (word 0x24 (8 * 2 ^ 114 + 32767 * 2 ^ 99)) ≤ 32768) := by
  decide +kernel

/-! ## Mesh and control network (chapter 7) -/

/-- A one-row flit of kind `kind` and phase `phase` from (0, 0) to (x, y), LAST as given. -/
def flit (kind phase : Nat) (last : Bool) (x y : Nat) : Flit :=
  { header := mkHeader kind phase last true 2 64 x y (x * 128 + y) 0 0, data := 5, msg := 0, reached := 0, detours := [], trail := [], heading := none
    col := 0, tagHeld := false }

/-- The router of tile (0, 0) with one input queue. -/
def sInput (inp : InPort) (f : Flit) : State := sOn { tileOn with router := { Router.reset with inputs := [((inp, false), [f])] } }

def sRouter (r : Router) : State := sOn { tileOn with router := r }

/-- Slab 0 in a hold. -/
def inHold (s : State) : State :=
  { s with slab0 := { s.slab0 with root := { s.slab0.root with running := true, inHold := true } } }

theorem witness_FlitsLeaveByTheirOutputs :
    (let f := flit 0 0 true 1 0
     let s := sInput .loc f
     (s.slab .s0).ready = true ∧ (s.tile t0).router.input .loc false = f :: [] ∧ f.kind ≠ 1
      ∧ (s.clearFails t0 .loc).holdDiscards t0 f = false
      ∧ (s.clearFails t0 .loc).mayForward t0 .loc false f ((s.clearFails t0 .loc).flitOuts t0 f) = true)
      ∧ (let f := flit 0 0 true 1 0
         let z := inHold (sInput (.mesh .east) f)
         let s := { z with slab0 := { z.slab0 with lostFields := [0] } }
         (s.tile t0).router.input (.mesh .east) false = f :: [] ∧ (s.clearFails t0 (.mesh .east)).holdDiscards t0 f = true
          ∧ s.neighbour t0 .east = some { slab := .s0, x := 1, y := 0 })
      ∧ (let f := flit 1 0 true 1 1
         let s := sInput .loc f
         f.kind = 1 ∧ (s.tile t0).router.input .loc false = f :: [] ∧ s.mayForward t0 .loc false f (s.flitOuts t0 f) = true ∧ f.last = true
          ∧ (s.tile t0).router.combine.length < 16)
      ∧ (let f := { flit 1 0 true 0 1 with heading := some .north }
         let z := sInput (.mesh .east) f
         let s := { z with slab0 := { z.slab0 with hole := [0] } }
         f.kind = 1 ∧ (s.tile t0).router.input (.mesh .east) false = f :: []
          ∧ s.mayForward t0 (.mesh .east) false f (s.flitOuts t0 f) = true ∧ f.last = true ∧ s.flitOuts t0 f = []) := by decide +kernel

def ackOf (way : List Dir) : Ack := { sx := 4, sy := 5, msg := 3, trail := way }

def combineOf (n : Nat) : Combine := { sx := 4, sy := 5, msg := 3, remaining := n, trail := [.north] }

theorem witness_EjectedRowsAreWrittenAndAcknowledged :
    (let f := { flit 0 1 true 0 0 with tagHeld := true }
     let s := sRouter { Router.reset with eject := [f] }
     (s.slab .s0).ready = true ∧ (s.tile t0).router.eject = f :: [] ∧ s.tagAhead t0 f.phase = true ∧ f.tagHeld = true)
      ∧ (let f := flit 2 0 true 0 0
         let s := sRouter { Router.reset with eject := [f] }
         (s.tile t0).router.eject = f :: [] ∧ s.tagAhead t0 f.phase = false ∧ f.kind = 2)
      ∧ (let f := flit 0 0 true 0 0
         let s := sRouter { Router.reset with eject := [f] }
         (s.tile t0).router.eject = f :: [] ∧ s.tagAhead t0 f.phase = false ∧ f.kind ≠ 2)
      ∧ (let s := sRouter { Router.reset with acks := [ackOf []] }
         (s.tile t0).router.acks = [ackOf []] ∧ (ackOf []).trail = [] ∧ alookup 3 (s.tile t0).forwards = none)
      ∧ (let s := sRouter { Router.reset with acks := [ackOf [.east, .north]] }
         let n : TileId := { slab := .s0, x := 1, y := 0 }
         (s.tile t0).router.acks = [ackOf [.east, .north]] ∧ s.neighbour t0 .east = some n ∧ s.ackRoom n (ackOf [.north]) = true)
      ∧ (let s := sRouter { Router.reset with combine := [combineOf 2] }
         (∀ c ∈ (s.tile t0).router.combine, c.takes (ackOf [.east]) = false) ∧ (combineOf 2).takes (ackOf [.north]) = true
          ∧ (combineOf 1).takes (ackOf [.north]) = true ∧ (s.tile t0).router.combine = [combineOf 2]
          ∧ ((sRouter { Router.reset with combine := [combineOf 1] }).tile t0).router.combine = [combineOf 1]) := by decide +kernel

theorem witness_RetriesResendOrFailTheLink :
    ∀ n ∈ [14, 15], (let s := sRouter { Router.reset with outs := [(.east, { pending := [(false, flit 0 0 true 1 0)], retries := n, flitFails := 2 })] }
      (s.slab .s0).ready = true ∧ Dir.east ∉ (s.tile t0).router.failed ∧ s.shared.mode = .split
        ∧ s.neighbour t0 .east = some { slab := .s0, x := 1, y := 0 } ∧ ((s.tile t0).router.out .east).pending ≠ []
        ∧ ((n = 14 → ((s.tile t0).router.out .east).retries < 15 ∧ ((s.tile t0).router.out .east).flitFails < 3)
          ∧ (n = 15 → 15 ≤ ((s.tile t0).router.out .east).retries)
          ∧ (let z := sRouter { (s.tile t0).router with failed := [.east] }
             Dir.east ∈ (z.tile t0).router.failed ∧ ((z.tile t0).router.out .east).pending = (false, flit 0 0 true 1 0) :: []
              ∧ stepDir z.shared.mode .east (gx z.shared.mode t0) t0.y.val = some (1, 0)))) := by decide +kernel

/-- A release that base camp has seen and tile (0, 0) has not, or the other way round. -/
def sReleasing (camp tile : Nat) : State :=
  sOn { tileOn with releasedAt := tile } |> fun s => { s with
    slab0 := { s.slab0 with root := { s.slab0.root with releases := 5 }, camp := { s.slab0.camp with releasedAt := camp } } }

theorem witness_ControlWritesReachTheirRegister :
    ((sReleasing 900 2000).reachable t0 = true ∧ (sReleasing 900 2000).tagAhead t0 ((sReleasing 900 2000).campReleases .s0 % 4) = true)
      ∧ (∀ s ∈ [sOn tileOn, inHold (sOn tileOn), sImagePitch], s.tagAhead t0 (s.campReleases .s0 % 4) = false)
      ∧ (sOn tileOn).reachable t0 = true ∧ (2 ^ 63 : DWord).getLsbD 63 = true ∧ (0 : DWord).getLsbD 63 = false
      ∧ ((inHold (sOn tileOn)).reachable t0 = true ∧ (inHold (sOn tileOn)).mayWriteTile .s0 = true)
      ∧ (sImagePitch.reachable t0 = true ∧ sImagePitch.mayWriteTile .s0 = false) := by decide +kernel

def ctrlReq (attempts at_ : Nat) : CtrlReq := { tag := 7, attempts := attempts, packet := .read t0 (.pc .fwd), sentAt := at_ }

def sCtrl (attempts at_ : Nat) : State := sl0 (fun sl =>
  { sl with clocks := { sl.clocks with cycle := 200000 }
            camp := { sl.camp with ctrlOutstanding := [ctrlReq attempts at_], ctrlResponses := [(7, 9, 0)] } })

theorem witness_ControlReadsAnswerRepeatAndGiveUp :
    ((sOn tileOn).reachable t0 = true ∧ (∀ r ∈ ((sOn tileOn).slab .s0).camp.ctrlOutstanding, r.tag ≠ 7)
        ∧ (sOn tileOn).tagAhead t0 ((sOn tileOn).campReleases .s0 % 4) = false)
      ∧ ((sCtrl 1 200000).reachable t0 = true ∧ ((sCtrl 1 200000).slab .s0).camp.ctrlOutstanding = [ctrlReq 1 200000]
          ∧ alookup 7 ((sCtrl 1 200000).slab .s0).camp.ctrlResponses = some (9, 0)
          ∧ (sCtrl 1 200000).campAhead .s0 0 = false)
      ∧ (((sCtrl 3 68928).slab .s0).camp.ctrlOutstanding = [{ ctrlReq 1 200000 with attempts := 3, sentAt := 68928 }]
          ∧ 68928 + 131072 ≤ (sCtrl 3 68928).cycle .s0 ∧ 3 < 4)
      ∧ (((sCtrl 4 68928).slab .s0).camp.ctrlOutstanding = [{ ctrlReq 1 200000 with attempts := 4, sentAt := 68928 }] ∧ 4 ≤ 4)
      ∧ ((0x8000 : Half).getLsbD 15 = true ∧ (sOn tileOn).nodeTile .s0 0 = some t0
          ∧ (sOn tileOn).campAhead .s0 ((sOn tileOn).tileReleases t0) = false) := by decide

theorem witness_ColMessagesReachThePeer :
    ((sOn tileOn).slab .s0).ready = true ∧ ((sOn tileOn).slab .s1).ready = true ∧ (sOn tileOn).shared.colControl = true
      ∧ (sOn tileOn).shared.mode = .split ∧ (sOn tileOn).campAhead .s1 ((sOn tileOn).campReleases .s0) = false := by decide

def loadReq : LoadReq :=
  { requester := { slab := .s0, x := 1, y := 0 }, vpn := 0, offset := 0, frame := 8, row := 0, count := 1, mcast := false, ctr := 0, drow := 0, x0 := 1, y0 := 0, x1 := 1, y1 := 0 }

/-- A lending tile with a read of page 0 before it, and the page table entries. -/
def sLender (pages : List (Nat × DWord)) : State :=
  sOn { tileOn with lending := true, loads := [loadReq] } |> fun s => { s with
    slab0 := { s.slab0 with mem := { s.slab0.mem with pages := pages } } }

theorem witness_LendingTileServesReads :
    (let s := sLender [(0, pteWithRes (mkPte false 0 0 0) 2 0 0 8)]
     (s.slab .s0).ready = true ∧ bit (s.tile t0).gate gateStream = true ∧ (s.tile t0).loads = loadReq :: [] ∧ s.canLend t0 = true
      ∧ s.holdsPage t0 loadReq = true ∧ (s.tile t0).unacked < 64)
      ∧ (sLender []).holdsPage t0 loadReq = false ∧ (sOn tileOn).canLend t0 = false := by decide +kernel

/-! ## Pitch, belays and holds (chapters 2 and 13) -/

theorem witness_HeartbeatsToggleAndDie :
    ∀ c ∈ [4095, 4096], (let s := sl0 (fun sl => { sl with clocks := { sl.clocks with cycle := c } })
      (s.slab .s0).ready = true ∧ ((s.slab .s0).field 0).powered = true ∧ ((0 : Fin 17), (0 : Fin 17)) ∉ ((s.slab .s0).field 0).dead
        ∧ ((s.slab .s0).field 0).clamped = false
        ∧ (c = 4095 → (s.slab .s0).clocks.cycle < (s.slab .s0).lastToggle 0 (0, 0) + 4096)
        ∧ (c = 4096 → (s.slab .s0).lastToggle 0 (0, 0) + 4096 ≤ (s.slab .s0).clocks.cycle)
        ∧ ((s.slab .s0).field 0).logicalAt 0 (0, 0) = some (0, 0) ∧ ((s.slab .s0).field 0).logicalAt 0 (16, 16) = none) := by decide

/-- Slab 0's root `count` cycles into an image pitch of length 900, its check due at `deadline`; the tile has arrived or not. -/
def sPitch (arrived : Bool) (deadline s_ : Nat) (kind : PitchKind) : State :=
  let t := { tileOn with entry := some entry0, arrivals := if arrived then [{ ch := 0, seenAt := 900 }, { ch := 1, seenAt := 900 }] else [] }
  let z := sOn t
  { z with slab0 := { z.slab0 with root := { Root.reset with
      running := true, kind := kind, length := 900, deadline := deadline, stretchLimit := s_ } } }

theorem witness_TickStretchesAndOverruns :
    ((sPitch true 1000 1024 .image).rootReady .s0 = true ∧ ((sPitch true 1000 1024 .image).root .s0).inHold = false
        ∧ 1000 ≤ (sPitch true 1000 1024 .image).rootCount .s0 ∧ (sPitch true 1000 1024 .image).tickMissing .s0 1000 = false)
      ∧ ((sPitch false 1000 101 .image).tickMissing .s0 1000 = true
          ∧ ((sPitch false 1000 101 .image).root .s0).deadline < ((sPitch false 1000 101 .image).root .s0).length + 101)
      ∧ ((sPitch false 1000 100 .image).tickMissing .s0 1000 = true ∧ ((sPitch false 1000 100 .image).root .s0).causes = []
          ∧ ((sPitch false 1000 100 .image).root .s0).length + 100 ≤ ((sPitch false 1000 100 .image).root .s0).deadline)
      ∧ ∃ c : Cause, ({ (sPitch false 1000 100 .image).root .s0 with causes := [c] } : Root).causes ≠ [] := by
  refine ⟨by decide, by decide, by decide, ⟨{ code := 2, slab := .s0, field := none, tile := none, unit := none, stamp := .zero }, by decide⟩⟩

def cause (code : Byte) (u : Option (Fin 24)) : Cause :=
  { code := code, slab := .s0, field := none, tile := none, unit := u, stamp := .zero }

/-- Slab 0 at the end of an idle pitch, with its causes and parks, in a step or not. -/
def sParked (step : Bool) (cs ps : List Cause) : State :=
  let z := sPitch true 1000 100 .idle
  { z with slab0 := { z.slab0 with root := { z.slab0.root with causes := cs, parks := ps }, job := { z.slab0.job with inStep := step } } }

theorem witness_ReleasesBeginTheDuePitch :
    ((sPitch false 1000 100 .image).holdOver .s0 = false ∧ (sPitch false 1000 100 .image).pitchOver .s0 = false)
      ∧ (∀ b ∈ [true, false], (let s := sParked b [] []
          s.holdOver .s0 = false ∧ s.pitchOver .s0 = true ∧ (((s.endPitch .s0).root .s0).causes = []) ∧ ((s.endPitch .s0).root .s0).parks = []))
      ∧ (let s := sParked false [] [cause 0x09 (some 0)]
         s.pitchOver .s0 = true ∧ ((s.endPitch .s0).job .s0).inStep = false ∧ ((s.endPitch .s0).root .s0).parks ≠ [])
      ∧ (let s := sParked true [cause 0x08 none] []
         s.pitchOver .s0 = true ∧ ((s.endPitch .s0).root .s0).causes ≠ [])
      ∧ (let s := sl0 (fun sl => { sl with root := { Root.reset with running := true, inHold := true, takenOver := true, routersEmpty := true } })
         s.holdOver .s0 = true) := by decide +kernel

def placement0 : Placement :=
  { number := 0, slab := .s0, stepLength := 4, pitchLength := 50176, margin := 512, stretchLimit := 1024, tiles := 1, covers := 0
    reserved := 0, entries := [entry0], stores := [], members := [{ ch := 2, x := 0, y := 0, seqs := 1, reserved := 0 }], streams := [], arms := []
    resident := [], digest := [] }

def sRegion (arrived : Bool) : State :=
  let t := { tileOn with entry := some entry0, arrivals := if arrived then [{ ch := 1, seenAt := 900 }, { ch := 2, seenAt := 900 }] else [] }
  let z := sOn t
  { z with slab0 := { z.slab0 with root := { Root.reset with running := true, kind := .image }, job := jobOn (image0 [placement0]) } }

theorem witness_BelaysReleaseOnceAllArrived :
    (∀ a ∈ [true, false], (sRegion a).rootReady .s0 = true ∧ ((sRegion a).root .s0).inHold = false ∧ ((sRegion a).root .s0).kind = .image)
      ∧ (∃ k ∈ (sRegion false).devSlabs .s0, ∃ p ∈ ((sRegion false).slab k).participants,
          (sRegion false).arrivedBy .s0 k p 1 ((sRegion false).rootCount .s0) = false)
      ∧ ((∀ k ∈ (sRegion true).devSlabs .s0, ∀ p ∈ ((sRegion true).slab k).participants,
            (sRegion true).arrivedBy .s0 k p 1 ((sRegion true).rootCount .s0) = true)
          ∧ ∃ k ∈ (sRegion true).devSlabs .s0, ((sRegion true).slab k).participants ≠ [])
      ∧ (∃ k ∈ (sRegion false).devSlabs .s0, ∃ p ∈ (sRegion false).regionMembers k 2,
          (sRegion false).arrivedBy .s0 k ((p.1, p.2), ((sRegion false).slab k).tile p.1 p.2) 2 ((sRegion false).rootCount .s0) = false)
      ∧ ((∀ k ∈ (sRegion true).devSlabs .s0, ∀ p ∈ (sRegion true).regionMembers k 2,
            (sRegion true).arrivedBy .s0 k ((p.1, p.2), ((sRegion true).slab k).tile p.1 p.2) 2 ((sRegion true).rootCount .s0) = true)
          ∧ ∃ k ∈ (sRegion true).devSlabs .s0, (sRegion true).regionMembers k 2 ≠ []) := by decide

/-- A job between two steps, with a gate of `gate` blocks and a feed that is full or not. -/
def sGate (gate : Nat) : State := sl0 (fun sl =>
  let im := image0 []
  { sl with job := { jobOn { im with step := { im.step with gate := gate } } with inStep := false, step := 1 } })

theorem witness_StepGateOpensWhenItsConditionsHold :
    ∀ g ∈ [0, 1], ((sGate g).slab .s0).ready = true ∧ ((sGate g).slab .s0).camp.firmware = .running ∧ ((sGate g).job .s0).state = .running
      ∧ ((sGate g).job .s0).inStep = false ∧ ((sGate g).job .s0).gateMet = false
      ∧ (g = 1 → (sGate g).gateBlocks .s0 = false) ∧ (g = 0 → (sGate g).gateBlocks .s0 = true ∧ (sGate g).feedsReady .s0 = true)
      ∧ (sl0 (fun sl => { sl with root := { Root.reset with indexInStep := 4 }, job := { jobOn (image0 []) with step := 1 } })).stepPitches .s0 ≤ 4 := by
  decide

def sCause (cs : List Cause) (g : Root → Root) : State :=
  sl0 (fun sl => { sl with root := g { Root.reset with running := true, causes := cs } })

def sStack (g : Stack → Stack) : State := sl0 (fun sl => { sl with stackList := [(0, g Stack.reset)] })

theorem witness_CausesEnterAHold :
    (((sOn tileOn).slab .s0).ready = true ∧ ((sOn tileOn).slab .s0).camp.firmware = .running ∧ ((sOn tileOn).root .s0).causes = []
        ∧ ((sOn tileOn).root .s0).parks = [])
      ∧ (((sStack (fun x => { x with critical := true })).slab .s0).stack 0).critical = true
      ∧ (((sStack (fun x => { x with critical := true })).slab .s0).stack 0).state = .good
      ∧ (((sStack (fun x => { x with state := .failed })).slab .s0).stack 0).state = .failed
      ∧ (((sStack (fun x => { x with state := .controllerLost })).slab .s0).stack 0).state = .controllerLost
      ∧ ((sl0 (fun sl => { sl with job := { Job.reset with stopAsked := true } })).job .s0).stopAsked = true
      ∧ (((sCause [] id).root .s0).running = true ∧ ((sCause [] id).root .s0).inHold = false ∧ ((sCause [] id).root .s0).causes = []
          ∧ ((sCause [] id).root .s0).parks = [])
      ∧ ((sCause [cause 0x08 none] id).root .s0).causes ≠ []
      ∧ (∀ d ∈ [0, 2000], (let s := sCause [] (fun r => { r with parks := [cause 0x09 (some 0)], deadline := d })
          (s.root .s0).causes = [] ∧ (s.root .s0).parks ≠ [] ∧ s.pitchOver .s0 = decide (d = 0)
            ∧ (d = 0 → ((s.endPitch .s0).job .s0).inStep = false)))
      ∧ ∀ f ∈ [false, true], (({ tileOn with failed := f }.setSeq .fwd (seqOn [])).seq .fwd).loaded = true := by decide

def sHold (empty past : Bool) (cs : List Cause) : State :=
  sCause cs (fun r => { r with inHold := true, routersEmpty := empty, takenOver := past })

theorem witness_HoldsEmptyRoutersAndRecover :
    ((sHold false false []).rootReady .s0 = true ∧ ((sHold false false []).root .s0).inHold = true
        ∧ ((sHold false false []).root .s0).routersEmpty = false
        ∧ ∀ k ∈ (sHold false false []).devSlabs .s0, ∀ p ∈ ((sHold false false []).slab k).tiles, p.2.router.eject = []
            ∧ ∀ f ∈ p.2.router.flits, (sHold false false []).discarded (tileId k p.1.1 p.1.2) f = true)
      ∧ (sHold false false []).canRecover .s0 = false
      ∧ ((sHold true false [cause 0x08 (some 0)]).canRecover .s0 = true ∧ ((sHold true false [cause 0x08 (some 0)]).root .s0).causes ≠ [])
      ∧ ((sHold true true []).canRecover .s0 = true ∧ ((sHold true true []).root .s0).causes = []
          ∧ ((sHold true true []).root .s0).takenOver = true ∧ ((sHold true true []).job .s0).primed = []) := by decide +kernel

/-! ## Streams and memory (chapters 8, 9 and 13) -/

/-- A READ descriptor of one run of 64 bytes, delivered to tile (0, 0) at local cycle `dstart`. -/
def desc (mode : Nat) (commit : Bool) (dstart : Nat) : StreamDesc :=
  { mode := mode, memFmt := 0, meshFmt := 0, mcast := false, towardZero := false, remote := false, commit := commit, depth := 2, object := 1
    ctr := 0, atomop := 0, runBytes := 64, runs := 1, rstride := 64, x0 := 0, y0 := 0, x1 := 0, y1 := 0, drow := 0, dstride := 1, dsbase := 0
    dflip := 0, waitph := 0, dstart := dstart, arm0 := 0, start0 := 0, reserved := 0 }

def arm0 : ArmRecord := { ebase := 0, sbase := 0, padv := 0, npass := 1, period := 1, gap := 0, next := 0xFFFF, reserved := 0 }

/-- A parameter object of one block at address 0, of copy `copy` and protection `prot`. -/
def obj (prot : Nat) (copy : Half) : ObjectEntry :=
  { object := 1, cls := 0, prot := prot, hint := 0, flags := 1, base := 0, size := 2097152, stack0 := 0, replicas := 0, dataOffset := 0
    reserved := 0
    update := { rule := 0, wfmt := 8, mfmt := 8, flags := 0, group := 0, accum := 1, lr := 0, wd := 0, beta1 := 0, beta2 := 0, eps := 0, eta := 0
                delta0 := 0, rootInterval := 0, copy := copy, firstPos := 0, nblocks := 1, reserved := 0 } }

/-- An object without an update descriptor, which the parameter object's copy may be. -/
def copyObj : ObjectEntry := { obj 0 0xFFFF with object := 2, flags := 0, base := 2097152 }

def streamImage (d : StreamDesc) (o : ObjectEntry) : Image :=
  { image0 [{ placement0 with streams := [d], arms := [arm0] }] with objects := [o], updateList := [1] }

def tPortal : TileId := streamTile .s0 0

/-- Slab 0 in an image pitch of the image, its portal tile (8, 0) with `rows` buffer rows and the translations of pages 0 and 1,
its objects mapped on stack 0, and a descriptor state. -/
def sStream (d : StreamDesc) (rows : Nat) (st : StreamState) : State := sl0 (fun sl =>
  let t := { tileOn with entry := some { entry0 with x := 8, bufRows := rows }, xlate := [(0, mkPte false 0 0 0)] }
  { sl with
    tiles := [((0, 0), tileOn), ((8, 0), t)]
    root := { Root.reset with running := true, kind := .image }
    job := jobOn (streamImage d (obj 0 0xFFFF))
    mem := { Memory.reset with pages := [(0, mkPte false 0 0 0), (1, mkPte false 0 0 1)], objects := [obj 0 0xFFFF, copyObj] }
    streams := [(0, st)] })

def loaded : StreamState := { StreamState.reset with state := 1 }

def fetching : StreamState := { loaded with state := 2, fetching := true }

def pass0 (d : StreamDesc) : Pass := { desc := d, arm := arm0, j := 0, at_ := 0 }

/-- The running module with descriptors 0 and 8 alike. -/
def sTwo : State :=
  let d := desc 0 false 0
  let s := sStream d 1 loaded
  let im := streamImage d (obj 0 0xFFFF)
  { s with slab0 := { s.slab0 with
      job := jobOn { im with placements := [{ placement0 with streams := List.replicate 9 d, arms := [arm0] }] }
      streams := [(0, loaded), (8, loaded)] } }

theorem witness_FetchesBeginWaitAndEnd :
    (∀ c ∈ [false, true], let s := sStream (desc 0 c 0) 1 loaded
      (s.slab .s0).ready = true ∧ s.passOf .s0 0 0 = some (pass0 (desc 0 c 0)) ∧ s.streamsStopped .s0 = false ∧ loaded.state ≠ 0
        ∧ loaded.fetching = false ∧ loaded.held = false
        ∧ s.fetchDue .s0 0 (pass0 (desc 0 c 0)) 0 = true ∧ s.fetchDue .s0 0 (pass0 (desc 0 c 0)) 2 = false
        ∧ (pass0 (desc 0 c 0)).desc.reads = true ∧ s.commitBlocks .s0 (pass0 (desc 0 c 0)) 1 = c ∧ ∀ x ∈ (s.slab .s0).streams, x.1 = 0)
      ∧ (sTwo.passOf .s0 8 0 = some (pass0 (desc 0 false 0)) ∧ sTwo.streamsStopped .s0 = false ∧ (0, loaded) ∈ (sTwo.slab .s0).streams
          ∧ streamTile .s0 0 = streamTile .s0 8 ∧ sTwo.fetchWaiting .s0 0 = some [0, 0, 0]
          ∧ lexLess [0, 0, 0] (sTwo.passKey .s0 8 0 (pass0 (desc 0 false 0))) = true)
      ∧ (let s := inHold (sStream (desc 0 true 0) 1 loaded)
         s.passOf .s0 0 0 = some (pass0 (desc 0 true 0)) ∧ s.streamsStopped .s0 = true)
      ∧ (let s := sStream (desc 0 true 0) 1 { loaded with held := true, fetchStep := 1 }
         s.passOf .s0 0 0 = some (pass0 (desc 0 true 0)) ∧ ((s.slab .s0).stream 0).held = true ∧ (s.root .s0).kind ≠ .maint)
      ∧ (let z := sStream (desc 0 true 0) 1 loaded
         let s := { z with slab0 := { z.slab0 with root := { z.slab0.root with kind := .maint } } }
         s.passOf .s0 0 0 = some (pass0 (desc 0 true 0)) ∧ (s.root .s0).kind = .maint ∧ (s.root .s0).inHold = false)
      ∧ (let s := sStream (desc 0 true 0) 1 { fetching with returned := [0] }
         s.passOf .s0 0 0 = some (pass0 (desc 0 true 0)) ∧ ((s.slab .s0).stream 0).fetching = true
          ∧ (pass0 (desc 0 true 0)).desc.returns ≤ ((s.slab .s0).stream 0).returned.length)
      ∧ ((0 : Nat) = fetching.returned.length ∧ fetching.returned.length < (desc 0 true 0).returns) := by decide +kernel

/-- The one piece of the run, read from stack 0, before and in the buffer. -/
def piece0 (rows : List Nat) : BufferedRun :=
  { step := 0, pass := 0, run := 0, epoch := 0, offset := 0, rows := rows, scaleBytes := 0, holder := tPortal, lent := none }

theorem witness_ReadsReturnIntoTheBuffer :
    (∀ rows ∈ [0, 1], let s := sStream (desc 0 false 0) rows fetching
      s.passOf .s0 0 0 = some (pass0 (desc 0 false 0)) ∧ (pass0 (desc 0 false 0)).desc.reads = true ∧ (pass0 (desc 0 false 0)).desc.mode ≠ 2
        ∧ (s.job .s0).epoch = 0 ∧ ((s.slab .s0).stream 0).fetching = true ∧ 0 < (desc 0 false 0).runs ∧ (s.root .s0).kind ≠ .maint
        ∧ s.withholds .s0 0 64 = false ∧ s.withholds .s0 0 0 = false
        ∧ ((s.tile tPortal).translated 0 64 && (s.tile tPortal).translated 0 0) = true
        ∧ s.fetchRun .s0 0 0 (pass0 (desc 0 false 0)) ((s.slab .s0).stream 0) = some [([0], piece0 [])]
        ∧ s.fits [([0], piece0 [])] (((s.slab .s0).stream 0).missing 0) = decide (rows = 1))
      ∧ (let s := sStream { desc 0 false 0 with runs := 2 } 1 fetching
         (s.slab .s0).ready = true ∧ (s.tile tPortal).translated 4194304 64 = false ∧ (1 : Half) ≠ (s.job .s0).epoch) := by decide +kernel

theorem witness_GathersReturnIntoTheBuffer :
    (∀ rows ∈ [0, 1], let s := sStream (desc 2 false 0) rows fetching
          s.passOf .s0 0 0 = some (pass0 (desc 2 false 0)) ∧ (pass0 (desc 2 false 0)).desc.mode = 2 ∧ 64 * 0 < (desc 2 false 0).runs
            ∧ (s.tile tPortal).translated 0 4 = true ∧ (s.tile tPortal).translated 0 64 = true ∧ s.withholds .s0 0 64 = false
            ∧ s.indexAt .s0 (pass0 (desc 2 false 0)) 0 = 0 ∧ s.readRangeD .s0 0 64 = List.replicate 64 0
            ∧ s.fits [(paddedRows (List.replicate 64 0), piece0 [])] (((s.slab .s0).stream 0).missing 0) = decide (rows = 1))
      ∧ (∀ res ∈ [0, 2], let e := pteWithRes (mkPte false 0 0 0) res 0 0 8
          let z := sStream (desc 0 false 0) 1 fetching
          let s := { z with slab0 := { z.slab0 with mem := { z.slab0.mem with pages := [(0, e)] } } }
          rowGroups ((pass0 (desc 0 false 0)).runAddr 0).1 64 = [(0, 0, 1, false)] ∧ s.pte .s0 0 = some (.s0, e)
            ∧ s.readRange .s0 0 64 = some (List.replicate 64 0) ∧ s.readRange .s0 0 0 = some [] ∧ pteRes e = res ∧ (desc 0 false 0).mode = 0) := by
  decide +kernel

theorem witness_FetchedPassesAreDelivered :
    (let s := sStream (desc 0 false 1000) 1 { loaded with fetchStep := 1 }
     (s.slab .s0).ready = true ∧ s.passOf .s0 0 0 = some (pass0 (desc 0 false 1000)) ∧ (s.root .s0).inHold = false ∧ (s.root .s0).kind = .image
        ∧ (pass0 (desc 0 false 1000)).desc.reads = true ∧ loaded.state ≠ 0 ∧ loaded.delivering = false ∧ s.localCycle tPortal = 1000
        ∧ (s.root .s0).schedIndex = 0 ∧ 0 * s.stepLength .s0 + (pass0 (desc 0 false 1000)).at_ = 0
        ∧ (0 + 1) * s.stepLength .s0 = 4 ∧ ∀ x ∈ (s.slab .s0).streams, x.1 = 0)
      ∧ (let s := sStream (desc 0 false 1001) 1 { loaded with fetchStep := 1 }
         s.passOf .s0 0 0 = some (pass0 (desc 0 false 1001)) ∧ (s.root .s0).schedIndex.toNat = 0 * s.stepLength .s0 + 0
          ∧ s.localCycle tPortal < 1001)
      ∧ (let st := { loaded with run := 1, fetchStep := 1 }
         (desc 0 false 0).mode ≠ 10 ∧ (desc 0 false 0).returns ≤ st.run ∧ st.tail = [])
      ∧ (loaded.run < (desc 0 false 0).returns ∧ loaded.fetched 0 = false)
      ∧ (∀ b ∈ [piece0 [5], { piece0 [] with lent := some (0, 0, 1) }],
          let st := { loaded with fetchStep := 1, buffer := [b] }
          st.run < (desc 0 false 0).returns ∧ st.fetched st.run = true ∧ st.nextPiece = some b ∧ b.scaleBytes = 0 ∧ st.errs = [])
      ∧ (∀ n ∈ [63, 64], decide (64 ≤ ((sOn { tileOn with unacked := n }).tile t0).unacked) = decide (n = 64)) := by decide +kernel

theorem witness_MissesWalkThePageTable :
    (let s := sStream (desc 0 false 0) 1 loaded
     (s.slab .s0).ready = true ∧ isPortal t0 = true ∧ isPortal { t0 with x := 5, y := 50 } = false ∧ isPortal tPortal = true
      ∧ ((s.tile tPortal).cached 0).isSome = true ∧ (s.tile tPortal).cached 1 = none ∧ s.pte .s0 1 = some (.s0, mkPte false 0 0 1)
      ∧ s.pte .s0 2 = none) := by decide +kernel

/-- A portal flit from tile (0, 0) for descriptor 0. -/
def portalFlit (sx : Nat) : Flit := { flit 2 0 true 8 0 with header := mkHeader 2 0 true true 0 0 8 0 0 sx 0 }

def sPortal (d : StreamDesc) (st : StreamState) (f : Flit) : State :=
  (sStream d 1 st).modRouter tPortal (fun r => { r with portal := [f] })

theorem witness_PortalFlitsFillTheirRunOrAreDropped :
    (let f := portalFlit 0
     let s := sPortal (desc 1 false 0) loaded f
     (s.slab .s0).ready = true ∧ bit (s.tile tPortal).gate gateStream = true ∧ (s.tile tPortal).router.portal = f :: [] ∧ f.queue = 0
      ∧ (s.root .s0).inHold = false ∧ (s.placement .s0).bind (fun p => p.stream f.queue) = some (desc 1 false 0) ∧ isPortal tPortal = true
      ∧ streamTile .s0 f.queue = tPortal ∧ (desc 1 false 0).accepts = true ∧ ((s.slab .s0).stream f.queue).state ≠ 0
      ∧ (desc 1 false 0).sourceNo f.sx f.sy = some 0
      ∧ s.passOf .s0 f.queue (((s.slab .s0).stream f.queue).cursor 0).1 = some (pass0 (desc 1 false 0)))
      ∧ ((desc 1 false 0).sourceNo (portalFlit 1).sx (portalFlit 1).sy = none ∧ (desc 0 false 0).accepts = false)
      ∧ ((sOn tileOn).placement .s0).bind (fun p => p.stream 0) = none
      ∧ ((portalFlit 0).forward = none ∧ ((sPortal (desc 1 false 0) loaded (portalFlit 0)).root .s0).kind = .image)
      ∧ (∀ busy ∈ [false, true], let f := { portalFlit 0 with forward := some { addr := 0, bytes := 64, remote := false } }
          let z := sPortal (desc 1 false 0) loaded f
          let s := { z with slab0 := { z.slab0 with root := { z.slab0.root with kind := if busy then .maint else .image, task := taskRefresh } } }
          (s.tile tPortal).router.portal = f :: [] ∧ f.forward.isSome = true ∧ s.stacksBusy .s0 = busy)
      ∧ ((inHold (sPortal (desc 1 false 0) loaded (portalFlit 0))).root .s0).inHold = true := by decide +kernel

def atomicOf (op : BitVec 4) (addr : Nat) : Atomic :=
  { op := op, addr := addr, sector := false, mask := 0, operand := 1, compare := 0, tile := tPortal, sx := 0, sy := 0, msg := 0 }

def sAtomic (a : Atomic) : State :=
  (sStream (desc 0 false 0) 1 loaded).modSlab .s0 (fun sl => { sl with stackList := [(0, { Stack.reset with atomics := [a] })] })

theorem witness_AtomicsReplaceTheirSector :
    (∀ a ∈ [atomicOf 0 1, atomicOf 15 0], ((sAtomic a).slab .s0).ready = true ∧ (((sAtomic a).slab .s0).stack 0).atomics = a :: [] ∧ a.bad = true)
      ∧ ((atomicOf 0 4194304).bad = false ∧ (sAtomic (atomicOf 0 4194304)).pte .s0 (vpnOf 4194304) = none)
      ∧ ((atomicOf 0 32).bad = false ∧ (sAtomic (atomicOf 0 32)).pte .s0 (vpnOf 32) = some (.s0, mkPte false 0 0 0)
          ∧ (((sAtomic (atomicOf 0 32)).allocLines .s0 32 32).slab .s0).sector 0 0 1 = some 0) := by decide +kernel

def sDelta (kind : StripeKind) : State := sl0 (fun sl =>
  { sl with stackList := [(1, { Stack.reset with deltas := [{ frame := 1, sector := 65535, delta := 5 }] })]
            mem := { Memory.reset with stripes := [(1, kind)] } })

theorem witness_ParityTakesItsDeltas :
    ((sDelta .parity).slab .s0).ready = true ∧ (((sDelta .parity).slab .s0).stack 1).deltas = [{ frame := 1, sector := 65535, delta := 5 }]
      ∧ ((sDelta .parity).slab .s0).stackUp 1 = true ∧ alookup 1 ((sDelta .parity).slab .s0).mem.stripes = some .parity
      ∧ alookup 1 ((sDelta .unprotected).slab .s0).mem.stripes ≠ some .parity := by decide

/-- Slab 0 with page 0 of protection `prot` on stack 0 of the given state, and a migration of it to stack 2. -/
def sPage (prot : Nat) (st : StackState) (o : ObjectEntry) : State := sl0 (fun sl =>
  { sl with
    job := jobOn { image0 [] with objects := [o], updateList := [1] }
    stackList := [(0, { Stack.reset with state := st })]
    mem := { Memory.reset with
      pages := [(0, mkPte false prot 0 0)], objects := [o], stripes := if prot = 1 then [(0, .parity)] else [(0, .open_)]
      moving := [{ vpn := 0, toStack := 2, toFrame := 7 }] } })

theorem witness_UncorrectableSectorsAreServed :
    (∀ p ∈ [0, 1, 2], ((sPage p .good (obj p 0xFFFF)).slab .s0).ready = true
      ∧ alookup 0 ((sPage p .good (obj p 0xFFFF)).slab .s0).mem.pages = some (mkPte false p 0 0) ∧ pteProt (mkPte false p 0 0) = p
      ∧ pteStack (mkPte false p 0 0) < 24 ∧ ((sPage p .good (obj p 0xFFFF)).slab .s0).stackUp 0 = true)
      ∧ ((sPage 1 .good (obj 1 0xFFFF)).slab .s0).rebuiltSector 0 0 65535 = some 0
      ∧ (let s := sPage 1 .good (obj 1 0xFFFF)
         let z := { s.slab0 with mem := { s.slab0.mem with stripes := [(0, .unprotected)] } }
         z.rebuiltSector 0 0 65535 = none ∧ z.stackUp 0 = true)
      ∧ ((sPage 1 .failed (obj 1 0xFFFF)).slab .s0).stackUp 0 = false := by decide +kernel

/-- The migration in a pitch of kind `k` with base camp's task `task`. -/
def sMigrating (k : PitchKind) (task : Nat) : State :=
  let s := sPage 0 .good (obj 0 0xFFFF)
  { s with slab0 := { s.slab0 with root := { s.slab0.root with running := true, kind := k, task := task } } }

theorem witness_MigrationsMoveTheHome :
    (let s := sMigrating .maint 3
     (s.slab .s0).ready = true ∧ (s.slab .s0).mem.moving = [{ vpn := 0, toStack := 2, toFrame := 7 }]
      ∧ alookup 0 (s.slab .s0).mem.pages = some (mkPte false 0 0 0)
      ∧ ((s.modSlab .s0 (fun sl => sl.flushFrame 0 0)).slab .s0).frameCells 0 0 = some [] ∧ (s.root .s0).inHold = false
      ∧ (s.root .s0).kind = .maint ∧ (s.root .s0).task = 3 ∧ s.pageQuiet .s0 0 = true)
      ∧ ((sMigrating .image 3).root .s0).kind ≠ .maint ∧ ((sMigrating .maint 2).root .s0).task ≠ 3
      ∧ ((inHold (sMigrating .maint 3)).root .s0).inHold = true := by decide +kernel

/-- Every stack of slab 0 in one state but stack 3. -/
def sStacks (st st3 : StackState) : State := sl0 (fun sl =>
  { sl with stackList := stacks24.map (fun k => (k, { Stack.reset with state := if k = 3 then st3 else st })) })

theorem witness_StacksLeaveService :
    (((sStack id).slab .s0).ready = true ∧ (((sStack id).slab .s0).stack 0).state.lost = false)
      ∧ (((sStack (fun x => { x with state := .failed })).slab .s0).stack 0).state.lost = true
      ∧ (((sStack (fun x => { x with state := .controllerLost })).slab .s0).stack 0).state = .controllerLost
      ∧ ((((sStacks .failed .good).slab .s0).stack 3).state ≠ .controllerLost
          ∧ (((sStacks .failed .good).setStack .s0 3 .controllerLost).slab .s0).nextStack 3 = none)
      ∧ ((((sStack id).slab .s0).stack 0).state ≠ .controllerLost ∧ (((sStack id).setStack .s0 0 .controllerLost).slab .s0).nextStack 0 = some 1)
      ∧ (((sHold true false [cause 0x09 (some 0)]).root .s0).inHold = true ∧ ((sHold true false [cause 0x09 (some 0)]).slab .s0).stackUp 0 = true
          ∧ ∃ c ∈ ((sHold true false [cause 0x09 (some 0)]).root .s0).causes, c.code = 0x09 ∧ c.slab = .s0 ∧ c.unit = some (0 : Fin 24)) := by
  decide +kernel

theorem witness_PagesAreRebuilt :
    (let s := sPage 1 .good (obj 1 0xFFFF)
     (s.slab .s0).ready = true ∧ alookup 0 (s.slab .s0).mem.pages = some (mkPte false 1 0 0) ∧ (s.slab .s0).stackUp 0 = true
      ∧ 0 ∉ (s.slab .s0).mem.withheld ∧ 0 ∈ ({ (s.slab .s0).mem with withheld := [0] } : Memory).withheld)
      ∧ (let s := sPage 0 .failed (obj 0 0xFFFF)
         (s.slab .s0).pageReadable (mkPte false 0 0 0) = false ∧ s.restorable .s0 0 = false)
      ∧ (let z := sPage 0 .failed (obj 0 2)
         let s := { z with slab0 := { z.slab0 with
           mem := { z.slab0.mem with pages := [(0, mkPte false 0 0 0), (9, mkPte false 1 0 1)], stripes := [(0, .open_), (1, .parity)] } } }
         s.restorable .s0 0 = true ∧ s.unrestorableWaiting .s0 = true)
      ∧ (let s := sPage 1 .failed (obj 1 0xFFFF)
         (s.slab .s0).stackUp 0 = false ∧ ((s.slab .s0).frameCells 0 0).isSome = true ∧ (s.slab .s0).pageReadable (mkPte false 1 0 0) = true ∧ s.restorable .s0 0 = false
          ∧ ((s.slab .s0).rebuildTarget (mkPte false 1 0 0)).isSome = true)
      ∧ (let s := sPage 0 .failed (obj 0 2)
         (s.slab .s0).stackUp 0 = false ∧ (s.slab .s0).frameCells 0 0 = none ∧ s.restorable .s0 0 = true ∧ s.unrestorableWaiting .s0 = false
          ∧ ((s.slab .s0).rebuildTarget (mkPte false 0 0 0)).isSome = true ∧ s.pageObject .s0 0 = some (obj 0 2) ∧ (obj 0 2).isParam = true
          ∧ (obj 0 2).prot ≠ 2)
      ∧ (let s := sPage 2 .failed (obj 2 0xFFFF)
         (s.slab .s0).frameCells 0 0 = none ∧ s.restorable .s0 0 = true ∧ s.unrestorableWaiting .s0 = false
          ∧ ((s.slab .s0).rebuildTarget (mkPte false 2 0 0)).isSome = true ∧ s.pageObject .s0 0 = some (obj 2 0xFFFF) ∧ (obj 2 0xFFFF).prot = 2) := by
  decide +kernel

/-! ## The update units (chapters 10 to 12) -/

def unit0 : UpdateUnit := { UpdateUnit.reset with cstep := 0, pos := 1 }

/-- Slab 0 with the parameter object of one block (its page on stack 0) in the open window (1, 0), the unit of stack 0 as given. -/
def sUnit (o : ObjectEntry) (u : UpdateUnit) : State := sl0 (fun sl =>
  { sl with
    root := { Root.reset with running := true, kind := .image }
    job := { jobOn { image0 [] with objects := [o, copyObj], updateList := [1] } with step := 1, window := some (1, 0) }
    stackList := [(0, { Stack.reset with unit := u })]
    mem := { Memory.reset with pages := [(0, mkPte false 0 0 0), (1, mkPte false 0 0 1)], objects := [o, copyObj] } })

/-- The same with bytes of the block's header. -/
def sHeader (o : ObjectEntry) (u : UpdateUnit) (off : Nat) (bs : List Byte) : State := (sUnit o u).writeRange .s0 (o.planeAddr 0 0 + off) bs

def landing (block : Nat) : Landing := { object := 1, block := block, groups := [(127, 5, 127)], waiting := false, coll := none }

def oneLanding (b : Nat) : UpdateUnit := { unit0 with landings := [landing b] }

def stepResult (n : DWord) (skip : Bool) : SummitResult :=
  { step := n, skip := skip, lrMismatch := false, nonfinite := false, short := false, hostSkip := false, clip := 0x3F800000
    lrScale := 0x3F800000, gsq := 0, tau := [] }

theorem witness_LandingsAreTakenInOrder :
    (let s := sUnit (obj 0 2) (oneLanding 0)
     (s.slab .s0).ready = true ∧ nextLanding false [landing 0] = some 0 ∧ [landing 0][0]? = some (landing 0)
      ∧ (s.job .s0).window = some (1, 0) ∧ (s.landingObject .s0 (landing 0)) = some (obj 0 2) ∧ s.landingObject .s0 (landing 1) = none
      ∧ s.blockFrozen .s0 (obj 0 2) 0 = false ∧ s.landingWaits .s0 .s0 0 (obj 0 2) 0 1 = false)
      ∧ ((sOn tileOn).job .s0).window = none
      ∧ (sHeader (obj 0 2) (oneLanding 0) 0x14 [1]).blockFrozen .s0 (obj 0 2) 0 = true
      ∧ (let s := sUnit (obj 0 2) { oneLanding 0 with pos := 0 }
         s.blockFrozen .s0 (obj 0 2) 0 = false ∧ s.landingWaits .s0 .s0 0 (obj 0 2) 0 1 = true)
      ∧ (sHeader (obj 0 2) (oneLanding 0) 0x1C [1]).headerOk .s0 (obj 0 2) 0 = true
      ∧ (sUnit (obj 0 2) (oneLanding 0)).headerOk .s0 (obj 0 2) 0 = false
      ∧ (∀ p ∈ [0, 1], let l := { landing 0 with waiting := true }
          let s := sUnit (obj 0 2) { unit0 with landings := [l], pos := p }
          (s.job .s0).window = some (1, 0) ∧ s.landingObject .s0 l = some (obj 0 2)
            ∧ s.landingWaits .s0 .s0 0 (obj 0 2) 0 1 = decide (p = 0))
      ∧ nextLanding false [{ landing 0 with waiting := true }] = none := by decide +kernel

theorem witness_GroupsAreWrittenOrAdded :
    (0 : Nat).testBit (127 : Fin 128).val = false ∧ (2 ^ 127 : Nat).testBit (127 : Fin 128).val = true ∧ (landing 0).groups = [(127, 5, 127)]
      ∧ (sUnit (obj 0 2) unit0).landedIn .s0 (obj 0 2) 0 1 0 = 0 ∧ 0 + 1 < (obj 0 2).fullCount := by decide +kernel

theorem witness_CompleteUnitsContribute :
    (let s := sHeader (obj 0 2) unit0 0x20 (leBytes 1 8 ++ leBytes 0 2 ++ leBytes 128 2)
     (s.slab .s0).ready = true ∧ (s.job .s0).window = some (1, 0) ∧ (s.slab .s0).links.contributed = false
      ∧ ∀ u ∈ stacks24, s.incomplete .s0 .s0 u 1 0 = 0)
      ∧ (let s := sUnit (obj 0 2) unit0
         (s.slab .s0).links.contributed = false ∧ (∃ u ∈ stacks24, s.incomplete .s0 .s0 u 1 0 ≠ 0)
          ∧ ∀ im, s.image .s0 = some im → im.collectives = []) := by
  refine ⟨by decide +kernel, by decide +kernel, by decide +kernel, ?_⟩
  intro im h
  have e : (sUnit (obj 0 2) unit0).image .s0 = some { image0 [] with objects := [obj 0 2, copyObj], updateList := [1] } := by rfl
  rw [e] at h
  cases h
  rfl

/-- A port that is up, and a frame of `type` from endpoint 2, number `seq` of its link, for endpoint 0, its other fields `rest`. -/
def upPort : Port := { Port.reset with enabled := true, up := true, cable := true, working := 0xFF, lanes := 0xFF, rxSeq := 4094 }

def sLink (l : Links) : State := sl0 (fun sl => { sl with ports := [(0, upPort)], links := l })

/-- The same with a result of step `n`. -/
def sResult (n : DWord) : State :=
  (sUnit (obj 0 2) unit0).modSlab .s0 (fun sl => { sl with links := { sl.links with result := some (stepResult n true) } })

theorem witness_ResultClosesTheWindow :
    (sResult 1).dev .s0 = .s0 ∧ (sResult 2).dev .s0 = .s0
      ∧ (((sResult 1).slab .s0).ready = true ∧ ((sResult 1).slab .s0).links.result = some (stepResult 1 true)
        ∧ ((sResult 1).job .s0).window = some (1, 0))
      ∧ (((sResult 2).slab .s0).ready = true ∧ ((sResult 2).slab .s0).links.result = some (stepResult 2 true)
        ∧ ((sResult 2).job .s0).window = some (1, 0))
      ∧ (stepResult 1 true).step = 1 ∧ (stepResult 2 true).step ≠ 1 := by decide +kernel

/-- The unit of stack 0 with the result of step 1 in its commit word. -/
def sPass2 (u : UpdateUnit) : State :=
  let z := sUnit (obj 0 2) u
  { z with slab0 := { z.slab0 with job := { z.slab0.job with window := none, results := [stepResult 1 false] } } }

theorem witness_Pass2CommitsTheNextBlock :
    ((sPass2 { unit0 with cstep := 1, pos := 0 }).slab .s0).ready = true
      ∧ (sPass2 { unit0 with cstep := 1, pos := 0 }).pass2Next .s0 0 = some (obj 0 2, 0, stepResult 1 false)
      ∧ (sPass2 { unit0 with cstep := 1, pos := 0 }).headerOk .s0 (obj 0 2) 0 = false
      ∧ ((sPass2 { unit0 with cstep := 1, pos := 0 }).writeRange .s0 ((obj 0 2).planeAddr 0 0 + 0x1C) [1]).headerOk .s0 (obj 0 2) 0 = true
      ∧ (sPass2 { unit0 with cstep := 2, pos := 0 }).pass2Next .s0 0 = none ∧ (sPass2 { unit0 with cstep := 1, pos := 0, torn := true }).pass2Next .s0 0 = none := by
  decide +kernel

/-- A FROZEN setting of step `n` for the block. -/
def sFreeze (n : DWord) (z : State) : State :=
  { z with slab0 := { z.slab0 with job := { z.slab0.job with settings := [(n, .freeze 1 0 1 true)] } } }

theorem witness_FrozenChangesBetweenSteps :
    (((sFreeze 2 (sUnit (obj 0 2) unit0)).slab .s0).ready = true ∧ (sFreeze 2 (sUnit (obj 0 2) unit0)).objectNo .s0 1 = some (obj 0 2)
        ∧ ((sFreeze 2 (sUnit (obj 0 2) unit0)).job .s0).freezeOf 1 0 = some (2, true)
        ∧ (sFreeze 2 (sUnit (obj 0 2) unit0)).headerField .s0 (obj 0 2) 0 0x20 8 < (2 : DWord).toNat ∧ 0 < (obj 0 2).update.nblocks
        ∧ (2 : DWord).toNat ≤ ((sFreeze 2 (sUnit (obj 0 2) unit0)).job .s0).step.toNat + 1
        ∧ (sFreeze 2 (sUnit (obj 0 2) { unit0 with cstep := 1 })).landingWaits .s0 .s0 0 (obj 0 2) 0 2 = false)
      ∧ (sFreeze 1 (sUnit (obj 0 2) unit0)).blockOwner .s0 (obj 0 2) 0 = some (.s0, 0) ∧ (obj 0 2).isParam = true
      ∧ (sFreeze 1 (sUnit (obj 0 2) unit0)).landingWaits .s0 .s0 0 (obj 0 2) 0 1 = false
      ∧ ((sFreeze 3 (sUnit (obj 0 2) unit0)).job .s0).step.toNat + 1 < (3 : DWord).toNat
      ∧ (sFreeze 1 (sHeader (obj 0 2) unit0 0x20 [1])).headerField .s0 (obj 0 2) 0 0x20 8 = 1
      ∧ (sFreeze 1 (sHeader (obj 0 2) unit0 0x20 (leBytes (2 ^ 64 - 1) 8))).headerField .s0 (obj 0 2) 0 0x20 8 = 2 ^ 64 - 1
      ∧ (sFreeze 1 (sUnit (obj 0 2) { unit0 with pos := 0 })).landingWaits .s0 .s0 0 (obj 0 2) 0 1 = true := by decide +kernel

def jr0 : Journal := { object := 1, block := 0, step := 1, fieldPos := 0, sector := 0 }

def sLost (o : ObjectEntry) : State :=
  let z := sUnit o { unit0 with torn := true, journal := some jr0 }
  z.modSlab .s0 (fun sl => { sl with stackList := [(0, { sl.stack 0 with state := .failed })] })

theorem witness_UnitErrorsTearAndLostBlocksReset :
    (sPass2 { unit0 with cstep := 1, pos := 0 }).pass2Next .s0 0 = some (obj 0 2, 0, stepResult 1 false)
      ∧ (((sLost (obj 0 2)).slab .s0).ready = true ∧ (sLost (obj 0 2)).objectNo .s0 1 = some (obj 0 2)
          ∧ (∀ v ∈ stacks24, v ≠ 0 → (((sLost (obj 0 2)).slab .s0).stack v).unit.torn = false)
          ∧ (((sLost (obj 0 2)).slab .s0).stack 0).state.lost = true ∧ (((sLost (obj 0 2)).slab .s0).stack 0).unit.torn = true
          ∧ (((sLost (obj 0 2)).slab .s0).stack 0).unit.journal = some jr0 ∧ ((sLost (obj 0 2)).copyOf .s0 (obj 0 2)).isSome = true)
      ∧ ((sLost (obj 0 0xFFFF)).copyOf .s0 (obj 0 0xFFFF) = none ∧ (obj 0 0xFFFF).prot ≠ 2)
      ∧ jr0.object = 1 ∧ jr0.block = 0 := by decide +kernel

/-- A record of block 0 of object 1, of endpoint `src` and with fingerprint `fp`. -/
def recordOf (src : Half) (fp : DWord) : DiffRecord := { record0 with object := 1, source := src, fingerprint := fp, step := 1 }

def sReplica : State := sHeader (obj 2 2) unit0 0 (leBytes 1 8)

def sMember : State := sReplica.modSlab .s0 (fun sl => { sl with links := { sl.links with endpoint := 5, groups := [(0, { ranks := [4, 5], rank := 1, summit := false })] } })

theorem witness_RecordsReachTheirCopy :
    ((sUnit (obj 0 2) unit0).objectNo .s0 1 = some (obj 0 2) ∧ (obj 0 2).isParam = true ∧ (obj 0 2).prot ≠ 2
        ∧ (sUnit (obj 0 2) unit0).copyOf .s0 (obj 0 2) = some copyObj ∧ (sUnit (obj 0 0xFFFF) unit0).copyOf .s0 (obj 0 0xFFFF) = none
        ∧ (sUnit (obj 0 2) unit0).blockOwner .s0 (obj 0 2) 0 = some (.s0, 0))
      ∧ (sMember.objectNo .s0 1 = some (obj 2 2) ∧ (obj 2 2).prot = 2 ∧ (recordOf 4 7).source ≠ (sMember.slab .s0).links.endpoint
          ∧ sMember.replicaOwner .s0 (obj 2 2) = 4 ∧ sMember.blockStep .s0 (obj 2 2) 0 = 1
          ∧ sMember.headerField .s0 (obj 2 2) 0 8 8 ≠ (recordOf 4 7).fingerprint.toNat
          ∧ sMember.blockOwner .s0 (obj 2 2) 0 = some (.s0, 0) ∧ sMember.headerField .s0 (obj 2 2) 0 8 8 = (recordOf 4 0).fingerprint.toNat) := by
  decide +kernel

/-! ## Zetra links and the col (chapters 7 and 12) -/

/-- A frame of `type` with number `seq` of its link from endpoint 2 to endpoint `dest`, its remaining header bits `rest`. -/
def zframe (type seq dest rest : Nat) : ZFrame :=
  { header := BitVec.ofNat 128 (type * 2 ^ 124 + seq * 2 ^ 108 + dest * 2 ^ 71 + 2 * 2 ^ 55 + rest), payload := [], lane := 0, check := .clean }

/-- Frames of the number that follows. -/
def nextFrame (type rest : Nat) : ZFrame := zframe type 4095 0 rest

theorem witness_TreeFramesAddUp :
    Claims.forThis (sLink Links.reset) .s0 0 (nextFrame 4 0) 4 ∧ ((sOn tileOn).linkInOwn .s0 0 (nextFrame 4 0) 4).2 = false
      ∧ (Links.reset.addSummitPart (nextFrame 4 (2 ^ 22))).2 = none ∧ (Links.reset.addSummitPart (nextFrame 4 0)).2 = some []
      ∧ zSumDir (nextFrame 4 0).header = false ∧ zSumDir (nextFrame 4 (2 ^ 38)).header = true := by
  unfold Claims.forThis Claims.inOrder; decide +kernel

theorem witness_LinkTakesFramesInOrder :
    ((sLink Links.reset).slab .s0).ready = true ∧ (((sLink Links.reset).slab .s0).port 0).up = true
      ∧ (((sOn tileOn).slab .s0).port 0).up = false ∧ (zframe 5 4095 0 0).check = .clean ∧ zType (zframe 5 4095 0 0).header = 5
      ∧ zType (zframe 0 0 0 0).header = 0 ∧ (zLseq (zframe 5 4095 0 0).header - upPort.rxSeq).toNat = 1
      ∧ (zLseq (zframe 5 0 0 0).header - upPort.rxSeq).toNat = 2 ∧ (zLseq (zframe 5 14 0 0).header - upPort.rxSeq).toNat = 16
      ∧ (zLseq (zframe 5 15 0 0).header - upPort.rxSeq).toNat = 17 ∧ (zLseq (zframe 5 2045 0 0).header - upPort.rxSeq).toNat = 2047
      ∧ (zLseq (zframe 5 2046 0 0).header - upPort.rxSeq).toNat = 2048 ∧ (zLseq (zframe 5 4094 0 0).header - upPort.rxSeq).toNat = 0
      ∧ ({ zframe 5 0 0 0 with check := .uncorrectable } : ZFrame).check = .uncorrectable
      ∧ (let f := { zframe 5 0 0 0 with check := .badCrc }
         f.check = .badCrc ∧ zType f.header = 5)
      ∧ (6 ≤ zType (zframe 6 4095 0 0).header ∧ (zLseq (zframe 6 4095 0 0).header - upPort.rxSeq).toNat = 1)
      ∧ Claims.inOrder (sLink Links.reset) .s0 0 (nextFrame 5 0) 5 := by unfold Claims.inOrder; decide +kernel

theorem witness_TransitFramesFollowTheirRoute :
    zDest (zframe 1 4095 0 0).header = ((sLink Links.reset).slab .s0).links.endpoint ∧ zType (zframe 1 4095 0 0).header < 6
      ∧ Claims.inOrder (sLink Links.reset) .s0 0 (zframe 1 4095 7 0) 1
      ∧ zDest (zframe 1 4095 7 0).header ≠ ((sLink Links.reset).slab .s0).links.endpoint
      ∧ ((sLink Links.reset).linkIn .s0 0 (zframe 1 0 7 0) 1).2 = false
      ∧ ((Claims.taken (sLink Links.reset) .s0 0 (zframe 1 4095 7 0)).slab .s0).routeOf (zframe 1 4095 7 0) false = none
      ∧ ((Claims.taken (sLink { Links.reset with routes := [(7, 0x8000)] }) .s0 0 (zframe 1 4095 7 0)).slab .s0).routeOf
          (zframe 1 4095 7 0) false = some (0, 0) := by unfold Claims.inOrder; decide +kernel

def windowOf (kind : Nat) (opened : Bool) : WindowEntry :=
  { kind := kind, opened := opened, flagsReserved := 0, epoch := 3, object := 1, base := 0, size := 64, openAt := 0, closeAt := 0, reserved := 0 }

def coll0 : Collective := { object := 1, bb := 1, window := 1, nbuckets := 1, bpr := 1, group := 0, log := 0, land := 0, reserved := 0 }

/-- Group 0 of endpoints 0 and 2, window 0 of memory and window 1 of a collective. -/
def links0 : Links :=
  { Links.reset with
    groups := [(0, { ranks := [0, 2], rank := 0, summit := true })], windows := [(0, windowOf 1 true), (1, { windowOf 2 true with object := 0 }), (2, windowOf 1 false), (3, { windowOf 4 true with object := 0 })] }

def bucket0 : Bucket :=
  { coll := 0, bucket := 0, epoch := 1, acc := [], counted := [(1, 0)], lastFrom := [], complete := true, landing := 1, opened := 0, timeout := 500
    probes := 3 }

def engineOf (b : Bucket) : Engine := { Engine.reset with buckets := [b] }

/-- Slab 0 in the window of step 1 of an image with the collective, root engine 0 as given. -/
def sColl (e : Engine) (l : Links) : State := (sUnit (obj 0 2) unit0).modSlab .s0 (fun sl =>
  { sl with
    ports := [(0, upPort)], links := l, engines := [(0, e)]
    job := { sl.job with image := some { image0 [] with objects := [obj 0 2, copyObj], updateList := [1], collectives := [coll0] } } })

def fullEngine : Engine := { Engine.reset with staged := List.replicate 4096 { rank := 1, coll := 9, bucket := 9, block := 0, frags := [], own := false } }

/-- A frame taken by slab 0 with the collective. -/
def tookColl (e : Engine) (f : ZFrame) : State := Claims.taken (sColl e links0) .s0 0 f

theorem witness_WindowFramesAreCheckedThenServed :
    (∀ ty ∈ [1, 2], Claims.forThis (sColl Engine.reset links0) .s0 0 (nextFrame ty (2 ^ 47 + 2 ^ 31)) ty)
      ∧ ((sOn tileOn).linkInOwn .s0 0 (nextFrame 1 0) 1).2 = false ∧ ((sOn tileOn).linkInOwn .s0 0 (nextFrame 2 0) 2).2 = false
      ∧ (let z := tookColl Engine.reset (nextFrame 1 (3 * 2 ^ 31))
         z.windowCheck .s0 1 0 3 0 64 = none ∧ z.windowCheck .s0 1 0 3 0 65 = some .windowRange ∧ z.windowCheck .s0 1 0 2 0 64 = some .windowClosed
          ∧ z.windowCheck .s0 1 2 3 0 64 = some .windowClosed ∧ z.windowCheck .s0 1 1 1 0 64 = some .windowUnknown
          ∧ kindTakes (windowOf 1 true).kind 1 = true ∧ kindTakes (windowOf 1 true).kind 2 = false
          ∧ z.windowNow .s0 0 = (true, 3) ∧ (z.windowNow .s0 2).1 = false)
      ∧ ((sColl Engine.reset links0).slab .s0).window 3 = { windowOf 4 true with object := 0 }
      ∧ (let f := nextFrame 1 (3 * 2 ^ 47 + 3 * 2 ^ 31)
         (tookColl Engine.reset f).windowCheck .s0 1 (zWindow f.header) (zEpoch f.header) (64 * zOffset f.header) (64 * zRows f.header) = none
          ∧ zRows f.header = 1 ∧ ((sColl Engine.reset links0).tile (streamTile .s0 0)).unacked + zRows f.header ≤ 64
          ∧ 64 < 64 + zRows f.header)
      ∧ (let f := nextFrame 2 (2 ^ 47 + 2 ^ 31)
         let z := tookColl Engine.reset f
         z.windowCheck .s0 2 1 1 0 0 = none ∧ zWindow f.header = 1 ∧ zEpoch f.header = 1 ∧ (z.reduceTarget .s0 f).isSome = true
          ∧ z.reduceTarget .s0 (nextFrame 2 (2 ^ 47 + 2 ^ 31 + 2 ^ 8)) = none
          ∧ z.hasSlots .s0 0 0 0 1 1 = true ∧ z.hasSlots .s0 0 0 0 1 (engineSlots + 1) = false) := by
  unfold Claims.forThis Claims.inOrder; decide +kernel

def retained0 (again : Bool) : Retained := { coll := 0, bucket := 0, block := 0, epoch := 1, data := [], last := false, again := again }

def waitingEngine (at_ : Nat) (again : Bool) : Engine := { Engine.reset with retained := [retained0 again], resendAt := some at_ }

theorem witness_BucketsLandAndFreeTheirBlocks :
    ((((sColl (engineOf bucket0) links0).slab .s0).engine 0).bucketOf 0 0 1 = some bucket0 ∧ (1, 0) ∈ bucket0.counted)
      ∧ (((sColl (engineOf bucket0) links0).slab .s0).ready = true ∧ (sColl (engineOf bucket0) links0).collective .s0 0 = some coll0
          ∧ (((sColl (engineOf bucket0) links0).slab .s0).engine 0).buckets = [bucket0] ∧ bucket0.complete = true ∧ 0 < bucket0.landing
          ∧ (sColl (engineOf bucket0) links0).landingsOut .s0 0 0 = 0)
      ∧ ((sColl Engine.reset links0).modSlab .s0 (fun sl => sl.modUnit 0 (fun x =>
          { x with landings := List.replicate 65 { landing 0 with coll := some (0, 0) } }))).landingsOut .s0 0 0 = 1
      ∧ ((∀ op ∈ [1, 2, 3], Claims.ctrl (sColl Engine.reset links0) .s0 0 (nextFrame 5 (op * 2 ^ 47)) op)
          ∧ (sColl Engine.reset links0).collOfWindow .s0 1 = some (0, coll0)
          ∧ ∀ e < 16, (((tookColl Engine.reset (nextFrame 5 (2 * 2 ^ 47))).slab .s0).engine e).retained = [])
      ∧ (zType (zframe 1 0 0 0).header = 1 ∧ zType (zframe 2 0 0 (2 ^ 47 + 2 ^ 31)).header = 2
          ∧ zWindow (zframe 2 0 0 (2 ^ 47 + 2 ^ 31)).header = 1
          ∧ ((sColl (waitingEngine 1000 false) links0).slab .s0).retainer 0 0 0 = some 0
          ∧ later (zEpoch (zframe 2 0 0 (2 ^ 47 + 2 ^ 31)).header) 0 = true ∧ later (zEpoch (zframe 2 0 0 (2 ^ 47 + 2 ^ 31)).header) 1 = false)
      ∧ ((((sColl (waitingEngine 1000 true) links0).slab .s0).engine 0).resendAt = some 1000 ∧ (sColl (waitingEngine 1000 true) links0).cycle .s0 = 1000
          ∧ (((sColl (waitingEngine 1000 true) links0).slab .s0).engine 0).retained = [retained0 true]
          ∧ (∀ x ∈ (((sColl (waitingEngine 1000 false) links0).slab .s0).engine 0).retained, x.again = false)
          ∧ (sColl (waitingEngine 1001 true) links0).cycle .s0 < 1001) := by
  unfold Claims.ctrl Claims.forThis Claims.inOrder; decide +kernel

def rx0 (unacked at_ : Nat) : McastRx :=
  { source := 2, group := 0, toUnits := true, window := 0, relay := none, expected := 5, first := 5, held := [], frames := [], lastFrag := []
    unacked := unacked, unackedAt := at_, attached := true }

def packet0 (at_ : Nat) : McPacket := { group := 0, seq := 5, engine := 0, pending := [2], payload := [], sentAt := at_ }

def tx0 : McastTx := { targets := [2], attached := [], nextSeq := 6, detached := [(2, 5, 0)] }

def sMcast (unacked at_ : Nat) : State :=
  sColl Engine.reset { links0 with mcastRx := [rx0 unacked at_], mcastTx := [(0, tx0)], packets := [packet0 at_], mcastRetry := 100 }

theorem witness_MulticastTargetsDeliver :
    (zCatchup (nextFrame 3 (2 ^ 5)).header = true ∧ zCatchup (nextFrame 3 0).header = false
        ∧ ((sOn tileOn).linkInOwn .s0 0 (nextFrame 3 0) 3).2 = false ∧ Claims.forThis (sMcast 0 0) .s0 0 (nextFrame 3 0) 3)
      ∧ ((sOn tileOn).slab .s0).links.mcastRx.find? (fun x => decide (x.source = 2) && decide (x.group = 0)) = none
      ∧ (zSrc (nextFrame 3 0).header = 2 ∧ zGroup (nextFrame 3 0).header = 0
          ∧ ((sMcast 0 0).slab .s0).links.mcastRx.find? (fun x => decide (x.source = 2) && decide (x.group = 0)) = some (rx0 0 0)
          ∧ later (5 : Word) (zSeq (nextFrame 3 (4 * 2 ^ 15)).header) = true ∧ later (5 : Word) (zSeq (nextFrame 3 (5 * 2 ^ 15)).header) = false
          ∧ 64 ≤ (zSeq (nextFrame 3 (69 * 2 ^ 15)).header - 5).toNat ∧ (zSeq (nextFrame 3 (68 * 2 ^ 15)).header - 5).toNat < 64
          ∧ ((rx0 0 0).addFrame (nextFrame 3 (5 * 2 ^ 15))).2 = none
          ∧ ((rx0 0 0).addFrame (nextFrame 3 (5 * 2 ^ 15 + 2 ^ 6))).2 = some [] ∧ zSeq (nextFrame 3 (5 * 2 ^ 15 + 2 ^ 6)).header = (rx0 0 0).expected
          ∧ (rx0 0 0).held = [])
      ∧ (((sMcast 1 0).slab .s0).ready = true ∧ (rx0 1 0).unacked ≠ 0 ∧ (sMcast 1 0).cycle .s0 < (rx0 1 0).unackedAt + 2048
          ∧ ((sMcast 1 0).slab .s0).links.mcastRx.find? (fun x => decide (x.source = 2) && decide (x.group = 0)) = some (rx0 1 0))
      ∧ (rx0 1 952).unackedAt + 2048 ≤ ((sMcast 1 952).modSlab .s0 (fun sl => { sl with clocks := { sl.clocks with cycle := 3000 } })).cycle .s0
      ∧ (((sOn tileOn).ctrlIn .s0 0 (nextFrame 5 (5 * 2 ^ 47)) 5).2 = false ∧ Claims.ctrl (sMcast 0 0) .s0 0 (nextFrame 5 (5 * 2 ^ 47)) 5
          ∧ ((sMcast 0 0).slab .s0).links.endpoint = 0) := by
  unfold Claims.ctrl Claims.forThis Claims.inOrder; decide +kernel

/-- Slab 0 as the source of the multicast: endpoint 2. -/
def sSource : State := (sMcast 0 0).modSlab .s0 (fun sl => { sl with links := { sl.links with endpoint := 2 } })

theorem witness_MulticastSourcesRetryAndCatchUp :
    (((sOn tileOn).ctrlIn .s0 0 (nextFrame 5 (4 * 2 ^ 47)) 4).2 = false ∧ Claims.ctrl (sMcast 0 0) .s0 0 (nextFrame 5 (4 * 2 ^ 47)) 4
        ∧ ((sMcast 0 0).slab .s0).links.endpoint = 0)
      ∧ (((sMcast 0 800).slab .s0).links.packets = [packet0 800] ∧ (packet0 800).sentAt + fabric ((sMcast 0 800).slab .s0).links.mcastRetry ≤ (sMcast 0 800).cycle .s0
          ∧ (sMcast 0 801).cycle .s0 < (packet0 801).sentAt + fabric ((sMcast 0 801).slab .s0).links.mcastRetry
          ∧ ((sOn tileOn).slab .s0).links.packets = [])
      ∧ (zType (zframe 3 4095 0 (2 ^ 5)).header = 3 ∧ zSrc (nextFrame 3 (2 ^ 5)).header ≠ ((sMcast 0 0).slab .s0).links.endpoint
          ∧ ((sOn tileOn).linkInOwn .s0 0 (nextFrame 3 (2 ^ 5)) 3).2 = false ∧ Claims.forThis (sMcast 0 0) .s0 0 (nextFrame 3 (2 ^ 5)) 3)
      ∧ (zSrc (zframe 3 4095 2 (2 ^ 5)).header = (sSource.slab .s0).links.endpoint ∧ (sSource.slab .s0).ready = true
          ∧ ((sOn tileOn).slab .s0).mcGroup 0 = none ∧ (sSource.slab .s0).mcGroup 0 = some tx0
          ∧ tx0.detached.find? (fun x => decide (x.1 = zDest (zframe 3 4095 3 (2 ^ 5)).header)) = none
          ∧ tx0.detached.find? (fun x => decide (x.1 = zDest (zframe 3 4095 2 (2 ^ 5)).header)) = some (2, 5, 0)
          ∧ zSeq (zframe 3 4095 2 (5 * 2 ^ 15 + 2 ^ 5)).header = 5 ∧ zSeq (zframe 3 4095 2 (2 ^ 5)).header ≠ 5
          ∧ zMcLast (zframe 3 4095 2 (5 * 2 ^ 15 + 2 ^ 5)).header = false)
      ∧ (((sMcast 0 0).slab .s0).mcGroup 0 = some tx0 ∧ ((sMcast 0 0).slab .s0).ready = true
          ∧ ((0 : DWord).toNat + 1 = ((sMcast 0 0).job .s0).step.toNat ∧ ((sMcast 0 0).job .s0).inStep = true)
          ∧ (let s := (sMcast 0 0).modSlab .s0 (fun sl => { sl with job := { sl.job with inStep := false } })
             (0 : DWord).toNat + 1 = (s.job .s0).step.toNat ∧ (s.job .s0).inStep = false)) := by
  unfold Claims.ctrl Claims.forThis Claims.inOrder; decide +kernel

def sTimers (x : Port) (b : Bucket) (l : Links) : State := (sColl (engineOf b) l).modSlab .s0 (fun sl =>
  { sl with ports := [(0, x)], clocks := { sl.clocks with cycle := 131072 } })

def sent0 : TxFrame := { seq := 1, frame := frame0 }

def waitingLinks (at_ : Nat) : Links := { links0 with contributed := true, summitSince := at_, summitWait := 500, retryTimeout := 500, own := some ⟨1, 0, false, false, false, false, 0, 0, 0, [], false⟩ }

theorem witness_TimersRetryProbeOrFail :
    ((((sTimers { upPort with replay := [sent0], oldestSent := 130072 } bucket0 (waitingLinks 0)).slab .s0).port 0).replay ≠ []
        ∧ 130072 + 2 * (waitingLinks 0).retryTimeout ≤ (sTimers upPort bucket0 (waitingLinks 0)).cycle .s0
        ∧ (sTimers upPort bucket0 (waitingLinks 0)).cycle .s0 < 130073 + 2 * (waitingLinks 0).retryTimeout)
      ∧ (0 + 131072 ≤ (sTimers upPort bucket0 links0).cycle .s0 ∧ (sTimers upPort bucket0 links0).cycle .s0 < 1 + 131072)
      ∧ ((sTimers upPort { bucket0 with complete := false } links0).collective .s0 0 = some coll0
          ∧ (((sTimers upPort { bucket0 with complete := false } links0).slab .s0).engine 0).buckets.find?
              (fun x => decide (x.coll = 0) && decide (x.bucket = 0) && !x.complete) = some { bucket0 with complete := false }
          ∧ 130072 + 2 * bucket0.timeout ≤ (sTimers upPort bucket0 links0).cycle .s0 ∧ (sTimers upPort bucket0 links0).cycle .s0 < 130073 + 2 * bucket0.timeout)
      ∧ ((waitingLinks 130072).contributed = true ∧ (waitingLinks 130072).result = none
          ∧ (waitingLinks 130072).summitSince + 2 * (waitingLinks 130072).summitWait ≤ (sTimers upPort bucket0 (waitingLinks 130072)).cycle .s0
          ∧ ((sTimers upPort bucket0 (waitingLinks 130072)).awaitedParts .s0).filter (fun e =>
              (((sTimers upPort bucket0 (waitingLinks 130072)).slab .s0).childPart e 1).isNone) = [2]
          ∧ (sTimers upPort bucket0 (waitingLinks 130073)).cycle .s0 < (waitingLinks 130073).summitSince + 2 * (waitingLinks 130073).summitWait) := by
  decide +kernel

theorem witness_ProbesAreAnsweredAndAdvisoriesRelayed :
    (∀ op ∈ [6, 7, 8], Claims.ctrl (sLink { links0 with summitProbes := 1 }) .s0 0 (nextFrame 5 (op * 2 ^ 47)) op)
      ∧ ((sLink links0).ctrlIn .s0 0 (nextFrame 5 0) 6).2 = false ∧ ((sLink links0).ctrlIn .s0 0 (nextFrame 5 0) 7).2 = false ∧ ((sLink links0).slab .s0).engines = []
      ∧ 0 < ((sLink { links0 with summitProbes := 1 }).slab .s0).links.summitProbes := by
  unfold Claims.ctrl Claims.forThis Claims.inOrder; decide +kernel

def training (helloSent : Bool) : Port := { upPort with up := false, training := !helloSent, helloSent := helloSent }

theorem witness_PortsTrainAndDropLanes :
    ((training false).enabled = true ∧ (training false).cable = true ∧ (training false).training = true ∧ (training false).up = false
        ∧ laneForm (training false).working ≠ 0 ∧ (training true).helloSent = true ∧ (training false).helloSent = false)
      ∧ (∀ k ∈ [PitchKind.image, .maint], let z := sl0 (fun sl => { sl with ports := [(0, { training false with retrain := true })] })
          let s := { z with slab0 := { z.slab0 with root := { z.slab0.root with kind := k } } }
          ((s.slab .s0).port 0).retrain = true ∧ ((s.slab .s0).port 0).training = true ∧ (s.root .s0).kind = k
            ∧ ∀ v : Byte, laneForm (((s.slab .s0).port 0).working ||| v) ≠ 0)
      ∧ (training false).retrain = false
      ∧ (Claims.inOrder (sLink links0) .s0 0 (nextFrame 5 0) 5 ∧ laneForm 0x7C = 0 ∧ laneForm 0x7F ≠ 0)
      ∧ upPort.up = true ∧ upPort.working.getLsbD 7 = true ∧ ({ upPort with working := 0x7F } : Port).working.getLsbD 7 = false := by
  unfold Claims.inOrder; decide +kernel

theorem witness_SlotErrorsEmptyTheEngine :
    ((sColl (waitingEngine 0 false) links0).slab .s0).ready = true ∧ (sColl (waitingEngine 0 false) links0).ownPart .s0 0 = true
      ∧ (sColl (engineOf { bucket0 with landing := 0 }) links0).ownPart .s0 0 = false
      ∧ (∀ b ∈ (((sColl (engineOf { bucket0 with landing := 0 }) links0).slab .s0).engine 0).buckets, b.landed = true) := by decide +kernel

/-- Joined mode with failed col lanes and belay pairs. -/
def sCol (lanes : List (Fin 96)) (pairs : List (Fin 4)) : State :=
  { sOn tileOn with shared := { (sOn tileOn).shared with mode := .joined, colLanes := lanes, belayPairs := pairs, crossings := [0] } }

theorem witness_ColFailuresAreNotedOnce :
    (sCol [0] [0]).slab0.ready = true ∧ (0 : Fin 96) ∈ (sCol [0] [0]).shared.colLanes ∧ (1 : Fin 96) ∉ (sCol [0] [0]).shared.colLanes
      ∧ (sCol [0] [0]).shared.mode = .joined ∧ (sCol [0] [0]).shared.colLanes.length < 95
      ∧ ((95 : Fin 96) ∉ (sCol ((List.finRange 96).take 95) [0]).shared.colLanes ∧ 95 ≤ (sCol ((List.finRange 96).take 95) [0]).shared.colLanes.length)
      ∧ ((1 : Fin 4) ∉ (sCol [0] [0]).shared.belayPairs ∧ (0 : Fin 4) ∈ (sCol [0] [0]).shared.belayPairs ∧ (sCol [] [0, 1, 2]).shared.belayPairs.length = 3)
      ∧ ((1 : Fin 96) ∉ (sCol [0] [0]).shared.colLanes ∧ ∀ k : Fin 96, k < 1 → k ∈ (sCol [0] [0]).shared.colLanes)
      ∧ ((0 : Fin 8) ∈ (sCol [] []).shared.crossings ∧ (1 : Fin 8) ∉ (sCol [] []).shared.crossings) := by decide +kernel

/-! ## Mailbox commands (chapters 14 to 17)

A request is put into mailbox `m` of function 0 and rung; `ready` says that the firmware takes it up and no check turns it away. -/

/-- The bytes of a buffer as cells. -/
def cellsOf (bs : List Byte) : Cells := (bs.zipIdx.filter (fun p => decide (p.1 ≠ 0))).map (fun p => (p.2, p.1))

/-- The module with a request of tag 7 in mailbox `m`. -/
def mail (z : State) (m : Fin 4) (op flags hostLen : Nat) (payload : List Byte) : State :=
  let header := leBytes op 2 ++ leBytes flags 2 ++ leBytes 7 2 ++ leBytes 0 2 ++ leBytes payload.length 4 ++ leBytes 0 12 ++ leBytes hostLen 4 ++ leBytes 0 4
  { z with fn0 := z.fn0.modMailbox m (fun b => { b with request := cellsOf (header ++ payload), pending := true }) }

def req (s : State) (m : Fin 4) : Request := (s.fn0.mailbox m).take

def ready (s : State) (m : Fin 4) (op : Nat) : Bool :=
  s.takesUp .s0 m && decide ((req s m).opcode = op) && (s.refusal .s0 m (req s m)).isNone

theorem runs_of_ready {s : State} {m : Fin 4} {op : Nat} (h : ready s m op = true) : s.Runs .s0 m op (req s m) := by
  simp only [ready, Bool.and_eq_true, decide_eq_true_eq, Option.isNone_iff_eq_none] at h
  exact ⟨h.1.1, rfl, h.1.2, h.2⟩

/-- The running module, its job in state `st`. -/
def sJob (st : JobState) (reason : Reason) : State :=
  sl0 (fun sl => { sl with job := { Job.reset with state := st, reason := reason, image := if st = .empty then none else some (image0 [placement0]) } })

/-- A request that runs in a state, with a condition on both. -/
def runsWith (z : State) (m : Fin 4) (op flags hostLen : Nat) (payload : List Byte) (p : State → Request → Bool) : Bool :=
  let s := mail z m op flags hostLen payload
  ready s m op && p s (req s m)

/-- The same of every request of a list. -/
def allRun (z : State) (m : Fin 4) (op : Nat) (l : List (List Byte × (State → Request → Bool))) : Bool :=
  l.all (fun x => runsWith z m op 0 0 x.1 x.2)

def sEmpty : State := sJob .empty .none

theorem witness_RequestsAreTakenInOrderOrTurnedAway :
    mailboxRow (.identify .s0 1) = some (.s0, 1, 1, anyRequest)
      ∧ (sEmpty.takesUp .s0 1 = false ∧ (req (mail sEmpty 1 2 0 0 []) 1).opcode ≠ 1
      ∧ ((mail sEmpty 1 1 16 0 []).takesUp .s0 1 = true ∧ (req (mail sEmpty 1 1 16 0 []) 1).opcode = 1
          ∧ (mail sEmpty 1 1 16 0 []).refusal .s0 1 (req (mail sEmpty 1 1 16 0 []) 1) = some stBadArg)
      ∧ (let z := { sEmpty with fn0 := { sEmpty.fn0 with outstanding := [{ tag := 7, opcode := 0x60, mailbox := 3, committed := false, deferred := false, detail := [] }] } }
         (mail z 1 1 0 0 []).tagInUse .s0 1 7 = true)
      ∧ (let z := { sEmpty with fn0 := { sEmpty.fn0 with m1 := { Mailbox.reset with outstanding := 64 } } }
         (mail z 1 1 0 0 []).tagInUse .s0 1 7 = false ∧ 64 ≤ ((mail z 1 1 0 0 []).fn0.mailbox 1).outstanding)) :=
  ⟨rfl, by decide +kernel⟩

theorem witness_StateIsReported :
    runsWith sEmpty 0 0x01 0 0 [] (fun _ _ => true) = true ∧ runsWith sEmpty 3 0x02 0 0 [] (fun _ _ => true) = true
      ∧ allRun sEmpty 2 0x50 [([1, 0, 0, 1], fun _ r => decide (1 ≤ r.arg 0 2 ∧ r.arg 0 2 ≤ 2031 ∧ r.arg 0 2 ≤ 254)), ([0, 0], fun _ r => decide (r.arg 0 2 = 0))] = true
      ∧ runsWith sEmpty 2 0x80 0 0 (List.replicate 64 0) (fun s _ => !s.slab0.camp.identityBad && !s.slab0.camp.keyMismatch) = true
      ∧ runsWith (sl0 (fun sl => { sl with camp := { sl.camp with keyMismatch := true } })) 2 0x80 0 0 (List.replicate 64 0) (fun s _ => s.slab0.camp.keyMismatch) = true
      ∧ allRun sEmpty 3 0x81 [([0], fun _ r => decide (r.arg 0 1 = 0)), ([1], fun _ r => decide (r.arg 0 1 = 1)), ([2], fun _ r => decide (2 ≤ r.arg 0 1))] = true := by
  decide +kernel

theorem witness_RecordsAreRead :
    allRun sEmpty 2 0x40 [([0, 0, 0, 0, 0, 0, 0, 0, 1, 0], fun _ r => decide (1 ≤ r.arg 8 2 ∧ r.arg 8 2 ≤ 31)),
        ([0, 0, 0, 0, 0, 0, 0, 0, 0, 0], fun _ r => decide (r.arg 8 2 = 0)), ([0, 0, 0, 0, 0, 0, 0, 0, 1, 1], fun _ r => decide (256 < r.arg 8 2))] = true
      ∧ runsWith sEmpty 2 0x41 0 0 ([0, 0, 31, 0] ++ List.replicate 12 0)
          (fun _ r => decide (r.arg 1 1 = 0 ∧ r.arg 4 4 = 0 ∧ r.arg 0 1 = 0 ∧ 1 ≤ r.arg 2 2 ∧ r.arg 2 2 ≤ 31)) = true
      ∧ runsWith sEmpty 2 0x41 2 64 ([1, 0, 0, 0] ++ List.replicate 12 0) (fun _ r => decide (r.arg 0 1 = 1 ∧ r.arg 1 1 = 0 ∧ r.arg 4 4 = 0) && r.hostbuf) = true
      ∧ allRun sEmpty 2 0x42 [([0, 0, 0, 0, 1, 0, 0, 0x0A], fun s r => s.countersArgOk .s0 r && decide (r.arg 4 2 ≤ 508)),
          ([0, 0, 0, 0, 0, 0], fun s r => !s.countersArgOk .s0 r)] = true
      ∧ allRun sEmpty 2 0x43 [([0, 0, 0, 0, 1, 0, 0, 0x0A], fun s r => s.countersArgOk .s0 r), ([0, 0, 0, 0, 0, 0], fun s r => !s.countersArgOk .s0 r)] = true := by
  decide +kernel

/-- Slab 0 with an image accepted and on its way in. -/
def sIncoming (im : Image) : State := sl0 (fun sl => { sl with job := { Job.reset with incoming := some im } })

/-- The head of an image for a joined device. -/
def joinedImage : List Byte := List.replicate 6 0 ++ [1] ++ List.replicate 57 0

theorem refuses (reserve : Bool) : ∃ e, sEmpty.checkImage .s0 joinedImage 64 reserve = .error e := by
  refine ⟨(stImageInvalid, noSection, 6), ?_⟩
  unfold State.checkImage
  rw [if_neg (by decide +kernel), if_pos (by decide +kernel)]

theorem le_sum_getD (l : List Nat) (k n : Nat) : l.getD k 0 + n ≤ l.foldl (· + ·) n := by
  induction l generalizing k n with
  | nil => simp
  | cons x l ih =>
    cases k with
    | zero => have := ih (l.length) (n + x); simp at this ⊢; omega
    | succ k => have := ih k (n + x); simp at this ⊢; omega

/-- The reserve of R353 holds where every page in use is restorable. -/
theorem reserve_of_restorable {t : State} {i : SlabId}
    (g : ∀ k ∈ t.devSlabs i, ∀ st ∈ stacks24, t.unrestorableOn i k st = 0) : (t.devSlabs i).all (t.reserveOk i) = true := by
  rw [List.all_eq_true]
  intro k hk
  unfold State.reserveOk
  rw [List.all_eq_true]
  intro st hs
  have := le_sum_getD (stacks24.map (t.slab k).parityRoom) st 0
  simp only [g k hk st hs, decide_eq_true_eq]
  omega

theorem mapObjects_nil {s : State} {i : SlabId} {os : List ObjectEntry} (e : os = [])
    (g : ∀ k ∈ s.devSlabs i, ∀ st ∈ stacks24, s.unrestorableOn i k st = 0) : s.mapObjects i os = some s := by
  subst e
  unfold State.mapObjects
  exact if_pos (reserve_of_restorable g)

theorem mapObjects_of {s t : State} {i : SlabId} {os : List ObjectEntry}
    (f : os.foldl (fun (a : Option State) o => a.bind (fun s => s.mapObject i o)) (some s) = some t)
    (r : (t.devSlabs i).all (t.reserveOk i) = true) : s.mapObjects i os = some t := by
  unfold State.mapObjects
  rw [f]
  exact if_pos r

theorem fold_one {s t : State} {i : SlabId} {o : ObjectEntry} (e : s.mapObject i o = some t) :
    [o].foldl (fun (a : Option State) o => a.bind (fun s => s.mapObject i o)) (some s) = some t := by
  rw [List.foldl_cons, List.foldl_nil, Option.bind_some]
  exact e

theorem mapObjects_one {s : State} {i : SlabId} {o : ObjectEntry} (h : (s.mapObject i o).isSome = true)
    (g : ∀ k ∈ ((s.mapObject i o).getD s).devSlabs i, ∀ st ∈ stacks24, ((s.mapObject i o).getD s).unrestorableOn i k st = 0) :
    ∃ t, s.mapObjects i [o] = some t := by
  generalize e : s.mapObject i o = x at h g
  cases x with
  | none => cases h
  | some t =>
    rw [Option.getD_some] at g
    exact ⟨t, mapObjects_of (fold_one e) (reserve_of_restorable g)⟩

/-- What a load leaves before it maps new objects. -/
def afterDrops (s : State) (i : SlabId) (im : Image) : State :=
  ((s.dropsAtLoad i im).foldl (fun t o => t.unmapObject i o) s).modDev i (fun sl => sl.modMem (fun m =>
    { m with objects := m.objects.map (fun o =>
        ((im.objects.filter (fun o => decide (o ∉ s.newAtLoad i im))).find? (fun x => decide (x.object = o.object))).getD o) }))

theorem remap_isSome {s : State} {i : SlabId} {im : Image} (e : s.newAtLoad i im = [])
    (g : ∀ k ∈ (afterDrops s i im).devSlabs i, ∀ st ∈ stacks24, (afterDrops s i im).unrestorableOn i k st = 0) : ∃ t, s.remap i im = some t := by
  have h := mapObjects_nil e g
  unfold afterDrops at h
  unfold State.remap
  simp only [h, Option.map_some]
  exact ⟨_, rfl⟩

/-- The image on its way in, with nothing mapped; the state that it is put in force in. -/
def sBare : State := sIncoming (image0 [placement0])

def sRepaired : State := (sBare.repairAtLoad .s0).unparkStacks .s0

theorem installImage_isSome {s : State} {i : SlabId} {im : Image} {t : State} {n : Nat}
    (h : ((s.repairAtLoad i).unparkStacks i).remap i im = some t) (m : im.startFor (((s.repairAtLoad i).unparkStacks i).lostBits i) = some n) :
    ∃ t, s.installImage i im = some t := by
  unfold State.installImage
  simp only [h, m]
  exact ⟨_, rfl⟩

theorem installs : ∃ t, sBare.installImage .s0 (image0 [placement0]) = some t := by
  obtain ⟨t, h⟩ := remap_isSome (s := sRepaired) (i := .s0) (im := image0 [placement0]) (by decide +kernel) (by decide +kernel)
  have n : (image0 [placement0]).startFor (sRepaired.lostBits .s0) = some 0 := by decide +kernel
  exact installImage_isSome (s := sBare) h n

theorem witness_ImagesAreCheckedThenInstalled :
    runsWith sEmpty 1 0x10 2 16 ([0, 0, 0, 0, 0, 0, 0, 0, 1, 0, 0, 0, 0, 0, 0, 0])
        (fun s r => !r.unload && decide (s.shared.mode = .split) && decide (s.imageInput .s0 r [] = some []) && decide (s.imageInput .s0 r [0] = none)) = true
      ∧ runsWith sEmpty 1 0x11 2 16 ([0, 0, 0, 0, 0, 0, 0, 0, 1, 0, 0, 0, 0, 0, 0, 0]) (fun s r => decide (s.imageInput .s0 r [] = some [])) = true
      ∧ (∃ e, sEmpty.checkImage .s0 joinedImage 64 true = .error e) ∧ (∃ e, sEmpty.checkImage .s0 joinedImage 64 false = .error e)
      ∧ (sBare.slab0.camp.firmware = .running ∧ sBare.slab0.job.incoming = some (image0 [placement0]))
      ∧ (∃ t, sBare.installImage .s0 (image0 [placement0]) = some t)
      ∧ (∀ st ∈ [JobState.loaded, .empty, .paused], runsWith (sJob st .host) 1 0x10 8 0 (List.replicate 16 0)
          (fun s r => r.unload && decide (r.payload = List.replicate 16 0) && !r.hostbuf && !r.bar2 && decide ((s.job .s0).state = st)) = true) := by
  refine ⟨by decide +kernel, by decide +kernel, refuses true, refuses false, by decide +kernel, installs, by decide +kernel⟩

/-- The 128 bytes of a STEP object of one page, number 5, at the second page. -/
def stepEntry (number base : Nat) : List Byte :=
  leBytes number 2 ++ [1, 0, 0, 0, 0, 0] ++ leBytes base 8 ++ leBytes 2097152 8 ++ leBytes 0 2 ++ leBytes 0xFFFF 2 ++ leBytes 0 100

/-- Slab 0 with its stacks in one state. -/
def sStacksAll (st : StackState) : State := sl0 (fun sl =>
  { sl with stackList := stacks24.map (fun k => (k, { Stack.reset with state := st })) })

def sMap (st : StackState) : State := mail (sStacksAll st) 1 0x20 0 0 (stepEntry 5 2097152)

def stepObj : ObjectEntry :=
  { object := 5, cls := 1, prot := 0, hint := 0, flags := 0, base := 2097152, size := 2097152, stack0 := 0, replicas := 0xFFFF, dataOffset := 0
    reserved := 0, update := parseUpdate (List.replicate 64 0) }

theorem maps : ∃ t, (sMap .good).mapObjects .s0 [stepObj] = some t := mapObjects_one (by decide +kernel) (by decide +kernel)

/-- A CONST object of one page in a job that does not run, mapped; with page 1 lost. -/
def constObj : ObjectEntry := { obj 1 0xFFFF with object := 9, cls := 2, flags := 0, base := 2097152 }

def sConst (lost : List Nat) : State := sl0 (fun sl =>
  { sl with
    job := { Job.reset with state := .loaded, image := some (image0 [placement0]), lostPages := lost }
    mem := { Memory.reset with objects := [constObj, copyObj], pages := [(1, mkPte false 1 0 0), (2, mkPte false 0 0 1)] } })

theorem witness_ObjectsAreMappedAndWritten :
    (runsWith (sStacksAll .good) 1 0x20 0 0 (stepEntry 5 2097152) (fun s r => s.mapArgOk .s0 (parseObject r.payload) r.payload
          && decide (s.mapData .s0 r [] (parseObject r.payload) = some [])) = true
        ∧ parseObject (req (sMap .good) 1).payload = stepObj ∧ ∃ t, (sMap .good).mapObjects .s0 [stepObj] = some t)
      ∧ runsWith (sStacksAll .good) 1 0x20 0 0 (stepEntry 0 2097152) (fun s r => !s.mapArgOk .s0 (parseObject r.payload) r.payload) = true
      ∧ ((sMap .failed).mapObject .s0 stepObj = none ∧ ready (sMap .failed) 1 0x20 = true)
      ∧ ((sStacksAll .good).slab0.camp.firmware = .running ∧ (State.reset.slab .s0).camp.firmware ≠ .running)
      ∧ allRun (sConst []) 1 0x21 [([8, 0], fun s r => decide (s.objectNo .s0 (r.arg 0 2) = none)), ([9, 0], fun s _ => decide (s.objectNo .s0 9 = some constObj) && !s.imageNames .s0 9)] = true
      ∧ runsWith (sUnit (obj 0 2) unit0 |>.modJob .s0 (fun j => { j with state := .loaded })) 1 0x21 0 0 [1, 0]
          (fun s _ => (s.objectNo .s0 1).isSome && s.imageNames .s0 1) = true
      ∧ allRun (sConst []) 1 0x22 [([8, 0, 0, 0], fun s r => decide (s.objectNo .s0 (r.arg 0 2) = none)),
          ([9, 0, 2, 7], fun _ r => classOk { constObj with hint := r.arg 2 1 } && decide (r.arg 3 1 ≤ 7))] = true
      ∧ ((sConst []).hostMayWrite .s0 1 = true ∧ (sConst []).pte .s0 1 = some (.s0, mkPte false 1 0 0) ∧ (sConst []).dev .s0 = .s0
          ∧ (sConst []).slab0.stackUp 0 = true ∧ (sConst []).hostMayWrite .s0 2 = false ∧ (sConst [2]).hostMayWrite .s0 2 = true)
      ∧ (let s := (sConst []).modSlab .s0 (fun sl => { sl with mem := { sl.mem with residence := [((0, 0, 8), 1, 5)] } })
         .s0 ∈ s.devSlabs .s0 ∧ ((0, 0, 8), 1, 5) ∈ (s.slab .s0).mem.residence ∧ constObj.base ≤ 1 * 2097152
          ∧ 1 * 2097152 < constObj.base + constObj.size ∧ s.pte .s0 1 = some (.s0, mkPte false 1 0 0) ∧ pteRes (mkPte false 1 0 0) = 0)
      ∧ (∀ k ∈ (sConst []).devSlabs .s0, ∀ p ∈ ((sConst []).slab k).mem.residence, p.2.1 ≠ 1)
      ∧ (∃ bs : List Byte, bs.length = 2097152) := by
  refine ⟨⟨by decide +kernel, by decide +kernel, maps⟩, by decide +kernel, by decide +kernel, by decide +kernel, by decide +kernel, by decide +kernel, by decide +kernel,
    by decide +kernel, by decide +kernel, by decide +kernel, ⟨List.replicate 2097152 0, List.length_replicate⟩⟩

/-- A job with an image, of a state and reason, which needs the host or not. -/
def sJobOf (st : JobState) (reason : Reason) (lost : List Nat) : State :=
  (sJob st reason).modJob .s0 (fun j => { j with lostPages := lost })

/-- A forced operation that waits for the pause. -/
def forcedOp : Operation :=
  { opcode := 0x60, target := 0, tag := 5, mailbox := 3, deferred := false, forced := true, running := false, live := true }

def stepControl (step : DWord) (items : Byte) : List Byte := leBytes step.toNat 8 ++ [items, 0] ++ leBytes 0 14

theorem witness_JobCommandsMoveTheJob :
    runsWith (sJob .loaded .none) 0 0x30 0 0 (List.replicate 8 0)
        (fun s _ => !(s.job .s0).needsHost && s.groupsCover .s0 (image0 [placement0]) && !s.mcastReady .s0 (image0 [placement0])) = true
      ∧ runsWith ((sJob .loaded .none).modSlab .s0 (fun sl => { sl with links := { sl.links with mcastTx := [(0, tx0)] } })) 0 0x30 0 0 (List.replicate 8 0)
        (fun s _ => s.groupsCover .s0 (image0 [placement0]) && s.mcastReady .s0 (image0 [placement0])) = true
      ∧ (runsWith (sJob .running .none) 0 0x31 0 0 [] (fun s _ => decide ((s.job .s0).state = .running)) = true
          ∧ runsWith (sJob .pausing .selfTest) 0 0x31 0 0 [] (fun s _ => decide ((s.job .s0).reason = .selfTest)) = true
          ∧ runsWith (sJob .paused .host) 0 0x31 0 0 [] (fun s _ => decide ((s.job .s0).reason ≠ .selfTest)) = true)
      ∧ (runsWith (sJob .running .none) 0 0x32 0 0 [] (fun s _ => decide ((s.job .s0).state = .running)) = true
          ∧ runsWith (sJob .pausing .host) 0 0x32 0 0 [] (fun s _ => decide ((s.job .s0).reason = .host) && !(s.job .s0).hostPause && !s.forcedWaits .s0) = true
          ∧ runsWith (sJob .paused .host) 0 0x32 0 0 [] (fun s _ => !(s.job .s0).needsHost) = true
          ∧ runsWith (sJobOf .paused .host [3]) 0 0x32 0 0 [] (fun s _ => (s.job .s0).needsHost) = true
          ∧ runsWith ((sJob .pausing .host).modJob .s0 (fun j => { j with hostPause := true })) 0 0x32 0 0 [] (fun s _ => (s.job .s0).hostPause) = true
          ∧ runsWith ((sJob .pausing .host).modSlab .s0 (fun sl => { sl with camp := { sl.camp with operations := [forcedOp] } })) 0 0x32 0 0 []
              (fun s _ => s.forcedWaits .s0 && !(s.job .s0).hostPause) = true)
      ∧ (∀ st ∈ [JobState.loaded, .stopping, .paused, .running, .pausing], runsWith (sJob st .host) 0 0x33 0 0 [] (fun _ r => !r.force) = true
          ∧ (st ≠ .loaded → runsWith (sJob st .host) 0 0x33 1 0 [] (fun _ r => r.force) = true))
      ∧ (runsWith (sJob .running .none) 0 0x34 0 0 (stepControl 0 1) (fun s r => s.stepArgOk .s0 r) = true
          ∧ runsWith (sJob .running .none) 0 0x34 0 0 (stepControl 0 32) (fun s r => !s.stepArgOk .s0 r) = true)
      ∧ ((sJob .stopping .none).slab0.camp.firmware = .running ∧ (sJob .stopping .none).dev .s0 = .s0
          ∧ (sJob .stopping .none).boundaryReached .s0 false = true ∧ (sJob .stopping .none).boundaryReached .s0 true = true
          ∧ (sJob .pausing .host).boundaryReached .s0 true = true ∧ (State.reset.slab .s0).camp.firmware ≠ .running
          ∧ ((sJob .pausing .host).job .s0).hostPause = false
          ∧ (sJob .pausing .host).boundaryReached .s0 false = true ∧ ((sJob .running .none).modJob .s0 (fun j => { j with inStep := true })).boundaryReached .s0 false = false) := by
  decide +kernel

theorem witness_MulticastCommandsComplete :
    (zCatchup (nextFrame 3 0).header = false ∧ Claims.forThis (sMcast 0 0) .s0 0 (nextFrame 3 0) 3)
      ∧ (zCatchup (nextFrame 3 (2 ^ 5)).header = true ∧ zSrc (nextFrame 3 (2 ^ 5)).header ≠ ((sMcast 0 0).slab .s0).links.endpoint
          ∧ Claims.forThis (sMcast 0 0) .s0 0 (nextFrame 3 (2 ^ 5)) 3)
      ∧ (zType (zframe 3 4095 2 (2 ^ 5)).header = 3 ∧ zSrc (zframe 3 4095 2 (2 ^ 5)).header = (sSource.slab .s0).links.endpoint ∧ (sSource.slab .s0).ready = true)
      ∧ Claims.ctrl (sMcast 0 0) .s0 0 (nextFrame 5 (4 * 2 ^ 47)) 4 ∧ Claims.ctrl (sMcast 0 0) .s0 0 (nextFrame 5 (5 * 2 ^ 47)) 5
      ∧ (((sMcast 0 800).slab .s0).links.packets = [packet0 800] ∧ (packet0 800).engine = 0 ∧ (packet0 800).group = 0
          ∧ (packet0 800).sentAt + 2 * ((sMcast 0 800).slab .s0).links.mcastRetry ≤ (sMcast 0 800).cycle .s0)
      ∧ (let s := (sMcast 1 952).modSlab .s0 (fun sl => { sl with clocks := { sl.clocks with cycle := 3000 } })
         (s.slab .s0).ready = true ∧ (s.slab .s0).links.mcastRx = [rx0 1 952] ∧ (rx0 1 952).unacked ≠ 0 ∧ (rx0 1 952).unackedAt + 2048 ≤ s.cycle .s0)
      ∧ (let s := (sMcast 0 0).modJob .s0 (fun j => { j with step := 2 })
         (s.slab .s0).links.mcastTx = [(0, tx0)] ∧ tx0.detached = [(2, 5, 0)] ∧ (0 : DWord).toNat + 1 < (s.job .s0).step.toNat) := by
  unfold Claims.ctrl Claims.forThis Claims.inOrder
  refine ⟨?_, ?_, ?_, ?_, ?_, ?_, ?_, ?_⟩ <;> decide +kernel

theorem witness_JobCommandsReachTheirState :
    runsWith ((sJob .loaded .none).modSlab .s0 (fun sl => { sl with links := { sl.links with mcastTx := [(0, tx0)] } })) 0 0x30 0 0 (List.replicate 8 0)
        (fun s _ => decide (s.image .s0 = some (image0 [placement0])) && !(s.job .s0).needsHost && s.groupsCover .s0 (image0 [placement0])
          && s.mcastReady .s0 (image0 [placement0])) = true
      ∧ runsWith (sJob .running .none) 0 0x31 0 0 [] (fun s _ => decide ((s.job .s0).state = .running)) = true
      ∧ runsWith (sJob .paused .host) 0 0x32 0 0 [] (fun s _ => decide ((s.job .s0).state = .paused) && !(s.job .s0).needsHost) = true
      ∧ (∀ f ∈ [0, 1], ∀ st ∈ [JobState.running, .paused], runsWith (sJob st .none) 0 0x33 f 0 [] (fun s r => decide ((s.job .s0).state = st)
          && decide (r.force = decide (f = 1))) = true)
      ∧ runsWith (sJob .running .none) 0 0x34 0 0 (stepControl 0 1) (fun s r => s.stepArgOk .s0 r) = true
      ∧ (∀ st ∈ [JobState.stopping, .pausing], (sJob st .none).dev .s0 = .s0 ∧ ((sJob st .none).slab .s0).camp.firmware = .running
          ∧ ((sJob st .none).job .s0).state = st ∧ (sJob st .none).boundaryReached .s0 false = true) := by decide +kernel

def operation (opcode : Half) (deferred forced running : Bool) : Operation :=
  { opcode := opcode, target := 0, tag := 5, mailbox := 3, deferred := deferred, forced := forced, running := running, live := true }

def sOperation (st : JobState) (os : List Operation) : State :=
  (sJob st .none).modSlab .s0 (fun sl => { sl with camp := { sl.camp with operations := os } })

theorem witness_OperationsRunOrAreDeferred :
    (∀ op ∈ [0x60, 0x61], runsWith (sJob .loaded .none) 3 op 0 0 [4] (fun s r => decide (r.arg 0 1 ≤ 4) && !(s.job .s0).state.runsSteps) = true
        ∧ runsWith (sJob .loaded .none) 3 op 0 0 [5] (fun _ r => decide (4 < r.arg 0 1)) = true
        ∧ runsWith (sJob .running .none) 3 op 0 0 [0] (fun _ r => runsBeside r.opcode (r.arg 0 1)) = true
        ∧ runsWith (sJob .running .none) 3 op 0 0 [4] (fun s r => (s.job .s0).state.runsSteps && !runsBeside r.opcode (r.arg 0 1) && !r.force
            && s.slab0.camp.operations.isEmpty) = true
        ∧ runsWith (sJob .running .none) 3 op 1 0 [4] (fun s r => (s.job .s0).state.runsSteps && !runsBeside r.opcode (r.arg 0 1) && r.force) = true
        ∧ runsWith (sOperation .running [operation 0x60 true false false]) 3 op 0 0 [4] (fun s _ => s.slab0.camp.operations.any (fun o => o.deferred)) = true)
      ∧ ((sOperation .paused [operation 0x60 true false false]).deferredDue .s0 = true
          ∧ (sOperation .paused [operation 0x60 true false false]).slab0.camp.operations.find? (fun o => o.deferred && !o.running) = some (operation 0x60 true false false))
      ∧ ((sOperation .paused [operation 0x61 false false true]).slab0.camp.operations.find? (fun o =>
          o.running && (sOperation .paused [operation 0x61 false false true]).mayEnd .s0 o) = some (operation 0x61 false false true)) := by decide +kernel

def session (n : Nat) (committing activate : Bool) : FwSession := { total := 4096, bytes := List.replicate n 1, activate := activate, committing := committing }

def sSession (x : FwSession) : State := sl0 (fun sl => { sl with camp := { sl.camp with session := some x } })

def chunkAt (off n : Nat) : List Byte := leBytes off 4 ++ leBytes n 4 ++ List.replicate n 1

theorem witness_FirmwareAndModeAreCommitted :
    allRun sEmpty 3 0x70 [(leBytes 4096 4, fun _ r => fwTotalOk (r.arg 0 4)), (leBytes 8388608 4, fun _ r => fwTotalOk (r.arg 0 4)),
        (leBytes 4032 4, fun _ r => !fwTotalOk (r.arg 0 4)), (leBytes 8388672 4, fun _ r => !fwTotalOk (r.arg 0 4))] = true
      ∧ runsWith sEmpty 3 0x71 0 0 (chunkAt 0 1) (fun s _ => s.slab0.camp.session.isNone) = true
      ∧ runsWith (sSession (session 2 false false)) 3 0x71 0 0 (chunkAt 2 1) (fun s r => decide (s.slab0.camp.session = some (session 2 false false))
          && decide (s.chunkData .s0 r [] = some [1]) && decide (r.arg 0 4 = 2)) = true
      ∧ runsWith (sSession (session 2 false false)) 3 0x71 0 0 (chunkAt 3 1) (fun _ r => decide (r.arg 0 4 ≠ 2)) = true
      ∧ runsWith (sSession (session 2 false false)) 3 0x72 0 0 [0] (fun s r => decide (r.arg 0 1 = 0) && decide (s.slab0.camp.session = some (session 2 false false))
          && decide ((session 2 false false).fault s.slab0.camp.flash.minSvn = some stBadArg)) = true
      ∧ ((sSession (session 2 true true)).slab0.camp.session = some (session 2 true true) ∧ (session 2 true true).committing = true
          ∧ (session 2 true false).activate = false)
      ∧ (runsWith sEmpty 3 0x90 0 0 [1] (fun s r => decide (r.arg 0 1 ≤ 1) && s.noImages && decide (s.slab1.camp.firmware = .running)) = true
          ∧ runsWith (sJob .loaded .none) 3 0x90 0 0 [0] (fun s _ => !s.noImages) = true)
      ∧ (let s := { sEmpty with shared := { sEmpty.shared with setMode := some (.s0, 7, 3, .joined) } }
         s.slab0.camp.firmware = .running ∧ s.slab1.camp.firmware = .running ∧ s.shared.setMode = some (.s0, 7, 3, .joined)) := by decide +kernel

/-- The 44 bytes of LINK_CONFIG: OP, SEL, ARG0, ARG1, COUNT, then 32 bytes. -/
def linkConfig (op sel arg0 arg1 count : Nat) (more : List Byte) : List Byte :=
  leBytes op 1 ++ leBytes sel 1 ++ leBytes arg0 2 ++ leBytes arg1 4 ++ leBytes count 4 ++ more ++ List.replicate (32 - more.length) 0

def feed0 (fromHost : Bool) : FeedQueue :=
  { entry := { queue := 0, object := 1, slotBytes := 64, slots := 2, perStep := 1, reserved := 0 }, bound := true, fromHost := fromHost, window := 0, rows := []
    released := 0, filled := 0 }

/-- A loaded job with a feed queue; window 0 a FEED window of its object. -/
def sFeed : State := (sJob .loaded .none).modSlab .s0 (fun sl =>
  { sl with job := { sl.job with feeds := [feed0 false] }, links := { sl.links with windows := [(0, windowOf 3 true), (1, windowOf 1 true)] } })

theorem witness_LinkTablesAreConfigured :
    allRun sEmpty 3 0xB0
        [(linkConfig 0 0 9 0 0 [], fun s r => s.linkIdle .s0 && decide (r.op = 0)),
         (linkConfig 1 15 1 0 0 [], fun _ r => decide (r.op = 1 ∧ r.sel < 16 ∧ r.arg0 = 1 ∧ r.arg 28 16 = 0) && quotasOk r.quotas),
         (linkConfig 1 15 0 0 0 ((List.replicate 8 [128, 0]).flatten), fun _ r => quotasOk r.quotas && decide (r.arg0 = 0)),
         (linkConfig 1 16 0 0 0 [], fun _ r => decide (16 ≤ r.sel)), (linkConfig 1 0 0 0 0 [1], fun _ r => !quotasOk r.quotas),
         (linkConfig 5 0 9 1 0 [], fun s r => s.linkIdle .s0 && decide (r.op = 5 ∧ r.arg 4 1 ≤ 1 ∧ r.arg 7 1 = 0)),
         (linkConfig 6 0 0 0 0 (leBytes 1024 4 ++ leBytes 256 4 ++ leBytes 1024 4 ++ leBytes 65536 4 ++ leBytes 65536 4), fun _ r => r.timersOk && decide (r.op = 6 ∧ r.arg 32 12 = 0)),
         (linkConfig 6 0 0 0 0 [], fun _ r => !r.timersOk)] = true
      ∧ runsWith (sJob .running .none) 3 0xB0 0 0 (linkConfig 0 0 9 0 0 []) (fun s _ => !s.linkIdle .s0) = true
      ∧ runsWith sEmpty 3 0xB0 2 2 (linkConfig 2 0 0 65535 1 []) (fun s r => decide (s.linkList .s0 r [0x80, 0x80] r.count = some [0x8080])
          && decide (r.op = 2 ∧ 1 ≤ r.count ∧ r.arg1 + r.count ≤ 65536)) = true
      ∧ runsWith sEmpty 3 0xB0 2 2 (linkConfig 3 15 0 1 1 []) (fun s r => decide (s.linkList .s0 r [5, 0] r.count = some [5])
          && decide (r.op = 3 ∧ r.sel < 16 ∧ r.arg1 ≤ 1 ∧ r.arg0 < r.count)) = true
      ∧ runsWith sEmpty 3 0xB0 2 128 (linkConfig 4 0 0 0 64 []) (fun s r => (s.linkList .s0 r (List.replicate 128 0) r.count).isSome && decide (r.count ≤ 64)) = true
      ∧ (∀ on ∈ [(0 : Byte), 1], runsWith (sJob .running .none) 1 0xA0 0 0 ([0, on, 15] ++ List.replicate 13 0)
          (fun _ r => decide (r.arg 0 1 = 0 ∧ r.arg 1 1 = on.toNat ∧ r.arg 2 1 ≤ 15)) = true)
      ∧ allRun sFeed 1 0xC0
        [([0, 0, 0xFF, 0], fun s r => r.feedArgOk && decide (s.feedNo .s0 0 = some (feed0 false)) && decide ((feed0 false).entry.slotBytes ≤ 16777216 ∧ r.arg 1 1 = 0)),
         ([0, 1, 1, 0], fun s r => r.feedArgOk && decide ((s.slab0.window (r.arg 2 1)).kind ≠ 3)),
         ([0, 1, 0, 0], fun s r => decide ((s.slab0.window (r.arg 2 1)).kind = 3) && decide ((s.slab0.window (r.arg 2 1)).object = 1)),
         ([0, 0, 0xFF, 1], fun _ r => r.feedArgOk && decide (r.arg 3 1 = 1))] = true := by decide +kernel

/-! ## Host port, gates and resets (chapters 15, 16 and 18) -/

/-- The running module with mailbox 1 of function 0 as given, the firmware of slab 0 in a state. -/
def sBox (pending done : Bool) (fw : Firmware) (op : Nat) : State :=
  let z := mail (sl0 (fun sl => { sl with camp := { sl.camp with firmware := fw } })) 1 op 0 0 []
  { z with fn0 := { z.fn0 with m1 := { z.fn0.m1 with pending := pending, done := done } } }

theorem witness_HostWritesReachTheirMailbox :
    4096 < 4096 + [(0 : Byte)].length ∧ 4095 + [(0 : Byte)].length ≤ 4096
      ∧ State.reset.hostReach .s0 = false ∧ (sBox false false .running 1).hostReach .s0 = true
      ∧ ((sBox true false .running 1).fn0.mailbox 1).pending = true ∧ ((sBox false true .running 1).fn0.mailbox 1).done = true
      ∧ ((sBox false false .running 1).fn0.mailbox 1).pending = false ∧ ((sBox false false .running 1).fn0.mailbox 1).done = false
      ∧ (sBox false false .stopped 1).slab0.camp.firmware.absent = true ∧ (sBox false false .running 1).slab0.camp.firmware.absent = false
      ∧ (commandMailboxes (req (sBox false false .running 1) 1).opcode).isSome = true
      ∧ commandMailboxes (req (sBox false false .running 3) 1).opcode = none ∧ (sBox false false .recovery 3).slab0.camp.firmware = .recovery
      ∧ (sBox false false .running 1).fn0.evtEnable = false ∧ ({ Func.reset with evtEnable := true } : Func).evtEnable = true
      ∧ (4096 : DWord).toNat % 4096 = 0 ∧ 6 ≤ (6 : BitVec 5).toNat ∧ (16 : BitVec 5).toNat ≤ 16 := by decide +kernel

/-- A job with one feed queue of slots of 128 bytes at its second object. -/
def sAperture (fromHost : Bool) : State := sFeed.modSlab .s0 (fun sl =>
  { sl with
    job := { sl.job with feeds := [{ feed0 fromHost with entry := { (feed0 fromHost).entry with slotBytes := 128 } }] }
    mem := { sl.mem with frames := [((0, 16), .reserved)] } })

theorem witness_AperturesTakeTheirRows :
    (16777216 < 16777216 + [(0 : Byte)].length ∧ 0xF0000000 < 0xF0000000 + [(0 : Byte)].length ∧ 64 + (List.replicate 64 (0 : Byte)).length ≤ 16777216)
      ∧ ((sAperture true).slab0.ready = true ∧ (sAperture true).hostReach .s0 = true ∧ (sAperture true).feedNo .s0 1 = none
          ∧ (∃ q, (sAperture true).feedNo .s0 0 = some q ∧ q.bound = true ∧ q.fromHost = true)
          ∧ (∃ q, (sAperture false).feedNo .s0 0 = some q ∧ q.fromHost = false) ∧ (sAperture true).slab0.stagingUp = true)
      ∧ ((64 : Nat) % 64 = 0 ∧ (List.replicate 64 (0 : Byte)).length = 64 * 1 ∧ 64 + (List.replicate 64 (0 : Byte)).length ≤ 128)
      ∧ ((32 : Nat) % 64 ≠ 0 ∧ (128 : Nat) ≤ 128) := by
  refine ⟨by decide +kernel, ⟨by decide +kernel, by decide +kernel, by decide +kernel, ⟨_, rfl, rfl, rfl⟩, ⟨_, rfl, rfl⟩, by decide +kernel⟩,
    by decide +kernel, by decide +kernel⟩

theorem witness_PcieSideResets :
    ((sOn tileOn).shared.linkUp = true ∧ (sOn tileOn).shared.perstN = true ∧ State.reset.shared.linkUp = false)
      ∧ ((sOn tileOn).shared.perstN && (sOn tileOn).shared.reference && (sOn tileOn).shared.converters) = true
      ∧ (State.reset.shared.perstN && State.reset.shared.reference && State.reset.shared.converters) = false
      ∧ (sOn tileOn).takesUp .s0 1 = false
      ∧ runsWith sEmpty 1 0x11 2 16 (List.replicate 16 0) (fun _ r => r.readsBulk && r.hostbuf) = true
      ∧ runsWith sEmpty 1 0x11 4 16 (List.replicate 16 0) (fun _ r => r.readsBulk && !r.hostbuf) = true := by decide +kernel

theorem witness_GateWritesKeepTheTree :
    ((sOn tileOn).slab .s0).ready = true ∧ (State.reset.slab .s0).ready = false
      ∧ bit ((sOn tileOn).gateStored (.slab .s0)) 0 = true
      ∧ ((sOn tileOn).parentOn (.slab .s0) = true ∧ bit ((sOn tileOn).gateStored (.slab .s0)) 1 = false ∧ bit ((sOn tileOn).gateStored (.slab .s0)) 0 = true)
      ∧ ((sOn tileOn).childOn (.tile t0) = true ∧ bit ((sOn tileOn).gateStored (.tile t0)) 0 = true)
      ∧ (bit (State.reset.gateStored (.tile t0)) 0 = false ∧ State.reset.parentOn (.tile t0) = false)
      ∧ (State.reset.childOn (.slab .s1) = false ∧ bit (State.reset.gateStored (.slab .s1)) 0 = true) := by decide +kernel

theorem witness_ResetAndReferenceLossStopTheSlabs :
    (sOn tileOn).shared.reference = true ∧ (∀ k : SlabId, ((sOn tileOn).slab k).powered = true)
      ∧ ({ sOn tileOn with shared := { (sOn tileOn).shared with reference := false } } : State).shared.reference = false := by
  refine ⟨by decide, ?_, by decide⟩
  intro k
  cases k <;> decide

/-- A slab whose clocks lock, the cause of its firmware's last stop and its root as given. -/
def sLocking (cause : Nat) (running : Bool) : State :=
  { State.reset with
    slab0 := { Slab.reset with clocks := { Clocks.reset with locking := true }, camp := { Camp.reset with restartCause := cause }
                               root := { Root.reset with running := running } }
    shared := { Shared.reset with perstN := true } }

theorem witness_LocksStartTheClocks :
    (State.reset.shared.perstN = false ∧ (sOn tileOn).shared.perstN = true ∧ State.reset.shared.converters = true ∧ State.reset.shared.reference = true
        ∧ State.reset.slab0.powered = true ∧ State.reset.slab0.clocks.running = false)
      ∧ ({ State.reset with shared := { Shared.reset with reference := false, perstN := true } } : State).shared.reference = false
      ∧ ((sLocking 4 false).slab0.clocks.locking = true ∧ State.reset.slab0.clocks.locking = false ∧ (sLocking 4 false).slab0.powered = true
          ∧ (sLocking 4 false).shared.perstN = true ∧ (sLocking 4 false).shared.reference = true ∧ (sLocking 4 false).slab0.camp.restartCause = 4
          ∧ (sLocking 2 true).slab0.camp.restartCause ≠ 4 ∧ ((sLocking 2 true).root .s0).running = true)
      ∧ ((sOn tileOn).slab0.ready = true ∧ (sOn tileOn).shared.mode = .split ∧ (sOn tileOn).shared.reference = true ∧ State.reset.slab0.ready = false) := by
  decide

/-- A firmware image's header and nothing more. -/
def fwHead : List Byte := leBytes 0x54414854 4 ++ [1, 0, 0, 0] ++ leBytes 12 4

/-- A slab whose firmware is in a state, for a cause, with the slot's image. -/
def sFirmware (fw : Firmware) (cause : Nat) (image : List Byte) : State := sl0 (fun sl =>
  { sl with camp := { sl.camp with firmware := fw, restartCause := cause, flash := { Flash.factory with fwImage := image } } })

/-- Whether Alakimo's signature verifies is not for the model to say: firmware that it verifies for is bootable. -/
theorem bootable_of_signed (h : fwSigned fwHead = true) : (sFirmware .bootRom 4 fwHead).slab0.camp.flash.bootable = true := by
  show ((true && fwHeaderOk fwHead) && fwSigned fwHead) = true
  rw [h]
  decide

theorem witness_FirmwareStartsAndRestarts :
    ((sFirmware .bootRom 4 []).slab0.ready = true ∧ (sFirmware .bootRom 4 []).slab0.camp.firmware = .bootRom
        ∧ (sFirmware .bootRom 4 []).slab0.camp.flash.bootable = false)
      ∧ (fwSigned fwHead = true → (sFirmware .bootRom 4 fwHead).slab0.camp.flash.bootable = true)
      ∧ ((sFirmware .bootRom 0 fwHead).slab0.camp.restartCause ≠ 4 ∧ (sFirmware .bootRom 4 fwHead).slab0.camp.restartCause = 4)
      ∧ (sFirmware .running 0 []).slab0.camp.firmware = .running ∧ State.reset.slab0.ready = false :=
  ⟨by decide +kernel, bootable_of_signed, by decide +kernel, by decide +kernel, by decide +kernel⟩

/-- Slab 0 before its firmware serves, cold, with the power of its fields. -/
def sRestarting (cause : Nat) (fields : Bool) : State := sl0 (fun sl =>
  { sl with
    camp := { sl.camp with firmware := .restarting, restartCause := cause }
    fields := if fields then (List.range 42).map (fun n => (n, { Field.reset with powered := true })) else [] })

/-- The recovery mailbox with a request. -/
def sRecovery (m : Fin 4) (op : Nat) (payload : List Byte) (x : Option FwSession) : State :=
  mail (sl0 (fun sl => { sl with camp := { sl.camp with firmware := .recovery, session := x } })) m op 0 0 payload

def fwSession : FwSession := { total := 12, bytes := fwHead, activate := false, committing := false }

theorem witness_FirmwareServesAndRecovers :
    ((sRestarting 4 true).slab0.ready = true ∧ (sRestarting 4 true).slab0.camp.firmware = .restarting ∧ (sRestarting 4 true).slab0.fieldsPowered = true
        ∧ (sRestarting 4 false).slab0.fieldsPowered = false ∧ (sRestarting 1 true).slab0.camp.restartCause ≠ 4 ∧ (sRestarting 4 true).dev .s0 = .s0)
      ∧ ((sRecovery 0 1 [] none).slab0.camp.firmware = .recovery ∧ (sRecovery 0 1 [] none).slab0.ready = true
          ∧ ((sRecovery 0 1 [] none).fn0.mailbox 0).pending = true)
      ∧ ((req (sRecovery 3 2 [] none) 3).opcode ∉ [0x01, 0x70, 0x71, 0x72])
      ∧ ((req (sRecovery 3 1 [] none) 3).opcode = 1 ∧ (req (sRecovery 3 1 [] none) 3).headerBad = false ∧ (req (sRecovery 3 1 [] none) 3).bar2 = false
          ∧ (req (sRecovery 3 1 [] none) 3).hostbuf = false)
      ∧ (fwTotalOk ((req (sRecovery 3 0x70 (leBytes 4096 4) none) 3).arg 0 4) = true ∧ (req (sRecovery 3 0x70 (leBytes 4096 4) none) 3).headerBad = false)
      ∧ ((req (sRecovery 3 0x71 (chunkAt 0 1) none) 3).headerBad = false ∧ (sRecovery 3 0x71 (chunkAt 0 1) none).slab0.camp.session = none)
      ∧ ((req (sRecovery 3 0x72 [0] (some fwSession)) 3).headerBad = false ∧ (req (sRecovery 3 0x72 [0] (some fwSession)) 3).arg 0 1 ≤ 1
          ∧ (fwSigned fwHead = true → fwSession.fault 0 = none))
      ∧ ((sFirmware .running 0 []).slab0.camp.mapPending = false
          ∧ (sl0 (fun sl => { sl with camp := { sl.camp with mapPending := true } })).slab0.camp.mapPending = true) := by
  refine ⟨by decide +kernel, by decide +kernel, by decide +kernel, by decide +kernel, by decide +kernel, by decide +kernel, ⟨by decide +kernel, by decide +kernel, ?_⟩,
    by decide +kernel⟩
  intro h
  have e : fwSession.bytes = fwHead := rfl
  unfold FwSession.fault
  rw [e, h, if_neg (by decide), if_neg (by decide)]

/-! ## Supplies, temperatures, the sideband and the whole module -/

/-- The module with a supply of the given state. -/
def sSupply (input converters : Bool) : State :=
  { sOn tileOn with shared := { (sOn tileOn).shared with inputGood := input, converters := converters } }

theorem witness_SupplyStartsAndStopsTheSlabs :
    (sSupply true true).shared.inputGood = true ∧ (sSupply false false).shared.inputGood = false ∧ (sSupply true true).shared.converters = true
      ∧ (sSupply true true).slab0.powered = true ∧ (sSupply false false).shared.converters = false
      ∧ (sl0 (fun sl => { sl with powered := false })).slab0.powered = false := by decide

def f0 : FieldId := { slab := .s0, c := 0, r := 0 }

/-- Slab 0 whose field 0 has been critical for `n` samples, its fuse open or closed. -/
def sField (n : Nat) (fuse : Bool) : State := sl0 (fun sl =>
  { sl with fields := [(0, { Field.reset with powered := true, critSamples := n, fuseOpen := fuse })] })

theorem witness_FieldsStartAndLosePower :
    fieldNum f0 = 0
      ∧ ((sField 1000 false).slab0.powered = true ∧ (sField 1000 false).slab0.ready = true ∧ (sField 1000 false).slab0.camp.firmware = .running
          ∧ 1000 ≤ ((sField 1000 false).slab0.field 0).critSamples ∧ ((sField 999 false).slab0.field 0).critSamples < 1000
          ∧ ((sField 1000 false).slab0.field 0).powered = true ∧ ((sField 1000 false).slab0.field 0).fuseOpen = false
          ∧ ((sField 1000 true).slab0.field 0).fuseOpen = true)
      ∧ ((sRestarting 4 false).slab0.ready = true ∧ (sRestarting 4 false).slab0.camp.firmware = .restarting
          ∧ (sRestarting 4 false).slab0.camp.restartCause = 4 ∧ (sRestarting 4 false).slab0.nextStages = [0, 1, 2, 3, 4, 5]
          ∧ (sRestarting 1 false).slab0.camp.restartCause ≠ 4) := by decide +kernel

/-- Slab 0 with conditions in force. -/
def sCond (cs : List Condition) : State := sl0 (fun sl => { sl with camp := { sl.camp with conditions := cs } })

def cond (n : Nat) : Condition := { sensor := .tile 0, critical := false, below := n }

/-- A vector that is not masked and one that is, for the last clause of the statement below. -/
theorem witness_TemperaturesSetConditions_vector :
    Func.reset.masked 5 = false ∧ ({ Func.reset with msixTable := Cells.writeN [] 92 [1] } : Func).masked 5 = true := by decide

theorem witness_TemperaturesSetConditions :
    ((sOn tileOn).slab0.ready = true ∧ (sOn tileOn).slab0.camp.firmware = .running ∧ State.reset.slab0.camp.firmware ≠ .running)
      ∧ ((sCond []).slab0.camp.has (.tile 0) false = false ∧ (94999 : Int) < (thermalLevels (.tile 0) false).1
          ∧ (thermalLevels (.tile 0) false).1 ≤ (95000 : Int))
      ∧ ((sCond [cond 8]).slab0.camp.conditions.find? (fun d => decide (d.sensor = .tile 0) && decide (d.critical = false)) = some (cond 8)
          ∧ (thermalLevels (.tile 0) false).2 < (90001 : Int) ∧ (90000 : Int) ≤ (thermalLevels (.tile 0) false).2
          ∧ (cond 8).below ≠ 9 ∧ (cond 9).below = 9) := by decide

theorem witness_SidebandAndCablesAreSeen :
    (sOn tileOn).railUp .s0 = true ∧ (sSupply false false).railUp .s0 = false ∧ (sOn tileOn).slab0.ready = true
      ∧ ({ sOn tileOn with shared := { (sOn tileOn).shared with thermtripN := false, alertN := false } } : State).shared.alertN = false
      ∧ (sl0 (fun sl => { sl with camp := { sl.camp with sidebandStale := true } })).slab0.camp.sidebandStale = true
      ∧ ((sLink Links.reset).slab0.port 0).up = true := by decide +kernel

theorem witness_StepRunsTheFrontCommand : ({ State.reset with pending := [.hotReset, .inputRise] } : State).pending = .hotReset :: [.inputRise] := by decide

theorem witness_CommandsWaitInOrder :
    ∃ s t : State, s.pending = .inputRise :: [.hotReset] ∧ step s = .next t ∧ t.pending = [.hotReset] := by
  exact ⟨{ State.reset with pending := [.inputRise, .hotReset] }, _, rfl, rfl, rfl⟩

theorem witness_IdleStepPassesOneCycle : State.reset.pending = [] ∧ ((sOn tileOn).slab .s0).ready = true ∧ (State.reset.slab .s0).ready = false := by decide

/-- The running module without a tile or a stream in use. -/
def sQuiet : State := { sOn tileOn with slab0 := { slabOn tileOn with tiles := [] }, slab1 := { slabOn tileOn with tiles := [] } }

theorem witness_OneCyclePasses :
    sQuiet.pending = [] ∧ sQuiet.slab0.ready = true
      ∧ ∀ k ∈ [SlabId.s0, .s1], (sQuiet.slab k).camp.ctrlHeld = [] ∧ (sQuiet.slab k).ready = true ∧ (sQuiet.slab k).clocks.cycle % 2 = 0
          ∧ (sQuiet.slab k).tiles = [] ∧ (sQuiet.slab k).streams = [] := by decide

/-- A piece of work for a controller. -/
def workOf (cls : ShareClass) (unit : Bool) (bytes : Nat) : ShelfWork := { cls := cls, unit := unit, owner := none, bytes := bytes }

theorem witness_WheelsTurn :
    (∀ h ∈ [false, true], ({ Stack.reset with state := .parked, hot := h } : Stack).state ≠ .good
        ∧ ({ Stack.reset with hot := true, wheelHalf := h } : Stack).state = .good)
      ∧ (Stack.reset.state = .good ∧ Stack.reset.hot = false ∧ Stack.reset.wheel = 0)
      ∧ (shareAt 0x0012 1 = .read ∧ shareAt 0x0012 2 = .write ∧ shareAt 0x0012 3 = .remote)
      ∧ (∀ q ∈ [workOf .write false 64], q.cls ≠ .read)
      ∧ ((workOf .read false 2048).cls = .read ∧ (workOf .read false 2048).bytes ≤ 2048)
      ∧ ((workOf .read true 1).unit = true ∧ 0 < (workOf .read true 1).bytes ∧ 2048 ≤ (workOf .read false 2048).bytes ∧ ShareClass.read ≠ .remote)
      ∧ (2048 < (workOf .remote true 2049).bytes ∧ 0 < (workOf .remote false 1).bytes) := by decide

/-- A tile whose scrub finds an error of `n` symbols in row 0, in a cycle that serves the row. -/
def tScrub (n : Nat) : Tile := { tileOn with scrubErrs := [rowErr 0 n] }

theorem witness_ScrubsReadAndRewrite :
    tileOn.scrubErrs = []
      ∧ (∀ n ∈ [1, 3, 4], (tScrub n).scrubErrs = [rowErr 0 n] ∧ (rowErr 0 n).row ∈ (tScrub n).scrubRows 1002
          ∧ (tScrub n).rowPowered true (rowErr 0 n).row = true ∧ (rowErr 0 n).symbols = n)
      ∧ (let t := { tileOn with rewrites := [(0, 1002, rowErr 0 1)] }
         t.rewrites = [(0, 1002, rowErr 0 1)] ∧ (1002 : Nat) ≤ 1002 ∧ (1002 : Nat) < 1003) := by decide

theorem witness_SupplyInvariantIsKept : State.reset.SupplyInv ∧ ∃ t, step State.reset = .next t := by
  refine ⟨⟨by decide, by decide⟩, _, rfl⟩

theorem witness_ModeAndSuppliesChangeAtTheirEvents :
    (∃ t, exec .inputUndervoltage (sSupply true true) = .next t ∧ t.shared.converters = false ∧ t.shared.inputGood = false)
      ∧ (∃ t, exec .inputRise (sSupply false false) = .next t ∧ t.shared.converters = true)
      ∧ (∃ t, exec .perstNAssert (sOn tileOn) = .next t ∧ t.shared.perstN ≠ (sOn tileOn).shared.perstN)
      ∧ (∃ t, exec (.referenceLoss []) (sOn tileOn) = .next t ∧ t.shared.reference ≠ (sOn tileOn).shared.reference)
      ∧ (∃ s : State, s.decideMode .s1 ≠ s) := by
  refine ⟨⟨_, rfl, by decide +kernel⟩, ⟨_, rfl, by decide +kernel⟩, ⟨_, rfl, by decide +kernel⟩, ⟨_, rfl, by decide +kernel⟩, ?_⟩
  exact ⟨{ State.reset with shared := { Shared.reset with mode := .joined } }, by decide +kernel⟩

theorem witness_TripsStayUntilPowerIsRemoved :
    (sSupply true true).shared.converters = true ∧ (sSupply true true).slab0.powered = true
      ∧ (let s := { State.reset with shared := { Shared.reset with thermtripN := false } }
         s.shared.thermtripN = false ∧ ∃ t, exec .perstNAssert s = .next t ∧ t.shared.thermtripN = true) := by
  refine ⟨by decide, by decide, by decide, _, rfl, by decide +kernel⟩

theorem witness_D3hotKeepsTheFunctionAsItWas :
    (sOn tileOn).shared.linkUp = true ∧ (sOn tileOn).shared.perstN = true
      ∧ ((sOn tileOn).modFunc .s0 (fun f => { f with d3hot := true })).fn0.d3hot = true
      ∧ 4095 + [(0 : Byte)].length ≤ 4096 ∧ 16777215 + [(0 : Byte)].length ≤ 16777216 ∧ 0xEFFFFFFF + [(0 : Byte)].length ≤ 0xF0000000 := by decide

theorem witness_WrappingOrderIsModuloItsWidth : 1 ≤ 16 ∧ (3 : Half) ≠ 0xFFFE ∧ ((3 : Half) - 0xFFFE).toNat ≠ 2 ^ (16 - 1) := by decide

theorem witness_CountersSaturateAndClear :
    ((Counters.get [] 7).overflow = false ∧ (Counters.get [] 7).count.toNat + 1 < 2 ^ 48 - 1)
      ∧ (1 ≤ 2 ^ 48 ∧ 2 ^ 48 - 1 ≤ (Counters.get [] 7).count.toNat + 2 ^ 48)
      ∧ (let cs := Counters.bump [] 7 5
         (Counters.get cs 7).fresh = 5 ∧ (Counters.get cs 7).fresh < 2 ^ 48 - 1 ∧ 2 ^ 48 - 1 ≤ (Counters.get (Counters.bump [] 7 (2 ^ 48)) 7).fresh) := by
  decide

/-! ## Figures that the spec works out -/

/-- R10: tag 0x0003 is later than 0xFFFE, and not the other way round. -/
theorem test_later_wraps : later (3 : Half) 0xFFFE = true ∧ later (0xFFFE : Half) 3 = false := by decide

/-- The example of chapter 3: −403.3125 × 2⁻¹⁵ with e = 122 and r = 0x3A7C is stored as mantissa 0xE6C; with r = 0x5000, f itself, it is
not rounded up. -/
theorem test_bs12_example :
    (bs12Mantissa (.stochastic 0x3A7C) 122 (.fin true 6453 (-19)) % 4096).toNat = 0xE6C
      ∧ bs12Mantissa (.stochastic 0x5000) 122 (.fin true 6453 (-19)) = -403 := by decide

/-- The example of chapter 6: on a portal tile the rows 5, 29, …, 173 lie in banks 5, 9, 13, 17, 21, 1, 5 and 9; elsewhere all in bank 5. -/
theorem test_bank_example :
    ([5, 29, 53, 77, 101, 125, 149, 173].map (bankOf true)) = [5, 9, 13, 17, 21, 1, 5, 9]
      ∧ ([5, 29, 53, 77, 101, 125, 149, 173].map (bankOf false)) = List.replicate 8 5 := by decide

/-- The example of chapter 8: address 0x0003_5A41_2340 lies on page 0x1AD2, stripe 1,234 has its parity on stack 10, stack 11 is served by
T(96, 0). -/
theorem test_translation_example :
    vpnOf 0x35A412340 = 0x1AD2 ∧ 0x35A412340 % pageBytes = 0x12340 ∧ parityStack 1234 = 10 ∧ portalStack 96 0 = some 11 ∧ portalStack 103 0 = some 11
      ∧ portalStack 95 0 = some 10 := by decide

/-- The example of chapter 9: descriptor 2,048 runs on T(40, 0). -/
theorem test_stream_tile_example : streamTile .s0 2048 = { slab := .s0, x := 40, y := 0 } := by decide

/-- An AdamW object with BS12 weights and BF16 moments. -/
def adamw : ObjectEntry := { obj 1 0xFFFF with object := 3, base := 0, update := { (obj 1 0xFFFF).update with rule := 2, wfmt := 7, mfmt := 1 } }

/-- The example of chapter 11: its block 5,210 lies on page 81, in slot 26, with its planes at the stated page offsets. -/
theorem test_plane_example :
    adamw.blockPage 5210 = 81
      ∧ ((List.range 9).filter (fun k => k ≠ 4 ∧ k ≠ 6)).map (fun k => adamw.planeAddr 5210 k - 81 * pageBytes)
          = [0x680, 0x28000, 0x61D00, 0x97000, 0x117000, 0x197000, 0x1E3D00] := by decide +kernel

/-- A contribution of a square sum. -/
def norms (x : DWord) : Contribution := { step := 1, source := 0, nonfinite := false, short := false, hostSkip := false, slow := false, slowPitches := 0
                                          gsq := x, lrScale := 0x3F800000, groups := [], lrm := false }

def sNorm : State := sl0 (fun sl => { sl with job := jobOn { image0 [] with step := { (image0 []).step with maxNorm := 0x3F800000 } } })

/-- The example of chapter 11: the square sums 2.25, 1.96, 2.89 and 2.56 give c = 1 / √9.66, which R284 rounds to the FP32 value
0.32174473 (the example prints 0.3217451, which its own √GSQ = 3.108054 does not give); NONFINITE skips the step. -/
theorem test_clip_example :
    let c := (((norms 0x4002000000000000).add (norms 0x3FFF5C28F5C28F5C)).add (norms 0x40071EB851EB851F)).add (norms 0x40047AE147AE147B)
    (sNorm.rootResult .s0 c).clip = 0x3EA4BBBA ∧ (sNorm.rootResult .s0 c).skip = false
      ∧ (sNorm.rootResult .s0 { c with nonfinite := true }).skip = true := by decide +kernel

/-- R93: scalar arithmetic wraps, and s0 reads 0. -/
theorem test_scalars : (0xFFFFFFFF : Word) + 1 = 0 ∧ ((tileOn.seq .fwd).setReg 0 0 7).reg 0 0 = 0 := by decide

/-- Table 12.6: 3 working lanes in each half serve as 6. -/
theorem test_lane_form : laneForm 0x77 = 0x77 ∧ laneForm 0x3F = 0x0F := by decide

/-- The table gives its rows no bits. -/
theorem test_no_words : decodeTableWord 128 0 = none ∧ State.reset.withFetchWord 128 0 = State.reset := by decide

theorem witness_ContributionsAddUp : ({ norms 0 with source := 1 } : Contribution).source.toNat > (norms 0).source.toNat ∧ (norms 0).source.toNat ≤ (norms 1).source.toNat := by
  decide

end Sys2Proof.Tests
end

section
/-! # The wrapping order of tags and sequence numbers (R10)

The two differences of distinct values `a` and `b` sum to `2 ^ w`, so either both equal `2 ^ (w - 1)`, which R10 keeps from arising, or
exactly one lies below it. -/

namespace Sys2Proof.Machine

variable {w : Nat} {a b : BitVec w}

theorem later_iff : later a b = true ↔ 1 ≤ (a - b).toNat ∧ (a - b).toNat < 2 ^ (w - 1) := by
  simp only [later, Bool.and_eq_true, decide_eq_true_eq, Nat.one_le_iff_ne_zero]

theorem one_le_toNat_sub (h : a ≠ b) : 1 ≤ (a - b).toNat :=
  Nat.one_le_iff_ne_zero.mpr fun h0 =>
    have hzero : a - b = 0#w := BitVec.eq_of_toNat_eq h0
    h ((BitVec.sub_eq_iff_eq_add.mp hzero).trans (BitVec.zero_add b))

theorem toNat_sub_add_toNat_sub_swap (h : a ≠ b) : (a - b).toNat + (b - a).toNat = 2 ^ w := by
  have hpos : 1 ≤ (a - b).toNat := one_le_toNat_sub h
  have hlt : (a - b).toNat < 2 ^ w := (a - b).isLt
  have hneg : b - a = -(a - b) := by rw [BitVec.neg_sub, BitVec.add_comm, ← BitVec.sub_eq_add_neg]
  rw [hneg, BitVec.toNat_neg, Nat.mod_eq_of_lt (by omega)]
  omega

theorem later_iff_toNat_sub_lt (h : a ≠ b) : later a b = true ↔ (a - b).toNat < 2 ^ (w - 1) :=
  later_iff.trans (and_iff_right (one_le_toNat_sub h))

/-- Of two values whose difference is not half the range, exactly one is later. -/
theorem later_iff_swap_eq_false (hw : 1 ≤ w) (h : a ≠ b) (hhalf : (a - b).toNat ≠ 2 ^ (w - 1)) :
    later a b = true ↔ later b a = false := by
  have hsum : (a - b).toNat + (b - a).toNat = 2 ^ (w - 1) + 2 ^ (w - 1) := by
    rw [toNat_sub_add_toNat_sub_swap h, Nat.two_pow_pred_add_two_pow_pred hw]
  rw [← Bool.not_eq_true, later_iff_toNat_sub_lt h, later_iff_toNat_sub_lt h.symm]
  omega

end Sys2Proof.Machine

namespace Sys2Proof.Proofs

open Sys2Proof.Machine

/-- Settles O58: the bounds are the definition's, and the two differences of distinct values sum to the whole range. -/
theorem wrappingOrderIsModuloItsWidth : Obligations.WrappingOrderIsModuloItsWidth := by
  unfold Obligations.WrappingOrderIsModuloItsWidth
  intro w a b hw
  refine ⟨?_, later_iff_swap_eq_false hw⟩
  rw [later_iff, Nat.le_sub_one_iff_lt (Nat.two_pow_pos (w - 1))]

end Sys2Proof.Proofs
end

section
/-! # A function that the host cannot reach (R405, R406, R415, R417)

A function in D3hot is one of those: every BAR access of it leaves the module as it is, its ring is closed, and a record posted there only
joins base camp's queue. -/

namespace Sys2Proof.Machine

/-! ## Functions of the module -/

/-- A function put back as it was changes nothing. -/
@[simp] theorem setFunc_func (s : State) (i : SlabId) : s.setFunc i (s.func i) = s := by cases i <;> rfl

@[simp] theorem func_other_modFunc (s : State) (i : SlabId) (g : Func → Func) : (s.modFunc i g).func i.other = s.func i.other := by
  cases i <;> rfl

/-! ## Event rings that take no records -/

theorem ringOpen_eq_false_of_d3hot {f : Func} (h : f.d3hot = true) : f.ringOpen = false := by simp [Func.ringOpen, h]

@[simp] theorem ringOpen_enqueue (f : Func) (r : EventRec) : (f.enqueue r).ringOpen = f.ringOpen := by
  unfold Func.enqueue; dsimp only; split <;> rfl

theorem drain_of_ringOpen_eq_false {f : Func} (h : f.ringOpen = false) (now : Stamp) (n : Nat) (m : Cells) :
    Func.drain now n f m = (f, m) := by
  cases n with
  | zero => rfl
  | succ n => simp [Func.drain, h]

variable {s : State} {fn : SlabId}

theorem drainRing_of_ringOpen_eq_false (h : (s.func fn).ringOpen = false) : s.drainRing fn = s := by
  simp [State.drainRing, drain_of_ringOpen_eq_false h]

/-- A record posted on a closed ring only joins the queue, or is dropped when it finds no place there. -/
theorem post_of_ringOpen_eq_false (h : (s.func fn).ringOpen = false) (r : EventRec) :
    s.post fn r = s.modFunc fn (fun f => f.enqueue r) := by
  have hstill : ((s.modFunc fn (fun f => f.enqueue r)).func fn).ringOpen = false := by simp [h]
  simp [State.post, h, drainRing_of_ringOpen_eq_false hstill]

theorem signalIf_of_d3hot {f : Func} (h : f.d3hot = true) (v : Nat) : f.signalIf v = f := by simp [Func.signalIf, h]

/-! ## Accesses to a BAR -/

theorem hostReach_eq_false_of_d3hot (h : (s.func fn).d3hot = true) : s.hostReach fn = false := by simp [State.hostReach, h]

section
variable (h : s.hostReach fn = false)
include h

theorem barAccess_of_hostReach_eq_false (f : State → State) : s.barAccess fn f = .next s := by simp [State.barAccess, h]

theorem exec_doorbell_of_hostReach_eq_false (m : Fin 4) : exec (.doorbell fn m) s = .next s :=
  show execDoorbell fn m s = .next s from barAccess_of_hostReach_eq_false h _

theorem exec_mbxDoneRelease_of_hostReach_eq_false (m : Fin 4) : exec (.mbxDoneRelease fn m) s = .next s :=
  show execMbxDoneRelease fn m s = .next s from barAccess_of_hostReach_eq_false h _

theorem exec_evtCtrlEnable_of_hostReach_eq_false (base : DWord) (size : BitVec 5) (en : Bool) :
    exec (.evtCtrlEnable fn base size en) s = .next s :=
  show execEvtCtrlEnable fn base size en s = .next s from barAccess_of_hostReach_eq_false h _

theorem exec_evtConsumerWrite_of_hostReach_eq_false (value : DWord) : exec (.evtConsumerWrite fn value) s = .next s :=
  show execEvtConsumerWrite fn value s = .next s from barAccess_of_hostReach_eq_false h _

theorem exec_requestBufferWrite_of_hostReach_eq_false (m : Fin 4) {off : Nat} {data : List Byte} (hfit : off + data.length ≤ 4096) :
    exec (.requestBufferWrite fn m off data) s = .next s := by
  change execRequestBufferWrite fn m off data s = .next s
  rw [execRequestBufferWrite, if_neg (Nat.not_lt.mpr hfit), barAccess_of_hostReach_eq_false h]

/-- Whether the slab is ready or not: either way the write comes to nothing. -/
theorem exec_feedApertureWrite_of_hostReach_eq_false (q : Fin 16) {off : Nat} {data : List Byte} (hfit : off + data.length ≤ 16777216) :
    exec (.feedApertureWrite fn q off data) s = .next s := by
  change execFeedApertureWrite fn q off data s = .next s
  rw [execFeedApertureWrite, if_neg (Nat.not_lt.mpr hfit), barAccess_of_hostReach_eq_false h, ite_self]

/-- Whether the staging frames are reserved or not: either way the write comes to nothing. -/
theorem exec_stagingWrite_of_hostReach_eq_false {off : Nat} {data : List Byte} (hfit : off + data.length ≤ 0xF0000000) :
    exec (.stagingWrite fn off data) s = .next s := by
  change execStagingWrite fn off data s = .next s
  rw [execStagingWrite, if_neg (Nat.not_lt.mpr hfit), barAccess_of_hostReach_eq_false h, ite_self]

end

/-! ## Power states of a function -/

section
variable (hlink : s.shared.linkUp = true) (hperst : s.shared.perstN = true)
include hlink hperst

theorem exec_d3hotEntry_of_linkUp : exec (.d3hotEntry fn) s = .next (s.modFunc fn (fun f => { f with d3hot := true })) := by
  change execD3hotEntry fn s = _
  simp [execD3hotEntry, hlink, hperst]

theorem exec_d0Return_of_linkUp :
    exec (.d0Return fn) s = .next ((s.modFunc fn (fun f => { f with d3hot := false })).drainRing fn) := by
  change execD0Return fn s = _
  simp [execD0Return, hlink, hperst]

/-- The return to D0 undoes the entry to D3hot, whatever of the function the entry found, and posts the waiting records. -/
theorem exec_d0Return_after_d3hotEntry :
    exec (.d0Return fn) (s.modFunc fn (fun f => { f with d3hot := true }))
      = .next ((s.modFunc fn (fun f => { f with d3hot := false })).drainRing fn) := by
  rw [exec_d0Return_of_linkUp (by simpa using hlink) (by simpa using hperst), modFunc_modFunc]

end

end Sys2Proof.Machine

namespace Sys2Proof.Proofs

open Sys2Proof.Machine

/-- Settles O57: the entry to D3hot changes one bit of the function, which the return takes back; while it is set the host does not reach
the function and its ring is closed. -/
theorem d3hotKeepsTheFunctionAsItWas : Obligations.D3hotKeepsTheFunctionAsItWas := by
  unfold Obligations.D3hotKeepsTheFunctionAsItWas
  intro s fn m base value size en off data q r v
  constructor
  · intro hlink hperst
    exact ⟨_, exec_d3hotEntry_of_linkUp hlink hperst, slab_modFunc s fn .s0 _, slab_modFunc s fn .s1 _, shared_modFunc ..,
      hostMem_modFunc .., func_modFunc_self .., func_other_modFunc .., _, exec_d0Return_after_d3hotEntry hlink hperst, rfl⟩
  · intro hd3
    have hreach : s.hostReach fn = false := hostReach_eq_false_of_d3hot hd3
    have hpost : s.post fn r = s.modFunc fn (fun f => f.enqueue r) := post_of_ringOpen_eq_false (ringOpen_eq_false_of_d3hot hd3) r
    exact ⟨exec_doorbell_of_hostReach_eq_false hreach m, exec_mbxDoneRelease_of_hostReach_eq_false hreach m,
      exec_evtCtrlEnable_of_hostReach_eq_false hreach base size en, exec_evtConsumerWrite_of_hostReach_eq_false hreach value,
      exec_requestBufferWrite_of_hostReach_eq_false hreach m, exec_feedApertureWrite_of_hostReach_eq_false hreach q,
      exec_stagingWrite_of_hostReach_eq_false hreach, signalIf_of_d3hot hd3 v,
      by rw [hpost, hostMem_modFunc], by rw [hpost, func_modFunc_self]⟩

end Sys2Proof.Proofs
end

section
/-! # Temperatures and their conditions (R455, R456, R458, R460)

Each sample of a sensor meets its two conditions one after the other: a condition out of force starts at its threshold, and one in force
counts the sample or goes back to 0. The record of a start or a clear is an event record whose byte 10 decides whether it also signals
vector 5. -/

namespace Sys2Proof.Machine

/-! ## The samples of a slab -/

theorem exec_thermalSample_of_running {s : State} {k : SlabId} (hready : (s.slab k).ready = true)
    (hrunning : (s.slab k).camp.firmware = .running) (rs : List (Sensor × Int)) :
    exec (.thermalSample k rs) s
      = .next (((rs.foldl (fun (s : State) x => s.sampleSensor k x.1 x.2) s).modSlab k Slab.countCritical).updateAlert) := by
  change execThermalSample k rs s = _
  simp [execThermalSample, hready, hrunning]

theorem exec_thermalSample_of_not_running {s : State} {k : SlabId}
    (h : (s.slab k).ready = false ∨ (s.slab k).camp.firmware ≠ .running) (rs : List (Sensor × Int)) :
    exec (.thermalSample k rs) s = .next s := by
  change execThermalSample k rs s = _
  rcases h with hready | hrunning
  · simp [execThermalSample, hready]
  · simp [execThermalSample, hrunning]

theorem alertN_updateAlert (s : State) :
    s.updateAlert.shared.alertN = true ↔ s.slab0.camp.conditions = [] ∧ s.slab1.camp.conditions = [] := by
  simp only [State.updateAlert, Bool.and_eq_true, List.isEmpty_iff]

/-! ## One condition of a sensor -/

section
variable {s : State} {k : SlabId} {x : Sensor} {v : Int} {crit : Bool}

theorem Camp.has_of_find?_eq_some {c : Camp} {d : Condition}
    (hd : c.conditions.find? (fun d => decide (d.sensor = x) && decide (d.critical = crit)) = some d) : c.has x crit = true := by
  rw [Camp.has, List.any_eq_true, ← List.find?_isSome, hd, Option.isSome_some]

theorem sampleCondition_of_lt (hnew : (s.slab k).camp.has x crit = false) (hv : v < (thermalLevels x crit).1) :
    s.sampleCondition k x v crit = s := by
  simp [State.sampleCondition, hnew, Int.not_le.mpr hv]

theorem sampleCondition_of_le (hnew : (s.slab k).camp.has x crit = false) (hv : (thermalLevels x crit).1 ≤ v) :
    s.sampleCondition k x v crit
      = ((s.modSlab k (fun sl => (sl.modCamp (fun c =>
            { c with conditions := c.conditions ++ [{ sensor := x, critical := crit, below := 0 }] })).count
          (if crit then Ctr.THERMAL_CRITICAL else Ctr.THERMAL_HOT) 1)).stackCondition k x crit true).thermalEvent k x v
            (if crit then 1 else 0) := by
  simp [State.sampleCondition, hnew, hv]

/-- A condition in force counts the samples at or below the clear level, and ends with the tenth in a row. -/
theorem sampleCondition_of_find?_eq_some {d : Condition}
    (hd : (s.slab k).camp.conditions.find? (fun d => decide (d.sensor = x) && decide (d.critical = crit)) = some d) :
    s.sampleCondition k x v crit =
      let n := if v ≤ (thermalLevels x crit).2 then d.below + 1 else 0
      let rest := (s.slab k).camp.conditions.filter (fun d => !(decide (d.sensor = x) && decide (d.critical = crit)))
      if n = 10 then
        ((s.modSlab k (fun sl => sl.modCamp (fun c => { c with conditions := rest }))).stackCondition k x crit false).thermalEvent k x v 2
      else s.modSlab k (fun sl => sl.modCamp (fun c => { c with conditions := rest ++ [{ sensor := x, critical := crit, below := n }] })) := by
  simp only [State.sampleCondition, Camp.has_of_find?_eq_some hd, hd, if_true, Option.elim_some]

end

/-! ## Vectors and records -/

@[simp] theorem masked_signal (f : Func) (v w : Nat) : (f.signal v).masked w = f.masked w := by
  unfold Func.signal; split <;> rfl

@[simp] theorem masked_signalRing (f : Func) (v : Nat) : f.signalRing.masked v = f.masked v := by
  unfold Func.signalRing; split
  · exact masked_signal f 4 v
  · rfl

@[simp] theorem masked_count (f : Func) (id n v : Nat) : (f.count id n).masked v = f.masked v := rfl

/-- A signalled vector is pending while the host masks it, and is the latest one signalled otherwise (Table 15.1). -/
theorem signal_pending_or_latest (f : Func) {v : Nat} (hv : v < 64) :
    if f.masked v then (f.signal v).msixPba.getLsbD v = true else (f.signal v).vectors.head? = some v := by
  by_cases hmasked : f.masked v = true
  · simp only [Func.signal, hmasked, if_true, BitVec.getLsbD_or, BitVec.getLsbD_ofNat, Nat.testBit_two_pow_self, hv, decide_true,
      Bool.and_self, Bool.or_true]
  · simp [Func.signal, hmasked]

theorem writeRecord_of_urgent {r : EventRec} (h : r.urgent = true) (f : Func) (m : Cells) :
    (f.writeRecord m r).1
      = (({ f with evtProducer := f.evtProducer + 1, evtSeq := f.evtSeq + 1 } : Func).signalRing.count Ctr.EVT_RECORDS 1).signal 5 := by
  simp [Func.writeRecord, h]

/-- An urgent record signals vector 5 (R407). -/
theorem writeRecord_signals_vector5 {r : EventRec} (h : r.urgent = true) (f : Func) (m : Cells) :
    if f.masked 5 then (f.writeRecord m r).1.msixPba.getLsbD 5 = true else (f.writeRecord m r).1.vectors.head? = some 5 := by
  have hmasked (p q : DWord) : ({ f with evtProducer := p, evtSeq := q } : Func).masked 5 = f.masked 5 := rfl
  rw [writeRecord_of_urgent h]
  simpa [hmasked] using signal_pending_or_latest
    (({ f with evtProducer := f.evtProducer + 1, evtSeq := f.evtSeq + 1 } : Func).signalRing.count Ctr.EVT_RECORDS 1) (v := 5) (by decide)

theorem urgent_of_thermal_critical {r : EventRec} (htype : r.type = evtThermal) (hcritical : r.detail[10]? = some 1) : r.urgent = true := by
  simp [EventRec.urgent, htype, hcritical]

/-- Byte 10 of a THERMAL record, behind the item's 2 bytes and the reading's 8, is the threshold (Table 15.14). -/
theorem thermalDetail_threshold (item reading : Nat) (th : Byte) : (leBytes item 2 ++ leBytes reading 8 ++ [th])[10]? = some th := by
  rw [List.getElem?_append_right (by simp)]
  simp

/-- A THERMAL record is stamped by the slab whose sensor it is about, and takes one free value. -/
theorem thermalEvent_eq_post (s : State) (k : SlabId) (x : Sensor) (v : Int) (th : Byte) :
    s.thermalEvent k x v th = ({ s with free := s.free + 1 } : State).post k
      { stamp := s.stamp k, type := evtThermal, status := 0, mailbox := 0, tag := 0, opcode := 0
        detail := leBytes (sensorItem x s.free) 2 ++ leBytes (BitVec.ofInt 64 v).toNat 8 ++ [th] } := by
  cases k <;> rfl

end Sys2Proof.Machine

namespace Sys2Proof.Proofs

open Sys2Proof.Machine

/-- Settles O47: each clause is a branch of the sample of a condition, and a critical start's record is urgent by its threshold byte. -/
theorem temperaturesSetConditions : Obligations.TemperaturesSetConditions := by
  unfold Obligations.TemperaturesSetConditions
  intro s k rs x v crit d c rest camp
  refine ⟨fun hready hrunning => exec_thermalSample_of_running hready hrunning rs, fun h => exec_thermalSample_of_not_running h rs,
    alertN_updateAlert s, sampleCondition_of_lt, sampleCondition_of_le, ?counting,
    fun _ => ⟨rfl, rfl, rfl, rfl⟩, fun _ => ⟨rfl, rfl⟩, ?record⟩
  case counting =>
    intro hd
    rw [sampleCondition_of_find?_eq_some hd]
    exact ⟨fun hv => by simp [Int.not_le.mpr hv, camp, rest, c], fun hv h9 => by simp [hv, h9, camp, rest, c],
      fun hv h9 => by simp [hv, h9, camp, rest, c]⟩
  case record =>
    intro th r
    refine ⟨thermalEvent_eq_post s k x v th, fun hth => writeRecord_signals_vector5 (urgent_of_thermal_critical rfl ?_)⟩
    rw [← hth]
    exact thermalDetail_threshold _ _ th

end Sys2Proof.Proofs
end

section
/-! # The supply, the mode, the pins and the queue (R32, R421, R445, R454, R459, R463, R464)

The chassis of the state changes at its own events alone: one inversion lemma says all that a command can do to it, and the
invariants and frames of the module's supply follow by cases on that. -/

namespace Sys2Proof.Machine

/-- What the command `c` can make of the chassis of `s`. -/
inductive ChassisStep (s : State) : Instr → Chassis → Prop
  | kept (c : Instr) : ChassisStep s c s.chassis
  | firmwareColdStart (k : SlabId) (x : TestFindings) (m : Mode) (hrom : (s.slab k).camp.firmware = .bootRom)
      (hcold : (s.slab k).camp.restartCause = 4) (hboot : (s.slab k).camp.flash.bootable = true) (hready : (s.slab k).ready = true) :
      ChassisStep s (.firmwareStart k x) { s.chassis with mode := m }
  | referenceLoss (torn : List (SlabId × Fin 24 × Nat × Nat)) : ChassisStep s (.referenceLoss torn) { s.chassis with reference := false }
  | referenceDetectClear : ChassisStep s .referenceDetectClear { s.chassis with reference := true }
  | perstNAssert : ChassisStep s .perstNAssert { s.chassis with perstN := false, thermtripN := true }
  | perstNDeassert : ChassisStep s .perstNDeassert { s.chassis with perstN := true }
  | inputRise (hlow : s.shared.inputGood = false) :
      ChassisStep s .inputRise { s.chassis with inputGood := true, converters := true, thermtripN := true }
  | inputUndervoltage : ChassisStep s .inputUndervoltage { s.chassis with inputGood := false, converters := false, thermtripN := true }
  | inputOvervoltage : ChassisStep s .inputOvervoltage { s.chassis with inputGood := false, converters := false }
  | thermalTrip (k : SlabId) (x : Sensor) (hon : s.shared.converters = true) :
      ChassisStep s (.thermalTrip k x) { s.chassis with converters := false, thermtripN := false }

variable {s t : State}

theorem ChassisStep.of_chassis_eq {c : Instr} (h : t.chassis = s.chassis) : ChassisStep s c t.chassis := h ▸ .kept c

/-! ## The events one by one -/

theorem chassis_with_mode (s : State) (m : Mode) :
    State.chassis { s with shared := { s.shared with mode := m } } = { s.chassis with mode := m } := rfl

theorem chassis_with_reference (s : State) (b : Bool) :
    State.chassis { s with shared := { s.shared with reference := b } } = { s.chassis with reference := b } := rfl

@[simp] theorem decideMode_chassis (s : State) (k : SlabId) :
    (s.decideMode k).chassis = { s.chassis with mode := s.slab0.camp.flash.mode } := by
  simp only [State.decideMode]
  split <;> simp [chassis_with_mode]

theorem coldStart_chassis (s : State) (k : SlabId) (x : TestFindings) :
    ∃ m : Mode, (s.coldStart k x).chassis = { s.chassis with mode := m } :=
  ⟨_, by simp only [State.coldStart, setHoles_chassis, powerOnTest_chassis, ite_chassis, logFault_chassis, ite_self, decideMode_chassis,
    chassis_colLanes, modSlab_chassis]; rfl⟩

theorem firmwareStart_chassisStep {k : SlabId} {x : TestFindings} (h : exec (.firmwareStart k x) s = .next t) :
    ChassisStep s (.firmwareStart k x) t.chassis := by
  change execFirmwareStart k x s = .next t at h
  simp only [execFirmwareStart] at h
  split at h
  case isFalse => cases h; exact .kept _
  case isTrue hstart =>
    simp only [Bool.and_eq_true, decide_eq_true_eq] at hstart
    split at h <;> cases h
    case isFalse => exact .of_chassis_eq (by simp)
    case isTrue hboot =>
      split
      case isFalse => exact .of_chassis_eq (by simp)
      case isTrue hcold =>
        obtain ⟨m, hm⟩ := coldStart_chassis (s.modSlab k (fun sl => sl.modCamp Camp.loadFirmware)) k x
        rw [hm, modSlab_chassis]
        exact .firmwareColdStart k x m hstart.1 hcold hboot hstart.2

theorem referenceLoss_chassisStep {torn : List (SlabId × Fin 24 × Nat × Nat)} (h : exec (.referenceLoss torn) s = .next t) :
    ChassisStep s (.referenceLoss torn) t.chassis := by
  change execReferenceLoss torn s = .next t at h
  simp only [execReferenceLoss] at h
  split at h <;> cases h
  case isTrue => exact .kept _
  case isFalse =>
    have htorn (z : State) (x : SlabId × Fin 24 × Nat × Nat) :
        (if (z.slab x.1).ready then z.tear x.1 x.2.1.val x.2.2.1 x.2.2.2 else z).chassis = z.chassis := by simp
    have hkept := foldl_chassis _ htorn torn s
    rw [loseLink_chassis, chassis_with_reference, modSlab_chassis, modSlab_chassis, hkept]
    exact .referenceLoss torn

theorem referenceDetectClear_chassisStep (h : exec .referenceDetectClear s = .next t) :
    ChassisStep s .referenceDetectClear t.chassis := by
  change execReferenceDetectClear s = .next t at h
  simp only [execReferenceDetectClear] at h
  split at h <;> cases h
  case isTrue => exact .kept _
  case isFalse =>
    rw [startLocks_chassis, modSlab_chassis, modSlab_chassis]
    exact .referenceDetectClear

theorem perstNAssert_chassisStep (h : exec .perstNAssert s = .next t) : ChassisStep s .perstNAssert t.chassis := by
  change execPerstNAssert s = .next t at h
  cases h
  exact .perstNAssert

theorem perstNDeassert_chassisStep (h : exec .perstNDeassert s = .next t) : ChassisStep s .perstNDeassert t.chassis := by
  change execPerstNDeassert s = .next t at h
  simp only [execPerstNDeassert] at h
  split at h <;> cases h
  case isTrue => exact .kept _
  case isFalse =>
    rw [startLocks_chassis]
    exact .perstNDeassert

theorem inputRise_chassisStep (h : exec .inputRise s = .next t) : ChassisStep s .inputRise t.chassis := by
  change execInputRise s = .next t at h
  simp only [execInputRise] at h
  split at h <;> cases h
  case isTrue => exact .kept _
  case isFalse hlow =>
    rw [startLocks_chassis]
    exact .inputRise (Bool.eq_false_iff.mpr hlow)

theorem inputUndervoltage_chassisStep (h : exec .inputUndervoltage s = .next t) : ChassisStep s .inputUndervoltage t.chassis := by
  change execInputUndervoltage s = .next t at h
  cases h
  exact .inputUndervoltage

theorem inputOvervoltage_chassisStep (h : exec .inputOvervoltage s = .next t) : ChassisStep s .inputOvervoltage t.chassis := by
  change execInputOvervoltage s = .next t at h
  cases h
  exact .inputOvervoltage

theorem thermalTrip_chassisStep {k : SlabId} {x : Sensor} (h : exec (.thermalTrip k x) s = .next t) :
    ChassisStep s (.thermalTrip k x) t.chassis := by
  change execThermalTrip k x s = .next t at h
  simp only [execThermalTrip] at h
  split at h <;> cases h
  case isFalse => exact .kept _
  case isTrue hon => exact .thermalTrip k x (Bool.and_eq_true_iff.mp hon).1

/-! ## All commands -/

/-- All that a command can do to the chassis. -/
theorem exec_chassisStep {c : Instr} (h : exec c s = .next t) : ChassisStep s c t.chassis := by
  rcases exec_keeps_chassis c s with hkeeps | ⟨k, x, rfl⟩ | ⟨torn, rfl⟩ | rfl | rfl | rfl | rfl | rfl | rfl | ⟨k, x, rfl⟩
  · rw [h, keeps_next] at hkeeps
    exact .of_chassis_eq hkeeps
  · exact firmwareStart_chassisStep h
  · exact referenceLoss_chassisStep h
  · exact referenceDetectClear_chassisStep h
  · exact perstNAssert_chassisStep h
  · exact perstNDeassert_chassisStep h
  · exact inputRise_chassisStep h
  · exact inputUndervoltage_chassisStep h
  · exact inputOvervoltage_chassisStep h
  · exact thermalTrip_chassisStep h

/-- The queue is of the chassis, and no command changes it. -/
theorem exec_pending {c : Instr} (h : exec c s = .next t) : t.pending = s.pending := by
  have hstep : ChassisStep s c t.chassis := exec_chassisStep h
  change t.chassis.pending = s.chassis.pending
  generalize t.chassis = d at hstep ⊢
  cases hstep <;> rfl

/-! ## Steps -/

theorem step_of_pending_nil (h : s.pending = []) : step s = .next s.passCycle := by simp only [step, h]

theorem step_of_pending_cons {c : Instr} {q : List Instr} (h : s.pending = c :: q) : step s = exec c { s with pending := q } := by
  simp only [step, h]

theorem supplyInv_iff_chassis : s.SupplyInv ↔
    (s.chassis.converters = true → s.chassis.inputGood = true) ∧ (s.chassis.thermtripN = false → s.chassis.converters = false) := Iff.rfl

theorem ChassisStep.keeps_supplyInv {c : Instr} (h : ChassisStep s c t.chassis) (hs : s.SupplyInv) : t.SupplyInv := by
  rw [supplyInv_iff_chassis] at hs ⊢
  generalize t.chassis = d at h ⊢
  obtain ⟨hinput, htrip⟩ := hs
  cases h with
  | kept | firmwareColdStart | referenceLoss | referenceDetectClear | perstNDeassert => exact ⟨hinput, htrip⟩
  | perstNAssert => exact ⟨hinput, (nomatch ·)⟩
  | inputRise => exact ⟨fun _ => rfl, (nomatch ·)⟩
  | inputUndervoltage | inputOvervoltage | thermalTrip => exact ⟨(nomatch ·), fun _ => rfl⟩

theorem step_keeps_supplyInv (hs : s.SupplyInv) (h : step s = .next t) : t.SupplyInv := by
  cases hq : s.pending with
  | nil =>
    rw [step_of_pending_nil hq] at h
    cases h
    rw [supplyInv_iff_chassis, passCycle_chassis]
    exact hs
  | cons c q =>
    rw [step_of_pending_cons hq] at h
    exact (exec_chassisStep h).keeps_supplyInv hs

/-! ## A thermal trip -/

theorem alookup_map_of_mem {α β : Type} [DecidableEq α] (f : α → β) {a : α} {l : List α} (h : a ∈ l) :
    alookup a (l.map (fun k => (k, f k))) = some (f a) := by
  induction l with
  | nil => cases h
  | cons b l ih =>
    rw [List.map_cons, alookup]
    split
    case isTrue heq => rw [heq]
    case isFalse hne => exact ih ((List.mem_cons.mp h).resolve_left hne)


section
variable {k : SlabId} {x : Sensor}

theorem exec_thermalTrip (hon : s.shared.converters = true) (hpower : (s.slab k).powered = true) :
    exec (.thermalTrip k x) s
      = .next { s.powerOff true with shared := { (s.powerOff true).shared with thermtripN := false } } := by
  change execThermalTrip k x s = _
  simp [execThermalTrip, hon, hpower]

theorem slab_powerOff (s : State) (fuses : Bool) (i : SlabId) : (s.powerOff fuses).slab i = (s.slab i).off fuses := by cases i <;> rfl

theorem field_off_true (sl : Slab) {n : Nat} (h : n < 42) : (sl.off true).field n = Field.off true := by
  simp [Slab.off, Slab.field, agetD, alookup_map_of_mem _ (List.mem_range.mpr h)]

end

end Sys2Proof.Machine

namespace Sys2Proof.Proofs

open Sys2Proof.Machine

/-- Settles O53: an idle cycle keeps the chassis, and each command that changes it keeps the invariant. -/
theorem supplyInvariantIsKept : Obligations.SupplyInvariantIsKept := by
  unfold Obligations.SupplyInvariantIsKept
  exact fun s t hs h => step_keeps_supplyInv hs h

/-- Settles O55: read off the events that can change the chassis. -/
theorem modeAndSuppliesChangeAtTheirEvents : Obligations.ModeAndSuppliesChangeAtTheirEvents := by
  unfold Obligations.ModeAndSuppliesChangeAtTheirEvents
  intro s t c h
  have hstep : ChassisStep s c t.chassis := exec_chassisStep h
  change (t.chassis.mode ≠ _ → _) ∧ (t.chassis.inputGood ≠ _ → _) ∧ (_ → t.chassis.converters = true → _)
    ∧ (_ → t.chassis.converters = false → _) ∧ (t.chassis.reference ≠ _ → _) ∧ (t.chassis.perstN ≠ _ → _)
  generalize t.chassis = d at hstep ⊢
  cases hstep with
  | kept => simp +contextual [State.chassis]
  | firmwareColdStart k x m hrom hcold hboot hready =>
    exact ⟨fun _ => ⟨k, x, rfl, hrom, hcold, hboot, hready⟩, by simp [State.chassis]⟩
  | inputRise hlow => simp [State.chassis, hlow]
  | referenceLoss | referenceDetectClear | perstNAssert | perstNDeassert | inputUndervoltage | inputOvervoltage | thermalTrip =>
    simp [State.chassis]

/-- Settles O50. -/
theorem stepRunsTheFrontCommand : Obligations.StepRunsTheFrontCommand := by
  unfold Obligations.StepRunsTheFrontCommand
  exact fun s c q => step_of_pending_cons

/-- Settles O51: the command runs on the rest of the queue, which no command changes. -/
theorem commandsWaitInOrder : Obligations.CommandsWaitInOrder := by
  unfold Obligations.CommandsWaitInOrder
  intro s t c q hq h
  rw [step_of_pending_cons hq] at h
  exact exec_pending h

/-- Settles O54: at reset the input is good and THERMTRIP_N is high. -/
theorem supplyInvariantHoldsAtReset : Obligations.SupplyInvariantHoldsAtReset := by
  unfold Obligations.SupplyInvariantHoldsAtReset
  exact ⟨fun _ => rfl, (nomatch ·)⟩

/-- Settles O56: the trip puts both slabs off with every fuse open, and THERMTRIP_N is of the chassis. -/
theorem tripsStayUntilPowerIsRemoved : Obligations.TripsStayUntilPowerIsRemoved := by
  unfold Obligations.TripsStayUntilPowerIsRemoved
  constructor
  · intro s k x hon hpower
    refine ⟨_, exec_thermalTrip hon hpower, rfl, rfl, fun i => ?_⟩
    have hslab : State.slab { s.powerOff true with shared := { (s.powerOff true).shared with thermtripN := false } } i
        = (s.slab i).off true := slab_powerOff s true i
    rw [hslab]
    exact ⟨fun n hn => by rw [field_off_true _ hn]; rfl, rfl, rfl, rfl, rfl, rfl, rfl, rfl, rfl, rfl, rfl⟩
  · intro s t c h hlow hhigh
    have hstep : ChassisStep s c t.chassis := exec_chassisStep h
    change s.chassis.thermtripN = false at hlow
    change t.chassis.thermtripN = true at hhigh
    generalize t.chassis = d at hstep hhigh
    cases hstep with
    | perstNAssert => exact .inl rfl
    | inputUndervoltage => exact .inr (.inl rfl)
    | inputRise hinput => exact .inr (.inr ⟨rfl, hinput⟩)
    | thermalTrip => cases hhigh
    | kept | firmwareColdStart | referenceLoss | referenceDetectClear | perstNDeassert | inputOvervoltage =>
      exact absurd (hlow.symm.trans hhigh) Bool.false_ne_true

end Sys2Proof.Proofs
end

section
/-! # Counters (R8, R403)

A counter's read after an update of its scope, and what adding does to one counter: it stays below all ones, or saturates. -/

namespace Sys2Proof.Machine

/-! ## Association lists -/

theorem alookup_aerase {α β : Type} [DecidableEq α] (k k' : α) (l : List (α × β)) :
    alookup k (aerase k' l) = if k = k' then none else alookup k l := by
  induction l with
  | nil => simp [aerase, alookup]
  | cons p l ih =>
    obtain ⟨a, b⟩ := p
    have hcons : aerase k' ((a, b) :: l) = if a = k' then aerase k' l else (a, b) :: aerase k' l := by
      by_cases h : a = k' <;> simp [aerase, h]
    rw [hcons]
    split
    case isTrue h =>
      subst h
      by_cases hk : k = a
      · subst hk; simp [ih]
      · simp [ih, alookup, hk]
    case isFalse h =>
      by_cases hk : k = a
      · subst hk; simp [alookup, h]
      · simp [alookup, hk, ih]

theorem alookup_map_snd {α β γ : Type} [DecidableEq α] (f : β → γ) (k : α) (l : List (α × β)) :
    alookup k (l.map (fun p => (p.1, f p.2))) = (alookup k l).map f := by
  induction l with
  | nil => rfl
  | cons p l ih => simp only [List.map_cons, alookup]; split <;> simp [ih]

/-! ## One counter -/

section
variable {c : Counter} {n : Nat}

theorem add_of_lt (hover : c.overflow = false) (hlt : c.count.toNat + n < 2 ^ 48 - 1) :
    (c.add n).count.toNat = c.count.toNat + n ∧ (c.add n).overflow = false := by
  have hfits : ¬ 2 ^ 48 - 1 ≤ c.count.toNat + n := Nat.not_le.mpr hlt
  by_cases hn : n = 0
  · simp [Counter.add, hn, hover]
  · simp only [Counter.add, hn, hover, hfits, decide_false, Bool.or_self, Bool.false_eq_true, if_false, BitVec.toNat_ofNat, and_true]
    omega

theorem add_of_full (hn : 1 ≤ n) (hfull : c.overflow = true ∨ 2 ^ 48 - 1 ≤ c.count.toNat + n) :
    (c.add n).count.toNat = 2 ^ 48 - 1 ∧ (c.add n).overflow = true := by
  have hcond : (c.overflow || decide (2 ^ 48 - 1 ≤ c.count.toNat + n)) = true := by simpa using hfull
  rw [Counter.add, if_neg (Nat.one_le_iff_ne_zero.mp hn), if_pos hcond]
  exact ⟨rfl, rfl⟩

@[simp] theorem add_fresh (c : Counter) (n : Nat) : (c.add n).fresh = c.fresh + n := by
  by_cases hn : n = 0
  · simp [Counter.add, hn]
  · rw [Counter.add, if_neg hn]; split <;> rfl

end

/-! ## The counters of a scope -/

theorem get_bump (cs : Counters) (id n j : Nat) :
    Counters.get (Counters.bump cs id n) j = if j = id then (Counters.get cs id).add n else Counters.get cs j := by
  by_cases hn : n = 0
  · subst hn
    by_cases hj : j = id
    · simp [Counters.bump, Counter.add, hj]
    · simp [Counters.bump, hj]
  · simp [Counters.bump, hn, Counters.get]

theorem get_clear (cs : Counters) (id j : Nat) :
    Counters.get (Counters.clear cs id) j = if j = id then (Counters.get cs id).cleared else Counters.get cs j := by
  by_cases hfresh : (Counters.get cs id).fresh = 0
  · simp only [Counters.clear, hfresh, if_true, Counter.cleared, Counter.add]
    by_cases hj : j = id <;> simp [Counters.get, agetD, alookup_aerase, hj]
  · simp only [Counters.clear, hfresh, if_false]
    simp [Counters.get]

theorem get_settle (cs : Counters) (id : Nat) : Counters.get (Counters.settle cs) id = (Counters.get cs id).settled := by
  simp only [Counters.get, agetD, Counters.settle, alookup_map_snd]
  cases alookup id cs <;> rfl

end Sys2Proof.Machine

namespace Sys2Proof.Proofs

open Sys2Proof.Machine

/-- Settles O59: an update of a scope is an update of one counter, and a clear starts that counter again from zero. -/
theorem countersSaturateAndClear : Obligations.CountersSaturateAndClear := by
  unfold Obligations.CountersSaturateAndClear
  intro cs id j n
  simp only [get_bump, get_clear, get_settle, if_true]
  refine ⟨add_of_lt, add_of_full, fun hj => by simp [hj], add_fresh .., fun hlt => ?_, fun hfull => ?_, ?_, rfl⟩
  · simpa [Counter.cleared, Counter.zero] using add_of_lt (c := Counter.zero) rfl (by simpa [Counter.zero] using hlt)
  · exact add_of_full (by omega) (.inr (by simpa [Counter.zero] using hfull))
  · simp [Counter.cleared, Counter.zero]

end Sys2Proof.Proofs
end

section
/-! # The state after reset (R5, R14, R28, R93, R136, R379 to R381, R403, R407, R421) -/

namespace Sys2Proof.Machine

@[simp] theorem slab_reset (k : SlabId) : State.reset.slab k = Slab.reset := by cases k <;> rfl
@[simp] theorem func_reset (k : SlabId) : State.reset.func k = Func.reset := by cases k <;> rfl
@[simp] theorem mailbox_reset (m : Fin 4) : Func.reset.mailbox m = Mailbox.reset :=
  match m with | 0 | 1 | 2 | 3 => rfl
@[simp] theorem tile_reset (t : TileId) : State.reset.tile t = Tile.reset := by rw [State.tile, slab_reset]; rfl
@[simp] theorem seq_reset (q : SeqId) : Tile.reset.seq q = Sequencer.reset := by cases q <;> rfl
@[simp] theorem reg_reset (now r : Nat) : Sequencer.reset.reg now r = 0 := by
  simp [Sequencer.reg, Sequencer.reset, RegMap.get, RegMap.zero]

end Sys2Proof.Machine

namespace Sys2Proof.Proofs

open Sys2Proof.Machine

/-- Settles O60: every part of the reset state stands at its own reset value. -/
theorem resetLeavesTheModuleInPerst : Obligations.ResetLeavesTheModuleInPerst := by
  unfold Obligations.ResetLeavesTheModuleInPerst
  intro s
  refine ⟨rfl, rfl, rfl, rfl, rfl, rfl, rfl, rfl, rfl, fun k => ?slabs, fun t q r => ?tiles⟩
  case slabs =>
    simp only [s, slab_reset, func_reset, mailbox_reset]
    exact ⟨rfl, rfl, rfl, rfl, rfl, rfl, rfl, rfl, rfl, rfl, rfl, fun _ => ⟨rfl, rfl⟩, fun _ => ⟨rfl, rfl⟩, fun _ => ⟨rfl, rfl⟩⟩
  case tiles =>
    simp only [s, tile_reset, seq_reset, reg_reset]
    exact ⟨trivial, rfl⟩

end Sys2Proof.Proofs
end

section
/-! # Waits, scalar registers and branches of a sequencer (R93, R97, R116)

Each of these instructions is one issue of its sequencer, plain or after a write of a scalar register; a wait ends by an action at the
tile. -/

namespace Sys2Proof.Machine

variable {s : State} {t : TileId} {q : SeqId} {w : IWord} {op : Nat}

/-! ## Instructions that only issue -/

/-- An instruction whose whole effect is its issue. -/
theorem issue_issued (h : s.issuable t q op w = true) (act : Nat → Tile → Tile) {cost : Nat} {pc : BitVec 12} {st : SeqState}
    (hact : act (s.cycle t.slab) (s.tile t) = (s.tile t).issue q (s.cycle t.slab) w cost pc st) {x : Sequencer}
    (hx : x = { s.seqAt t q with state := st, pc := pc, nextIssue := s.cycle t.slab + cost }) :
    s.issue t op q w act = s.issued t q w x :=
  (issue_of_issuable h act).trans ((modTile_congr s t hact).trans (tile_issued s t q w x _ cost pc st hx rfl))

/-- An instruction that writes a scalar register and issues. -/
theorem issue_issued_setReg (h : s.issuable t q op w = true) (act : Nat → Tile → Tile) {d : Nat} {v : Word} {cost : Nat}
    {pc : BitVec 12} {st : SeqState}
    (hact : act (s.cycle t.slab) (s.tile t)
      = ((s.tile t).modSeq q (fun sq => sq.setReg (s.cycle t.slab) d v)).issue q (s.cycle t.slab) w cost pc st) :
    s.issue t op q w act = s.issued t q w
      { s.seqAt t q with
        state := st, pc := pc, nextIssue := s.cycle t.slab + cost
        regs := ((s.seqAt t q).setReg (s.cycle t.slab) d v).regs, late := ((s.seqAt t q).setReg (s.cycle t.slab) d v).late } := by
  have hset := setReg_eq (s.seqAt t q) (s.cycle t.slab) d v
  refine (issue_of_issuable h act).trans ((modTile_congr s t hact).trans
    (tile_issued_modSeq s t q w (fun sq => sq.setReg (s.cycle t.slab) d v) _ _ cost pc st ?_ ?_ ?_ ?_ ?_ rfl)) <;> rw [hset]

/-- What the registers read after an instruction wrote one. -/
theorem reg_of_setReg (sq : Sequencer) (now d : Nat) (v : Word) (r : Nat) :
    ({ sq with regs := (sq.setReg now d v).regs, late := (sq.setReg now d v).late } : Sequencer).reg now r
      = if r = 0 then 0 else if r = d then v else sq.reg now r := by
  rw [← setReg_eq]
  exact reg_setReg sq now d v r

theorem issueNext_modSeq_setReg (a : Tile) (q : SeqId) (now d : Nat) (v : Word) (w : IWord) :
    (a.modSeq q (fun sq => sq.setReg now d v)).issueNext q now w
      = (a.modSeq q (fun sq => sq.setReg now d v)).issue q now w 1 ((a.seq q).pc + 1) .issuing := by
  rw [Tile.issueNext, Tile.seq_modSeq_self, setReg_eq]

theorem exec_nop (h : s.issuable t q 0x00 w = true) : exec (.nop t q w) s = .next (s.issued t q w (s.nextWord t q)) :=
  congrArg _ (issue_issued h _ rfl rfl)

theorem exec_waitc (h : s.issuable t q 0x01 w = true) :
    exec (.waitc t q w) s = .next (s.issued t q w
      { s.seqAt t q with
        pc := (s.seqAt t q).pc + 1, state := .waitCycle (s.cycle t.slab + (ctlImm w).toNat)
        nextIssue := s.cycle t.slab + (ctlImm w).toNat }) :=
  congrArg _ (issue_issued h _ rfl rfl)

theorem exec_waituntil (h : s.issuable t q 0x02 w = true) :
    exec (.waituntil t q w) s = .next (s.issued t q w
      (let c := max (s.cycle t.slab + 1) ((s.tile t).localStart + (ctlImm w + (s.seqAt t q).reg (s.cycle t.slab) (ctlSD w)).toNat)
       { s.seqAt t q with pc := (s.seqAt t q).pc + 1, state := .waitCycle c, nextIssue := c })) := by
  refine congrArg _ (issue_issued h _ rfl ?_)
  rw [Nat.add_sub_cancel' (by omega)]
  rfl

theorem exec_waitarr (h : s.issuable t q 0x03 w = true) :
    exec (.waitarr t q w) s = .next (s.issued t q w
      { s.seqAt t q with
        pc := (s.seqAt t q).pc + (if ((s.seqAt t q).waitPair (s.cycle t.slab) w).isSome then 2 else 1), nextIssue := s.cycle t.slab + 1
        state := .waitArr (BitVec.ofNat 4 (ctlSA2 w)) (ctlImm w + (s.seqAt t q).reg (s.cycle t.slab) (ctlSD w))
          ((s.seqAt t q).waitPair (s.cycle t.slab) w) (s.cycle t.slab) }) :=
  congrArg _ (issue_issued h _ rfl rfl)

theorem waitPair_eq_none {sq : Sequencer} (now : Nat) (h : opOf (sq.word (sq.pc + 1)) ≠ 0x02) : sq.waitPair now w = none :=
  if_neg (fun hpair => h hpair.1)

theorem waitPair_eq_some {sq : Sequencer} (now : Nat) (h : opOf (sq.word (sq.pc + 1)) = 0x02)
    (hreg : ctlSD (sq.word (sq.pc + 1)) = ctlSD w) :
    sq.waitPair now w = some (ctlImm (sq.word (sq.pc + 1)) + sq.reg now (ctlSD w)) := if_pos ⟨h, hreg⟩

theorem exec_jmp (h : s.issuable t q 0x08 w = true) :
    exec (.jmp t q w) s = .next (s.issued t q w
      { s.seqAt t q with state := .issuing, pc := ctlTarget w, nextIssue := s.cycle t.slab + 2 }) :=
  congrArg _ (issue_issued h _ rfl rfl)

theorem exec_bnzd (h : s.issuable t q 0x09 w = true) :
    let now := s.cycle t.slab
    let sq := s.seqAt t q
    let v := sq.reg now (ctlSD w) - 1
    exec (.bnzd t q w) s = .next (s.issued t q w
      { sq with state := .issuing, regs := (sq.setReg now (ctlSD w) v).regs, late := (sq.setReg now (ctlSD w) v).late
                pc := if v = 0 then sq.pc + 1 else ctlTarget w, nextIssue := now + if v = 0 then 1 else 2 }) := by
  intro now sq v
  by_cases hv : v = 0
  · rw [if_pos hv, if_pos hv]
    exact congrArg _ (issue_issued_setReg h _ ((if_pos hv).trans (issueNext_modSeq_setReg ..)))
  · rw [if_neg hv, if_neg hv]
    exact congrArg _ (issue_issued_setReg h _ (if_neg hv))

/-! ## The end of a wait -/

theorem exec_waitEnd (hl : s.live t = true) : exec (.waitEnd t q) s = .next (s.modTile t (fun a => a.endWait q (s.cycle t.slab))) :=
  congrArg _ (onTile_live s t (fun now tl => tl.endWait q now) hl)

theorem endWait_waitCycle {a : Tile} {now c : Nat} (hst : (a.seq q).state = .waitCycle c) (hc : c ≤ now) :
    a.endWait q now = a.setSeq q { a.seq q with state := .issuing } := by
  simp only [Tile.endWait, hst, hc, if_true, Tile.modSeq]

theorem endWait_waitArr {a : Tile} {now since : Nat} {ctr : BitVec 4} {v : Word} {sched : Option Word}
    (hst : (a.seq q).state = .waitArr ctr v sched since) (hv : v.toNat ≤ (a.ac.get ctr.toNat).toNat) (hs : since < now) :
    a.endWait q now = (match sched with
      | none => a
      | some c => a.slip q (max (since + 1) (a.localStart + c.toNat)) now).modSeq q
        (fun x => { x with state := .issuing, nextIssue := now }) := by
  cases sched <;> simp only [Tile.endWait, hst, hv, hs, and_self, if_true]

theorem modSeq_slip (a : Tile) (q : SeqId) (from_ upto : Nat) (g : Sequencer → Sequencer) :
    (a.slip q from_ upto).modSeq q g = a.setSeq q (g ((a.seq q).slipSpan from_ upto)) := by cases q <;> rfl

/-! ## Slips -/

theorem newCycles_nil {a b : Nat} (h : a < b) : newCycles [] a b = b - a := by
  have hcut : ¬ max a b < b := by omega
  simp [newCycles, cutSpan, h, hcut]

theorem slipSpan_of_spans_nil {sq : Sequencer} {a b : Nat} (hnil : sq.spans = []) (h : a < b) :
    (sq.slipSpan a b).slip = addSat16 sq.slip (b - a) ∧ (sq.slipSpan a b).spans = [(a, b)] := by
  simp [Sequencer.slipSpan, h, hnil, newCycles_nil h]

end Sys2Proof.Machine

namespace Sys2Proof.Proofs

open Sys2Proof.Machine

theorem waitsHoldOnlyTheirSequencer : Claims.WaitsHoldOnlyTheirSequencer := by
  unfold Claims.WaitsHoldOnlyTheirSequencer
  intro s t q w
  refine ⟨exec_nop, exec_waitc, exec_waituntil, fun h halone => ?_, fun h hnext hreg => ?_⟩
  · rw [exec_waitarr h, waitPair_eq_none _ halone]; rfl
  · rw [exec_waitarr h, waitPair_eq_some _ hnext hreg]; rfl

theorem waitEndsAtItsCycleOrArrivalCount : Claims.WaitEndsAtItsCycleOrArrivalCount := by
  unfold Claims.WaitEndsAtItsCycleOrArrivalCount
  intro s t q hl
  rw [exec_waitEnd hl]
  refine ⟨fun c hst hc => ?_, fun ctr v since hst hs hv => ?_, fun ctr v c since hst hs hv => ?_, fun a b => slipSpan_of_spans_nil⟩
  · exact congrArg _ (modTile_congr s t (endWait_waitCycle hst hc))
  · exact congrArg _ (modTile_congr s t (endWait_waitArr hst hv hs))
  · refine congrArg _ (modTile_congr s t ((endWait_waitArr hst hv hs).trans ?_))
    exact modSeq_slip ..

/-- Settles O1: each wait is one issue, and its end one action at the tile. -/
theorem waitsEndAtTheirCycleOrCount : Obligations.WaitsEndAtTheirCycleOrCount :=
  ⟨waitsHoldOnlyTheirSequencer, waitEndsAtItsCycleOrArrivalCount⟩

theorem scalarWritesReachOneRegister : Claims.ScalarWritesReachOneRegister := by
  unfold Claims.ScalarWritesReachOneRegister
  intro s t q w
  exact ⟨fun h => ⟨_, _, congrArg _ (issue_issued_setReg h _ (issueNext_modSeq_setReg ..)), reg_of_setReg _ _ _ _⟩,
    fun h => ⟨_, _, congrArg _ (issue_issued_setReg h _ (issueNext_modSeq_setReg ..)), reg_of_setReg _ _ _ _⟩⟩

theorem branchesGoToTheirTarget : Claims.BranchesGoToTheirTarget := by
  unfold Claims.BranchesGoToTheirTarget
  intro s t q w
  refine ⟨exec_jmp, fun h => ⟨_, _, exec_bnzd h, reg_of_setReg _ _ _ _⟩⟩

/-- Settles O2: each of these instructions is one issue, with at most one scalar register written. -/
theorem scalarAndBranchInstructions : Obligations.ScalarAndBranchInstructions :=
  ⟨scalarWritesReachOneRegister, branchesGoToTheirTarget⟩

end Sys2Proof.Proofs
end

section
/-! # IFILL and the belay instructions (R39, R44, R99, R100) -/

namespace Sys2Proof.Machine

variable {s : State} {t : TileId} {q : SeqId} {w : IWord}

/-! ## IFILL -/

theorem fillFree_iff {a : Tile} {x : SeqId} {half : Bool} :
    a.fillFree x half = true ↔ (∀ f ∈ a.fills, f.target ≠ x) ∧ halfOf (a.seq x).pc ≠ half := by
  simp only [Tile.fillFree, Bool.and_eq_true, List.all_eq_true, decide_eq_true_eq]

/-- An IFILL that begins is an issue of the service sequencer, a locked half and a fill in progress. -/
theorem modTile_startFill (x : SeqId) :
    s.modTile t (fun a => a.startFill (s.cycle t.slab) w x)
      = (s.issued t .svc w (s.nextWord t .svc)).modTile t (fun a =>
          { a.modSeq x (fun sq => { sq with locked := some (fillHalf w) }) with
            fills := a.fills ++ [{ target := x, half := fillHalf w, row := fillRow w, begun := s.cycle t.slab
                                   next := slotFrom (fillRow w) 2 (s.cycle t.slab + 1), rows := [] }] }) := by
  rw [← tile_issuedNext s t .svc w _ rfl, modTile_modTile]
  refine modTile_congr s t ?_
  simp only [Tile.startFill, Tile.modSeq_fills]

theorem exec_ifill {x : SeqId} (hx : fillSeq w = some x) (h : s.issuable t .svc 0x0C w = true) :
    exec (.ifill t .svc w) s = .next (s.modTile t (fun a =>
      if a.fillFree x (fillHalf w) then a.startFill (s.cycle t.slab) w x else a.stall .svc (s.cycle t.slab) 4)) := by
  refine congrArg _ ((issue_of_issuable h _).trans (modTile_congr s t ?_))
  simp only [hx]

theorem exec_ifillBegin {x : SeqId} (hl : s.live t = true) (hst : (s.tile t).svc.state = .stalled 4)
    (hw : (s.tile t).svc.word (s.tile t).svc.pc = w) (hop : opOf w = 0x0C) (hx : fillSeq w = some x)
    (hfree : (s.tile t).fillFree x (fillHalf w) = true) :
    exec (.ifillBegin t) s = .next (s.modTile t (fun a => a.startFill (s.cycle t.slab) w x)) := by
  refine congrArg _ ((onTile_live s t _ hl).trans (modTile_congr s t ?_))
  simp only [hst, hw, hop, hx, hfree, decide_true, Bool.and_self, if_true]

theorem moveFills_of_no_moves {a : Tile} {f : Fill} {p : Bool} {c : Nat} (hf : a.fills = [f]) (hm : a.port.moves = [])
    (hrows : f.rows.length < 512) :
    (a.moveFills p c).fills = [if f.next = c then { f with next := c + 1, rows := f.rows ++ [a.engRow p (f.row + f.rows.length)] } else f] := by
  by_cases hc : f.next = c <;> simp [Tile.moveFills, hf, hm, hc, Nat.not_le.mpr hrows]

theorem mapFrom_const {α : Type} (n : Nat) (l : List α) : mapFrom (fun _ d => d) n l = l := by
  induction l generalizing n with
  | nil => rfl
  | cons a l ih => rw [mapFrom, ih]

theorem bankOf_lt (p : Bool) (r : Nat) : bankOf p r < 24 := by
  unfold bankOf; split <;> exact Nat.mod_lt _ (by decide)

theorem rowPowered_of_all {a : Tile} (h : ∀ i, i < 24 → a.powered.getLsbD i = true) (p : Bool) (r : Nat) : a.rowPowered p r = true :=
  h _ (bankOf_lt p r)

theorem opndFaults_zero (a : Tile) : a.opndFaults 0 = a := rfl
theorem count_zero (a : Tile) (c : Nat) : a.count c 0 = a := rfl

/-- Rows that exist, in banks with power, are no fault. -/
theorem rowFaults_of_powered {a : Tile} {p : Bool} {rs : List Nat} (hin : ∀ r ∈ rs, r < spRows) (hp : ∀ r ∈ rs, a.rowPowered p r = true) :
    a.rowFaults p rs = a := by
  have hout : rs.filter (fun r => decide (spRows ≤ r)) = [] := List.filter_eq_nil_iff.mpr fun r hr => by simpa using hin r hr
  have hoff : rs.filter (fun r => decide (r < spRows) && !a.rowPowered p r) = [] :=
    List.filter_eq_nil_iff.mpr fun r hr => by simp [hp r hr]
  simp only [Tile.rowFaults, hout, hoff, List.length_nil, opndFaults_zero, Tile.offBank, count_zero]

@[simp] theorem slip_self (a : Tile) (q : SeqId) (c : Nat) : a.slip q c c = a := by
  cases q <;> simp [Tile.slip, Tile.modSeq, Tile.setSeq, Tile.seq, Sequencer.slipSpan]

theorem mem_rowsFrom {r n k : Nat} : k ∈ rowsFrom r n ↔ r ≤ k ∧ k < r + n := by
  simp only [rowsFrom, List.mem_map, List.mem_range]
  constructor
  · rintro ⟨j, hj, rfl⟩; omega
  · rintro ⟨h1, h2⟩; exact ⟨k - r, by omega, by omega⟩

theorem exec_ifillDone {x : SeqId} {f : Fill} (hl : s.live t = true) (hf : (s.tile t).fills = [f]) (hx : f.target = x)
    (hrows : f.rows.length = 512) (hnext : f.next ≤ s.cycle t.slab) (hin : f.row + 512 ≤ spRows)
    (hp : ∀ i, i < 24 → (s.tile t).powered.getLsbD i = true) :
    exec (.ifillDone t x []) s = .next (s.modTile t (fun a =>
      ({ a with fills := [] } : Tile).modSeq x (fun sq =>
        { sq with locked := none, store := storeWords sq.store (if f.half then 2048 else 0) (f.rows.flatMap rowWords) }))) := by
  change execIfillDone t x [] s = _
  have hslow : slowCycles [] = 0 := rfl
  have hfault : (s.tile t).rowFaults (isPortal t) (rowsFrom f.row 512) = s.tile t :=
    rowFaults_of_powered (fun r hr => by have := mem_rowsFrom.mp hr; omega) fun r _ => rowPowered_of_all hp _ r
  simp only [execIfillDone, hf, List.filter_nil, List.find?_cons, hx, hrows, hslow, Nat.add_zero, hnext, decide_true, Bool.and_self,
    Nat.le_refl, rowsUncorrectable, List.any_nil, State.tileErrorIf, Bool.false_eq_true, if_false, slip_self, fixRow, List.foldl_nil,
    mapFrom_const, onTile_live _ _ _ hl]
  refine congrArg _ (modTile_congr s t ?_)
  simp [hfault, Tile.recordRowErrors, hf, hx]

/-! ## Belays -/

theorem exec_belay (h : s.issuable t q 0x10 w = true) :
    exec (.belay t q w) s = .next (s.issued t q w { s.nextWord t q with state := .inBelay (belayChannel w) }) :=
  congrArg _ (issue_issued h _ rfl rfl)

theorem exec_belayArrival {ch : Fin 64} (hl : s.live t = true) (h : s.belayReady t ch = true) :
    exec (.belayArrival t ch) s = .next (({ s with free := s.free + 1 } : State).modTile t (fun a =>
      let b := a.settleSlips (s.cycle t.slab)
      { (if ch.val = 0 then b.lateAcks (s.workBudget t.slab) else b) with
        arrivals := b.arrivals ++
          [{ ch := ch, seenAt := s.cycle t.slab + Config.freeNat s.free % (s.arrivalMax t.slab ch.val + 1) }] })) := by
  change execBelayArrival t ch s = _
  rw [execBelayArrival, h, live_ready hl]
  exact congrArg _ (onTile_live { s with free := s.free + 1 } t _ hl)

theorem exec_belayResume {ch : Fin 64} {at_ : Nat} (hl : s.live t = true) (hr : (s.tile t).released = [{ ch := ch, seenAt := at_ }])
    (hat : at_ ≤ s.cycle t.slab) :
    exec (.belayResume t ch) s = .next (s.modTile t (fun a =>
      ({ a with released := [] } : Tile).mapSeqs (fun sq =>
        if sq.state = .inBelay ch then { sq with state := .issuing, nextIssue := at_ + 1 } else sq))) := by
  refine congrArg _ ((onTile_live s t _ hl).trans (modTile_congr s t ?_))
  simp only [hr, List.find?_cons, hat, decide_true, Bool.and_self]
  simp

end Sys2Proof.Machine

namespace Sys2Proof.Proofs

open Sys2Proof.Machine

theorem ifillLocksCopiesAndUnlocks : Claims.IfillLocksCopiesAndUnlocks := by
  unfold Claims.IfillLocksCopiesAndUnlocks
  intro s t w x hx now tl begun
  refine ⟨fun h => ?issues, fun hl hst hw hop hfills hpc => ?begins, fun a f c => moveFills_of_no_moves,
    fun f hl hfx hf hrows hnext hin hp => exec_ifillDone hl hf hfx hrows hnext hin hp⟩
  case issues =>
    rw [exec_ifill hx h]
    split
    case isTrue hfree => exact ⟨_, congrArg _ (modTile_congr s t (if_pos (fillFree_iff.mpr hfree))), modTile_startFill x⟩
    case isFalse hbusy => exact congrArg _ (modTile_congr s t (if_neg (fun hfree => hbusy (fillFree_iff.mp hfree))))
  case begins => exact ⟨_, exec_ifillBegin hl hst hw hop hx (fillFree_iff.mpr ⟨hfills, hpc⟩), modTile_startFill x⟩

theorem belayHoldsUntilRelease : Claims.BelayHoldsUntilRelease := by
  unfold Claims.BelayHoldsUntilRelease
  intro s t q w ch hl
  exact ⟨exec_belay, fun h => ⟨_, Nat.le_of_lt_succ (Nat.mod_lt _ (Nat.succ_pos _)), exec_belayArrival hl h⟩,
    fun at_ hr hat => exec_belayResume hl hr hat⟩

/-- Settles O3: an IFILL begins by one action at the tile and ends by another; a belay stops its sequencer, sends the arrival and
takes the release. -/
theorem ifillAndBelayHoldTheirSequencer : Obligations.IfillAndBelayHoldTheirSequencer :=
  ⟨ifillLocksCopiesAndUnlocks, belayHoldsUntilRelease⟩

end Sys2Proof.Proofs
end

section
/-! # Wrong words, and the faults of a tile (R22, R92, R95, R347, R363) -/

namespace Sys2Proof.Machine

variable {s : State} {t : TileId} {q : SeqId} {w : IWord} {code : Byte}

/-! ## Wrong words -/

theorem exec_wrongClassDecode (hl : s.live t = true) (hat : (s.tile t).atIssue q (s.cycle t.slab) w = true)
    (hop : opClass (opOf w) ≠ .reserved) (hclass : classAllowed q (opClass (opOf w)) = false) (hfetch : (s.seqAt t q).fetchLocked = false) :
    exec (.wrongClassDecode t q w) s = .next ((s.issued t q w (s.nextWord t q)).modTile t (fun a => a.opndFaults 1)) := by
  refine congrArg _ ((onTile_live s t _ hl).trans ?_)
  rw [← tile_issuedNext s t q w _ rfl, modTile_modTile]
  refine modTile_congr s t ?_
  have hfetch' : ((s.tile t).seq q).fetchLocked = false := hfetch
  simp [hat, hop, hclass, hfetch', Tile.wrongClass]

theorem bitErrors_self (w : IWord) : bitErrors w w = 0 := by simp [bitErrors]

theorem badFetch_iff {sq : Sequencer} :
    sq.badFetch w = true ↔ 2 ≤ bitErrors w (sq.word sq.pc) ∨ bitErrors w (sq.word sq.pc) = 0 ∧ opClass (opOf w) = .reserved := by
  simp only [Sequencer.badFetch, Bool.or_eq_true, Bool.and_eq_true, decide_eq_true_eq]

theorem exec_reservedOpcodeDecode (hready : (s.slab t.slab).ready = true) (hseq : (s.seqAt t q).ready (s.cycle t.slab) = true)
    (hbad : (s.seqAt t q).badFetch w = true) : exec (.reservedOpcodeDecode t q w) s = .next (s.tileFault t 0x02) := by
  have hseq' : ((s.tile t).seq q).ready (s.cycle t.slab) = true := hseq
  have hbad' : ((s.tile t).seq q).badFetch w = true := hbad
  refine congrArg _ (if_pos ?_)
  simp only [hready, hseq', hbad', Bool.and_self]

/-! ## A tile that fails -/

theorem Slab.modTile_modTile (sl : Slab) (x y : Nat) (f g : Tile → Tile) :
    (sl.modTile x y f).modTile x y g = sl.modTile x y (fun a => g (f a)) := by
  rw [Slab.modTile, Slab.tile_modTile_self, Slab.modTile, Slab.modTile, Slab.setTile, Slab.setTile, Slab.setTile, aset_aset]


theorem mem_failedTiles_tileFailed (sl : Slab) (n : Nat) (p : Fin 17 × Fin 17) : p ∈ ((sl.tileFailed n p).field n).failedTiles := by
  change p ∈ ((sl.modField n fun fd => { fd with failedTiles := insertNew p fd.failedTiles, repairPending := true }).field n).failedTiles
  rw [Slab.field_modField_self]
  exact mem_insertNew ..

@[simp] theorem dev_raiseCause (s : State) (c : Cause) (i : SlabId) : (s.raiseCause c).dev i = s.dev i := dev_modSlab ..

@[simp] theorem dev_logFaultAt (s : State) (i : SlabId) (st : Stamp) (e : FaultEntry) (j : SlabId) : (s.logFaultAt i st e).dev j = s.dev j := by
  simp only [State.dev, shared_logFaultAt]

@[simp] theorem root_logFaultAt (s : State) (i : SlabId) (st : Stamp) (e : FaultEntry) (j : SlabId) :
    (s.logFaultAt i st e).root j = s.root j := by
  rw [State.root, dev_logFaultAt, slab_logFaultAt, State.root]
  split
  case isTrue hi => rw [hi]
  case isFalse => rfl

/-- An entry of the fault log is in it with its SEQ, stamp and step. -/
theorem mem_faultLog_logFaultAt (s : State) (i : SlabId) (st : Stamp) (e : FaultEntry) :
    ∃ x ∈ ((s.logFaultAt i st e).slab i).camp.faultLog, x = { e with seq := (s.slab i).camp.logSeq, stamp := st, step := s.stepNow i } := by
  rw [slab_logFaultAt, if_pos rfl]
  exact ⟨_, List.mem_append_right _ (List.mem_singleton_self _), rfl⟩

@[simp] theorem hostMem_modRoot (s : State) (i : SlabId) (g : Root → Root) : (s.modRoot i g).hostMem = s.hostMem := hostMem_modSlab ..

theorem mem_causes_raiseCause (s : State) (c : Cause) : c ∈ ((s.raiseCause c).root c.slab).causes := by
  rw [State.root, dev_raiseCause, slab_raiseCause, if_pos rfl]
  exact mem_insertNew ..

/-- The module with the failed tile in its field's fault map and the tile's overlay lost. -/
def State.tileRecorded (s : State) (t : TileId) : State :=
  (s.modSlab t.slab (fun sl => sl.tileFailed (tileField t) (s.physical t))).modTile t (fun tl => { tl with overlay := [] })

theorem slab_tileRecorded (s : State) (t : TileId) (i : SlabId) :
    (s.tileRecorded t).slab i = if i = t.slab then
      ((s.slab i).tileFailed (tileField t) (s.physical t)).modTile t.x.val t.y.val (fun tl => { tl with overlay := [] })
    else s.slab i := by
  simp only [State.tileRecorded, State.modTile, slab_modSlab]
  split <;> rfl

theorem active_eq (s : State) (t : TileId) :
    s.active t = (alookup (t.x.val, t.y.val) (s.slab t.slab).tiles).elim false fun tl => tl.entry.isSome := by
  unfold State.active; split <;> simp [*]

theorem participates_eq (s : State) (t : TileId) : s.participates t = (s.active t && decide ((s.root t.slab).kind = .image)) := by
  unfold State.participates State.active; split <;> simp

@[simp] theorem dev_modTile (s : State) (t : TileId) (f : Tile → Tile) (i : SlabId) : (s.modTile t f).dev i = s.dev i := dev_modSlab ..

@[simp] theorem dev_tileRecorded (s : State) (t : TileId) (i : SlabId) : (s.tileRecorded t).dev i = s.dev i := by
  simp [State.tileRecorded]

@[simp] theorem root_tileRecorded (s : State) (t : TileId) (i : SlabId) : (s.tileRecorded t).root i = s.root i := by
  rw [State.root, dev_tileRecorded, slab_tileRecorded]
  split <;> rfl

@[simp] theorem active_tileRecorded (s : State) (t : TileId) : (s.tileRecorded t).active t = s.active t := by
  rw [active_eq, active_eq, slab_tileRecorded, if_pos rfl]
  simp only [Slab.modTile, Slab.setTile, alookup_aset, if_true, Option.elim_some]
  change (agetD Tile.reset (t.x.val, t.y.val) (s.slab t.slab).tiles).entry.isSome = _
  unfold agetD
  cases alookup (t.x.val, t.y.val) (s.slab t.slab).tiles <;> rfl

@[simp] theorem participates_tileRecorded (s : State) (t : TileId) : (s.tileRecorded t).participates t = s.participates t := by
  simp only [participates_eq, active_tileRecorded, root_tileRecorded]

/-- A failed tile: its overlay is lost, and it lends on only with an image program. -/
def Tile.silenced (a : Tile) (active : Bool) : Tile := { a with overlay := [], lending := a.lending && active }

/-- The module with the failed tile recorded, an idle one lending no more. -/
def State.tileSilenced (s : State) (t : TileId) : State :=
  if s.active t then s.tileRecorded t else (s.tileRecorded t).stopLending t

/-- The cause that the failure of a tile with an image program raises. -/
def State.tileCause (s : State) (t : TileId) (code : Byte) : Cause :=
  { code := code, slab := t.slab
    field := some (⟨t.x.val / 16 % 7, Nat.mod_lt _ (by decide)⟩, ⟨t.y.val / 16 % 6, Nat.mod_lt _ (by decide)⟩)
    tile := some (s.physical t), unit := none, stamp := (s.tileRecorded t).tileStamp t }

theorem tileFault_of_participates (h : s.participates t = true) : s.tileFault t code = (s.tileSilenced t).raiseCause (s.tileCause t code) := by
  have hactive : s.active t = true := by rw [participates_eq, Bool.and_eq_true] at h; exact h.1
  rw [State.tileSilenced, if_pos hactive]
  exact if_pos ((participates_tileRecorded s t).trans h)

theorem tileFault_of_not_participates (h : s.participates t = false) :
    s.tileFault t code = (s.tileSilenced t).logFaultAt t.slab ((s.tileRecorded t).tileStamp t) ((s.tileRecorded t).tileEntry t code 0) := by
  rw [State.tileSilenced, ← active_tileRecorded s t]
  refine if_neg ?_
  rw [Bool.not_eq_true]
  exact (participates_tileRecorded s t).trans h

@[simp] theorem dev_tileSilenced (s : State) (t : TileId) (i : SlabId) : (s.tileSilenced t).dev i = s.dev i := by
  unfold State.tileSilenced; split <;> simp [State.stopLending]

theorem hostMem_tileSilenced (s : State) (t : TileId) : (s.tileSilenced t).hostMem = s.hostMem := by
  unfold State.tileSilenced; split <;> simp [State.stopLending, State.tileRecorded]

theorem slab_tileSilenced (s : State) (t : TileId) (i : SlabId) :
    ∃ d : List (Nat × Nat × Nat), (s.tileSilenced t).slab i = if i = t.slab then
      { ((s.slab i).tileFailed (tileField t) (s.physical t)).modTile t.x.val t.y.val
          (fun tl => tl.silenced (s.active t)) with
        mem := { (s.slab i).mem with dropping := d } }
    else s.slab i := by
  unfold State.tileSilenced
  split
  case isTrue h => exact ⟨(s.slab i).mem.dropping, by rw [slab_tileRecorded]; simp only [h, Tile.silenced, Bool.and_true]; rfl⟩
  case isFalse h =>
    rw [Bool.not_eq_true] at h
    simp only [State.stopLending, State.modTile, slab_modSlab, slab_tileRecorded]
    split
    case isTrue =>
      simp only [h, Tile.silenced, Bool.and_false]
      exact ⟨_, congrArg (Slab.modMem · _) (Slab.modTile_modTile ..)⟩
    case isFalse => exact ⟨[], rfl⟩

@[simp] theorem root_tileSilenced (s : State) (t : TileId) (i : SlabId) : (s.tileSilenced t).root i = s.root i := by
  obtain ⟨d, hslab⟩ := slab_tileSilenced s t (s.dev i)
  rw [State.root, dev_tileSilenced, hslab]
  split <;> rfl

theorem shared_tileRecorded (s : State) (t : TileId) : (s.tileRecorded t).shared = s.shared := by simp [State.tileRecorded]

theorem tile_tileRecorded (s : State) (t : TileId) : (s.tileRecorded t).tile t = { s.tile t with overlay := [] } := by
  rw [State.tileRecorded, tile_modTile_self, State.tile, slab_modSlab_self]
  rfl

/-- Beside the root's causes, base camp's fault log and its ring, a failed tile leaves the slabs as it was silenced. -/
theorem slab_tileFault (s : State) (t : TileId) (code : Byte) (i : SlabId) :
    ∃ (r : Root) (c : Camp) (cs : Counters),
      (s.tileFault t code).slab i = { (s.tileSilenced t).slab i with root := r, camp := c, counters := cs }
      ∧ c.mapPending = ((s.tileSilenced t).slab i).camp.mapPending := by
  cases h : s.participates t with
  | true =>
    rw [tileFault_of_participates h, slab_raiseCause]
    split <;> exact ⟨_, _, _, rfl, rfl⟩
  | false =>
    rw [tileFault_of_not_participates h, slab_logFaultAt]
    split
    case isTrue hi => subst hi; exact ⟨_, _, _, rfl, rfl⟩
    case isFalse => exact ⟨_, _, _, rfl, rfl⟩

/-- The slabs after the failure of a tile: its field's fault map, its tile, and frames that leave residence. -/
theorem slab_tileFault_exists (s : State) (t : TileId) (code : Byte) (i : SlabId) :
    ∃ (r : Root) (c : Camp) (cs : Counters) (d : List (Nat × Nat × Nat)),
      (s.tileFault t code).slab i = { (if i = t.slab then
          ((s.slab i).tileFailed (tileField t) (s.physical t)).modTile t.x.val t.y.val
            (fun tl => tl.silenced (s.active t))
        else s.slab i) with root := r, camp := c, counters := cs, mem := { (s.slab i).mem with dropping := d } }
      ∧ (i = t.slab → c.mapPending = true) := by
  obtain ⟨r, c, cs, hslab, hpending⟩ := slab_tileFault s t code i
  obtain ⟨d, hsilenced⟩ := slab_tileSilenced s t i
  rw [hsilenced] at hslab hpending
  split at hslab
  case isTrue hi =>
    rw [if_pos hi] at hpending ⊢
    exact ⟨r, c, cs, d, hslab, fun _ => hpending⟩
  case isFalse hi =>
    rw [if_neg hi]
    exact ⟨r, c, cs, (s.slab i).mem.dropping, hslab, fun h => absurd h hi⟩

end Sys2Proof.Machine

namespace Sys2Proof.Proofs

open Sys2Proof.Machine

theorem wrongWordsFault : Claims.WrongWordsFault := by
  unfold Claims.WrongWordsFault
  intro s t q w hl
  refine ⟨exec_wrongClassDecode hl, fun hseq hbad => exec_reservedOpcodeDecode (live_ready hl) hseq (badFetch_iff.mpr ?_)⟩
  rcases hbad with hbits | ⟨hword, hres⟩
  · exact .inl hbits
  · exact .inr ⟨by rw [← hword, bitErrors_self], hres⟩

theorem tileFaultIsRecordedAndRaised : Claims.TileFaultIsRecordedAndRaised := by
  unfold Claims.TileFaultIsRecordedAndRaised
  intro s t code s'
  have hslab (i : SlabId) := slab_tileFault_exists s t code i
  obtain ⟨r, c, cs, d, hself, hpending⟩ := hslab t.slab
  rw [if_pos rfl] at hself
  refine ⟨?map, ?pending, ?tile, fun u hu => ?others, fun i => ?frame, fun h => ?raised, fun h => ?logged⟩
  case map =>
    rw [hself]
    exact mem_failedTiles_tileFailed ..
  case pending =>
    rw [hself]
    exact hpending rfl
  case tile =>
    rw [State.tile, hself]
    exact Slab.tile_modTile_self ((s.slab t.slab).tileFailed (tileField t) (s.physical t)) t.x.val t.y.val (Tile.silenced · (s.active t))
  case others =>
    obtain ⟨r, c, cs, d, hother, -⟩ := hslab u.slab
    rw [← tile_modTile_other s hu (fun tl => tl.silenced (s.active t))]
    rw [State.tile, hother, State.tile, State.modTile, slab_modSlab]
    split <;> rfl
  case frame =>
    obtain ⟨r, c, cs, d, hi, -⟩ := hslab i
    rw [hi]
    split <;> exact ⟨rfl, rfl, d, rfl⟩
  case raised =>
    rw [show s' = _ from tileFault_of_participates h]
    exact ⟨(hostMem_modRoot ..).trans (hostMem_tileSilenced s t), s.tileCause t code, mem_causes_raiseCause .., rfl, rfl, rfl⟩
  case logged =>
    rw [show s' = _ from tileFault_of_not_participates h]
    obtain ⟨e, he, hentry⟩ := mem_faultLog_logFaultAt (s.tileSilenced t) t.slab ((s.tileRecorded t).tileStamp t)
      ((s.tileRecorded t).tileEntry t code 0)
    refine ⟨by rw [root_logFaultAt, root_tileSilenced], e, he, ?_⟩
    rw [hentry]
    exact ⟨rfl, by rw [← shared_tileRecorded s t]; rfl, (congrArg Tile.flags (tile_tileRecorded s t)).trans rfl,
      (congrArg Tile.spError (tile_tileRecorded s t)).trans rfl⟩

/-- Settles O4: a wrong word is a faulting NOP or fails its tile; a failed tile is put in the fault map before its cause or entry. -/
theorem wrongWordsFaultTheirTile : Obligations.WrongWordsFaultTheirTile := ⟨wrongWordsFault, tileFaultIsRecordedAndRaised⟩

end Sys2Proof.Proofs
end

section
/-! # The matrix engine (R77, R108 to R112)

An instruction that meets no error is its effect on the tile and then its faults, counters and timing, which touch no bank and no row. -/

namespace Sys2Proof.Machine

variable {s : State} {t : TileId} {e : MatrixEntry} {a : Tile} {p : Bool} {now miss : Nat}

/-- Two conditions that say the same choose the same. -/
theorem ite_eq_of_iff {α : Type _} {b c : Prop} [Decidable b] [Decidable c] {x y : α} (h : b ↔ c) :
    (if b then x else y) = if c then x else y := ite_congr (propext h) (fun _ => rfl) (fun _ => rfl)

/-! ## One instruction -/

/-- The tile with the instruction at the head of the queue taken off it, its engine busy and its bank to be drained. -/
def Tile.matrixTaken (a : Tile) (now miss : Nat) (e : MatrixEntry) : Tile :=
  { a with matrix := { a.matrix with
      queue := a.matrix.queue.drop 1, freeAt := now + e.duration + miss
      undrained := if matrixWrites e.word then a.matrix.undrained ++ [(matrixBank e.word, now + e.duration + miss + 10)]
        else a.matrix.undrained } }

/-- The effect of a matrix instruction that meets no error, before its faults, counters and timing. -/
def Tile.matrixEffect (a : Tile) (p : Bool) (now miss : Nat) (e : MatrixEntry) : Tile :=
  let a0 := a.matrixTaken now miss e
  if opOf e.word = 0x40 then
    { a0 with matrix := { a0.matrix.setBank (mmaBank e.word) (mmaResult a p e).1 with
        transA := e.opA.buffers a p (mmaK e.word) a.matrix.transA
        transB := e.opB.buffers a p (mmaK e.word) a.matrix.transB } }.setFlagIf (mmaResult a p e).2 flagInvalidM
  else if opOf e.word = 0x41 then { a0 with matrix := a0.matrix.setBank (mmoveBank e.word) (mloadResult a p e) }
  else (List.range 64).foldl (fun (tl : Tile) i =>
    tl.putBytes p (addIdx (mmoveBase e.word) e.i0A + i) 0 (rowBytes ((mstoreRows a e).getD i 0))) a0

/-- Beyond its effect an instruction changes flags, counters and, of its own sequencer, the slips and the completion cycle. -/
theorem runMatrix_eq_effect (a : Tile) (p : Bool) (now miss : Nat) (e : MatrixEntry) :
    let b := a.runMatrix p now miss e noErrors
    let c := a.matrixEffect p now miss e
    b = { c with flags := b.flags, flagsNow := b.flagsNow, counters := b.counters, fwd := b.fwd, bwd := b.bwd, svc := b.svc }
    ∧ (∀ q, q ≠ e.seq → b.seq q = c.seq q)
    ∧ b.seq e.seq = { (c.seq e.seq).slipSpan now (now + miss) with
        doneAt := max ((c.seq e.seq).slipSpan now (now + miss)).doneAt
          (now + e.duration + miss + (if matrixWrites e.word then 10 else 0)) } := by
  intro b c
  have hb := runMatrix_clean a p now miss e
  dsimp only at hb
  rw [show b = _ from hb]
  exact matrix_tail c ..

@[simp] theorem doneAt_slipSpan (sq : Sequencer) (x y : Nat) : (sq.slipSpan x y).doneAt = sq.doneAt := by
  unfold Sequencer.slipSpan; split <;> rfl

theorem seq_setFlagIf (a : Tile) (c : Bool) (m : Word) (q : SeqId) : (a.setFlagIf c m).seq q = a.seq q := by
  rw [setFlagIf_eq]; cases q <;> rfl

@[simp] theorem setBank_queue (m : MatrixEngine) (x : Bool) (r : RegMap) : (m.setBank x r).queue = m.queue := by cases x <;> rfl
@[simp] theorem setBank_freeAt (m : MatrixEngine) (x : Bool) (r : RegMap) : (m.setBank x r).freeAt = m.freeAt := by cases x <;> rfl
@[simp] theorem setBank_undrained (m : MatrixEngine) (x : Bool) (r : RegMap) : (m.setBank x r).undrained = m.undrained := by
  cases x <;> rfl

theorem undrained_matrixTaken (h : matrixWrites e.word = true) :
    (a.matrixTaken now miss e).matrix.undrained = a.matrix.undrained ++ [(matrixBank e.word, now + e.duration + miss + 10)] := if_pos h

theorem matrixEffect_of_mma (hop : opOf e.word = 0x40) : a.matrixEffect p now miss e
    = ({ a.matrixTaken now miss e with matrix := { (a.matrixTaken now miss e).matrix.setBank (mmaBank e.word) (mmaResult a p e).1 with
        transA := e.opA.buffers a p (mmaK e.word) a.matrix.transA
        transB := e.opB.buffers a p (mmaK e.word) a.matrix.transB } } : Tile).setFlagIf (mmaResult a p e).2 flagInvalidM := if_pos hop

/-- What an MMA leaves of its tile: its bank, the transpose buffers, its place in the queue and its flag. -/
theorem matrixEffect_frame_of_mma (hop : opOf e.word = 0x40) : ∃ (ta tb : RegMap) (fl fn : Word),
    a.matrixEffect p now miss e = { a with
      matrix := { (a.matrixTaken now miss e).matrix.setBank (mmaBank e.word) (mmaResult a p e).1 with transA := ta, transB := tb }
      flags := fl, flagsNow := fn } := by
  rw [matrixEffect_of_mma hop, setFlagIf_eq]
  exact ⟨_, _, _, _, rfl⟩

theorem matrixEffect_of_mload (hop : opOf e.word = 0x41) : a.matrixEffect p now miss e
    = { a.matrixTaken now miss e with
        matrix := (a.matrixTaken now miss e).matrix.setBank (mmoveBank e.word) (mloadResult a p e) } := by
  rw [Tile.matrixEffect, if_neg (by omega), if_pos hop]

theorem matrixEffect_of_mstore (hop : opOf e.word = 0x42) : a.matrixEffect p now miss e
    = (List.range 64).foldl (fun (tl : Tile) i =>
        tl.putBytes p (addIdx (mmoveBase e.word) e.i0A + i) 0 (rowBytes ((mstoreRows a e).getD i 0))) (a.matrixTaken now miss e) := by
  rw [Tile.matrixEffect, if_neg (by omega), if_neg (by omega)]

/-! ## MATRIX_BEGIN -/

/-- The free pause of the instruction that begins. -/
def State.matrixPause (s : State) (t : TileId) (e : MatrixEntry) : Nat := Config.freeNat s.free % (e.missBound (isPortal t) + 1)

theorem matrixPause_le (s : State) (t : TileId) (e : MatrixEntry) : s.matrixPause t e ≤ e.missBound (isPortal t) :=
  Nat.le_of_lt_succ (Nat.mod_lt _ (Nat.succ_pos _))

theorem matrixPause_of_move (s : State) (t : TileId) (hop : opOf e.word ≠ 0x40) : s.matrixPause t e = 0 := by
  have hle := matrixPause_le s t e
  rw [MatrixEntry.missBound, if_neg hop] at hle
  exact Nat.le_zero.mp hle

theorem duration_of_move (hop : opOf e.word ≠ 0x40) : e.duration = 64 := if_neg hop

theorem exec_matrixBegin (hl : s.live t = true) (hhead : (s.tile t).matrixHead (s.cycle t.slab) = some e) :
    exec (.matrixBegin t noErrors) s = .next (({ s with free := s.free + 1 } : State).modTile t
      (fun _ => (s.tile t).runMatrix (isPortal t) (s.cycle t.slab) (s.matrixPause t e) e noErrors)) := by
  rw [matrixBegin_eq s t e hl hhead]
  exact congrArg _ (modTile_congr ({ s with free := s.free + 1 } : State) t rfl)

/-! ## MLOAD and MSTORE -/

theorem get_mloadResult {n : Nat} (h : n < 1024) : (mloadResult a p e).get n
    = BitVec.ofNat 32 (leNat ((List.range 4).map (fun j => a.engByte p (64 * addIdx (mmoveBase e.word) e.i0A + 4 * n + j)))) := by
  rw [mloadResult, ← Nat.zero_add n]
  refine RegMap.get_setMany_inside _ _ 0 n _ ?_
  rw [List.getElem?_map, List.getElem?_range h]
  simp

/-- Byte `k` of row `i` of MSTORE is byte `k mod 4` of entry `16 i + k div 4` of its bank. -/
theorem rowBytes_mstoreRows {i k : Nat} (hi : i < 64) (hk : k < 64) : (rowBytes ((mstoreRows a e).getD i 0))[k]?
    = some (BitVec.ofNat 8 (((a.matrix.bank (mmoveBank e.word)).get (16 * i + k / 4)).toNat / 256 ^ (k % 4))) := by
  have hlen (r : RegMap) : ((r.getMany (16 * i) 16).flatMap (fun v => leBytes v.toNat 4)).length = 64 := by
    rw [flatMap_leBytes_length, getMany_length]
  have hrow : (mstoreRows a e).getD i 0 = BitVec.ofNat 512 (leNat
      (((a.matrix.bank (mmoveBank e.word)).getMany (16 * i) 16).flatMap (fun v => leBytes v.toNat 4))) := by
    simp [mstoreRows, List.getD_eq_getElem?_getD, hi]
  rw [hrow, rowBytes_leNat _ (hlen _), flatMap_leBytes_get? _ _ (by rw [getMany_length]; omega), List.getD_eq_getElem?_getD,
    getMany_get? _ _ _ _ (by omega), Option.getD_some]

theorem rowBytes_length (r : Row) : (rowBytes r).length = 64 := leBytes_length ..

/-- The scratchpad after MSTORE wrote its 64 rows: those that exist, in banks with power. -/
theorem read_matrixEffect_of_mstore (hop : opOf e.word = 0x42) (x : Nat) :
    let row := addIdx (mmoveBase e.word) e.i0A
    Cells.read (a.matrixEffect p now miss e).scratch x
      = if (64 * row ≤ x ∧ x < 64 * row + 4096) ∧ x / 64 < spRows ∧ a.rowPowered p (x / 64) = true then
          BitVec.ofNat 8 (((a.matrix.bank (mmoveBank e.word)).get ((x - 64 * row) / 4)).toNat / 256 ^ ((x - 64 * row) % 4))
        else Cells.read a.scratch x := by
  intro row
  have hfold := (foldl_putBytes p row (fun i => rowBytes ((mstoreRows a e).getD i 0)) (fun _ => rowBytes_length _)
    (a.matrixTaken now miss e) 64).2 x
  rw [matrixEffect_of_mstore hop, hfold]
  have hiff : (64 * row ≤ x ∧ x < 64 * (row + 64) ∧ x / 64 < spRows ∧ (a.matrixTaken now miss e).rowPowered p (x / 64) = true)
      ↔ (64 * row ≤ x ∧ x < 64 * row + 4096) ∧ x / 64 < spRows ∧ a.rowPowered p (x / 64) = true := by
    rw [and_assoc, Nat.mul_add]; rfl
  rw [ite_eq_of_iff hiff]
  split
  case isTrue h =>
    obtain ⟨⟨hlo, hhi⟩, -, -⟩ := h
    rw [rowBytes_mstoreRows (by omega) (Nat.mod_lt _ (by decide)), Option.getD_some,
      show 16 * (x / 64 - row) + x % 64 / 4 = (x - 64 * row) / 4 by omega, show x % 64 % 4 = (x - 64 * row) % 4 by omega]
  case isFalse => rfl

theorem matrixEffect_frame_of_mstore (hop : opOf e.word = 0x42) :
    ∃ (m : Cells) (rw_ : List (Nat × Nat × RowError)),
      a.matrixEffect p now miss e = { a.matrixTaken now miss e with scratch := m, rewrites := rw_ } := by
  rw [matrixEffect_of_mstore hop]
  exact ⟨_, _, (foldl_putBytes p _ (fun i => rowBytes ((mstoreRows a e).getD i 0)) (fun _ => rowBytes_length _)
    (a.matrixTaken now miss e) 64).1⟩

theorem exec_matrixDrain {x : Bool} {c : Nat} {rest : List (Bool × Nat)} (hl : s.live t = true)
    (hu : (s.tile t).matrix.undrained = (x, c) :: rest) (hc : c ≤ s.cycle t.slab) :
    exec (.matrixDrain t) s = .next (s.modTile t (fun a => { a with matrix := { a.matrix with undrained := rest } })) := by
  refine congrArg _ ((onTile_live s t _ hl).trans (modTile_congr s t ?_))
  simp only [hu, hc, if_true]

end Sys2Proof.Machine

namespace Sys2Proof.Proofs

open Sys2Proof.Machine

/-- Settles O5: the engine's tail touches no bank, and the entries an MMA fills are those of a fold over rows and columns. -/
theorem mmaAccumulatesItsEntries : Obligations.MmaAccumulatesItsEntries := by
  unfold Obligations.MmaAccumulatesItsEntries
  intro s t e hl hop now p a w start row col hhead
  refine ⟨s.matrixPause t e, _, matrixPause_le s t e, exec_matrixBegin hl hhead, ?_⟩
  obtain ⟨hb, hother, hself⟩ := runMatrix_eq_effect a p now (s.matrixPause t e) e
  obtain ⟨ta, tb, fl, fn, hc⟩ := matrixEffect_frame_of_mma (a := a) (p := p) (now := now) (miss := s.matrixPause t e) hop
  generalize a.runMatrix p now (s.matrixPause t e) e noErrors = b at hb hother hself ⊢
  rw [hc] at hb hother hself
  have hwrites : matrixWrites w = true := by simp [matrixWrites, w, hop]
  have hbank : matrixBank w = mmaBank w := if_pos hop
  have hmatrix : b.matrix = { (a.matrixTaken now (s.matrixPause t e) e).matrix.setBank (mmaBank w) (mmaResult a p e).1 with
      transA := ta, transB := tb } := congrArg Tile.matrix hb
  have hown : b.matrix.bank (mmaBank w) = (mmaResult a p e).1 := by rw [hmatrix]; exact setBank_bank ..
  obtain ⟨hentries, hrest⟩ := mma_entries a p e
  refine ⟨fun i j hi hj => ?entry, fun n hn => ?rest, ?otherBank, ?queue, ?busy, ?drains, ?frame, fun q hq => ?others, ?own⟩
  case entry => rw [hown]; exact hentries i j hi hj
  case rest => rw [hown]; exact hrest n hn
  case otherBank => rw [hmatrix]; exact setBank_other ..
  case queue => rw [hmatrix]; exact setBank_queue ..
  case busy => rw [hmatrix]; exact setBank_freeAt ..
  case drains => rw [hmatrix, ← hbank]; exact (setBank_undrained ..).trans (undrained_matrixTaken hwrites)
  case frame => rw [hmatrix]; exact hb
  case others => rw [hother q hq]; cases q <;> rfl
  case own => rw [hself, if_pos hwrites, doneAt_slipSpan]; cases e.seq <;> rfl

/-- Settles O6: a move through a bank never misses a slot, so its pause is 0; its effect fills the bank or the rows. -/
theorem banksLoadStoreAndDrain : Obligations.BanksLoadStoreAndDrain := by
  unfold Obligations.BanksLoadStoreAndDrain
  intro s t hl now p a
  refine ⟨fun e hhead hop => ?load, fun e hhead hop => ?store, fun x c rest hu hc => exec_matrixDrain hl hu hc⟩
  case load =>
    refine ⟨_, exec_matrixBegin hl hhead, ?_⟩
    rw [matrixPause_of_move s t (by omega)]
    obtain ⟨hb, -, -⟩ := runMatrix_eq_effect a p now 0 e
    generalize a.runMatrix p now 0 e noErrors = b at hb ⊢
    rw [matrixEffect_of_mload hop] at hb
    have hmatrix : b.matrix = (a.matrixTaken now 0 e).matrix.setBank (mmoveBank e.word) (mloadResult a p e) := congrArg Tile.matrix hb
    have hwrites : matrixWrites e.word = true := by simp [matrixWrites, hop]
    have hbank : matrixBank e.word = mmoveBank e.word := if_neg (by omega)
    refine ⟨fun n hn => ?_, ?_, ?_, ?_⟩
    · rw [hmatrix, setBank_bank]; exact get_mloadResult hn
    · rw [hmatrix]; exact setBank_other ..
    · rw [hmatrix, setBank_undrained, undrained_matrixTaken hwrites, hbank, duration_of_move (by omega)]
    · rw [hmatrix]; exact hb
  case store =>
    intro row holds
    refine ⟨_, exec_matrixBegin hl hhead, ?_⟩
    rw [matrixPause_of_move s t (by omega)]
    obtain ⟨hb, -, -⟩ := runMatrix_eq_effect a p now 0 e
    have hread (x : Nat) := read_matrixEffect_of_mstore (a := a) (p := p) (now := now) (miss := 0) hop x
    obtain ⟨m, rw_, hc⟩ := matrixEffect_frame_of_mstore (a := a) (p := p) (now := now) (miss := 0) hop
    generalize a.runMatrix p now 0 e noErrors = b at hb ⊢
    rw [hc] at hb hread
    have hscratch : b.scratch = m := congrArg Tile.scratch hb
    have hrewrites : b.rewrites = rw_ := congrArg Tile.rewrites hb
    have hmatrix : b.matrix = (a.matrixTaken now 0 e).matrix := (congrArg Tile.matrix hb).trans rfl
    have htaken : (a.matrixTaken now 0 e).matrix = { a.matrix with queue := a.matrix.queue.drop 1, freeAt := now + 64 } := by
      simp [Tile.matrixTaken, matrixWrites, hop, duration_of_move]
    refine ⟨fun x hx => ?_, fun x hx => ?_, hmatrix.trans htaken, ?_⟩
    · rw [hscratch]; exact (hread x).trans (if_pos hx)
    · rw [hscratch]; exact (hread x).trans (if_neg hx)
    · rw [hscratch, hrewrites, hmatrix]; exact hb

end Sys2Proof.Proofs
end

section
/-! # Issue into the queues of the matrix and the vector engine (R101, R102, R105, R122) -/

namespace Sys2Proof.Machine

variable {s : State} {t : TileId} {q : SeqId} {w : IWord}

theorem exec_mdesc (h : s.issuable t q 0x48 w = true) :
    exec (.mdesc t q w) s = .next (s.issued t q w
      { s.nextWord t q with descs := aset (mdescIndex w) (mdescValue w) (s.seqAt t q).descs }) := by
  refine congrArg _ ((issue_of_issuable h _).trans ((modTile_congr s t ?_).trans (tile_issued_modSeq s t q w
    (fun sq => { sq with descs := aset (mdescIndex w) (mdescValue w) sq.descs }) _ (s.cycle t.slab) 1 ((s.seqAt t q).pc + 1) .issuing
    rfl rfl rfl rfl rfl rfl)))
  rw [Tile.issueNext, Tile.seq_modSeq_self]
  rfl

/-- An instruction enters its engine's queue as it issues, with the registers of its issue, or stalls. -/
theorem issue_issueMatrix {op : Nat} (h : s.issuable t q op w = true) :
    s.issue t op q w (fun now tl => tl.issueMatrix q now w)
      = if (s.tile t).queueFull q (s.cycle t.slab) (s.tile t).matrix.queue.length 4 entersMatrix
        then s.modTile t (fun a => a.stall q (s.cycle t.slab) 1)
        else (s.issued t q w (s.nextWord t q)).modTile t (fun a => { a with matrix := { a.matrix with
          queue := insertMatrix ((s.seqAt t q).matrixEntry q (s.cycle t.slab) w) a.matrix.queue } }) := by
  rw [issue_of_issuable h]
  split
  case isTrue hfull => exact modTile_congr s t (if_pos hfull)
  case isFalse hfree =>
    rw [← tile_issuedNext s t q w _ rfl, modTile_modTile]
    refine modTile_congr s t ((if_neg hfree).trans ?_)
    simp only [issueNext_matrix]
    rfl

theorem issue_issueVector {op : Nat} (h : s.issuable t q op w = true) :
    s.issue t op q w (fun now tl => tl.issueVector q now w)
      = if (s.tile t).queueFull q (s.cycle t.slab) (s.tile t).vector.queue.length 8 entersVector
        then s.modTile t (fun a => a.stall q (s.cycle t.slab) 2)
        else (s.issued t q w (s.nextWord t q)).modTile t (fun a => { a with vector := { a.vector with
          queue := insertVector ((s.seqAt t q).vectorEntry q (s.cycle t.slab) w) a.vector.queue } }) := by
  rw [issue_of_issuable h]
  split
  case isTrue hfull => exact modTile_congr s t (if_pos hfull)
  case isFalse hfree =>
    rw [← tile_issuedNext s t q w _ rfl, modTile_modTile]
    refine modTile_congr s t ((if_neg hfree).trans ?_)
    simp only [issueNext_vector]
    rfl

theorem opOf_of_issuable {op : Nat} (h : s.issuable t q op w = true) : opOf w = op := by
  simp only [State.issuable, Tile.canIssue, Bool.and_eq_true, decide_eq_true_eq] at h
  exact h.2.1.1.2

end Sys2Proof.Machine

namespace Sys2Proof.Proofs

open Sys2Proof.Machine

theorem matrixInstructionsCaptureAndQueue : Claims.MatrixInstructionsCaptureAndQueue := by
  unfold Claims.MatrixInstructionsCaptureAndQueue
  intro s t q w now sq e
  refine ⟨exec_mdesc, fun p hp h => ?_⟩
  have he : e = sq.matrixEntry q now w := by simp only [e, Sequencer.matrixEntry, decide_eq_true_eq]
  rw [he]
  simp only [List.mem_cons, List.not_mem_nil, or_false] at hp
  rcases hp with rfl | rfl | rfl <;> exact congrArg _ (issue_issueMatrix h)

theorem vectorInstructionsQueueInOrder : Claims.VectorInstructionsQueueInOrder := by
  unfold Claims.VectorInstructionsQueueInOrder
  intro s t q w now sq e p hp h
  have hexec : exec p.1 s = .next (s.issue t p.2 q w (fun now tl => tl.issueVector q now w)) := by
    simp only [vectorInstructions, List.mem_cons, List.not_mem_nil, or_false] at hp
    rcases hp with rfl | rfl | rfl | rfl | rfl | rfl | rfl | rfl | rfl | rfl | rfl | rfl | rfl | rfl | rfl | rfl | rfl | rfl | rfl | rfl | rfl <;> rfl
  rw [hexec]
  exact congrArg _ (issue_issueVector h)

/-- Settles O7: an instruction that enters its engine's queue issues with the registers it captures. -/
theorem enginesCaptureAndQueueInOrder : Obligations.EnginesCaptureAndQueueInOrder :=
  ⟨matrixInstructionsCaptureAndQueue, vectorInstructionsQueueInOrder⟩

end Sys2Proof.Proofs
end

section
/-! # The vector engine (R125 to R136)

Each instruction that writes a register writes one run of its elements. -/

namespace Sys2Proof.Machine

variable {s : State} {t : TileId} {e : VectorEntry} {a : Tile} {p ovf : Bool} {now miss n : Nat}

/-! ## VECTOR_BEGIN -/

/-- The free pause of the instruction that begins. -/
def State.vectorPause (s : State) (t : TileId) (e : VectorEntry) : Nat := Config.freeNat s.free % (s.vectorMiss t e + 1)

theorem vectorPause_le (s : State) (t : TileId) (e : VectorEntry) : s.vectorPause t e ≤ s.vectorMiss t e :=
  Nat.le_of_lt_succ (Nat.mod_lt _ (Nat.succ_pos _))

theorem exec_vectorBegin (hl : s.live t = true) (hhead : (s.tile t).vectorHead (s.cycle t.slab) = some e) :
    exec (.vectorBegin t noErrors) s = .next (({ s with free := s.free + 1 } : State).modTile t
      (fun _ => (s.tile t).runVector (isPortal t) (s.fp8Nan t.slab) (s.cycle t.slab) (s.vectorPause t e) e noErrors)) := by
  rw [vectorBegin_eq s t e hl hhead]
  exact congrArg _ (modTile_congr ({ s with free := s.free + 1 } : State) t rfl)

/-! ## Flags and counters -/

/-- `b` is `a` but for its flags and counters. -/
def SameButFlags (a b : Tile) : Prop := b = { a with flags := b.flags, flagsNow := b.flagsNow, counters := b.counters }

namespace SameButFlags

theorem trans {a b c : Tile} (hab : SameButFlags a b) (hbc : SameButFlags b c) : SameButFlags a c := by
  unfold SameButFlags at hab hbc ⊢
  refine hbc.trans ?_
  rw [hab]

theorem setFlagIf (a : Tile) (c : Bool) (m : Word) : SameButFlags a (a.setFlagIf c m) := by cases c <;> rfl
theorem count (a : Tile) (c n : Nat) : SameButFlags a (a.count c n) := rfl
theorem opndFaults (a : Tile) (n : Nat) : SameButFlags a (a.opndFaults n) := opndFaults_eq a n
theorem rowFaults (a : Tile) (p : Bool) (rs : List Nat) : SameButFlags a (a.rowFaults p rs) := rowFaults_eq a p rs

theorem scratch {a b : Tile} (h : SameButFlags a b) : b.scratch = a.scratch := by
  unfold SameButFlags at h; rw [h]

theorem rewrites {a b : Tile} (h : SameButFlags a b) : b.rewrites = a.rewrites := by
  unfold SameButFlags at h; rw [h]

/-- After changes of the scratchpad alone. -/
theorem of_scratch {a b c : Tile} (hab : b = { a with scratch := b.scratch, rewrites := b.rewrites }) (hbc : SameButFlags b c) :
    c = { a with scratch := b.scratch, rewrites := b.rewrites, flags := c.flags, flagsNow := c.flagsNow, counters := c.counters } := by
  unfold SameButFlags at hbc
  rw [hab] at hbc
  exact hbc

end SameButFlags

/-! ## Results in a register -/

/-- Where the results of an instruction start in its register. -/
def vectorOffset (w : IWord) : Nat := if opOf w = 0x80 then vaccOff w else if opOf w = 0xB0 then vmOff w else 0

/-- The results of an instruction that writes a register. -/
def Tile.vectorResults (a : Tile) (p : Bool) (e : VectorEntry) (n : Nat) : List Word :=
  let w := e.word
  if opOf w = 0x80 then (a.matrix.bank (vaccBank w)).getMany (32 * vaccFirst w) (32 * vaccRows w)
  else if n = 0 then []
  else if vElementwise (opOf w) then (elementwise a.vector e n).map Prod.fst
  else if vReduction (opOf w) then (reduction a.vector e n).map Prod.fst
  else if opOf w = 0xA8 then (permute a.vector e n).map Prod.fst
  else vldWords a p e n

/-- The tile with some elements of a register written, and nothing else but flags and counters changed. -/
def Tile.vectorWritten (a : Tile) (i : Nat) (ws : List Word) (fl fn : Word) (cs : Counters) : Tile :=
  { a with vector := { a.vector with regs := a.vector.regs.setMany i ws }, flags := fl, flagsNow := fn, counters := cs }

/-- What an instruction that meets no error does before its timing. -/
def Tile.vectorDone (a : Tile) (p ovf : Bool) (now : Nat) (e : VectorEntry) : Tile :=
  if decide (a.vectorLength now e = 0) && decide (opOf e.word ∉ [0x80, 0xB8, 0xB9]) then a
  else a.vectorEffect p ovf now e (a.vectorLength now e) []

theorem vectorDone_eq_self (hn : a.vectorLength now e = 0) (hop : opOf e.word ∉ [0x80, 0xB8, 0xB9]) : a.vectorDone p ovf now e = a := by
  rw [Tile.vectorDone, hn, decide_eq_true hop]; rfl

theorem vectorDone_eq_effect (h : a.vectorLength now e ≠ 0 ∨ opOf e.word ∈ [0x80, 0xB8, 0xB9]) :
    a.vectorDone p ovf now e = a.vectorEffect p ovf now e (a.vectorLength now e) [] := by
  rw [Tile.vectorDone, if_neg]
  rw [Bool.and_eq_true, decide_eq_true_eq, decide_eq_true_eq, Decidable.not_and_iff_or_not, Decidable.not_not]
  exact h

/-- With elements present, an instruction that writes a register writes its results there. -/
theorem vectorEffect_writes (hn : n ≠ 0) (hop : vElementwise (opOf e.word) = true ∨ vReduction (opOf e.word) = true
    ∨ opOf e.word = 0xA8 ∨ opOf e.word = 0xB0) : ∃ (fl fn : Word) (cs : Counters),
    a.vectorEffect p ovf now e n [] = a.vectorWritten (4096 * vD e.word + vectorOffset e.word) (a.vectorResults p e n) fl fn cs := by
  unfold Tile.vectorEffect Tile.vectorResults vectorOffset
  rcases hop with h | h | h | h
  · have h80 : opOf e.word ≠ 0x80 := fun hc => by rw [hc] at h; cases h
    have hB0 : opOf e.word ≠ 0xB0 := fun hc => by rw [hc] at h; cases h
    simp only [h, h80, hB0, hn, if_true, if_false]
    rw [setFlagIf_eq]
    exact ⟨_, _, _, rfl⟩
  · have h80 : opOf e.word ≠ 0x80 := fun hc => by rw [hc] at h; cases h
    have hB0 : opOf e.word ≠ 0xB0 := fun hc => by rw [hc] at h; cases h
    have hE : vElementwise (opOf e.word) = false := by
      simp only [vReduction, List.mem_cons, List.not_mem_nil, or_false, decide_eq_true_eq] at h
      rcases h with h | h | h <;> rw [h] <;> rfl
    simp only [h, hE, h80, hB0, hn, if_true, if_false, Bool.false_eq_true]
    rw [setFlagIf_eq]
    exact ⟨_, _, _, rfl⟩
  · have hE : vElementwise 0xA8 = false := rfl
    have hR : vReduction 0xA8 = false := rfl
    simp only [h, hE, hR, hn, Nat.reduceEqDiff, if_true, if_false, Bool.false_eq_true]
    rw [setFlagIf_eq]
    exact ⟨_, _, _, rfl⟩
  · have hE : vElementwise 0xB0 = false := rfl
    have hR : vReduction 0xB0 = false := rfl
    simp only [h, hE, hR, hn, Nat.reduceEqDiff, if_true, if_false, Bool.false_eq_true]
    rw [opndFaults_eq, rowFaults_eq]
    exact ⟨_, _, _, rfl⟩

theorem vectorDone_writes (hop : vElementwise (opOf e.word) = true ∨ vReduction (opOf e.word) = true
    ∨ opOf e.word = 0xA8 ∨ opOf e.word = 0xB0 ∨ opOf e.word = 0x80) : ∃ (fl fn : Word) (cs : Counters),
    a.vectorDone p ovf now e = a.vectorWritten (4096 * vD e.word + vectorOffset e.word)
      (a.vectorResults p e (a.vectorLength now e)) fl fn cs := by
  by_cases h80 : opOf e.word = 0x80
  · have hE : vElementwise 0x80 = false := rfl
    have hR : vReduction 0x80 = false := rfl
    rw [vectorDone_eq_effect (.inr (by simp [h80]))]
    simp only [Tile.vectorEffect, Tile.vectorResults, vectorOffset, h80, hE, hR, Nat.reduceEqDiff, if_true, if_false, Bool.false_eq_true]
    exact ⟨_, _, _, rfl⟩
  · have hop : vElementwise (opOf e.word) = true ∨ vReduction (opOf e.word) = true ∨ opOf e.word = 0xA8 ∨ opOf e.word = 0xB0 := by
      rcases hop with h | h | h | h | h
      · exact .inl h
      · exact .inr (.inl h)
      · exact .inr (.inr (.inl h))
      · exact .inr (.inr (.inr h))
      · exact absurd h h80
    by_cases hn : a.vectorLength now e = 0
    · have hB : opOf e.word ∉ [0x80, 0xB8, 0xB9] := by
        intro hc
        simp only [List.mem_cons, List.not_mem_nil, or_false] at hc
        rcases hc with hc | hc | hc <;> rw [hc] at hop <;> revert hop <;> decide
      rw [vectorDone_eq_self hn hB, Tile.vectorResults, if_neg h80, if_pos hn]
      exact ⟨_, _, _, rfl⟩
    · rw [vectorDone_eq_effect (.inl hn)]
      exact vectorEffect_writes hn hop

/-! ## The store and the flag instructions -/

theorem putRun_putRun_eq (a : Tile) (p : Bool) (x y : Nat) (bs cs : List Byte) :
    let d := (a.putRun p x bs).putRun p y cs
    d = { a with scratch := d.scratch, rewrites := d.rewrites } := by
  intro d
  have hfirst := putRun_eq bs a p x
  have hsecond : d = _ := putRun_eq cs (a.putRun p x bs) p y
  change d = { a.putRun p x bs with scratch := d.scratch, rewrites := d.rewrites } at hsecond
  generalize d = d at hsecond ⊢
  rw [hfirst] at hsecond
  exact hsecond

theorem vectorDone_of_vst (hop : opOf e.word = 0xB1) (hn : 0 < a.vectorLength now e) : ∃ (fl fn : Word) (cs : Counters),
    let c := vstConvert ovf a.vector e (a.vectorLength now e)
    let d := (a.putRun p (64 * e.memRow) (packBytes (vmFmt e.word) c.raws)).putRun p e.memScale c.scales
    a.vectorDone p ovf now e = { a with scratch := d.scratch, rewrites := d.rewrites, flags := fl, flagsNow := fn, counters := cs } := by
  have hE : vElementwise 0xB1 = false := rfl
  have hR : vReduction 0xB1 = false := rfl
  rw [vectorDone_eq_effect (.inl (by omega))]
  have hmerged : a.merged [] = a := rfl
  simp only [Tile.vectorEffect, hop, hE, hR, hmerged, Nat.reduceEqDiff, if_true, if_false, Bool.false_eq_true]
  have hput := putRun_putRun_eq a p (64 * e.memRow) e.memScale
    (packBytes (vmFmt e.word) (vstConvert ovf a.vector e (a.vectorLength now e)).raws) (vstConvert ovf a.vector e (a.vectorLength now e)).scales
  dsimp only at hput ⊢
  generalize (a.putRun _ _ _).putRun _ _ _ = d at hput ⊢
  have hflags := (((SameButFlags.setFlagIf d (decide (0 < (vstConvert ovf a.vector e (a.vectorLength now e)).sat)) flagSatV).trans
    (.setFlagIf _ (vstConvert ovf a.vector e (a.vectorLength now e)).invalid flagInvalidV)).trans
    (.count _ Ctr.SAT_ELEMENTS (vstConvert ovf a.vector e (a.vectorLength now e)).sat)).trans
    ((SameButFlags.rowFaults _ p (e.memRows (a.vectorLength now e))).trans (.opndFaults _ (e.scaleFaults (a.vectorLength now e))))
  exact ⟨_, _, _, SameButFlags.of_scratch hput hflags⟩

theorem vectorDone_of_vgetf (hop : opOf e.word = 0xB8) : a.vectorDone p ovf now e
    = a.modSeq e.seq (fun sq => { sq.settle now with late := some { reg := BitVec.ofNat 4 (vD e.word), value := a.flags, at_ := now + 2 } }) := by
  have hE : vElementwise 0xB8 = false := rfl
  have hR : vReduction 0xB8 = false := rfl
  rw [vectorDone_eq_effect (.inr (by simp [hop]))]
  simp only [Tile.vectorEffect, hop, hE, hR, Nat.reduceEqDiff, if_true, if_false, Bool.false_eq_true]

theorem vectorDone_of_vclrf (hop : opOf e.word = 0xB9) : a.vectorDone p ovf now e = a.clearFlags (vclrMask e.word) := by
  have hE : vElementwise 0xB9 = false := rfl
  have hR : vReduction 0xB9 = false := rfl
  rw [vectorDone_eq_effect (.inr (by simp [hop]))]
  simp only [Tile.vectorEffect, hop, hE, hR, Nat.reduceEqDiff, if_true, if_false, Bool.false_eq_true]

@[simp] theorem late_slipSpan (sq : Sequencer) (x y : Nat) : (sq.slipSpan x y).late = sq.late := by
  unfold Sequencer.slipSpan; split <;> rfl

theorem reg_slipSpan (sq : Sequencer) (x y d now r : Nat) : ({ sq.slipSpan x y with doneAt := d } : Sequencer).reg now r = sq.reg now r := by
  unfold Sequencer.slipSpan; split <;> rfl

/-- A late write that is not due yet shows in no register. -/
theorem reg_settle_of_late {l : LateWrite} (sq : Sequencer) (hl : now < l.at_) (r : Nat) :
    ({ sq.settle now with late := some l } : Sequencer).reg now r = sq.reg now r := by
  have hnot : ¬ (l.reg.toNat = r ∧ l.at_ ≤ now) := fun hc => absurd hc.2 (Nat.not_le.mpr hl)
  by_cases hr : r = 0
  · simp [Sequencer.reg, hr]
  · simp only [Sequencer.reg, hr, if_false, hnot]
    unfold Sequencer.settle
    cases hlate : sq.late with
    | none => rfl
    | some k =>
      by_cases hk : k.at_ ≤ now
      · simp [hk, RegMap.get_set, eq_comm]
      · simp [hk]

/-- Beyond what it does an instruction takes its place off the queue, keeps the engine busy and counts its pause as slips. -/
theorem runVector_eq_done (a : Tile) (p ovf : Bool) (now miss : Nat) (e : VectorEntry) :
    let b := a.runVector p ovf now miss e noErrors
    let c := a.vectorDone p ovf now e
    let fin := now + e.duration (a.vectorLength now e) + miss
    b = { c with vector := b.vector, counters := b.counters, fwd := b.fwd, bwd := b.bwd, svc := b.svc }
    ∧ b.vector.regs = c.vector.regs ∧ b.vector.queue = a.vector.queue.drop 1 ∧ b.vector.freeAt = fin
    ∧ (∀ r, r ≠ e.seq → b.seq r = c.seq r)
    ∧ b.seq e.seq = { (c.seq e.seq).slipSpan now (now + miss) with
        doneAt := max ((c.seq e.seq).slipSpan now (now + miss)).doneAt (fin + vectorLatency (opOf e.word)) } :=
  runVector_clean a p ovf now miss e

end Sys2Proof.Machine

namespace Sys2Proof.Proofs

open Sys2Proof.Machine

theorem vectorResultsFillTheirRegister : Claims.VectorResultsFillTheirRegister := by
  unfold Claims.VectorResultsFillTheirRegister
  intro s t e hl now a w n op results off hhead hflag hlist
  have hop : vElementwise op = true ∨ vReduction op = true ∨ op = 0xA8 ∨ op = 0xB0 ∨ op = 0x80 := by
    have hmem : op ∈ (vectorInstructions t .fwd w).map Prod.snd := by
      obtain ⟨x, hx, hxop⟩ := List.mem_map.mp hlist
      exact List.mem_map.mpr ⟨x, hx, (Prod.mk.inj hxop).1⟩
    simp only [vectorInstructions, List.map_cons, List.map_nil, List.mem_cons, List.not_mem_nil, or_false] at hmem hflag
    simp only [vElementwise, vReduction, List.mem_cons, List.not_mem_nil, or_false, decide_eq_true_eq]
    omega
  refine ⟨s.vectorPause t e, _, vectorPause_le s t e, exec_vectorBegin hl hhead, ?_⟩
  have hresults : results = a.vectorResults (isPortal t) e n := by
    simp only [results, Tile.vectorResults, elementwise, List.map_map]
    rfl
  obtain ⟨hb, hregs, hqueue, hfree, hothers, -⟩ := runVector_eq_done a (isPortal t) (s.fp8Nan t.slab) now (s.vectorPause t e) e
  obtain ⟨fl, fn, cs, hdone⟩ := vectorDone_writes (a := a) (p := isPortal t) (ovf := s.fp8Nan t.slab) (now := now) hop
  generalize a.runVector (isPortal t) (s.fp8Nan t.slab) now (s.vectorPause t e) e noErrors = b at hb hregs hqueue hfree hothers ⊢
  rw [hdone] at hb hregs hothers
  rw [← hresults] at hb hregs hothers
  refine ⟨fun i v hi => ?_, fun k hk => ?_, hqueue, hfree, ?_, fun q hq => ?_⟩
  · rw [hregs]; exact RegMap.get_setMany_inside _ _ _ _ _ hi
  · rw [hregs]; exact RegMap.get_setMany_outside _ _ _ _ hk
  · have hflags : b.flags = fl := (congrArg Tile.flags hb).trans rfl
    have hnow : b.flagsNow = fn := (congrArg Tile.flagsNow hb).trans rfl
    rw [hflags, hnow]; exact hb
  · rw [hothers q hq]; cases q <;> rfl

theorem vectorStoreAndFlagInstructions : Claims.VectorStoreAndFlagInstructions := by
  unfold Claims.VectorStoreAndFlagInstructions
  intro s t e hl now p a w n hhead
  obtain ⟨hb, hregs, hqueue, -, hothers, hself⟩ := runVector_eq_done a p (s.fp8Nan t.slab) now (s.vectorPause t e) e
  have hexec := exec_vectorBegin hl hhead
  refine ⟨fun hop hn => ⟨_, hexec, ?store⟩, fun hop => ⟨_, hexec, ?flagsRead⟩, fun hop => ⟨_, hexec, ?flagsCleared⟩⟩ <;>
    generalize a.runVector p (s.fp8Nan t.slab) now (s.vectorPause t e) e noErrors = b at hb hregs hqueue hothers hself ⊢
  case store =>
    obtain ⟨fl, fn, cs, hdone⟩ := vectorDone_of_vst (a := a) (p := p) (ovf := s.fp8Nan t.slab) (now := now) hop hn
    rw [hdone] at hb hregs
    have hscratch : b.scratch = _ := (congrArg Tile.scratch hb).trans rfl
    have hrewrites : b.rewrites = _ := (congrArg Tile.rewrites hb).trans rfl
    have hflags : b.flags = fl := (congrArg Tile.flags hb).trans rfl
    have hnow : b.flagsNow = fn := (congrArg Tile.flagsNow hb).trans rfl
    refine ⟨hscratch, hregs, hqueue, ?_⟩
    rw [hscratch, hrewrites, hflags, hnow]; exact hb
  case flagsRead =>
    rw [vectorDone_of_vgetf hop] at hb hregs hothers hself
    rw [Tile.seq_modSeq_self] at hself
    refine ⟨?_, fun r => ?_, fun q hq => ?_, ?_, ?_⟩
    · rw [hself]; exact late_slipSpan ..
    · rw [hself]; exact (reg_slipSpan ..).trans (reg_settle_of_late _ (by simp) r)
    · rw [hothers q hq, Tile.seq_modSeq_other _ hq]
    · rw [hregs, Tile.modSeq_vector]
    · exact hb.trans (by cases e.seq <;> rfl)
  case flagsCleared =>
    rw [vectorDone_of_vclrf hop] at hb hregs hothers
    have hflags : b.flags = _ := (congrArg Tile.flags hb).trans rfl
    exact ⟨hflags, fun q hq => by rw [hothers q hq]; cases q <;> rfl, hregs, by rw [hflags]; exact hb⟩

/-- Settles O8: results are one run of writes in a register, a store one run of bytes, and the flag instructions change what they name. -/
theorem vectorResultsAndStores : Obligations.VectorResultsAndStores := ⟨vectorResultsFillTheirRegister, vectorStoreAndFlagInstructions⟩

end Sys2Proof.Proofs
end

section
/-! # SEND and the issue of the overlay port's instructions (R220, R221, R260) -/

namespace Sys2Proof.Machine

variable {s : State} {t : TileId} {q : SeqId} {w : IWord}

/-- An issue leaves what a message changes of its tile as it is, and counts its stall. -/
theorem issueNext_message (a : Tile) (q : SeqId) (now : Nat) (w : IWord) (u : Nat) (js : List SendJob) (r : Router)
    (fl fn : Word) (cs : Counters) :
    ({ a with unacked := u, sends := js, router := r, flags := fl, flagsNow := fn, counters := cs } : Tile).issueNext q now w
      = { a.issueNext q now w with
          unacked := u, sends := js, router := r, flags := fl, flagsNow := fn
          counters := Counters.bump cs Ctr.ISSUE_STALLS ((a.seq q).stallCycles now) } := by
  cases q <;> rfl

theorem exec_send (h : s.issuable t .svc 0x20 w = true) :
    exec (.send t .svc w []) s = .next (s.modTile t (fun a =>
      if 64 ≤ a.unacked then a.stall .svc (s.cycle t.slab) 6
      else (a.sendMessage s.shared.mode (s.tileReleases t % 4) (s.cycle t.slab) (isPortal t) w []).issueNext .svc (s.cycle t.slab) w)) := by
  change execSend t .svc w [] s = _
  unfold execSend
  simp only [List.filter_nil, rowsUncorrectable, List.any_nil, Bool.and_false, State.tileErrorIf]
  exact congrArg _ (issue_of_issuable h _)

/-- A message whose destinations are in the device is the last to be injected. -/
theorem sendMessage_inGrid (a : Tile) {m : Mode} (phase now : Nat) (p : Bool) (hg : sendInGrid m w = true) :
    ∃ (fl fn : Word) (cs : Counters), a.sendMessage m phase now p w []
      = { a with
          unacked := a.unacked + 1
          sends := a.sends ++ [{ word := w, phase := phase, msg := a.router.nextMsg
                                 src := addIdx (sendSrow w) (a.svc.reg now (sendIdx w))
                                 drow := addIdx (sendDrow w) (a.svc.reg now (sendDidx w))
                                 flits := 0, half := none, readAt := now + 1, errs := [] }]
          router := { a.router with nextMsg := a.router.nextMsg + 1 }
          flags := fl, flagsNow := fn, counters := cs } := by
  unfold Tile.sendMessage
  simp only [hg, Bool.not_true, List.filter_nil, rowsUncorrectable, List.any_nil, Tile.recordRowErrors, List.foldl_nil,
    Bool.false_eq_true, if_false]
  rw [rowFaults_eq]
  exact ⟨_, _, _, rfl⟩

theorem sendMessage_outOfGrid (a : Tile) {m : Mode} (phase now : Nat) (p : Bool) (hg : sendInGrid m w = false) :
    a.sendMessage m phase now p w [] = a.opndFaults 1 := by
  simp [Tile.sendMessage, hg]

/-- An instruction that enters the port's queue issues with the registers it captures, or stalls. -/
theorem issue_issuePort {op : Nat} (h : s.issuable t q op w = true) (idx didx : Nat) :
    s.issue t op q w (fun now tl => tl.issuePort q now w idx didx)
      = if 8 ≤ (s.tile t).port.queue.length then s.modTile t (fun a => a.stall q (s.cycle t.slab) 4)
        else (s.issued t q w (s.nextWord t q)).modTile t (fun a => { a with port := { a.port with queue := a.port.queue ++
          [{ word := w, issued := s.cycle t.slab, idx := (s.seqAt t q).reg (s.cycle t.slab) idx
             didx := (s.seqAt t q).reg (s.cycle t.slab) didx }] } }) := by
  rw [issue_of_issuable h]
  split
  case isTrue hfull => exact modTile_congr s t (if_pos hfull)
  case isFalse hfree =>
    rw [← tile_issuedNext s t q w _ rfl, modTile_modTile]
    refine modTile_congr s t ((if_neg hfree).trans ?_)
    simp only [issueNext_port]
    rfl

/-- The row that a message reads next. -/
def SendJob.rowAt (j : SendJob) : Nat := 2 * j.flits + (if j.half.isSome then 1 else 0)

theorem SendJob.rowAt_of_none {j : SendJob} (h : j.half = none) : j.rowAt = 2 * j.flits := by simp [rowAt, h]

theorem SendJob.rowAt_of_some {j : SendJob} {r : Row} (h : j.half = some r) : j.rowAt = 2 * j.flits + 1 := by simp [rowAt, h]

/-- A message reads its next row in the row's slot: it keeps the first of two rows, and completes a flit with the other. -/
theorem inject_eq {a : Tile} {p : Bool} {sx sy now : Nat} {j : SendJob} {rest : List SendJob}
    (hsends : a.sends = j :: rest) (herrs : j.errs = []) (hread : j.readAt ≤ now) (hroom : (a.router.input .loc false).length < 8)
    (hslot : slotFrom (j.src + j.rowAt) 3 now = now) :
    a.inject sx sy p now =
      if j.rowAt + 1 < sendRows j.word ∧ j.half.isNone = true then
        { a with sends := { j with half := some (a.engRow p (j.src + j.rowAt)), readAt := now + 1 } :: rest }
      else { a with
        router := a.router.setInput .loc false (a.router.input .loc false ++ [j.flit sx sy now (a.engRow p (j.src + j.rowAt))])
        sends := if sendRows j.word ≤ j.rowAt + 1 then rest
          else { j with flits := j.flits + 1, half := none, readAt := now + 1 } :: rest } := by
  have hgo : ¬ (now < j.readAt ∨ slotFrom (j.src + j.rowAt) 3 now ≠ now ∨ (!decide ((a.router.input .loc false).length < 8)) = true) := by
    simp [hslot, hroom, Nat.not_lt.mpr hread]
  have hslow : slowCycles (j.errs.filter (fun e => decide (e.row = j.src + j.rowAt))) = 0 := by rw [herrs]; rfl
  have hfix : ∀ d, fixRow j.errs (j.src + j.rowAt) d = d := fun d => by rw [herrs]; rfl
  unfold Tile.inject
  rw [hsends]
  refine (if_neg hgo).trans ?_
  unfold SendJob.rowAt at hslow hfix ⊢
  simp only [hslow, hfix, Nat.add_zero, slip_self, Bool.and_eq_true, decide_eq_true_eq]

end Sys2Proof.Machine

namespace Sys2Proof.Proofs

open Sys2Proof.Machine

theorem sendQueuesItsMessage : Claims.SendQueuesItsMessage := by
  unfold Claims.SendQueuesItsMessage
  intro s t w h now m a sq job
  rw [exec_send h]
  refine ⟨fun hfull => ?_, fun hfree hg => ?_, fun hfree hg => ?_⟩
  · exact congrArg _ (modTile_congr s t (if_pos hfull))
  · obtain ⟨fl, fn, cs, hmsg⟩ := sendMessage_inGrid a (s.tileReleases t % 4) now (isPortal t) hg
    refine ⟨fl, fn, Counters.bump cs Ctr.ISSUE_STALLS (s.stalled t .svc), congrArg _ ?_⟩
    rw [← tile_issuedNext s t .svc w _ rfl, modTile_modTile]
    refine modTile_congr s t ((if_neg (Nat.not_le.mpr hfree)).trans ?_)
    rw [hmsg]
    exact issueNext_message ..
  · refine ⟨Counters.bump (Counters.bump a.counters Ctr.OPND_FAULTS 1) Ctr.ISSUE_STALLS (s.stalled t .svc), congrArg _ ?_, ?count⟩
    · rw [← tile_issuedNext s t .svc w _ rfl, modTile_modTile]
      refine modTile_congr s t ((if_neg (Nat.not_le.mpr hfree)).trans ?_)
      rw [sendMessage_outOfGrid _ _ _ _ hg]
      exact issueNext_message a .svc now w a.unacked a.sends a.router (a.flags ||| flagOpndFault) (a.flagsNow ||| flagOpndFault)
        (Counters.bump a.counters Ctr.OPND_FAULTS 1)
    case count =>
      rw [get_bump, if_neg (by decide), get_bump, if_pos rfl]

theorem portInstructionsQueue : Claims.PortInstructionsQueue := by
  unfold Claims.PortInstructionsQueue
  intro s t w now sq p hp h
  simp only [List.mem_cons, List.not_mem_nil, or_false] at hp
  rcases hp with rfl | rfl | rfl | rfl | rfl | rfl <;> exact congrArg _ (issue_issuePort h _ _)

theorem messagesAreInjectedRowByRow : Claims.MessagesAreInjectedRowByRow := by
  unfold Claims.MessagesAreInjectedRowByRow
  intro a p sx sy now j rest hsends herrs hread hroom w n row header flit queued
  refine ⟨fun hhalf hslot hmore => ?_, fun hhalf hslot hlast => ?_, fun r0 hhalf hslot => ?_⟩
  · have hrow := SendJob.rowAt_of_none hhalf
    rw [inject_eq hsends herrs hread hroom (by rw [hrow]; exact hslot), hrow]
    exact if_pos ⟨hmore, by rw [hhalf]; rfl⟩
  · have hrow := SendJob.rowAt_of_none hhalf
    have hend : 2 * j.flits + 1 = sendRows j.word := hlast
    have hflit : j.flit sx sy now (row 0) = flit true true (BitVec.ofNat 1024 (row 0).toNat) := by
      have hlastFlit : decide (sendRows j.word ≤ 2 * j.flits + 2) = true := decide_eq_true (by omega)
      simp only [SendJob.flit, hhalf, hlastFlit]
      rfl
    rw [inject_eq hsends herrs hread hroom (by rw [hrow]; exact hslot), hrow, if_neg fun hmore => by omega,
      if_pos (by omega : sendRows j.word ≤ 2 * j.flits + 1)]
    exact congrArg (fun f => ({ a with sends := rest, router := queued f } : Tile)) hflit
  · have hrow := SendJob.rowAt_of_some hhalf
    have hflit : ∀ last, decide (n ≤ 2 * j.flits + 2) = last → j.flit sx sy now (row 1) = flit last false (BitVec.ofNat 1024 (r0.toNat + (row 1).toNat * 2 ^ 512)) := by
      rintro last rfl
      simp only [SendJob.flit, hhalf]
      rfl
    rw [inject_eq hsends herrs hread hroom (by rw [hrow]; exact hslot), hrow, if_neg (by simp [hhalf])]
    split
    case isTrue hend =>
      exact congrArg (fun f => ({ a with sends := rest, router := queued f } : Tile)) (hflit true (decide_eq_true hend))
    case isFalse hend =>
      exact congrArg (fun f => ({ a with sends := _ :: rest, router := queued f } : Tile)) (hflit false (decide_eq_false hend))

end Sys2Proof.Proofs
end

section
/-! # The overlay port (R184, R256 to R261) -/

namespace Sys2Proof.Machine

/-! ## What an instruction of the port changes -/

/-- `b` is `a` but for its port, its context pointers, its flags and its counters, and the port's queue stands. -/
def SameButPort (a b : Tile) : Prop :=
  b = { a with port := b.port, ctxs := b.ctxs, flags := b.flags, flagsNow := b.flagsNow, counters := b.counters }
    ∧ b.port.queue = a.port.queue

theorem SameButPort.trans {a b c : Tile} (hab : SameButPort a b) (hbc : SameButPort b c) : SameButPort a c := by
  obtain ⟨hb, hbq⟩ := hab
  obtain ⟨hc, hcq⟩ := hbc
  refine ⟨hc.trans ?_, hcq.trans hbq⟩
  rw [hb]

theorem SameButPort.of_flags {a b : Tile} (h : SameButFlags a b) : SameButPort a b := by
  unfold SameButFlags at h
  refine ⟨?_, by rw [h]⟩
  rw [h]

/-! ## The instructions, when they meet no error -/

theorem pushMoves_nil (now to_ row n : Nat) : pushMoves now to_ row n [] = (List.range n).map (fun k =>
    (slotFrom (row + k) 2 (now + k), .take (row + k) (to_ + k) (now + k + 96) 0)) := by
  unfold pushMoves
  rw [← List.filterMap_eq_map]
  rfl

theorem popMoves_nil (now lo row n : Nat) : popMoves now lo row n [] = (List.range n).map (fun k =>
    (now + 96 + k, .fetch (lo + k) (row + k))) := by
  unfold popMoves
  rw [← List.filterMap_eq_map]
  simp only [List.not_mem_nil, if_false]
  rfl

variable {a : Tile} {p : Bool} {now : Nat} {e : PortEntry} {env : StackEnv}

/-- The instruction of the port that begins, without errors. -/
def Tile.runPort (a : Tile) (p : Bool) (now : Nat) (e : PortEntry) (env : StackEnv) : Tile :=
  if opOf e.word = 0x24 then a.runOvrd now 0 e else a.runStack p now e env [] []

theorem runPort_push (hop : opOf e.word = 0x28) (hroom : ctxSP (a.ctx (stkCtx e.word)) + stkRows e.word ≤ 32768 * env.frames) :
    let w := e.word
    let ptr := a.ctx (stkCtx w)
    let row := addIdx (stkRow w) e.idx
    a.runPort p now e env = (((a.rowFaults p (rowsFrom row (stkRows w))).setCtx (stkCtx w)
        (mkCtx (ctxNone ptr) (ctxCP ptr) (ctxSP ptr + stkRows w))).count Ctr.STACK_PUSH_ROWS (stkRows w)).portDone
      (now + stkRows w) (now + stkRows w + 96) (pushMoves now (stackRow env.seg (ctxSP ptr)) row (stkRows w) []) := by
  have hin : ¬ 32768 * env.frames < ctxSP (a.ctx (stkCtx e.word)) + stkRows e.word := Nat.not_lt.mpr hroom
  have hslow : slowCycles [] = 0 := rfl
  simp only [Tile.runPort, Tile.runStack, hop, hin, hslow, Nat.add_zero, slip_self, Nat.reduceEqDiff, if_true, if_false]

theorem runPort_pushDropped (hop : opOf e.word = 0x28) (hfull : 32768 * env.frames < ctxSP (a.ctx (stkCtx e.word)) + stkRows e.word) :
    a.runPort p now e env = a.stackOverflow.portDone (now + 1) now [] := by
  simp only [Tile.runPort, Tile.runStack, hop, hfull, Nat.reduceEqDiff, if_true, if_false]

/-- The rows above which POP and PEEK take theirs: PEEK looks below its offset. -/
def takeOffset (w : IWord) : Nat := if opOf w = 0x2A then stkOff w else 0

theorem runPort_take (hop : opOf e.word = 0x29 ∨ opOf e.word = 0x2A)
    (hok : takeAllowed (a.ctx (stkCtx e.word)) (ctxSP (a.ctx (stkCtx e.word)) - takeOffset e.word : Int) (stkRows e.word) = true) :
    let w := e.word
    let ptr := a.ctx (stkCtx w)
    a.runPort p now e env = ((if opOf w = 0x29 then a.setCtx (stkCtx w) (mkCtx (ctxNone ptr) (ctxCP ptr) (ctxSP ptr - stkRows w))
        else a).count Ctr.STACK_POP_ROWS (stkRows w)).portDone (now + stkRows w) (now + 96 + stkRows w + 3)
      (popMoves now (stackRow env.seg (ctxSP ptr - takeOffset w - stkRows w)) (addIdx (stkRow w) e.idx) (stkRows w) []) := by
  have h24 : opOf e.word ≠ 0x24 := by omega
  have h28 : opOf e.word ≠ 0x28 := by omega
  unfold takeOffset at hok ⊢
  simp only [Tile.runPort, Tile.runStack, h24, h28, hop, hok, Bool.not_true, Bool.false_eq_true, if_true, if_false]

theorem runPort_drop (hop : opOf e.word = 0x2B)
    (hok : takeAllowed (a.ctx (stkCtx e.word)) (ctxSP (a.ctx (stkCtx e.word)) : Int) (stkRows e.word) = true) :
    let w := e.word
    let ptr := a.ctx (stkCtx w)
    a.runPort p now e env
      = (a.setCtx (stkCtx w) (mkCtx (ctxNone ptr) (ctxCP ptr) (ctxSP ptr - stkRows w))).portDone (now + 1) now [] := by
  simp only [Tile.runPort, Tile.runStack, hop, hok, Nat.reduceEqDiff, Bool.not_true, Bool.false_eq_true, or_self, if_true, if_false]

theorem runPort_takeRefused (hop : opOf e.word = 0x29 ∨ opOf e.word = 0x2A ∨ opOf e.word = 0x2B)
    (hno : takeAllowed (a.ctx (stkCtx e.word)) (ctxSP (a.ctx (stkCtx e.word)) - takeOffset e.word : Int) (stkRows e.word) = false) :
    a.runPort p now e env = a.stackFault.portDone (now + 1) now [] := by
  unfold takeOffset at hno
  rcases hop with h | h | h <;> rw [h] at hno <;>
    simp only [Nat.reduceEqDiff, if_true, if_false, Int.natCast_zero, Int.sub_zero] at hno <;>
    simp [Tile.runPort, Tile.runStack, h, hno]

theorem runPort_cairn (hop : opOf e.word = 0x2C) (hset : stkRemove e.word = false)
    (hroom : ctxSP (a.ctx (stkCtx e.word)) + 1 ≤ 32768 * env.frames) :
    let w := e.word
    let c := stkCtx w
    let ptr := a.ctx c
    a.runPort p now e env
      = ((a.setCtx c (mkCtx false (ctxSP ptr) (ctxSP ptr + 1))).count Ctr.CAIRNS_PLACED 1).portDone (now + 1) (now + 96)
          [(now + 96, .store (stackRow env.seg (ctxSP ptr))
            (cairnRow (stkLabel w) c (if ctxNone ptr then noCairn else ctxCP ptr) env))] := by
  have hin : ¬ 32768 * env.frames < ctxSP (a.ctx (stkCtx e.word)) + 1 := Nat.not_lt.mpr hroom
  simp only [Tile.runPort, Tile.runStack, hop, hset, hin, Nat.reduceEqDiff, Bool.false_eq_true, or_self, if_false]

theorem runPort_cairnDropped (hop : opOf e.word = 0x2C) (hset : stkRemove e.word = false)
    (hfull : 32768 * env.frames < ctxSP (a.ctx (stkCtx e.word)) + 1) :
    a.runPort p now e env = a.stackOverflow.portDone (now + 1) now [] := by
  simp only [Tile.runPort, Tile.runStack, hop, hset, hfull, Nat.reduceEqDiff, Bool.false_eq_true, or_self, if_true, if_false]

theorem runPort_uncairn (hop : opOf e.word = 0x2C) (hremove : stkRemove e.word = true) :
    let w := e.word
    let c := stkCtx w
    let ptr := a.ctx c
    let d := a.ovlAhead (stackRow env.seg (ctxCP ptr))
    a.runPort p now e env
      = if ctxNone ptr ∨ ctxSP ptr ≠ ctxCP ptr + 1 ∨ bits d 15 0 ≠ stkLabel w then a.stackFault.portDone (now + 97) now []
        else (a.setCtx c (mkCtx false (ctxCP ptr) (ctxCP ptr))).portDone (now + 97) (now + 96) [(now + 96, .uncairn c (bits d 63 32))] := by
  simp only [Tile.runPort, Tile.runStack, hop, hremove, Nat.reduceEqDiff, or_self, if_true, if_false]

theorem runPort_ovrd (hop : opOf e.word = 0x24) (hframe : a.entry.elim 0 (·.stack) ≤ ovrdFrame e.word)
    (hrows : addIdx (ovrdFrow e.word) e.idx + ovrdRows e.word ≤ 32768) :
    let w := e.word
    a.runPort p now e env = a.portDone (now + ovrdRows w) (now + 96 + ovrdRows w + 3)
      (popMoves now (ovrdFrame w * 32768 + addIdx (ovrdFrow w) e.idx) (addIdx (ovrdDrow w) e.didx) (ovrdRows w) []) := by
  have hok : ¬ (ovrdFrame e.word < a.entry.elim 0 (·.stack) ∨ 32768 < addIdx (ovrdFrow e.word) e.idx + ovrdRows e.word) := by omega
  simp only [Tile.runPort, Tile.runOvrd, hop, Nat.add_zero, slip_self, if_true]
  refine if_neg fun hc => hok ?_
  cases hentry : a.entry <;> rw [hentry] at hc <;> exact hc

theorem SameButPort.done {a b : Tile} (h : SameButPort a b) (free ack : Nat) (ms : List (Nat × PortAct)) :
    SameButPort a (b.portDone free ack ms) := h.trans ⟨rfl, rfl⟩

theorem SameButPort.moved (a : Tile) (c : Nat) (w : DWord) (id n : Nat) : SameButPort a ((a.setCtx c w).count id n) := ⟨rfl, rfl⟩

/-- Whatever an instruction of the port does, it stays in the port, the contexts, the flags and the counters. -/
theorem runPort_sameButPort (a : Tile) (p : Bool) (now : Nat) (e : PortEntry) (env : StackEnv) :
    SameButPort a (a.runPort p now e env) := by
  have hslow : slowCycles [] = 0 := rfl
  unfold Tile.runPort Tile.runOvrd Tile.runStack
  simp only [hslow, Nat.add_zero, slip_self]
  repeat' split
  all_goals refine SameButPort.done ?_ _ _ _
  case isFalse.isTrue.isFalse => exact (SameButPort.of_flags (.rowFaults a p _)).trans (.moved ..)
  case h_1.isTrue | h_2.isTrue => exact .of_flags (.opndFaults a 1)
  all_goals exact ⟨rfl, rfl⟩

theorem ctx_portDone (a : Tile) (free ack : Nat) (ms : List (Nat × PortAct)) (c : Nat) : (a.portDone free ack ms).ctx c = a.ctx c := rfl
theorem ctx_count (a : Tile) (id n c : Nat) : (a.count id n).ctx c = a.ctx c := rfl
theorem moves_portDone (a : Tile) (free ack : Nat) (ms : List (Nat × PortAct)) : (a.portDone free ack ms).port.moves = a.port.moves ++ ms := rfl

/-- What a refusal (R259) and a dropped push (R185) leave. -/
theorem refused_stackFault (a : Tile) (free ack : Nat) : let b := a.stackFault.portDone free ack []
    b.ctxs = a.ctxs ∧ b.port.moves = a.port.moves ∧ b.flags = a.flags ||| flagOpndFault :=
  ⟨rfl, (moves_portDone ..).trans (List.append_nil _), rfl⟩

theorem refused_stackOverflow (a : Tile) (free ack : Nat) : let b := a.stackOverflow.portDone free ack []
    b.ctxs = a.ctxs ∧ b.port.moves = a.port.moves ∧ b.flags = a.flags ||| flagOpndFault :=
  ⟨rfl, (moves_portDone ..).trans (List.append_nil _), rfl⟩

/-- The tile with the head of its port's queue taken off. -/
def Tile.portTaken (a : Tile) : Tile := { a with port := { a.port with queue := a.port.queue.drop 1 } }

theorem ctx_portTaken (a : Tile) (c : Nat) : a.portTaken.ctx c = a.ctx c := rfl

theorem exec_overlayPortBegin {s : State} {t : TileId} (hl : s.live t = true) (hhead : (s.tile t).portHead (s.cycle t.slab) = some e) :
    exec (.overlayPortBegin t [] []) s = .next (({ s with free := s.free + 1 } : State).modTile t (fun _ =>
      (s.tile t).portTaken.runPort (isPortal t) (s.cycle t.slab) e (s.stackEnv t.slab (stkCtx e.word)))) := by
  rw [portBegin_eq s t e hl hhead]
  exact congrArg _ (modTile_congr ({ s with free := s.free + 1 } : State) t rfl)

/-! ## A row of the port -/

/-- A row that is due alone takes place alone. -/
theorem movePort_one {a : Tile} {p : Bool} {now c : Nat} {m : PortAct} (hc : c ≤ now) (h : a.port.moves = [(c, m)]) :
    a.movePort p now = ({ a with port := { a.port with moves := [] } } : Tile).runMove p now m := by
  unfold Tile.movePort
  simp [h, hc, Nat.not_lt.mpr hc]

theorem setOvlRow_read (a : Tile) (r x : Nat) (d : Row) : Cells.read (a.setOvlRow r d).overlay x
    = if 64 * r ≤ x ∧ x < 64 * r + 64 then ((rowBytes d)[x % 64]?).getD 0 else Cells.read a.overlay x := by
  refine (setOvlRows_read [d] a r x).trans ?_
  have hend : 64 * (r + [d].length) = 64 * r + 64 := by simp; omega
  rw [hend]
  split
  case isTrue hx => rw [show x / 64 - r = 0 by omega]; rfl
  case isFalse => rfl

theorem le_slotFrom (r client c : Nat) : c ≤ slotFrom r client c := Nat.le_add_right _ _

end Sys2Proof.Machine

namespace Sys2Proof.Proofs

open Sys2Proof.Machine

theorem overlayPortMovesRows : Claims.OverlayPortMovesRows := by
  unfold Claims.OverlayPortMovesRows
  intro s t e hl
  dsimp only
  intro hhead
  refine ⟨_, exec_overlayPortBegin hl hhead, ?_⟩
  clear hhead
  generalize s.tile t = a, s.stackEnv t.slab (stkCtx e.word) = env, s.cycle t.slab = now
  have hframe := runPort_sameButPort a.portTaken (isPortal t) now e env
  refine ⟨hframe.1, hframe.2, fun hop hroom => ?push, fun hop hfull => ?pushDropped,
    fun hop hok => ?take, fun hop hno => ?refused, fun hop hok => ?drop, fun hop hset hroom => ?cairn,
    fun hop hset hfull => ?cairnDropped, fun hop hremove => ?uncairn, fun hop hstack hrows => ?ovrd⟩
  case push =>
    rw [runPort_push (a := a.portTaken) hop hroom, pushMoves_nil, ctx_portDone, ctx_count, ctx_setCtx, ctx_portTaken]
    refine ⟨rfl, rfl, ?_⟩
    rw [rowFaults_eq]
    rfl
  case pushDropped => rw [runPort_pushDropped (a := a.portTaken) hop hfull]; exact refused_stackOverflow a.portTaken _ _
  case take =>
    rw [runPort_take (a := a.portTaken) hop hok, popMoves_nil, ctx_portDone, ctx_count, moves_portDone, ctx_portTaken]
    rcases hop with hpop | hpeek
    · rw [if_pos hpop, if_pos hpop, ctx_setCtx]
      exact ⟨rfl, rfl, rfl, rfl⟩
    · have hnot : opOf e.word ≠ 0x29 := by rw [hpeek]; decide
      rw [if_neg hnot, if_neg hnot]
      exact ⟨rfl, rfl, rfl, rfl⟩
  case refused => rw [runPort_takeRefused (a := a.portTaken) hop hno]; exact refused_stackFault a.portTaken _ _
  case drop =>
    rw [runPort_drop (a := a.portTaken) hop hok, ctx_portDone, ctx_setCtx, moves_portDone, List.append_nil, ctx_portTaken]
    exact ⟨rfl, rfl, rfl⟩
  case cairn =>
    rw [runPort_cairn (a := a.portTaken) hop hset hroom, ctx_portDone, ctx_count, ctx_setCtx, moves_portDone, ctx_portTaken]
    exact ⟨rfl, rfl, rfl⟩
  case cairnDropped => rw [runPort_cairnDropped (a := a.portTaken) hop hset hfull]; exact refused_stackOverflow a.portTaken _ _
  case uncairn =>
    rw [runPort_uncairn (a := a.portTaken) hop hremove, ctx_portTaken]
    have hahead : ∀ r, a.portTaken.ovlAhead r = a.ovlAhead r := fun _ => rfl
    rw [hahead]
    generalize a.ovlAhead _ = d
    by_cases hlatest : ctxNone (a.ctx (stkCtx e.word)) = false ∧ ctxSP (a.ctx (stkCtx e.word)) = ctxCP (a.ctx (stkCtx e.word)) + 1
        ∧ bits d 15 0 = stkLabel e.word
    · rw [if_pos hlatest, if_neg (by obtain ⟨hsome, hsp, hlabel⟩ := hlatest; simp [hsome, hsp, hlabel]), ctx_portDone, ctx_setCtx,
        moves_portDone]
      exact ⟨rfl, rfl, rfl⟩
    · rw [if_neg hlatest, if_pos (Classical.byContradiction fun hc => hlatest (by
        simpa only [not_or, Bool.not_eq_true, Decidable.not_not, ne_eq] using hc))]
      exact refused_stackFault a.portTaken _ _
  case ovrd =>
    rw [runPort_ovrd (a := a.portTaken) hop hstack hrows, popMoves_nil]
    exact ⟨rfl, rfl, rfl, rfl⟩

theorem portRowsArrive : Claims.PortRowsArrive := by
  unfold Claims.PortRowsArrive
  intro a p now c hc one idle
  refine ⟨fun row to_ at_ h => ?_, fun to_ d h => ⟨(a.setOvlRow to_ d).overlay, ?_, fun x => setOvlRow_read a to_ x d⟩, fun from_ row h => ?_,
    fun row d h => ?_, fun k prev h => ?_⟩ <;> rw [movePort_one hc h]
  · have hfix : a.engRow p row ^^^ (0 : Row) = a.engRow p row := BitVec.xor_zero
    rw [← hfix]
    rfl
  · rfl
  · have hslot : slotFrom row 2 now ≤ now ↔ slotFrom row 2 now = now := by have := le_slotFrom row 2 now; omega
    simp only [Tile.runMove, hslot]
    rfl
  · rfl
  · by_cases hnone : prev = noCairn <;> simp only [Tile.runMove, hnone, decide_true, decide_false, if_true, if_false] <;> rfl

/-- Settles O9: a message, and an instruction of the overlay port, is an equation of its tile per case. -/
theorem messagesAndPortsMoveData : Obligations.MessagesAndPortsMoveData :=
  ⟨sendQueuesItsMessage, messagesAreInjectedRowByRow, portInstructionsQueue, overlayPortMovesRows, portRowsArrive⟩

end Sys2Proof.Proofs
end

section
/-! # The mesh (R161 to R171) -/

namespace Sys2Proof.Machine

variable {s : State} {t n : TileId}

@[simp] theorem tile_modTile (s : State) (t : TileId) (f : Tile → Tile) : (s.modTile t f).tile t = f (s.tile t) := by
  unfold State.modTile State.tile
  rw [slab_modSlab_self, Slab.tile_modTile_self]

@[simp] theorem neighbour_modTile (s : State) (t u : TileId) (f : Tile → Tile) (d : Dir) :
    (s.modTile t f).neighbour u d = s.neighbour u d := by
  unfold State.neighbour
  rw [shared_modTile]

/-! ## Acknowledgements -/

theorem putAck_of_no_entry {a : Ack} (h : ∀ c ∈ (s.tile t).router.combine, c.takes a = false) :
    s.putAck t a = s.modTile t (fun tl => { tl with router := { tl.router with acks := tl.router.acks ++ [a] } }) := by
  have hnone : (s.tile t).router.combine.find? (fun c => c.takes a) = none :=
    List.find?_eq_none.mpr fun c hc => by simp [h c hc]
  refine modTile_congr s t ?_
  simp only [hnone]

/-- At a fork with one entry. -/
theorem putAck_of_entry {a : Ack} {c : Combine} (hone : (s.tile t).router.combine = [c]) (htakes : c.takes a = true) :
    s.putAck t a = s.modTile t (fun tl => { tl with router :=
      if c.remaining ≤ 1 then { tl.router with combine := [], acks := tl.router.acks ++ [a] }
      else { tl.router with combine := [{ c with remaining := c.remaining - 1 }] } }) := by
  refine modTile_congr s t ?_
  simp [hone, htakes]

/-- The acknowledgement that waits alone at a tile and has room at its next hop is taken. -/
theorem exec_meshAck {a : Ack} (hready : (s.slab t.slab).ready = true) (hone : (s.tile t).router.acks = [a])
    (hgo : ∀ d way, a.trail = d :: way → (s.neighbour t d).any (fun n => s.ackRoom n { a with trail := way }) = true) :
    exec (.meshAck ⟨t, .clean⟩) s =
      let z := s.modTile t (fun tl => { tl with router := { tl.router with acks := [] } })
      match a.trail with
      | [] => .next ((z.modTile t (fun tl => { tl with unacked := tl.unacked - 1, ackedAt := s.cycle t.slab })).forwardDone t a.msg)
      | d :: rest => match z.neighbour t d with
        | none => .next z
        | some n => .next (z.putAck n { a with trail := rest }) := by
  have htaken : s.modTile t (fun tl => Tile.count { tl with router := { tl.router with acks := tl.router.acks.erase a } } Ctr.MESH_CORRECTED 0)
      = s.modTile t (fun tl => { tl with router := { tl.router with acks := [] } }) := by
    refine modTile_congr s t ?_
    rw [count_zero]
    simp only [hone, List.erase_cons_head]
  dsimp only at htaken
  change execMeshAck ⟨t, .clean⟩ s = _
  unfold execMeshAck
  simp only [hready, hone, Bool.true_and, ne_eq, reduceCtorEq, not_false_eq_true, decide_true, if_true, if_false]
  rw [List.find?_cons_of_pos]
  · dsimp only
    rw [htaken] <;> rfl
  · split
    case h_1 => rfl
    case h_2 d way htrail => exact hgo d way htrail

theorem forwardDone_of_none {m : Nat} (h : alookup m (s.tile t).forwards = none) : s.forwardDone t m = s := by
  unfold State.forwardDone
  rw [h]

/-! ## Hops -/

variable {inp : InPort} {vc : Bool} {f : Flit} {rest : List Flit}

theorem exec_meshFlitReceive_clean (hready : (s.slab t.slab).ready = true) (hin : (s.tile t).router.input inp vc = f :: rest) :
    exec (.meshFlitReceive t inp vc .clean) s =
      let z := s.clearFails t inp
      if z.holdDiscards t f then .next ((z.popInput t inp vc).modTile t (fun tl => tl.count Ctr.HOLD_DISCARDS 1))
      else if decide (f.kind = 1) || !z.mayForward t inp vc f (z.flitOuts t f) then .next z
      else .next ((z.flitOuts t f).foldl (fun s o => s.putFlit t o) ((z.popInput t inp vc).countHop t inp f (z.flitOuts t f))) := by
  change execMeshFlitReceive t inp vc .clean s = _
  unfold execMeshFlitReceive
  rw [if_pos hready, hin]
  cases inp <;> rfl

theorem exec_meshFlitReceive_uncorrectable {d : Dir} (hready : (s.slab t.slab).ready = true)
    (hin : (s.tile t).router.input (.mesh d) vc = f :: rest) :
    exec (.meshFlitReceive t (.mesh d) vc .uncorrectable) s = .next (s.discardInput t d vc) := by
  change execMeshFlitReceive t (.mesh d) vc .uncorrectable s = _
  unfold execMeshFlitReceive
  rw [if_pos hready, hin]

theorem exec_multicastForward (hready : (s.slab t.slab).ready = true) (hin : (s.tile t).router.input inp vc = f :: rest)
    (hkind : f.kind = 1) (hgo : s.mayForward t inp vc f (s.flitOuts t f) = true) :
    exec (.multicastForward t inp vc) s = .next ((s.flitOuts t f).foldl (fun s o => s.putFlit t o)
      (let z := (s.popInput t inp vc).countHop t inp f (s.flitOuts t f)
       let z := if f.last && decide (1 < (s.flitOuts t f).length) then z.modRouter t (fun r => { r with combine := r.combine ++
          [{ sx := f.sx, sy := f.sy, msg := f.msg, remaining := (s.flitOuts t f).length, trail := f.trail }] }) else z
       if f.last && (s.flitOuts t f).isEmpty then z.sendAck t f.ack else z)) := by
  change execMulticastForward t inp vc s = _
  unfold execMulticastForward
  rw [if_pos hready, hin]
  simp only [hkind, hgo, ne_eq, not_true, decide_false, Bool.not_true, Bool.or_self, Bool.false_eq_true, if_false]

/-! ## Retries -/

theorem linkFailed_of_split (hmode : s.shared.mode = .split) (d : Dir) : s.linkFailed t d = decide (d ∈ (s.tile t).router.failed) := by
  simp [State.linkFailed, hmode]

theorem exec_meshRetry_failed {d : Dir} (hready : (s.slab t.slab).ready = true) (hsome : ((s.tile t).router.out d).pending ≠ [])
    (hfailed : s.linkFailed t d = true) : exec (.meshRetry t d false) s = .next (s.rerouteOne t d) := by
  change execMeshRetry t d false s = _
  unfold execMeshRetry
  simp [hready, hsome, hfailed]

/-- A retry over a link that works, in split mode, where no link crosses the col. -/
theorem exec_meshRetry {d : Dir} (hready : (s.slab t.slab).ready = true) (hmode : s.shared.mode = .split)
    (hsome : ((s.tile t).router.out d).pending ≠ []) (hworks : d ∉ (s.tile t).router.failed) (hn : s.neighbour t d = some n) :
    exec (.meshRetry t d false) s =
      let o := (s.tile t).router.out d
      if 16 ≤ o.retries + 1 ∨ 4 ≤ o.flitFails + 1 then
        .next ((s.modRouter t (fun r => r.setOut d { o with retries := o.retries + 1, flitFails := o.flitFails + 1 })).failLink t d)
      else .next ((s.modRouter t (fun r => r.setOut d { pending := [], retries := o.retries + 1, flitFails := o.flitFails + 1 })).modRouter n
        (fun r => putBack r (.mesh (Dir.opposite d)) (o.pending.map (fun e => (e.1, { e.2 with trail := Dir.opposite d :: e.2.trail }))))) := by
  have hlink : s.linkFailed t d = false := by rw [linkFailed_of_split hmode]; exact decide_eq_false hworks
  have hempty : ((s.tile t).router.out d).pending.isEmpty = false := by simpa using hsome
  change execMeshRetry t d false s = _
  unfold execMeshRetry
  simp only [hready, hlink, hmode, hempty, Bool.not_true, Bool.false_and, Bool.or_self, Bool.false_eq_true, if_false,
    and_false, decide_false, reduceCtorEq]
  unfold State.modRouter
  simp only [neighbour_modTile, hn]

end Sys2Proof.Machine

namespace Sys2Proof.Proofs

open Sys2Proof.Machine

theorem flitsLeaveByTheirOutputs : Claims.FlitsLeaveByTheirOutputs := by
  unfold Claims.FlitsLeaveByTheirOutputs
  intro s t inp vc f rest hready hin
  refine ⟨fun hkind hkeep hgo => ?_, fun hdiscard => ?_, fun d n hinp hn => ?_, fun hkind hgo => ?_⟩
  · rw [exec_meshFlitReceive_clean hready hin]
    simp only [hkeep, hgo, hkind, decide_false, Bool.not_true, Bool.or_self, Bool.false_eq_true, if_false]
  · rw [exec_meshFlitReceive_clean hready hin]
    exact if_pos hdiscard
  · subst hinp
    rw [exec_meshFlitReceive_uncorrectable hready hin]
    simp only [State.discardInput, hn, hin]
    rfl
  · rw [exec_multicastForward hready hin hkind hgo]
    simp only [Bool.and_eq_true, decide_eq_true_eq, List.isEmpty_iff]
    generalize s.flitOuts t f = outs
    by_cases hfork : f.last = true ∧ 1 < outs.length
    · have hsome : ¬ (f.last = true ∧ outs = []) := fun hc => by simp [hc.2] at hfork
      rw [if_pos hfork, if_neg hsome, if_pos hfork]
      rfl
    · rw [if_neg hfork, if_neg hfork]
      rfl

theorem ejectedRowsAreWrittenAndAcknowledged : Claims.EjectedRowsAreWrittenAndAcknowledged := by
  unfold Claims.EjectedRowsAreWrittenAndAcknowledged
  intro s t hready
  refine ⟨fun f rest heject => ?_, fun a hone => ⟨fun htrail hnone => ?_, fun d way n htrail hn hroom => ?_⟩, fun a => ⟨putAck_of_no_entry, ?_, ?_⟩⟩
  · have hexec : exec (.meshFlitEject t) s = execMeshFlitEject t s := rfl
    unfold execMeshFlitEject at hexec
    rw [if_pos hready, heject] at hexec
    refine ⟨fun hahead hheld => ?_, fun hnow hkind => ?_, fun hnow hkind => ?_⟩ <;> rw [hexec]
    · simp only [hahead, hheld, if_true]
    · simp only [hnow, hkind, Bool.false_eq_true, if_true, if_false]
      rfl
    · simp only [hnow, hkind, Bool.false_eq_true, if_false]
      rfl
  · rw [exec_meshAck hready hone (by rw [htrail]; nofun)]
    simp only [htrail]
    rw [forwardDone_of_none (by rw [tile_modTile, tile_modTile]; exact hnone)]
  · rw [exec_meshAck hready hone (fun d' way' h => by cases htrail.symm.trans h; rw [hn]; exact hroom)]
    simp only [htrail, neighbour_modTile, hn]
  · intro c hone htakes hmore
    rw [putAck_of_entry hone htakes]
    simp only [Nat.not_le.mpr hmore, if_false]
  · intro c hone htakes hlast
    rw [putAck_of_entry hone htakes]
    simp only [hlast, Nat.le_refl, if_true]

theorem retriesResendOrFailTheLink : Claims.RetriesResendOrFailTheLink := by
  unfold Claims.RetriesResendOrFailTheLink
  intro s t n d hready hmode hn hsome o back
  refine ⟨fun hworks hretries hfails => ?_, fun hworks hlimit => ?_, fun vc f rest x y hfailed hpending hstep => ?_⟩
  · rw [exec_meshRetry hready hmode hsome hworks hn]
    exact if_neg (show ¬ (16 ≤ o.retries + 1 ∨ 4 ≤ o.flitFails + 1) by omega)
  · rw [exec_meshRetry hready hmode hsome hworks hn]
    exact if_pos (show 16 ≤ o.retries + 1 ∨ 4 ≤ o.flitFails + 1 by omega)
  · rw [exec_meshRetry_failed hready hsome (by rw [linkFailed_of_split hmode]; exact decide_eq_true hfailed)]
    have hfirst : ((s.tile t).router.out d).pending = (vc, f) :: rest := hpending
    simp only [State.rerouteOne, hstep, hfirst]
    rfl

/-- Settles O10: each hop, ejection, acknowledgement and retry is an equation of the routers it touches. -/
theorem meshCarriesFlits : Obligations.MeshCarriesFlits :=
  ⟨flitsLeaveByTheirOutputs, ejectedRowsAreWrittenAndAcknowledged, retriesResendOrFailTheLink⟩

end Sys2Proof.Proofs
end

section
/-! # The control network (R53, R93, R172 to R174) -/

namespace Sys2Proof.Machine

variable {s : State} {t u : TileId} {i j : SlabId}

/-! ## What an update of one slab leaves of both -/

theorem slab_modSlab_proj {α : Type} (p : Slab → α) {f : Slab → Slab} (h : ∀ sl, p (f sl) = p sl) (s : State) (i j : SlabId) :
    p ((s.modSlab i f).slab j) = p (s.slab j) := by
  rw [slab_modSlab]
  split
  · exact h _
  · rfl

section
variable (s : State) (i j : SlabId) (g : Camp → Camp)

@[simp] theorem tile_modCamp (u : TileId) : (s.modSlab i (fun sl => sl.modCamp g)).tile u = s.tile u :=
  slab_modSlab_proj (fun sl => sl.tile u.x.val u.y.val) (f := fun sl => sl.modCamp g) (fun _ => rfl) s i u.slab

@[simp] theorem cycle_modCamp : (s.modSlab i (fun sl => sl.modCamp g)).cycle j = s.cycle j :=
  slab_modSlab_proj (fun sl => sl.clocks.cycle) (f := fun sl => sl.modCamp g) (fun _ => rfl) s i j

@[simp] theorem root_modCamp : (s.modSlab i (fun sl => sl.modCamp g)).root j = s.root j := by
  unfold State.root
  rw [dev_modSlab]
  exact slab_modSlab_proj Slab.root (f := fun sl => sl.modCamp g) (fun _ => rfl) s i (s.dev j)

@[simp] theorem job_modCamp : (s.modSlab i (fun sl => sl.modCamp g)).job j = s.job j := by
  unfold State.job
  rw [dev_modSlab]
  exact slab_modSlab_proj Slab.job (f := fun sl => sl.modCamp g) (fun _ => rfl) s i (s.dev j)

@[simp] theorem tileReleases_modCamp (u : TileId) : (s.modSlab i (fun sl => sl.modCamp g)).tileReleases u = s.tileReleases u := by
  simp only [State.tileReleases, root_modCamp, cycle_modCamp, tile_modCamp]

@[simp] theorem tagAhead_modCamp (u : TileId) (tag : Nat) : (s.modSlab i (fun sl => sl.modCamp g)).tagAhead u tag = s.tagAhead u tag := by
  simp only [State.tagAhead, tileReleases_modCamp]

@[simp] theorem routed_modCamp (u : TileId) : (s.modSlab i (fun sl => sl.modCamp g)).routed u = s.routed u := by
  unfold State.routed
  rw [tile_modCamp]
  exact slab_modSlab_proj (fun sl => sl.ready && decide (tileField u ∉ sl.lostFields) && decide (tileField u ∉ sl.hole)
    && !(sl.field (tileField u)).clamped && !(s.tile u).failed) (f := fun sl => sl.modCamp g) (fun _ => rfl) s i u.slab

@[simp] theorem campPort_modCamp : (s.modSlab i (fun sl => sl.modCamp g)).campPort j = s.campPort j :=
  slab_modSlab_proj (fun sl => if fieldOf 55 47 ∈ sl.hole ∨ fieldOf 55 47 ∈ sl.lostFields then tileId j 56 48 else tileId j 55 47)
    (f := fun sl => sl.modCamp g) (fun _ => rfl) s i j

@[simp] theorem reachable_modCamp (u : TileId) : (s.modSlab i (fun sl => sl.modCamp g)).reachable u = s.reachable u := by
  simp only [State.reachable, routed_modCamp, campPort_modCamp]

@[simp] theorem mayWriteTile_modCamp : (s.modSlab i (fun sl => sl.modCamp g)).mayWriteTile j = s.mayWriteTile j := by
  simp only [State.mayWriteTile, State.beforeJob, root_modCamp, job_modCamp]

end

/-- A change of base camp that leaves its releases. -/
theorem campReleases_modCamp {g : Camp → Camp} (h : ∀ c, (g c).releasedAt = c.releasedAt) :
    (s.modSlab i (fun sl => sl.modCamp g)).campReleases j = s.campReleases j := by
  unfold State.campReleases
  rw [root_modCamp, cycle_modCamp, slab_modSlab_proj (fun sl => sl.camp.releasedAt) (f := fun sl => sl.modCamp g) (fun sl => h sl.camp)]

/-! ## Requests -/

/-- Base camp remembers a request from the present cycle on. -/
def State.remembered (s : State) (t : TileId) (tag : Half) (p : CtrlPacket) : State :=
  s.modSlab t.slab (fun sl => sl.modCamp (fun c =>
    c.remember { tag := tag, attempts := 1, packet := p, sentAt := s.cycle t.slab }))

theorem releasedAt_remember (c : Camp) (r : CtrlReq) : (c.remember r).releasedAt = c.releasedAt := by
  unfold Camp.remember; split <;> rfl

theorem remember_new {c : Camp} {r : CtrlReq} (h : ∀ x ∈ c.ctrlOutstanding, x.tag ≠ r.tag) :
    c.remember r = { c with ctrlOutstanding := c.ctrlOutstanding ++ [r] } := by
  have hnone : c.ctrlOutstanding.any (fun x => x.tag = r.tag) = false := by simpa using h
  rw [Camp.remember, hnone]
  rfl

theorem ready_of_reachable (h : s.reachable t = true) : (s.slab t.slab).ready = true := by
  simp only [State.reachable, State.routed, Bool.and_eq_true] at h
  exact h.1.1.1.1.1

/-- What becomes of a request that reaches its tile. -/
theorem request_of_reachable {tag : Half} {p : CtrlPacket} {chk : LinkCheck} (h : s.reachable t = true) :
    s.request t tag p chk =
      let z := s.remembered t tag p
      if chk = .uncorrectable then z.ctrlDiscard t
      else if s.tagAhead t (s.campReleases t.slab % 4) then
        (z.ctrlHold t.slab tag p).modSlab t.slab (fun sl => sl.modField (tileField t) (fun fd => fd.count Ctr.PHASE_TAG_HOLDS 1))
      else z.ctrlArrive t.slab tag p := by
  have hready := ready_of_reachable h
  unfold State.request State.remembered
  simp only [hready, h, reachable_modCamp, tagAhead_modCamp, campReleases_modCamp (fun c => releasedAt_remember c _), Bool.not_true,
    Bool.false_eq_true, if_false]

variable {tag : Half} {v : DWord}

theorem exec_ctrlRegisterWrite {reg : CtrlReg} (h : s.reachable t = true) (hnow : s.tagAhead t (s.campReleases t.slab % 4) = false) :
    exec (.ctrlRegisterWrite t reg v ⟨tag, .clean⟩) s
      = .next (((s.remembered t tag (.write t reg v)).ctrlWrite t v reg).ctrlRespond t tag 0) := by
  refine congrArg _ ((request_of_reachable h).trans ?_)
  simp [hnow, State.ctrlArrive]

theorem exec_ctrlStoreWrite {target : StoreTarget} (h : s.reachable t = true) (hnow : s.tagAhead t (s.campReleases t.slab % 4) = false) :
    exec (.ctrlStoreWrite t target ⟨tag, .clean⟩) s
      = .next (((s.remembered t tag (.store t target)).ctrlStore t target).ctrlRespond t tag 0) := by
  refine congrArg _ ((request_of_reachable h).trans ?_)
  simp [hnow, State.ctrlArrive]

theorem exec_ctrlRegisterRead {reg : CtrlReg} (h : s.reachable t = true) (hnow : s.tagAhead t (s.campReleases t.slab % 4) = false) :
    exec (.ctrlRegisterRead t reg tag .clean) s
      = .next ((s.remembered t tag (.read t reg)).ctrlRespond t tag ((s.remembered t tag (.read t reg)).ctrlRead t reg)) := by
  refine congrArg _ ((request_of_reachable h).trans ?_)
  simp [hnow, State.ctrlArrive]

theorem exec_ctrlReadResponse {r : CtrlReq} {phase : Nat} (hready : (s.slab i).ready = true) (hone : (s.slab i).camp.ctrlOutstanding = [r])
    (htag : r.tag = tag) (hresp : alookup tag (s.slab i).camp.ctrlResponses = some (v, phase)) (hnow : s.campAhead i phase = false) :
    exec (.ctrlReadResponse i tag .clean) s = .next (s.modSlab i (fun sl => { sl with camp := { sl.camp with
      ctrlOutstanding := [], ctrlResponses := aerase tag sl.camp.ctrlResponses, ctrlRead := aset tag v sl.camp.ctrlRead } })) := by
  change execCtrlReadResponse i tag .clean s = _
  unfold execCtrlReadResponse
  dsimp only
  rw [if_pos hready, hresp, hone, List.find?_cons_of_pos (by simpa using htag)]
  simp only [hnow, Bool.false_eq_true, if_false, reduceCtorEq]
  rw [modSlab_modSlab]
  refine congrArg _ (modSlab_congr s i ?_)
  simp [Slab.modCamp, hone, htag]

theorem exec_ctrlRequestTimeout {r : CtrlReq} (hready : (s.slab i).ready = true) (hone : (s.slab i).camp.ctrlOutstanding = [r])
    (htag : r.tag = tag) (htile : r.packet.tile? = some t) (hlate : r.sentAt + 131072 ≤ s.cycle i) :
    exec (.ctrlRequestTimeout i tag) s = .next (if 4 ≤ r.attempts
      then (s.modSlab i (fun sl => { sl with camp := { sl.camp with ctrlOutstanding := [] } })).tileFault t 0x02
      else s.modSlab i (fun sl => { sl with camp := { sl.camp with
        ctrlOutstanding := [{ r with attempts := r.attempts + 1, sentAt := s.cycle i }] } })) := by
  change execCtrlRequestTimeout i tag s = _
  unfold execCtrlRequestTimeout
  dsimp only
  rw [hone, List.find?_cons_of_pos (by simpa using htag)]
  have hdue : ¬ ((!(s.slab i).ready) = true ∨ s.cycle i < r.sentAt + ctrlTimeout) := by
    simp only [hready, ctrlTimeout]
    simpa using hlate
  have hended : s.modSlab i (fun sl => sl.modCamp (fun c => { c with ctrlOutstanding := c.ctrlOutstanding.filter (fun r => r.tag ≠ tag) }))
      = s.modSlab i (fun sl => { sl with camp := { sl.camp with ctrlOutstanding := [] } }) := by
    refine modSlab_congr s i ?_
    simp [Slab.modCamp, hone, htag]
  simp only [hdue, if_false, htile]
  split
  case isTrue => exact congrArg (fun z => Host.Outcome.next (z.tileFault t 0x02)) hended
  case isFalse =>
    refine congrArg _ (modSlab_congr s i ?_)
    simp [Slab.modCamp, hone, htag]

@[simp] theorem mayWriteTile_remembered (p : CtrlPacket) : (s.remembered t tag p).mayWriteTile i = s.mayWriteTile i := mayWriteTile_modCamp ..
@[simp] theorem cycle_remembered (p : CtrlPacket) : (s.remembered t tag p).cycle i = s.cycle i := cycle_modCamp ..
@[simp] theorem tile_remembered (p : CtrlPacket) : (s.remembered t tag p).tile u = s.tile u := tile_modCamp ..

end Sys2Proof.Machine

namespace Sys2Proof.Proofs

open Sys2Proof.Machine

theorem controlWritesReachTheirRegister : Claims.ControlWritesReachTheirRegister := by
  unfold Claims.ControlWritesReachTheirRegister
  intro s t v tag hreach kept answered discarded writes stores
  have hwrite : s.tagAhead t (s.campReleases t.slab % 4) = false → ∀ (reg : CtrlReg) (g : State → State),
      (∀ z, z = s.remembered t tag (.write t reg v) → z.ctrlWrite t v reg = g z) → writes reg g := by
    intro hnow reg g hg
    refine (exec_ctrlRegisterWrite hreach hnow).trans ?_
    rw [hg _ rfl]
    rfl
  have hstore : s.tagAhead t (s.campReleases t.slab % 4) = false → ∀ (target : StoreTarget) (g : State → State),
      (∀ z, z = s.remembered t tag (.store t target) → z.ctrlStore t target = g z) → stores target g := by
    intro hnow target g hg
    refine (exec_ctrlStoreWrite hreach hnow).trans ?_
    rw [hg _ rfl]
    rfl
  clear_value writes stores
  refine ⟨fun reg target => ⟨?_, ?_⟩, fun hahead reg => ?_, fun hnow => ⟨?_, ?_, ?_, ?_, ?_, fun hmay => ⟨?_, ?_, ?_, ?_⟩, fun hmay => ⟨?_, ?_, ?_, ?_⟩, ?_⟩⟩
  · exact congrArg _ ((request_of_reachable hreach).trans (if_pos rfl))
  · exact congrArg _ ((request_of_reachable hreach).trans (if_pos rfl))
  · refine congrArg _ ((request_of_reachable hreach).trans ?_)
    simp only [hahead, reduceCtorEq, if_true, if_false]
    rfl
  · exact hwrite hnow _ _ fun z hz => rfl
  · exact fun hv => hwrite hnow _ _ fun z hz => if_pos hv
  · exact fun hv => hwrite hnow _ _ fun z hz => if_neg (by rw [show bit v 63 = false from hv]; decide)
  · exact hwrite hnow _ _ fun z hz => rfl
  · exact fun q => hwrite hnow _ _ fun z hz => rfl
  · intro q r
    refine hwrite hnow _ _ fun z hz => ?_
    have hcycle : z.cycle t.slab = s.cycle t.slab := by rw [hz, cycle_remembered]
    rw [← hcycle]
    exact if_pos (by rw [hz, mayWriteTile_remembered]; exact hmay)
  · exact fun q => hwrite hnow _ _ fun z hz => if_pos (by rw [hz, mayWriteTile_remembered]; exact hmay)
  · exact fun c => hwrite hnow _ _ fun z hz => if_pos (by rw [hz, mayWriteTile_remembered]; exact hmay)
  · exact fun q a w => hstore hnow _ _ fun z hz => if_pos (by rw [hz, mayWriteTile_remembered]; exact hmay)
  · exact fun q r => hwrite hnow _ _ fun z hz => if_neg (by rw [hz, mayWriteTile_remembered, hmay]; decide)
  · exact fun q => hwrite hnow _ _ fun z hz => if_neg (by rw [hz, mayWriteTile_remembered, hmay]; decide)
  · exact fun c => hwrite hnow _ _ fun z hz => if_neg (by rw [hz, mayWriteTile_remembered, hmay]; decide)
  · exact fun q a w => hstore hnow _ _ fun z hz => if_neg (by rw [hz, mayWriteTile_remembered, hmay]; decide)
  · exact fun r d => hstore hnow _ _ fun z hz => rfl

theorem controlReadsAnswerRepeatAndGiveUp : Claims.ControlReadsAnswerRepeatAndGiveUp := by
  unfold Claims.ControlReadsAnswerRepeatAndGiveUp
  intro s t reg tag hreach now camp q
  have hready : (s.slab t.slab).ready = true := ready_of_reachable hreach
  refine ⟨fun hnew hnow => ⟨(s.remembered t tag (.read t reg)).ctrlRead t reg, ?_, ?_⟩, fun v phase hone hresp hahead => ?_,
    fun n at_ hone hlate => ?_, fun src ws hsrc => ?_⟩
  · refine (exec_ctrlRegisterRead hreach hnow).trans (congrArg _ ?_)
    rw [State.remembered, State.ctrlRespond, modSlab_modSlab, tileReleases_modCamp]
    refine modSlab_congr s t.slab ?_
    simp only [Slab.modCamp]
    rw [remember_new hnew]
  · refine ⟨?_, ?_, ?_, ?_, ?_, ?_, ?_⟩
    all_goals
      intros
      subst reg
      simp only [State.ctrlRead, tile_remembered, cycle_remembered, State.seqAt, now]
  · exact exec_ctrlReadResponse hready hone rfl hresp hahead
  · rw [exec_ctrlRequestTimeout hready hone rfl rfl hlate]
    exact ⟨fun hn => congrArg _ (if_neg (Nat.not_le.mpr hn)), fun hn => congrArg _ (if_pos hn)⟩
  · have hcomes : (!(s.slab t.slab).ready || (!(bit src 15) && !((s.nodeTile t.slab src).any s.reachable))) = false
        ∧ (s.nodeTile t.slab src).any (fun u => s.campAhead t.slab (s.tileReleases u)) = false := by
      rcases hsrc with hunit | ⟨htile, hnow⟩
      · have hnone : s.nodeTile t.slab src = none := if_pos hunit
        rw [hnone]
        exact ⟨by simp [hready, show bit src 15 = true from hunit], rfl⟩
      · rw [htile]
        exact ⟨by simp [hready, hreach], hnow⟩
    obtain ⟨hgo, hnow⟩ := hcomes
    have hexec : ∀ p : Heard (List DWord), exec (.ctrlStatusReport t.slab src p) s = execCtrlStatusReport t.slab src p s := fun _ => rfl
    simp only [hexec, execCtrlStatusReport, hgo, hnow, Bool.false_eq_true, if_true, if_false, reduceCtorEq]
    exact ⟨rfl, rfl⟩

/-- Settles O11: a request changes what its tile's registers allow, and base camp keeps its tags until the responses. -/
theorem controlNetworkReachesRegisters : Obligations.ControlNetworkReachesRegisters :=
  ⟨controlWritesReachTheirRegister, controlReadsAnswerRepeatAndGiveUp⟩

end Sys2Proof.Proofs
end

section
/-! # Heartbeats (R47) -/

namespace Sys2Proof.Machine

variable {s : State} {f : FieldId} {pr pc : Fin 17}

/-- A tile of a field with power has missed its toggles. -/
theorem exec_heartbeatDeath (hready : (s.slab f.slab).ready = true) (hpower : ((s.slab f.slab).field (fieldNum f)).powered = true)
    (hlive : (pc, pr) ∉ ((s.slab f.slab).field (fieldNum f)).dead) :
    exec (.heartbeatDeath f pr pc) s =
      if ((s.slab f.slab).field (fieldNum f)).clamped = true ∨ (s.slab f.slab).clocks.cycle < (s.slab f.slab).lastToggle (fieldNum f) (pc, pr) + 4096
      then .next s
      else
        let z := s.modSlab f.slab (fun sl => sl.modField (fieldNum f) (fun x =>
          { x with dead := x.dead ++ [(pc, pr)], counters := Counters.bump x.counters Ctr.HEARTBEAT_DEATHS 1 }))
        match ((s.slab f.slab).field (fieldNum f)).logicalAt (fieldNum f) (pc, pr) with
        | none => .next (z.spareDeath f.slab (fieldNum f) (pc, pr))
        | some (x, y) => .next ((z.modTile (tileId f.slab x y) (fun tl => { tl with failed := true })).tileFault (tileId f.slab x y) 0x01) := by
  change execHeartbeatDeath f pr pc s = _
  unfold execHeartbeatDeath
  simp only [hready, hpower, hlive, Bool.not_true, Bool.false_or, Bool.or_false, Bool.or_eq_true, decide_eq_true_eq, decide_false]
  rfl

end Sys2Proof.Machine

namespace Sys2Proof.Proofs

open Sys2Proof.Machine

/-- Settles O12: a death waits for 2,048 fabric cycles without a toggle, and then goes by the tile's place in the array. -/
theorem heartbeatsToggleAndDie : Obligations.HeartbeatsToggleAndDie := by
  unfold Obligations.HeartbeatsToggleAndDie
  intro s f pr pc sl n hready hpower hlive
  refine ⟨?_, fun hsoon => ?_, fun hclamped => ?_, fun hopen hlate => ?_⟩
  · change execHeartbeatToggle f pr pc s = _
    unfold execHeartbeatToggle
    refine if_neg ?_
    simp only [sl, n] at hready hpower hlive
    simp [hready, hpower, hlive]
  · rw [exec_heartbeatDeath hready hpower hlive]
    exact if_pos (.inr hsoon)
  · rw [exec_heartbeatDeath hready hpower hlive]
    exact if_pos (.inl hclamped)
  · intro z
    simp only [sl, n] at hopen hlate ⊢
    have hfield : (z.slab f.slab).field (fieldNum f) = { (s.slab f.slab).field (fieldNum f) with
        dead := ((s.slab f.slab).field (fieldNum f)).dead ++ [(pc, pr)]
        counters := Counters.bump ((s.slab f.slab).field (fieldNum f)).counters Ctr.HEARTBEAT_DEATHS 1 } := by
      rw [slab_modSlab_self, Slab.field_modField_self]
    rw [exec_heartbeatDeath hready hpower hlive, if_neg (by simp [hopen, hlate]), hfield]
    refine ⟨rfl, fun hspare => ?_, fun x y hplace => ?_⟩
    · simp only [hspare]
      rfl
    · simp only [hplace]
      rfl

end Sys2Proof.Proofs
end

section
/-! # What leaves the roots alone (R42 to R46)

`State.roots` is to the roots what `State.chassis` is to supply and mode: an operation leaves it alone unless it is one of the belay network. -/

namespace Sys2Proof.Machine

/-- The mode, and the roots of both slabs. -/
def State.roots (s : State) : Mode × Root × Root := (s.shared.mode, s.slab0.root, s.slab1.root)

variable {s t : State}

theorem dev_of_roots (h : t.roots = s.roots) (i : SlabId) : t.dev i = s.dev i := by
  have hmode : t.shared.mode = s.shared.mode := congrArg Prod.fst h
  unfold State.dev
  rw [hmode]

theorem root_of_roots (h : t.roots = s.roots) (i : SlabId) : t.root i = s.root i := by
  unfold State.root
  rw [dev_of_roots h]
  simp only [State.roots, Prod.mk.injEq] at h
  cases s.dev i
  · exact h.2.1
  · exact h.2.2

theorem modSlab_roots (s : State) (i : SlabId) (f : Slab → Slab) (h : ∀ sl, (f sl).root = sl.root := by intro _; rfl) :
    (s.modSlab i f).roots = s.roots := by
  cases i <;> exact congrArg (fun r => (_, r)) (by simp [State.modSlab, State.setSlab, h])

theorem modDev_roots (s : State) (i : SlabId) (f : Slab → Slab) (h : ∀ sl, (f sl).root = sl.root := by intro _; rfl) :
    (s.modDev i f).roots = s.roots := by
  unfold State.modDev
  split
  · exact modSlab_roots _ _ _ h
  · exact (modSlab_roots _ _ _ h).trans (modSlab_roots _ _ _ h)

theorem foldl_roots {α : Type} {f : State → α → State} (h : ∀ s a, (f s a).roots = s.roots) (l : List α) (s : State) :
    (l.foldl f s).roots = s.roots := by
  induction l generalizing s with
  | nil => rfl
  | cons a l ih => rw [List.foldl_cons, ih, h]

theorem ite_roots {c : Prop} [Decidable c] {a b : State} (ha : a.roots = s.roots) (hb : b.roots = s.roots) :
    (if c then a else b).roots = s.roots := by
  split
  · exact ha
  · exact hb

@[simp] theorem free_roots (s : State) (n : Nat) : State.roots { s with free := n } = s.roots := rfl

@[simp] theorem post_roots (s : State) (fn : SlabId) (r : EventRec) : (s.post fn r).roots = s.roots := by
  have h0 : (s.post fn r).slab0 = s.slab0 := slab_post s fn .s0 r
  have h1 : (s.post fn r).slab1 = s.slab1 := slab_post s fn .s1 r
  simp only [State.roots, shared_post, h0, h1]

@[simp] theorem event_roots (s : State) (fn i : SlabId) (ty : Byte) (d : List Byte) : (s.event fn i ty d).roots = s.roots := post_roots ..

@[simp] theorem modJob_roots (s : State) (i : SlabId) (g : Job → Job) : (s.modJob i g).roots = s.roots := modSlab_roots ..

@[simp] theorem modLedger_roots (s : State) (i : SlabId) (n : DWord) (g : LedgerRec → LedgerRec) : (s.modLedger i n g).roots = s.roots :=
  modDev_roots ..

@[simp] theorem setJobState_roots (s : State) (i : SlabId) (st : JobState) (r : Reason) : (s.setJobState i st r).roots = s.roots :=
  (event_roots ..).trans (modJob_roots ..)

@[simp] theorem countFeed_roots (s : State) (i : SlabId) (q id : Nat) : (s.countFeed i q id).roots = s.roots := modSlab_roots ..

/-! ## A step begins -/

theorem root_modUnits (g : UpdateUnit → UpdateUnit) (l : List Nat) (sl : Slab) :
    (l.foldl (fun sl u => sl.modUnit u g) sl).root = sl.root := by
  induction l generalizing sl with
  | nil => rfl
  | cons u l ih => exact ih _

@[simp] theorem openWindow_roots (s : State) (i : SlabId) (n : DWord) (r : Nat) : (s.openWindow i n r).roots = s.roots := by
  refine (modDev_roots _ _ _ fun sl => ?_).trans (modJob_roots ..)
  rw [Slab.modLinks_root, root_modUnits]

@[simp] theorem stepStreams_roots (s : State) (i : SlabId) (n : DWord) : (s.stepStreams i n).roots = s.roots := by
  refine foldl_roots (fun s k => ?_) _ _
  split
  · rfl
  · exact modSlab_roots ..

@[simp] theorem openRecord_roots (s : State) (i : SlabId) (n : DWord) (replay : Nat) (pitch : DWord) (placement : Nat) :
    (s.openRecord i n replay pitch placement).roots = s.roots := by
  unfold State.openRecord
  split
  · exact foldl_roots (fun s k => modSlab_roots ..) _ _
  · exact modLedger_roots ..

@[simp] theorem closeStep_roots (s : State) (i : SlabId) (n : DWord) : (s.closeStep i n).roots = s.roots := by
  unfold State.closeStep
  dsimp only
  split
  · exact modLedger_roots ..
  · exact (event_roots ..).trans (modLedger_roots ..)

@[simp] theorem closeSteps_roots (s : State) (i : SlabId) (all : Bool) : (s.closeSteps i all).roots = s.roots :=
  foldl_roots (fun _ _ => closeStep_roots ..) _ _

@[simp] theorem giveLanding_roots (s : State) (i : SlabId) (l : Landing) : (s.giveLanding i l).roots = s.roots := by
  unfold State.giveLanding
  split
  · rfl
  · split
    · rfl
    · exact modSlab_roots ..

@[simp] theorem reland_roots (s : State) (i : SlabId) (n : DWord) : (s.reland i n).roots = s.roots := by
  refine foldl_roots (fun s e => (modSlab_roots _ _ _ (fun sl => ?_)).trans (foldl_roots (fun _ _ => giveLanding_roots ..) _ _)) _ _
  split <;> rfl

@[simp] theorem beginStep_roots (s : State) (i : SlabId) : (s.beginStep i).roots = s.roots := by
  have hbuckets : ∀ (r : Nat) (n : DWord) (sl : Slab), ((if r = 0 then sl.dropOldBuckets n else sl).modLinks Links.takeSink).root = sl.root := by
    intro r n sl; split <;> rfl
  have hrelands : ∀ (r : Nat) (n : DWord) (s : State),
      (if r = 0 then s else (s.devSlabs i).foldl (fun s k => s.reland k n) s).roots = s.roots := by
    intro r n s
    split
    · rfl
    · exact foldl_roots (fun _ _ => reland_roots ..) _ _
  unfold State.beginStep
  dsimp only
  split <;> simp only [setJobState_roots, closeSteps_roots, openRecord_roots, stepStreams_roots, hrelands, openWindow_roots, modJob_roots,
    modDev_roots _ _ _ (hbuckets _ _)]

@[simp] theorem releaseTiles_roots (s : State) (i : SlabId) (tick : Bool) (f : Nat → Tile → Tile) :
    (s.releaseTiles i tick f).roots = s.roots := (free_roots ..).trans (modDev_roots ..)

/-! ## A gate pitch -/

@[simp] theorem feedWaited_roots (s : State) (i : SlabId) : (s.feedWaited i).roots = s.roots := by
  exact ite_roots ((foldl_roots (fun _ _ => event_roots ..) _ _).trans (modJob_roots ..)) (modJob_roots ..)

@[simp] theorem countGate_roots (s : State) (i : SlabId) : (s.countGate i).roots = s.roots := by
  unfold State.countGate
  refine (foldl_roots (fun s q => ?_) _ _).trans ((feedWaited_roots ..).trans ?_)
  · split
    · rfl
    · exact countFeed_roots ..
  · split
    · exact (modLedger_roots ..).trans (modSlab_roots ..)
    · exact modSlab_roots ..

/-! ## A pitch begins -/

@[simp] theorem root_modRoot (s : State) (i : SlabId) (g : Root → Root) : (s.modRoot i g).root i = g (s.root i) := by
  unfold State.root State.modRoot
  rw [dev_modSlab, slab_modSlab_self]
  rfl

/-- The root as a release that begins a pitch leaves it. -/
def State.pitchRoot (s : State) (i : SlabId) (kind : PitchKind) (r : Root) : Root :=
  let image := decide (kind = .image)
  let x := if image && !(s.job i).inStep then 0 else r.indexInStep
  { r with pitch := r.pitch + 1, phase := 0, kind := kind, issued := s.cycle (s.dev i)
           length := s.kindLength i kind, deadline := s.kindLength i kind, stretched := 0
           releases := r.releases + 1, releasedPhases := 0, before := (r.pitch, r.phase, r.kind)
           schedIndex := if image then BitVec.ofNat 64 ((s.job i).step.toNat * s.stepPitches i + x) else r.schedIndex
           indexInStep := if image then x + 1 else r.indexInStep
           firstPitch := if image && decide (r.firstPitch = 0) then r.pitch + 1 else r.firstPitch
           midStep := decide (kind = .maint) && (s.job i).inStep && decide (0 < r.indexInStep) }

theorem root_beginPitch (s : State) (i : SlabId) (kind : PitchKind) : (s.beginPitch i kind).root i = s.pitchRoot i kind (s.root i) := by
  have hroots : (s.beginPitch i kind).roots = (s.modRoot i (s.pitchRoot i kind)).roots := by
    unfold State.beginPitch
    refine (ite_roots (countGate_roots ..) (ite_roots (modJob_roots ..) rfl)).trans ?_
    refine (ite_roots (modDev_roots ..) rfl).trans ?_
    refine (ite_roots (beginStep_roots ..) rfl).trans ?_
    refine (releaseTiles_roots ..).trans ?_
    exact ite_roots (modJob_roots ..) rfl
  rw [root_of_roots hroots, root_modRoot]

end Sys2Proof.Machine

namespace Sys2Proof.Proofs

open Sys2Proof.Machine

/-- Settles O13: what follows the release's own update of the root leaves the root alone. -/
theorem releaseStartsTheCount : Obligations.ReleaseStartsTheCount := by
  unfold Obligations.ReleaseStartsTheCount
  intro s i k t
  have hroot : t.root i = s.pitchRoot i k (s.root i) := root_beginPitch s i k
  rw [hroot]
  exact ⟨rfl, rfl, rfl, rfl, rfl, rfl, rfl, rfl, rfl, rfl, rfl⟩

end Sys2Proof.Proofs
end

section
/-! # Ticks and releases (R42, R45, R46, R61) -/

namespace Sys2Proof.Machine

variable {s : State} {i : SlabId}

/-! ## The checks of a tick -/

@[simp] theorem dev_dev (s : State) (i : SlabId) : s.dev (s.dev i) = s.dev i := by
  cases hmode : s.shared.mode <;> simp only [State.dev, hmode]

@[simp] theorem root_dev (s : State) (i : SlabId) : s.root (s.dev i) = s.root i := by
  unfold State.root
  rw [dev_dev]

theorem modRoot_congr (s : State) (i : SlabId) {f g : Root → Root} (h : f (s.root i) = g (s.root i)) : s.modRoot i f = s.modRoot i g :=
  modSlab_congr s (s.dev i) (congrArg (fun r => { s.slab (s.dev i) with root := r }) h)

/-- A check that is due. -/
theorem exec_tickCheck (hready : s.rootReady i = true) (hopen : (s.root i).inHold = false) (hdue : (s.root i).deadline ≤ s.rootCount i) :
    exec (.tickCheck i) s =
      if s.tickMissing i (s.root i).deadline = true ∧ (s.root i).deadline < (s.root i).length + (s.root i).stretchLimit then
        .next ((s.modRoot i (fun r => { r with deadline := r.deadline + 64, stretched := r.stretched + 64 })).modSlab (s.dev i) (fun sl =>
          (sl.count Ctr.STRETCH_INCREMENTS 1).count Ctr.STRETCHED_PITCHES (if (s.root i).stretched = 0 then 1 else 0)))
      else .next s := by
  change execTickCheck i s = _
  unfold execTickCheck
  simp only [hready, hopen, hdue, Bool.not_false, Bool.true_and, decide_true, Bool.and_eq_true, decide_eq_true_eq]

theorem exec_pitchOverrun (hready : s.rootReady i = true) (hopen : (s.root i).inHold = false) (hdue : (s.root i).deadline ≤ s.rootCount i) :
    exec (.pitchOverrun i) s =
      if (s.root i).length + (s.root i).stretchLimit ≤ (s.root i).deadline ∧ s.tickMissing i (s.root i).deadline = true ∧ (s.root i).causes = [] then
        .next (s.raiseCause { code := 0x05, slab := s.dev i, field := none, tile := none, unit := none, stamp := s.rootStamp (s.dev i) })
      else .next s := by
  change execPitchOverrun i s = _
  unfold execPitchOverrun
  simp only [hready, hopen, hdue, Bool.not_false, Bool.true_and, Bool.and_true, decide_true, Bool.and_eq_true, decide_eq_true_eq, List.isEmpty_iff, and_assoc]

theorem raiseCause_of_none {c : Cause} (h : (s.root c.slab).causes = []) :
    s.raiseCause c = s.modRoot c.slab (fun r => { r with causes := [c] }) := by
  refine modRoot_congr s c.slab ?_
  rw [h]
  rfl

/-! ## Releases -/

theorem openPitch_eq (z : State) (i : SlabId) (k : PitchKind) (scrub ovl : List (TileId × RowError)) : z.openPitch i k scrub ovl
    = if k = .maint then (((z.beginPitch i .maint).startScrub i scrub).scrubOverlays i ovl).maintain i else z.beginPitch i k := by
  unfold State.openPitch
  split
  case isTrue h => rw [h]
  case isFalse => rfl

/-- Outside a recovered hold, no release is issued before the pitch is over. -/
theorem nextPitch_of_not_over (h : s.pitchOver i = false) : s.nextPitch i = none := if_neg (by rw [h]; decide)

theorem nextPitch_of_over (h : s.pitchOver i = true) : s.nextPitch i =
    if (((s.endPitch i).root i).stopped (!((s.endPitch i).job i).inStep)) = true then none
    else some (s.endPitch i, (s.endPitch i).nextKind i) := by
  unfold State.nextPitch
  rw [if_pos h]

theorem stopped_iff {r : Root} {b : Bool} : r.stopped b = true ↔ r.causes ≠ [] ∨ b = true ∧ r.parks ≠ [] := by
  simp [Root.stopped]

theorem exec_tickRelease (h : s.holdOver i = false) : exec (.tickRelease i) s = match s.nextPitch i with
    | none => .next s
    | some (t, k) => .next (t.openPitch i k [] []) := by
  change execTickRelease i s = _
  unfold execTickRelease
  rw [h]
  rfl

theorem exec_idlePitch : exec (.idlePitch i) s = .next (s.releaseOf i .idle [] []) := rfl
theorem exec_gatePitch : exec (.gatePitch i) s = .next (s.releaseOf i .gate [] []) := rfl
theorem exec_maintenancePitch {x : ScrubErrors} : exec (.maintenancePitch i x) s = .next (s.releaseOf i .maint x.rows x.ovl) := rfl

theorem releaseOf_of_none {k : PitchKind} {scrub ovl : List (TileId × RowError)} (h : s.holdOver i = false) (hnone : s.nextPitch i = none) :
    s.releaseOf i k scrub ovl = s := by
  unfold State.releaseOf
  rw [h, hnone]
  rfl

theorem releaseOf_of_some {z : State} {k kind : PitchKind} {scrub ovl : List (TileId × RowError)} (h : s.holdOver i = false)
    (hsome : s.nextPitch i = some (z, kind)) : s.releaseOf i k scrub ovl = if kind = k then z.openPitch i k scrub ovl else s := by
  unfold State.releaseOf
  rw [h, hsome]
  by_cases hk : kind = k
  · subst hk
    rfl
  · exact (if_neg hk).trans (if_neg hk).symm

end Sys2Proof.Machine

namespace Sys2Proof.Proofs

open Sys2Proof.Machine

theorem tickStretchesAndOverruns : Claims.TickStretchesAndOverruns := by
  unfold Claims.TickStretchesAndOverruns
  intro s i hready r hopen hdue
  rw [exec_tickCheck hready hopen hdue, exec_pitchOverrun hready hopen hdue]
  refine ⟨fun hnone => ⟨if_neg (by rw [hnone]; simp), if_neg (by rw [hnone]; simp)⟩, fun hmiss hroom => ⟨?_, if_neg ?_⟩,
    fun hmiss hfull => ⟨if_neg ?_, fun hfirst => ?_, fun hother => if_neg ?_⟩⟩
  · exact if_pos ⟨hmiss, hroom⟩
  · exact fun hc => absurd hc.1 (Nat.not_le.mpr hroom)
  · exact fun hc => absurd hc.2 (Nat.not_lt.mpr hfull)
  · refine (if_pos ⟨hfull, hmiss, hfirst⟩).trans (congrArg _ (raiseCause_of_none ?_))
    rw [root_dev]
    exact hfirst
  · exact fun hc => hother hc.2.2

theorem releasesBeginTheDuePitch : Claims.ReleasesBeginTheDuePitch := by
  unfold Claims.ReleasesBeginTheDuePitch
  intro s i scrub ovl releases none_
  have hnone : s.holdOver i = false → s.nextPitch i = none → none_ := fun hhold hno => by
    refine ⟨?_, congrArg _ (releaseOf_of_none hhold hno), congrArg _ (releaseOf_of_none hhold hno), congrArg _ (releaseOf_of_none hhold hno)⟩
    rw [exec_tickRelease hhold, hno]
  refine ⟨fun hhold hbusy => hnone hhold (nextPitch_of_not_over hbusy), fun hhold hover => ⟨fun hfree hparks => ?_, fun hstop => ?_⟩, fun hhold => ?_⟩
  · have hgo : ¬ (((s.endPitch i).root i).stopped (!((s.endPitch i).job i).inStep)) = true := by
      rw [stopped_iff, Bool.not_eq_true']
      rintro (hcause | ⟨hboundary, hpark⟩)
      · exact hcause hfree
      · exact hpark (hparks hboundary)
    have hsome := (nextPitch_of_over hover).trans (if_neg hgo)
    refine ⟨?_, ?_, ?_, ?_⟩
    · rw [exec_tickRelease hhold, hsome]
      exact congrArg _ (openPitch_eq ..)
    · rw [exec_idlePitch, releaseOf_of_some hhold hsome, openPitch_eq]
      rfl
    · rw [exec_gatePitch, releaseOf_of_some hhold hsome, openPitch_eq]
      rfl
    · rw [exec_maintenancePitch, releaseOf_of_some hhold hsome, openPitch_eq]
      rfl
  · refine hnone hhold ((nextPitch_of_over hover).trans (if_pos ?_))
    rw [stopped_iff, Bool.not_eq_true']
    exact hstop
  · change execTickRelease i s = _
    unfold execTickRelease
    rw [if_pos hhold]
    exact congrArg _ (openPitch_eq ..)

/-- Settles O14: the checks and the releases of a tick go by the arrivals, the causes and the kind that is due. -/
theorem tickIssuesTheDuePitch : Obligations.TickIssuesTheDuePitch := ⟨tickStretchesAndOverruns, releasesBeginTheDuePitch⟩

end Sys2Proof.Proofs
end

section
/-! # Phase and region belays, and the step gate (R40, R252) -/

namespace Sys2Proof.Machine

variable {s : State} {i : SlabId}

/-- Every participant of the pitch has arrived at the phase belay. -/
def State.phaseArrived (s : State) (i : SlabId) : Prop :=
  ∀ k ∈ s.devSlabs i, ∀ p ∈ (s.slab k).participants, s.arrivedBy i k p 1 (s.rootCount i) = true

/-- Every member of a region has arrived at its belay. -/
def State.regionArrived (s : State) (i : SlabId) (ch : Nat) : Prop :=
  ∀ k ∈ s.devSlabs i, ∀ p ∈ s.regionMembers k ch, s.arrivedBy i k (p, (s.slab k).tile p.1 p.2) ch (s.rootCount i) = true

/-- The phase belay in an image pitch. -/
theorem exec_phaseBelayRelease (hready : s.rootReady i = true) (hopen : (s.root i).inHold = false) (hkind : (s.root i).kind = .image) :
    (¬ s.phaseArrived i → exec (.phaseBelayRelease i) s = .next s)
    ∧ (s.phaseArrived i → (∃ k ∈ s.devSlabs i, (s.slab k).participants ≠ []) →
        exec (.phaseBelayRelease i) s = .next ((s.modRoot i (fun r =>
            { r with phase := r.phase + 1, releases := r.releases + 1, releasedPhases := r.releasedPhases + 1
                     before := (r.pitch, r.phase, r.kind) })).releaseTiles i false
          (fun at_ t => { t with arrivals := t.arrivals.filter (fun a => decide (a.ch ≠ 1)), releasedAt := at_
                                 released := if t.entry.isSome then t.released ++ [{ ch := 1, seenAt := at_ }] else t.released }))) := by
  have hexec : exec (.phaseBelayRelease i) s = execPhaseBelayRelease i s := rfl
  unfold execPhaseBelayRelease at hexec
  simp only [hready, hopen, hkind, Bool.not_false, Bool.true_and, decide_true, Bool.and_eq_true, List.all_eq_true, List.any_eq_true,
    Bool.not_eq_true', List.isEmpty_eq_false_iff] at hexec
  rw [hexec]
  exact ⟨fun hmiss => if_neg fun hc => hmiss hc.1, fun hall hsome => if_pos ⟨hall, hsome⟩⟩

theorem exec_regionBelayRelease {ch : Fin 64} (hready : s.rootReady i = true) (hopen : (s.root i).inHold = false) (hch : 2 ≤ ch.val) :
    (¬ s.regionArrived i ch.val → exec (.regionBelayRelease i ch) s = .next s)
    ∧ (s.regionArrived i ch.val → (∃ k ∈ s.devSlabs i, s.regionMembers k ch.val ≠ []) →
        let b := if s.regionInField i ch.val then (0, 48) else releaseBounds s.shared.mode
        let z := (s.devSlabs i).foldl (fun z d => ((s.regionMembers d ch.val).zipIdx).foldl (fun z p =>
          z.modSlab d (fun sl => sl.modTile p.1.1 p.1.2 (fun t =>
            { t with arrivals := t.arrivals.filter (fun a => decide (a.ch ≠ ch))
                     released := t.released ++ [{ ch := ch, seenAt := sl.clocks.cycle
                       + (b.1 + Config.freeNat (s.free + p.2) % (b.2 - b.1 + 1)) }] }))) z) s
        ∃ n : Nat, exec (.regionBelayRelease i ch) s = .next { z with free := n }) := by
  have hwhen : (s.rootReady i && !(s.root i).inHold && decide (2 ≤ ch.val)
      && (s.devSlabs i).all (fun k => (s.regionMembers k ch.val).all (fun p => s.arrivedBy i k (p, (s.slab k).tile p.1 p.2) ch.val (s.rootCount i)))
      && (s.devSlabs i).any (fun k => !(s.regionMembers k ch.val).isEmpty)) = true
      ↔ s.regionArrived i ch.val ∧ ∃ k ∈ s.devSlabs i, s.regionMembers k ch.val ≠ [] := by
    simp only [hready, hopen, hch, Bool.not_false, Bool.true_and, decide_true, Bool.and_eq_true, List.all_eq_true, List.any_eq_true,
      Bool.not_eq_true', List.isEmpty_eq_false_iff, State.regionArrived]
  refine ⟨fun hmiss => if_neg fun hc => hmiss (hwhen.mp hc).1, fun hall hsome => ?_⟩
  exact ⟨_, if_pos (hwhen.mpr ⟨hall, hsome⟩)⟩

/-- The gate of the coming step, between two steps or in the last pitch of one. -/
theorem exec_stepGateMet (hready : (s.slab (s.dev i)).ready = true) (hfirmware : (s.slab (s.dev i)).camp.firmware = .running)
    (hjob : (s.job i).state = .running) (hlast : (s.job i).inStep = false ∨ s.stepPitches i ≤ (s.root i).indexInStep)
    (hclosed : (s.job i).gateMet = false) :
    exec (.stepGateMet i) s = if s.gateBlocks i = true ∧ s.feedsReady i = true then
        .next (if (s.job i).comingStep = 0 then s.modJob i (fun j => { j with gateMet := true })
          else (s.modJob i (fun j => { j with gateMet := true })).modLedger i ((s.job i).comingStep - 1) (fun r => { r with phases := r.phases ||| 8 }))
      else .next s := by
  have hend : (!(s.job i).inStep || decide (s.stepPitches i ≤ (s.root i).indexInStep)) = true := by
    rcases hlast with h | h <;> simp [h]
  change execStepGateMet i s = _
  unfold execStepGateMet
  simp only [hready, hfirmware, hjob, hend, hclosed, Bool.not_false, Bool.true_and, decide_true, Bool.and_eq_true]

end Sys2Proof.Machine

namespace Sys2Proof.Proofs

open Sys2Proof.Machine

theorem belaysReleaseOnceAllArrived : Claims.BelaysReleaseOnceAllArrived := by
  unfold Claims.BelaysReleaseOnceAllArrived
  intro s i hready hopen hkind there
  obtain ⟨hphaseWaits, hphase⟩ := exec_phaseBelayRelease hready hopen hkind
  refine ⟨fun ⟨k, hk, p, hp, hmiss⟩ => hphaseWaits fun hall => ?_, hphase, fun ch hch => ?_⟩
  · rw [hall k hk p hp] at hmiss
    exact Bool.noConfusion hmiss
  · obtain ⟨hregionWaits, hregion⟩ := exec_regionBelayRelease hready hopen hch
    exact ⟨fun ⟨k, hk, p, hp, hmiss⟩ => hregionWaits fun hall => hmiss (hall k hk p hp), hregion⟩

theorem stepGateOpensWhenItsConditionsHold : Claims.StepGateOpensWhenItsConditionsHold := by
  unfold Claims.StepGateOpensWhenItsConditionsHold
  intro s i hready hfirmware hjob hlast hclosed
  rw [exec_stepGateMet hready hfirmware hjob hlast hclosed]
  refine ⟨fun hwait => if_neg fun hc => ?_, fun hblocks hfeeds => if_pos ⟨hblocks, hfeeds⟩⟩
  rcases hwait with h | h
  · exact absurd hc.1 (by rw [h]; decide)
  · exact absurd hc.2 (by rw [h]; decide)

/-- Settles O15: a belay is released by the arrivals of all its members, and the gate opens by its two conditions. -/
theorem belaysAndTheStepGateOpen : Obligations.BelaysAndTheStepGateOpen := ⟨belaysReleaseOnceAllArrived, stepGateOpensWhenItsConditionsHold⟩

end Sys2Proof.Proofs
end

section
/-! # Holds (R46, R59, R118, R178, R343, R355) -/

namespace Sys2Proof.Machine

variable {s : State} {i : SlabId}

/-! ## Requests -/

/-- A request whose cause is neither at the root nor parked. -/
theorem exec_holdRequest {code : HoldCode} {u : Fin 24} {x : Option (Fin 24)} (hready : (s.slab i).ready = true)
    (hfirmware : (s.slab i).camp.firmware = .running) (hx : x = if code = .forcedStop then none else some u)
    (hfresh : ∀ c ∈ (s.root i).causes ++ (s.root i).parks, ¬ (c.code = holdCodeByte code ∧ c.slab = i ∧ c.unit = x))
    (hcause : match code with
      | .stackPark => ((s.slab i).stack u.val).critical = true ∧ ((s.slab i).stack u.val).state = .good
      | .stackFailure => ((s.slab i).stack u.val).state = .failed
      | .controllerLost => ((s.slab i).stack u.val).state = .controllerLost
      | .forcedStop => (s.job i).stopAsked = true
      | _ => True) :
    exec (.holdRequest i code u) s = .next (if code = .stackPark then s.requestPark i u else s.raise i (holdCodeByte code) x) := by
  have hnew : ((s.root i).causes ++ (s.root i).parks).any (fun c => decide (c.code = (holdCodeByte code)) && decide (c.slab = i)
      && decide (c.unit = x)) = false := by
    rw [List.any_eq_false]
    intro c hc
    simpa only [Bool.and_eq_true, decide_eq_true_eq, and_assoc] using hfresh c hc
  change execHoldRequest i code u s = _
  unfold execHoldRequest
  simp only [hready, hfirmware, ← hx, hnew]
  cases code <;> simp only at hcause <;> simp [hcause]

/-! ## Entry -/

theorem exec_holdEntry (hready : (s.slab (s.dev i)).ready = true) (hrun : (s.root i).running = true) (hopen : (s.root i).inHold = false) :
    exec (.holdEntry i) s =
      if (s.root i).causes = [] then
        if (s.root i).parks = [] then .next s
        else if s.pitchOver i = true then
          if ((s.endPitch i).job i).inStep = true then .next s else .next ((s.endPitch i).enterHold i .gate false)
        else .next s
      else .next (s.enterHold i (s.root i).kind (s.root i).midStep) := by
  change execHoldEntry i s = _
  unfold execHoldEntry
  simp only [hready, hrun, hopen, Bool.not_true, Bool.false_or, Bool.and_eq_true, List.isEmpty_iff]
  by_cases hcauses : (s.root i).causes = []
  · by_cases hparks : (s.root i).parks = []
    · simp [hcauses, hparks]
    · simp [hcauses, hparks]
  · simp [hcauses]

/-! ## A tile in a hold -/

theorem seq_mapSeqs (t : Tile) (f : Sequencer → Sequencer) (q : SeqId) : (t.mapSeqs f).seq q = f (t.seq q) := by cases q <;> rfl

/-- What a hold makes of a sequencer. -/
def Sequencer.stopped (q : Sequencer) (start now : Nat) (failed : Bool) : Sequencer :=
  let x := q.settleSlip start now
  if x.loaded && !failed then { x with state := .held, late := none, locked := none } else x

theorem seq_hold (t : Tile) (now n : Nat) (q : SeqId) : (t.hold now n).seq q = (t.seq q).stopped t.localStart now t.failed := by
  unfold Tile.hold
  dsimp only
  split <;> cases q <;> rfl

theorem stopped_keeps (q : Sequencer) (start now : Nat) (failed : Bool) (h : q.loaded = true) :
    (failed = false → (q.stopped start now failed).state = .held) ∧ (failed = true → (q.stopped start now failed).state = q.state)
      ∧ (q.stopped start now failed).pc = q.pc := by
  have hslip := settleSlip_eq q start now
  have hloaded : (q.settleSlip start now).loaded = true := (congrArg Sequencer.loaded hslip).trans h
  have hstate : (q.settleSlip start now).state = q.state := (congrArg Sequencer.state hslip).trans rfl
  have hpc : (q.settleSlip start now).pc = q.pc := (congrArg Sequencer.pc hslip).trans rfl
  unfold Sequencer.stopped
  cases failed <;> simp [hloaded, hstate, hpc]

/-- What a hold leaves of the rest of a tile. -/
theorem hold_rest (t : Tile) (now n : Nat) : let h := t.hold now n
    h.matrix.queue = [] ∧ h.vector.queue = [] ∧ h.port.queue = [] ∧ h.fills = [] ∧ h.sends = [] ∧ h.arrivals = []
      ∧ h.scratch = t.scratch ∧ h.overlay = t.overlay ∧ h.router.inputs = t.router.inputs := by
  unfold Tile.hold
  dsimp only
  split <;> exact ⟨rfl, rfl, rfl, rfl, rfl, rfl, rfl, rfl, rfl⟩

/-! ## Empty routers and recovery -/

/-- Every router has delivered what it can. -/
theorem exec_routersEmpty (hready : s.rootReady i = true) (hhold : (s.root i).inHold = true) (hfull : (s.root i).routersEmpty = false)
    (hdone : ∀ k ∈ s.devSlabs i, ∀ p ∈ (s.slab k).tiles, let t := tileId k p.1.1 p.1.2
      s.routerDead t = true ∨ p.2.router.eject = [] ∧ ∀ f ∈ p.2.router.flits, s.discarded t f = true) :
    exec (.routersEmpty i) s = .next ((s.modDev i (fun sl => sl.mapTiles (fun _ _ t => t.emptyRouter))).modRoot i (fun r =>
      { r with routersEmpty := true })) := by
  change execRoutersEmpty i s = _
  unfold execRoutersEmpty
  refine if_pos ?_
  simp only [hready, hhold, hfull, Bool.not_false, Bool.true_and, List.all_eq_true, Bool.or_eq_true, Bool.and_eq_true, List.isEmpty_iff]
  exact hdone

theorem exec_holdRecovery (hrecover : s.canRecover i = true) :
    exec (.holdRecovery i) s =
      if (s.root i).causes ≠ [] ∨ (s.root i).takenOver = false then .next (s.recover i)
      else if s.holdOver i = true then .next (s.endHold i [] []) else .next s := by
  change execHoldRecovery i s = _
  unfold execHoldRecovery
  simp only [hrecover, Bool.not_true, Bool.false_eq_true, if_false, Bool.or_eq_true, Bool.not_eq_true', List.isEmpty_eq_false_iff, ne_eq]

theorem root_recover (s : State) (i : SlabId) : ((s.recover i).root i).causes = [] ∧ ((s.recover i).root i).takenOver = true := by
  unfold State.recover
  dsimp only
  rw [root_modRoot]
  exact ⟨rfl, rfl⟩

end Sys2Proof.Machine

namespace Sys2Proof.Proofs

open Sys2Proof.Machine

theorem causesEnterAHold : Claims.CausesEnterAHold := by
  unfold Claims.CausesEnterAHold
  refine ⟨fun s i u hready hfirmware => ?requests, fun s i hready hrun hopen => ?entry, fun t now n q hloaded => ?tile⟩
  case requests =>
    intro st fresh
    refine ⟨fun h => ?_, fun h hcrit hgood => ?_, fun h hfailed => ?_, fun h hlost => ?_, fun h => ?_, fun h => ?_, fun h hstop => ?_⟩
    · exact exec_holdRequest hready hfirmware rfl h trivial
    · exact exec_holdRequest hready hfirmware rfl h ⟨hcrit, hgood⟩
    · exact exec_holdRequest hready hfirmware rfl h hfailed
    · exact exec_holdRequest hready hfirmware rfl h hlost
    · exact exec_holdRequest hready hfirmware rfl h trivial
    · exact exec_holdRequest hready hfirmware rfl h trivial
    · exact exec_holdRequest hready hfirmware rfl h hstop
  case entry =>
    rw [exec_holdEntry hready hrun hopen]
    refine ⟨fun hcauses hparks => ?_, fun hcauses => if_neg hcauses, fun hcauses hparks => ?_⟩
    · rw [if_pos hcauses, if_pos hparks]
    · rw [if_pos hcauses, if_neg hparks]
      refine ⟨fun hbusy => if_neg (by rw [hbusy]; decide), fun hover hbetween => ?_⟩
      rw [if_pos hover, if_neg (by rw [hbetween]; decide)]
  case tile =>
    intro h
    have hseq : h.seq q = _ := seq_hold t now n q
    obtain ⟨hheld, hkept, hpc⟩ := stopped_keeps (t.seq q) t.localStart now t.failed hloaded
    rw [hseq]
    refine ⟨hheld, hkept, hpc, ?_⟩
    exact hold_rest t now n

theorem holdsEmptyRoutersAndRecover : Claims.HoldsEmptyRoutersAndRecover := by
  unfold Claims.HoldsEmptyRoutersAndRecover
  intro s i hready hhold
  refine ⟨fun hfull hdone => ?_, fun hno => ?_, fun hrecover hleft => ?_, fun hrecover hcauses htaken hprimed => ?_⟩
  · exact exec_routersEmpty hready hhold hfull hdone
  · change execHoldRecovery i s = _
    unfold execHoldRecovery
    rw [hno]
    rfl
  · refine ⟨s.recover i, ?_, rfl, root_recover s i⟩
    rw [exec_holdRecovery hrecover]
    exact if_pos hleft
  · intro z
    have hover : s.holdOver i = true := by simp [State.holdOver, hready, hhold, hcauses, htaken, hprimed]
    refine ⟨s.endHold i [] [], ?_, if_pos hover, openPitch_eq ..⟩
    rw [exec_holdRecovery hrecover, if_neg (by simp [hcauses, htaken]), if_pos hover]

/-- Settles O16: requests, entry and recovery of a hold are equations of the root, and each sequencer is stopped alone. -/
theorem holdsAreEnteredAndLeft : Obligations.HoldsAreEnteredAndLeft := ⟨causesEnterAHold, holdsEmptyRoutersAndRecover⟩

end Sys2Proof.Proofs
end

section
/-! # Parity deltas (R209, R210) -/

namespace Sys2Proof.Machine

variable {s : State} {i : SlabId}

theorem readN_length (m : Cells) (a n : Nat) : (Cells.readN m a n).length = n := by
  induction n generalizing a with
  | zero => rfl
  | succ n ih => exact congrArg Nat.succ (ih (a + 1))

theorem readN_getElem? (m : Cells) (a n j : Nat) (h : j < n) : (Cells.readN m a n)[j]? = some (Cells.read m (a + j)) := by
  induction n generalizing a j with
  | zero => omega
  | succ n ih =>
    cases j with
    | zero => rfl
    | succ j =>
      have hplace : a + (j + 1) = a + 1 + j := by omega
      rw [hplace]
      exact ih (a + 1) j (by omega)

theorem sectorBytes_length (v : BitVec 256) : (sectorBytes v).length = 32 := leBytes_length ..

theorem sectorBytes_getElem? (v : BitVec 256) {j : Nat} (h : j < 32) : (sectorBytes v)[j]? = some (v.extractLsb' (8 * j) 8) := by
  have hpow : 256 ^ j = 2 ^ (8 * j) := by rw [Nat.pow_mul]
  rw [sectorBytes, leBytes_getElem? _ _ _ h, hpow, ← Nat.shiftRight_eq_div_pow]
  rfl

theorem sectorBytes_sectorOf {bs : List Byte} (h : bs.length = 32) : sectorBytes (sectorOf bs) = bs := by
  have hlt : leNat bs < 2 ^ 256 := by
    have hbound := leNat_lt bs
    rwa [h] at hbound
  have htake : bs.take 32 = bs := List.take_of_length_le (by omega)
  rw [sectorBytes, sectorOf, htake, BitVec.toNat_ofNat, Nat.mod_eq_of_lt hlt]
  calc leBytes (leNat bs) 32 = leBytes (leNat bs) bs.length := by rw [h]
    _ = bs := leBytes_leNat bs

/-- Byte by byte, the exclusive or of a sector of memory with a delta. -/
theorem read_xor_sector (m : Cells) (a : Nat) (d : BitVec 256) {j : Nat} (h : j < 32) :
    Cells.read (Cells.writeN m a (sectorBytes (sectorOf (Cells.readN m a 32) ^^^ d))) (a + j)
      = Cells.read m (a + j) ^^^ d.extractLsb' (8 * j) 8 := by
  have hold : (sectorOf (Cells.readN m a 32)).extractLsb' (8 * j) 8 = Cells.read m (a + j) := by
    have hbyte := sectorBytes_getElem? (sectorOf (Cells.readN m a 32)) h
    rw [sectorBytes_sectorOf (readN_length ..), readN_getElem? _ _ _ _ h] at hbyte
    exact (Option.some.inj hbyte).symm
  rw [Cells.read_writeN, if_pos (Nat.le_add_right a j), Nat.add_sub_cancel_left, sectorBytes_getElem? _ h, BitVec.extractLsb'_xor, hold]
  rfl

theorem read_writeN_sector_outside (m : Cells) (a x : Nat) (v : BitVec 256) (h : x < a ∨ a + 32 ≤ x) :
    Cells.read (Cells.writeN m a (sectorBytes v)) x = Cells.read m x :=
  Cells.read_writeN_outside m a x _ (by rwa [sectorBytes_length])

/-- A delta exclusive-ored into its sector of a parity frame. -/
def Slab.takeDelta (sl : Slab) (u : Nat) (d : Delta) : Slab :=
  let a := shelfAddr u d.frame (32 * d.sector)
  let old := sectorOf (Cells.readN sl.mem.shelf a 32)
  sl.modMem (fun m => { m with shelf := Cells.writeN m.shelf a (sectorBytes (old ^^^ d.delta)) })

/-- A slab takes the oldest delta of a stack: into the parity frame, or nowhere. -/
def Slab.tookDelta (sl : Slab) (u : Nat) (d : Delta) (rest : List Delta) : Slab :=
  let sl := sl.modStack u (fun st => { st with deltas := rest })
  if !sl.stackUp u || decide (alookup d.frame sl.mem.stripes ≠ some .parity) then sl else sl.takeDelta u d

theorem exec_parityDelta {u : Fin 24} {d : Delta} {rest : List Delta} (hready : (s.slab i).ready = true)
    (hd : ((s.slab i).stack u.val).deltas = d :: rest) :
    exec (.parityDelta i u) s = .next (s.modSlab i (fun sl => sl.tookDelta u.val d rest)) := by
  change execParityDelta i u s = _
  unfold execParityDelta
  dsimp only
  rw [if_pos hready, hd]
  rfl

variable {sl : Slab} {u : Nat} {d : Delta} {rest : List Delta}

theorem tookDelta_of_bare (h : alookup d.frame sl.mem.stripes ≠ some .parity) :
    sl.tookDelta u d rest = sl.modStack u (fun st => { st with deltas := rest }) := by
  refine if_pos ?_
  rw [Slab.modStack_mem, decide_eq_true h, Bool.or_true]

theorem tookDelta_of_parity (hup : sl.stackUp u = true) (h : alookup d.frame sl.mem.stripes = some .parity) :
    sl.tookDelta u d rest = (sl.modStack u (fun st => { st with deltas := rest })).takeDelta u d := by
  have hstands : (sl.modStack u (fun st => { st with deltas := rest })).stackUp u = true := by
    unfold Slab.stackUp at hup ⊢
    rw [Slab.stack_modStack_self]
    exact hup
  refine if_neg ?_
  rw [hstands, Slab.modStack_mem, h]
  decide

end Sys2Proof.Machine

namespace Sys2Proof.Proofs

open Sys2Proof.Machine

/-- Settles O17: the delta is a write of one sector, which each of its bytes meets alone. -/
theorem parityTakesItsDeltas : Obligations.ParityTakesItsDeltas := by
  unfold Obligations.ParityTakesItsDeltas
  intro s i u d rest hready hd
  rw [exec_parityDelta hready hd]
  refine ⟨fun hbare => congrArg _ (modSlab_congr s i (tookDelta_of_bare hbare)), fun hup hparity => ⟨_, rfl, ?_⟩⟩
  rw [slab_modSlab_self, tookDelta_of_parity hup hparity, slab_modSlab_other s (by cases i <;> nofun)]
  refine ⟨?_, fun j hj => read_xor_sector _ _ _ hj, fun a ha => read_writeN_sector_outside _ _ _ _ ha, rfl, rfl, rfl⟩
  change (((s.slab i).modStack u.val (fun st => { st with deltas := rest })).stack u.val).deltas = rest
  rw [Slab.stack_modStack_self]

end Sys2Proof.Proofs
end

section
/-! # PERST_N and the loss of the reference (R421, R445, Table 18.2)

Both events work slab by slab. A torn block keeps the slab's power, and a reset of the PCIe side keeps all of a slab but
its job and base camp's operations, which a projection lemma for each says once. -/

namespace Sys2Proof.Machine

/-! ## What both slabs take alike -/

theorem slab_modSlab_both (s : State) (f : Slab → Slab) (k : SlabId) : ((s.modSlab .s0 f).modSlab .s1 f).slab k = f (s.slab k) := by
  cases k <;> rfl

/-- What a reset of the PCIe side keeps: whatever of a slab depends neither on its job nor on base camp's operations. -/
theorem slab_pcieReset_proj {α : Type} (p : Slab → α) (hcamp : ∀ sl : Slab, p (sl.modCamp Camp.dropOperations) = p sl)
    (hjob : ∀ (sl : Slab) (g : Job → Job), p (sl.modJob g) = p sl) (s : State) (fn k : SlabId) :
    p ((s.pcieReset fn).slab k) = p (s.slab k) := by
  have hslab : p (((s.modFunc fn Func.pcieReset).modSlab fn (fun sl => sl.modCamp Camp.dropOperations)).slab k) = p (s.slab k) := by
    rw [slab_modSlab_proj p hcamp]
    simp
  unfold State.pcieReset State.withdrawTestPause
  dsimp only
  split
  · rw [State.setJobState, slab_event, State.modJob, slab_modSlab_proj p (hjob · _)]
    exact hslab
  · exact hslab

theorem slab_loseLink_proj {α : Type} (p : Slab → α) (hcamp : ∀ sl : Slab, p (sl.modCamp Camp.dropOperations) = p sl)
    (hjob : ∀ (sl : Slab) (g : Job → Job), p (sl.modJob g) = p sl) (s : State) (k : SlabId) : p (s.loseLink.slab k) = p (s.slab k) := by
  unfold State.loseLink
  split
  · rw [slab_pcieReset_proj p hcamp hjob, slab_pcieReset_proj p hcamp hjob]
    rfl
  · rfl

theorem shared_pcieReset (s : State) (fn : SlabId) : (s.pcieReset fn).shared = s.shared := by
  unfold State.pcieReset State.withdrawTestPause
  extract_lets
  split <;> simp [State.setJobState, State.modJob]

theorem shared_loseLink (s : State) : s.loseLink.shared = { s.shared with linkUp := false } := by
  unfold State.loseLink
  split
  case isTrue => rw [shared_pcieReset, shared_pcieReset]
  case isFalse hdown => rw [← Bool.eq_false_iff.mpr hdown]

/-! ## A torn block and the slabs' power and clocks -/

/-- What the memories' writes leave alone. -/
def Slab.supply (sl : Slab) : Bool × Clocks := (sl.powered, sl.clocks)

theorem supply_slabAddWork (sl : Slab) (k : Nat) (w : ShelfWork) : (sl.addWork k w).supply = sl.supply := by
  unfold Slab.addWork
  split <;> rfl

theorem supply_sendDelta (sl : Slab) (f k : Nat) (d : BitVec 256) : (sl.sendDelta f k d).supply = sl.supply := by
  unfold Slab.sendDelta
  dsimp only
  split
  · rfl
  · exact supply_slabAddWork ..

theorem supply_putShelf (sl : Slab) (k f n : Nat) (v : BitVec 256) : (sl.putShelf k f n v).supply = sl.supply := by
  have hdelta (o : Option (BitVec 256)) : (match o with | none => sl | some old => sl.sendDelta f n (old ^^^ v)).supply = sl.supply := by
    cases o
    · rfl
    · exact supply_sendDelta ..
  unfold Slab.putShelf
  dsimp only
  split <;> exact hdelta _

theorem supply_putSector (sl : Slab) (k f n : Nat) (v : BitVec 256) : (sl.putSector k f n v).supply = sl.supply := by
  unfold Slab.putSector
  split
  · rfl
  · exact supply_putShelf ..

theorem supply_putHome (sl : Slab) (k f o : Nat) (bs : List Byte) : (sl.putHome k f o bs).supply = sl.supply := by
  unfold Slab.putHome
  induction sl.mergeSectors k f o bs generalizing sl with
  | nil => rfl
  | cons p ps ih => rw [List.foldl_cons, ih, supply_putSector]

theorem supply_writeRange (s : State) (i k : SlabId) (a : Nat) (bs : List Byte) : ((s.writeRange i a bs).slab k).supply = (s.slab k).supply := by
  unfold State.writeRange
  induction pieces a bs.length generalizing s with
  | nil => rfl
  | cons p ps ih =>
    rw [List.foldl_cons, ih]
    split
    · rfl
    · exact slab_modSlab_proj Slab.supply (fun sl => supply_putHome sl _ _ _ _) ..

theorem supply_addWork (s : State) (i k : SlabId) (a n : Nat) (cls : ShareClass) (unit : Bool) (owner : Option (Nat × Nat)) :
    ((s.addWork i a n cls unit owner).slab k).supply = (s.slab k).supply := by
  unfold State.addWork
  induction pieces a n generalizing s with
  | nil => rfl
  | cons p ps ih =>
    rw [List.foldl_cons, ih]
    split
    · rfl
    · exact slab_modSlab_proj Slab.supply (fun sl => supply_slabAddWork sl _ _) ..

theorem supply_tear (s : State) (i k : SlabId) (u f j : Nat) : ((s.tear i u f j).slab k).supply = (s.slab k).supply := by
  unfold State.tear
  split
  case h_1 => rfl
  case h_2 o b r hnext =>
    dsimp only
    refine (slab_modSlab_proj Slab.supply (fun sl => ?_) _ _ _).trans ?_
    · rfl
    clear hnext
    generalize partialWrites o.update.rule (s.computeBlock i o b r).1 o f j = ws
    induction ws generalizing s with
    | nil => rfl
    | cons w ws ih => rw [List.foldl_cons, ih, State.unitWrite, supply_addWork, supply_writeRange]

/-- The blocks that the units were writing when the reference was lost. -/
def State.tearAll (s : State) (torn : List (SlabId × Fin 24 × Nat × Nat)) : State :=
  torn.foldl (fun s x => if (s.slab x.1).ready then s.tear x.1 x.2.1.val x.2.2.1 x.2.2.2 else s) s

theorem supply_tearAll (s : State) (torn : List (SlabId × Fin 24 × Nat × Nat)) (k : SlabId) :
    ((s.tearAll torn).slab k).supply = (s.slab k).supply := by
  unfold State.tearAll
  induction torn generalizing s with
  | nil => rfl
  | cons x xs ih =>
    rw [List.foldl_cons, ih]
    split
    · exact supply_tear ..
    · rfl

/-! ## The two events -/

/-- A slab whose reference is lost: in its safe state, base camp's firmware stopped. -/
def Slab.stopped (sl : Slab) : Slab :=
  if sl.powered then ({ sl.safeState with clocks := { sl.safeState.clocks with lost := true } } : Slab).modCamp (fun c => c.stopClocks) else sl

theorem stack_selfRefresh_stopped {sl : Slab} (hp : sl.powered = true) {u : Nat} (hu : u < 24) : (sl.stopped.stack u).selfRefresh = true := by
  rw [Slab.stopped, if_pos hp]
  simp [Slab.stack, Slab.safeState, Slab.modCamp, Slab.count, stacks24, agetD, alookup_map_of_mem _ (List.mem_range.mpr hu)]

theorem exec_referenceLoss {s : State} (torn : List (SlabId × Fin 24 × Nat × Nat)) (h : s.shared.reference = true) :
    ∃ z : State, exec (.referenceLoss torn) s = .next z.loseLink ∧ z.shared.reference = false
      ∧ ∀ k, z.slab k = ((s.tearAll torn).slab k).stopped := by
  refine ⟨_, by change execReferenceLoss torn s = _; unfold execReferenceLoss; rw [h]; rfl, rfl, fun k => ?_⟩
  cases k <;> rfl

theorem slab_perstNAssert (s : State) :
    ∃ t, exec .perstNAssert s = .next t ∧ (∀ k, t.slab k = (s.slab k).cold) ∧ t.pending = s.pending ∧ t.hostMem = s.hostMem
      ∧ t.fn0 = .reset ∧ t.fn1 = .reset
      ∧ t.shared = { s.shared with perstN := false, linkUp := false, thermtripN := true, alertN := true, setMode := none, colLanes := []
                                   belayPairs := [], belayLane := none, crossings := [], gate := 1, counters := [] } :=
  ⟨_, rfl, fun k => by cases k <;> rfl, rfl, rfl, rfl, rfl, rfl⟩

theorem field_cold (sl : Slab) (n : Nat) :
    (sl.cold.field n).powered = (sl.field n).powered ∧ (sl.cold.field n).fuseOpen = (sl.field n).fuseOpen := by
  simp only [Slab.cold, Slab.field, agetD, alookup_map_snd]
  cases alookup n sl.fields <;> exact ⟨rfl, rfl⟩

/-- A slab of whose ports the seated cables alone are left. -/
theorem port_of_cables {sl x : Slab} (h : x.ports = sl.ports.map (fun p => (p.1, { Port.reset with cable := p.2.cable }))) (p : Nat) :
    (x.port p).cable = (sl.port p).cable ∧ (x.port p).up = false ∧ (x.port p).enabled = false := by
  have hport : x.port p = ((alookup p sl.ports).map (fun q => { Port.reset with cable := q.cable })).getD .reset := by
    rw [Slab.port, agetD, h]
    exact congrArg (·.getD .reset) (alookup_map_snd (fun q => { Port.reset with cable := q.cable }) p sl.ports)
  rw [hport, Slab.port, agetD]
  cases alookup p sl.ports <;> exact ⟨rfl, rfl, rfl⟩

end Sys2Proof.Machine

namespace Sys2Proof.Proofs

open Sys2Proof.Machine

/-- Settles O44: both events act on each slab alone, and the lost link touches only its job and base camp's operations. -/
theorem resetAndReferenceLossStopTheSlabs : Obligations.ResetAndReferenceLossStopTheSlabs := by
  unfold Obligations.ResetAndReferenceLossStopTheSlabs
  intro s torn
  refine ⟨?_, fun hlost => by change execReferenceLoss torn s = _; unfold execReferenceLoss; rw [hlost]; rfl, fun href => ?_⟩
  · obtain ⟨t, hexec, hslab, hpending, hhost, hfn0, hfn1, hshared⟩ := slab_perstNAssert s
    refine ⟨t, hexec, hpending, hhost, hfn0, hfn1, by rw [hshared], by rw [hshared], by rw [hshared], by rw [hshared], by rw [hshared],
      by rw [hshared], by rw [hshared], fun k => ?_⟩
    rw [hslab k]
    exact ⟨rfl, rfl, rfl, rfl, rfl, rfl, rfl, rfl, rfl, rfl, rfl, field_cold _, port_of_cables rfl⟩
  · obtain ⟨z, hexec, hreference, hslab⟩ := exec_referenceLoss torn href
    refine ⟨z.loseLink, hexec, by rw [shared_loseLink]; exact hreference, by rw [shared_loseLink], fun k hp => ?_⟩
    have hpower : ((s.tearAll torn).slab k).powered = true := (congrArg Prod.fst (supply_tearAll s torn k)).trans hp
    have hstop : z.slab k = (({ ((s.tearAll torn).slab k).safeState with
        clocks := { ((s.tearAll torn).slab k).safeState.clocks with lost := true } } : Slab).modCamp (fun c => c.stopClocks)) := by
      rw [hslab k, Slab.stopped, if_pos hpower]
    refine ⟨?_, ?_, ?_, ?_, fun u hu => ?_, fun htorn => ?_⟩
    · rw [slab_loseLink_proj (·.clocks.running) (fun _ => rfl) (fun _ _ => rfl), hstop]; rfl
    · rw [slab_loseLink_proj (·.clocks.locking) (fun _ => rfl) (fun _ _ => rfl), hstop]; rfl
    · rw [slab_loseLink_proj (·.clocks.lost) (fun _ => rfl) (fun _ _ => rfl), hstop]; rfl
    · rw [slab_loseLink_proj (·.camp.firmware) (fun _ => rfl) (fun _ _ => rfl), hstop]; rfl
    · rw [slab_loseLink_proj (fun sl => (sl.stack u).selfRefresh) (fun _ => rfl) (fun _ _ => rfl), hslab k]
      exact stack_selfRefresh_stopped hpower hu
    · subst htorn
      refine ⟨?_, ?_, ?_, ?_⟩
      · rw [slab_loseLink_proj Slab.tiles (fun _ => rfl) (fun _ _ => rfl), hstop]; rfl
      · rw [slab_loseLink_proj Slab.mem (fun _ => rfl) (fun _ _ => rfl), hstop]; rfl
      · rw [slab_loseLink_proj (·.camp.ledger) (fun _ => rfl) (fun _ _ => rfl), hstop]; rfl
      · rw [slab_loseLink_proj (·.camp.faultLog) (fun _ => rfl) (fun _ _ => rfl), hstop]; rfl

end Sys2Proof.Proofs
end

section
/-! # The root PLLs (R33, R421, R442 to R445, R464)

The lock counts of both slabs start together, a lock and an excursion act on one slab. -/

namespace Sys2Proof.Machine

/-! ## The lock counts -/

/-- The lock count of a powered slab whose clocks stand. -/
def Slab.startLock (sl : Slab) : Slab :=
  if sl.powered && !sl.clocks.running then { sl with clocks := { sl.clocks with lost := false, locking := true } } else sl

/-- A slab that the reference's return reaches. -/
def Slab.referenceBack (sl : Slab) : Slab := { sl with clocks := { sl.clocks with lost := false } }

theorem slab_startLocks (s : State) (k : SlabId) :
    s.startLocks.slab k
      = if s.shared.perstN && s.shared.converters && s.shared.reference then (s.slab k).startLock else s.slab k := by
  unfold State.startLocks
  split
  · exact slab_modSlab_both s Slab.startLock k
  · rfl

theorem shared_startLocks (s : State) : s.startLocks.shared = s.shared := by
  unfold State.startLocks
  split <;> rfl

theorem startLock_of_unpowered {sl : Slab} (h : sl.powered = false) : sl.startLock = sl := by
  unfold Slab.startLock
  rw [h]
  rfl

theorem locking_startLock {sl : Slab} (hp : sl.powered = true) (hr : sl.clocks.running = false) : sl.startLock.clocks.locking = true := by
  rw [Slab.startLock, hp, hr]
  rfl

theorem running_startLock (sl : Slab) : sl.startLock.clocks.running = sl.clocks.running := by
  unfold Slab.startLock
  split <;> rfl

theorem lost_startLock {sl : Slab} (h : sl.clocks.lost = false) : sl.startLock.clocks.lost = false := by
  unfold Slab.startLock
  split
  · rfl
  · exact h

theorem exec_perstNDeassert_of_high {s : State} (h : s.shared.perstN = true) : exec .perstNDeassert s = .next s := if_pos h

theorem exec_perstNDeassert_of_low {s : State} (h : s.shared.perstN = false) :
    exec .perstNDeassert s = .next (State.startLocks { s with shared := { s.shared with perstN := true } }) :=
  if_neg (Bool.eq_false_iff.mp h)

theorem exec_referenceDetectClear_of_kept {s : State} (h : s.shared.reference = true) : exec .referenceDetectClear s = .next s := if_pos h

theorem exec_referenceDetectClear_of_lost {s : State} (h : s.shared.reference = false) :
    ∃ z : State, exec .referenceDetectClear s = .next z.startLocks ∧ z.shared = { s.shared with reference := true }
      ∧ ∀ k, z.slab k = (s.slab k).referenceBack :=
  ⟨_, if_neg (Bool.eq_false_iff.mp h), rfl, fun k => by cases k <;> rfl⟩

/-! ## One PLL -/

/-- A slab whose root PLL locks (R443). -/
def Slab.locked (sl : Slab) : Slab :=
  ({ sl with clocks := { sl.clocks with running := true, locking := false, lost := false, since := sl.clocks.cycle }
             stackList := sl.stackList.map (fun p => (p.1, { p.2 with selfRefresh := decide (p.2.state = .parked) })) } : Slab).modCamp
    (fun c => { c with firmware := .bootRom })

theorem exec_pllLock {s : State} {k : SlabId} (hp : (s.slab k).powered = true) (hl : (s.slab k).clocks.locking = true)
    (hn : s.shared.perstN = true) (hr : s.shared.reference = true) :
    exec (.pllLock k) s = .next (if (s.slab k).camp.restartCause ≠ 4 ∧ (s.root k).running then (s.modSlab k Slab.locked).relockHold k
      else s.modSlab k Slab.locked) := by
  change execPllLock k s = _
  unfold execPllLock
  extract_lets c
  rw [if_pos (by rw [hp, hl, hn, hr]; rfl)]
  have hcause : ((s.modSlab k Slab.locked).slab k).camp.restartCause = (s.slab k).camp.restartCause := by rw [slab_modSlab_self]; rfl
  rw [← hcause, ← root_of_roots (modSlab_roots s k Slab.locked) k]
  rfl

/-- A slab whose root PLL left its window (R444): in its safe state, its lock count begun afresh. -/
def Slab.relocking (sl : Slab) : Slab :=
  ({ sl.safeState with clocks := { sl.safeState.clocks with locking := true } } : Slab).modCamp (fun c => c.stopClocks)

/-- The blocks that the slab's units were writing when its PLL left its window. -/
def State.tearUnits (s : State) (k : SlabId) (torn : List (Fin 24 × Nat × Nat)) : State :=
  torn.foldl (fun s x => s.tear k x.1.val x.2.1 x.2.2) s

theorem supply_tearUnits (s : State) (i k : SlabId) (torn : List (Fin 24 × Nat × Nat)) :
    ((s.tearUnits i torn).slab k).supply = (s.slab k).supply := by
  unfold State.tearUnits
  induction torn generalizing s with
  | nil => rfl
  | cons x xs ih => rw [List.foldl_cons, ih, supply_tear]

theorem exec_pllPhaseExcursion {s : State} {k : SlabId} (torn : List (Fin 24 × Nat × Nat)) (h : (s.slab k).ready = true)
    (hr : s.shared.reference = true) :
    exec (.pllPhaseExcursion k torn) s = .next (
      let z := (s.tearUnits k torn).modSlab k Slab.relocking
      if z.shared.mode = .joined ∧ (z.slab k.other).ready then z.raise k 0x13 none else z) :=
  if_pos (by rw [h, hr]; rfl)

theorem stack_selfRefresh_relocking (sl : Slab) {u : Nat} (hu : u < 24) : (sl.relocking.stack u).selfRefresh = true := by
  simp [Slab.relocking, Slab.stack, Slab.safeState, Slab.modCamp, Slab.count, stacks24, agetD,
    alookup_map_of_mem _ (List.mem_range.mpr hu)]

/-- A cause changes nothing of a slab but its root. -/
theorem slab_raise_proj {α : Type} (p : Slab → α) (h : ∀ (sl : Slab) (g : Root → Root), p (sl.modRoot g) = p sl) (s : State) (i k : SlabId)
    (code : Byte) (u : Option (Fin 24)) : p ((s.raise i code u).slab k) = p (s.slab k) :=
  slab_modSlab_proj p (fun sl => h sl _) s _ k

theorem raise_unless_proj {α : Type} (p : Slab → α) (h : ∀ (sl : Slab) (g : Root → Root), p (sl.modRoot g) = p sl) (s : State) (i k : SlabId)
    (c : Prop) [Decidable c] (code : Byte) : p ((if c then s.raise i code none else s).slab k) = p (s.slab k) := by
  split
  · exact slab_raise_proj p h ..
  · rfl

end Sys2Proof.Machine

namespace Sys2Proof.Proofs

open Sys2Proof.Machine

/-- Settles O45: each event gates on its own condition, and the lock counts, the lock and the excursion act slab by slab. -/
theorem locksStartTheClocks : Obligations.LocksStartTheClocks := by
  unfold Obligations.LocksStartTheClocks
  intro s k torn
  refine ⟨exec_perstNDeassert_of_high, fun hlow => ⟨_, exec_perstNDeassert_of_low hlow, ?_, ?_, ?_, ?_⟩, exec_referenceDetectClear_of_kept,
    fun hlost => ?_, fun hl => if_pos hl, fun hl => ⟨if_neg (Bool.eq_false_iff.mp hl), if_neg ?_⟩, fun hp hl hn hr => ?_, fun h hr => ?_,
    fun h => if_neg (by rw [h]; exact Bool.false_ne_true)⟩
  · rw [shared_startLocks]
  · rw [slab_startLocks]
    split
    · exact running_startLock _
    · rfl
  · intro hc hr hp hrun
    rw [slab_startLocks, if_pos (by rw [hc, hr]; rfl)]
    exact locking_startLock hp hrun
  · intro hbad
    rw [slab_startLocks]
    split
    case isFalse => rfl
    case isTrue hgood =>
      simp only [Bool.and_eq_true] at hgood
      obtain ⟨⟨-, hc⟩, hr⟩ := hgood
      rcases hbad with h | h | h
      · exact absurd hc (Bool.eq_false_iff.mp h)
      · exact absurd hr (Bool.eq_false_iff.mp h)
      · exact startLock_of_unpowered h
  · obtain ⟨z, hexec, hshared, hslab⟩ := exec_referenceDetectClear_of_lost hlost
    refine ⟨_, hexec, by rw [shared_startLocks, hshared], ?_, fun hn hc hp hrun => ?_⟩
    · rw [slab_startLocks, hslab k]
      split
      · exact lost_startLock rfl
      · rfl
    · rw [slab_startLocks, if_pos (by rw [hshared, hn, hc]; rfl), hslab k]
      exact locking_startLock hp hrun
  · rw [hl, Bool.and_false]
    exact Bool.false_ne_true
  · refine ⟨s.modSlab k Slab.locked, by rw [slab_modSlab_self]; rfl, by rw [slab_modSlab_self]; rfl, ?_, shared_modSlab .., by rw [slab_modSlab_self]; rfl,
      by rw [slab_modSlab_self]; rfl, by rw [slab_modSlab_self]; rfl, fun hcold => ?_, fun hwarm hrun => ?_⟩
    · cases k <;> rfl
    · rw [exec_pllLock hp hl hn hr, if_neg]
      rintro ⟨hne, hrun⟩
      rcases hcold with h | h
      · exact hne h
      · exact absurd hrun (Bool.eq_false_iff.mp h)
    · rw [exec_pllLock hp hl hn hr, if_pos ⟨hwarm, hrun⟩]
  · have hself : ((s.tearUnits k torn).modSlab k Slab.relocking).slab k = ((s.tearUnits k torn).slab k).relocking := slab_modSlab_self ..
    have hother : ((s.tearUnits k torn).modSlab k Slab.relocking).slab k.other = (s.tearUnits k torn).slab k.other :=
      slab_modSlab_other _ (by cases k <;> exact SlabId.noConfusion) _
    refine ⟨_, exec_pllPhaseExcursion torn h hr, ?_, ?_, ?_, fun u hu => ?_, fun htorn => ⟨?_, ?_⟩, fun htorn hsplit => ?_, ?_, ?_⟩
    · dsimp only
      rw [raise_unless_proj (·.clocks.running) (fun _ _ => rfl), hself]; rfl
    · dsimp only
      rw [raise_unless_proj (·.clocks.locking) (fun _ _ => rfl), hself]; rfl
    · dsimp only
      rw [raise_unless_proj (·.camp.firmware) (fun _ _ => rfl), hself]; rfl
    · dsimp only
      rw [raise_unless_proj (fun sl => (sl.stack u).selfRefresh) (fun _ _ => rfl), hself]
      exact stack_selfRefresh_relocking _ hu
    · dsimp only
      rw [raise_unless_proj Slab.tiles (fun _ _ => rfl), hself, htorn]; rfl
    · dsimp only
      rw [raise_unless_proj Slab.mem (fun _ _ => rfl), hself, htorn]; rfl
    · have hmode : ((s.tearUnits k torn).modSlab k Slab.relocking).shared.mode = .split := by rw [htorn, shared_modSlab]; exact hsplit
      dsimp only
      rw [if_neg (by rw [hmode]; exact fun hjoin => Mode.noConfusion hjoin.1), hother, htorn]
      rfl
    · dsimp only
      rw [raise_unless_proj Slab.clocks (fun _ _ => rfl), hother]
      exact congrArg Prod.snd (supply_tearUnits s k k.other torn)
    · have hchassis : ((s.tearUnits k torn).modSlab k Slab.relocking).chassis = s.chassis := by
        rw [modSlab_chassis]
        exact foldl_chassis _ (fun _ _ => tear_chassis ..) torn s
      refine (congrArg Chassis.reference (?_ : State.chassis _ = s.chassis)).trans hr
      dsimp only
      split
      · exact (raise_chassis ..).trans hchassis
      · exact hchassis

end Sys2Proof.Proofs
end

section
/-! # The sideband and the cables (R466, R467, R470) -/

namespace Sys2Proof.Machine

/-! ## Frames sent while a link fails -/

theorem up_pump (now n : Nat) (p : Port) : (p.pump now n).up = p.up := by
  induction n generalizing p with
  | zero => rfl
  | succ n ih =>
    unfold Port.pump
    split
    · rfl
    · split
      · rfl
      · split
        · rfl
        · exact ih _

theorem up_give (p : Port) (now : Nat) (f : ZFrame) : (p.give now f).up = p.up := up_pump ..

theorem up_sendFrame (sl : Slab) (f : ZFrame) (escape : Bool) (p : Nat) : ((sl.sendFrame f escape).port p).up = (sl.port p).up := by
  unfold Slab.sendFrame
  split
  case h_1 => rfl
  case h_2 o vc _ =>
    rw [Slab.port_modPort]
    split
    case isTrue h => rw [up_give, h]
    case isFalse => rfl

theorem up_sendAll (fs : List ZFrame) (escape : Bool) (sl : Slab) (p : Nat) :
    ((fs.foldl (fun sl f => sl.sendFrame f escape) sl).port p).up = (sl.port p).up := by
  induction fs generalizing sl with
  | nil => rfl
  | cons f fs ih => rw [List.foldl_cons, ih, up_sendFrame]

/-- A fault's entry changes nothing of a slab but base camp and the counters. -/
theorem slab_logFault_proj {α : Type} (p : Slab → α) (h : ∀ (sl : Slab) (g : Camp → Camp) (n : Nat),
    p ((sl.modCamp g).count Ctr.FAULT_LOG_OVERWRITES n) = p sl) (s : State) (i j : SlabId) (e : FaultEntry) :
    p ((s.logFault i e).slab j) = p (s.slab j) := by
  unfold State.logFault State.logFaultAt
  dsimp only
  rw [slab_event]
  exact slab_modSlab_proj p (fun sl => h sl _ _) s i j

theorem up_linkFail (s : State) (i : SlabId) (p : Nat) : (((s.linkFail i p).slab i).port p).up = false := by
  unfold State.linkFail
  extract_lets x fs z
  split
  case isTrue h => exact (Bool.not_eq_true' _).mp h
  case isFalse =>
    rw [State.linkEvent, slab_event, slab_logFault_proj (fun sl => (sl.port p).up) (fun _ _ _ => rfl), slab_modSlab_self, up_sendAll,
      Slab.port_modPort_self]
    rfl

/-! ## The sideband -/

/-- The page of the register file that a Block Read gives. -/
def State.sidebandPage (s : State) (k : SlabId) (code : Fin 3) : List Byte :=
  let page := Cells.readN (s.slab k).camp.sideband (32 * code.val) 32
  if code = 0 then page.set 3 (s.sidebandFlags k) else page

theorem exec_smbusBlockRead {s : State} {k : SlabId} (code : Fin 3) (h : s.railUp k = true) :
    exec (.smbusBlockRead k code) s = .next { s with smbus := some (s.sidebandPage k code) } := if_pos h

theorem sidebandPage_length (s : State) (k : SlabId) (code : Fin 3) : (s.sidebandPage k code).length = 32 := by
  unfold State.sidebandPage
  split
  · rw [List.length_set, readN_length]
  · exact readN_length ..

theorem sidebandPage_getElem? (s : State) (k : SlabId) {code : Fin 3} {j : Nat} (hj : j < 32) (h : code ≠ 0 ∨ j ≠ 3) :
    (s.sidebandPage k code)[j]? = some (Cells.read (s.slab k).camp.sideband (32 * code.val + j)) := by
  unfold State.sidebandPage
  split
  case isTrue h0 =>
    rw [List.getElem?_set_ne (h.resolve_left (not_not_intro h0)).symm]
    exact readN_getElem? _ _ _ _ hj
  case isFalse => exact readN_getElem? _ _ _ _ hj

theorem sidebandPage_flags (s : State) (k : SlabId) : (s.sidebandPage k 0)[3]? = some (s.sidebandFlags k) := by
  unfold State.sidebandPage
  rw [if_pos rfl, List.getElem?_set_self (by rw [readN_length]; decide)]

end Sys2Proof.Machine

namespace Sys2Proof.Proofs

open Sys2Proof.Machine

/-- Settles O48: the page is the register file's with FLAGS as the pins stand, and a removed cable leaves its link down. -/
theorem sidebandAndCablesAreSeen : Obligations.SidebandAndCablesAreSeen := by
  unfold Obligations.SidebandAndCablesAreSeen
  intro s k code p
  refine ⟨fun h => if_neg (Bool.eq_false_iff.mp h), fun h => ⟨_, exec_smbusBlockRead code h, sidebandPage_length .., fun j => sidebandPage_getElem? s k,
    fun hcode => ⟨_, by rw [hcode]; exact sidebandPage_flags s k, rfl⟩⟩, fun h => ?_, fun h => ?_, fun h => ?_, rfl, fun hr hf => ?_, fun h => ?_, rfl, ?_⟩
  · simp [State.sidebandFlags, h, bit]
  · simp [State.sidebandFlags, h, bit]
  · simp [State.sidebandFlags, h, bit]
  · exact if_pos (by rw [hr, hf]; rfl)
  · refine if_neg ?_
    rcases h with h | h
    · rw [h]; exact Bool.false_ne_true
    · simp [h]
  · refine ⟨_, rfl, ?_, ?_, fun _ => ?_⟩
    · rw [slab_modSlab_self, Slab.port_modPort_self]
    · rw [slab_modSlab_self, Slab.port_modPort_self]
    · rw [slab_modSlab_self, Slab.port_modPort_self]
      exact up_linkFail s k p.val

end Sys2Proof.Proofs
end

section
/-! # The supplies of slabs and fields (R14, R48, R446, R451 to R454, R457, R459, R463, R464) -/

namespace Sys2Proof.Machine

/-! ## A slab without power -/

theorem field_off_unpowered (sl : Slab) (fuses : Bool) (n : Nat) : ((sl.off fuses).field n).powered = false := by
  cases fuses
  case false => rfl
  case true =>
    have hall (l : List Nat) : (agetD Field.reset n (l.map (fun n => (n, Field.off true)))).powered = false := by
      induction l with
      | nil => rfl
      | cons m l ih =>
        simp only [agetD, List.map_cons, alookup] at ih ⊢
        split
        · rfl
        · exact ih
    exact hall (List.range 42)

/-- What a slab that lost its power keeps: its flash and its seated cables. -/
theorem slab_off (sl : Slab) (fuses : Bool) :
    (sl.off fuses).powered = false ∧ (sl.off fuses).camp = { Camp.reset with flash := sl.camp.flash } ∧ (sl.off fuses).clocks.running = false
      ∧ (sl.off fuses).tiles = [] ∧ (sl.off fuses).mem = .reset ∧ (sl.off fuses).job = .reset ∧ (sl.off fuses).root = .reset
      ∧ (∀ n : Nat, ((sl.off fuses).field n).powered = false)
      ∧ ∀ p : Nat, ((sl.off fuses).port p).cable = (sl.port p).cable ∧ ((sl.off fuses).port p).up = false :=
  ⟨rfl, rfl, rfl, rfl, rfl, rfl, rfl, field_off_unpowered sl fuses, fun p => by
    obtain ⟨hcable, hup, -⟩ := port_of_cables (sl := sl) (x := sl.off fuses) rfl p
    exact ⟨hcable, hup⟩⟩

/-- The module with every bus converter stopped, its pins as given. -/
def State.poweredOff (s : State) (fuses : Bool) (sh : Shared) : State := { s.powerOff fuses with shared := sh }

/-- Every slab and function of a module whose converters stopped. -/
theorem slab_poweredOff (s : State) (fuses : Bool) (sh : Shared) (i : SlabId) :
    (s.poweredOff fuses sh).slab i = (s.slab i).off fuses ∧ (s.poweredOff fuses sh).func i = .reset := by
  cases i <;> exact ⟨rfl, rfl⟩

theorem poweredOff_off (s : State) (fuses : Bool) (sh : Shared) (i : SlabId) :
    let t := s.poweredOff fuses sh
    (t.slab i).powered = false ∧ (t.slab i).camp = { Camp.reset with flash := (s.slab i).camp.flash }
      ∧ (t.slab i).clocks.running = false ∧ (t.slab i).tiles = [] ∧ (t.slab i).mem = .reset ∧ (t.slab i).job = .reset
      ∧ (t.slab i).root = .reset ∧ (∀ n : Nat, ((t.slab i).field n).powered = false)
      ∧ (∀ p : Nat, ((t.slab i).port p).cable = ((s.slab i).port p).cable ∧ ((t.slab i).port p).up = false) ∧ t.func i = .reset := by
  intro t
  obtain ⟨hslab, hfunc⟩ := slab_poweredOff s fuses sh i
  obtain ⟨h1, h2, h3, h4, h5, h6, h7, h8, h9⟩ := slab_off (s.slab i) fuses
  rw [hslab]
  exact ⟨h1, h2, h3, h4, h5, h6, h7, h8, h9, hfunc⟩

/-! ## The input and the rails -/

/-- A slab whose converter has just started. -/
def Slab.risen (sl : Slab) : Slab := { sl.off false with powered := true }

theorem exec_inputRise {s : State} (h : s.shared.inputGood = false) :
    ∃ z : State, exec .inputRise s = .next z.startLocks
      ∧ z.shared = { s.shared with inputGood := true, converters := true, thermtripN := true, alertN := true }
      ∧ ∀ k, z.slab k = (s.slab k).risen :=
  ⟨_, if_neg (Bool.eq_false_iff.mp h), rfl, fun k => by cases k <;> rfl⟩

theorem startLock_risen (sl : Slab) :
    sl.risen.startLock = { sl.risen with clocks := { sl.risen.clocks with lost := false, locking := true } } := rfl

theorem exec_slabRailLoss {s : State} {k : SlabId} (h : (s.slab k).powered = true) :
    exec (.slabRailLoss k) s = .next ((s.modSlab k (fun sl => sl.off false)).setFunc k .reset).updateAlert := if_pos h

/-! ## Fields -/

theorem field_openFuse (sl : Slab) (n : Nat) :
    (sl.openFuse n).field n = { sl.field n with powered := false, fuseOpen := true, clamped := true } :=
  Slab.field_modField_self sl n (fun f => { f with powered := false, fuseOpen := true, clamped := true })

theorem mem_nextStages {sl : Slab} {n : Nat} (h : n ∈ sl.nextStages) : n < 42 ∧ n ∉ sl.lostFields ∧ (sl.field n).powered = false := by
  have hfilter := List.mem_filter.mp (List.mem_of_mem_take h)
  simpa only [List.mem_range, Bool.and_eq_true, decide_eq_true_eq, Bool.not_eq_true'] using hfilter

end Sys2Proof.Machine

namespace Sys2Proof.Proofs

open Sys2Proof.Machine

theorem supplyStartsAndStopsTheSlabs : Claims.SupplyStartsAndStopsTheSlabs := by
  intro s k x
  refine ⟨fun h => if_pos h, fun h => ?_, ⟨?_, ?_, fun hon hp => ?_⟩, fun h => ?_, fun h => if_neg (Bool.eq_false_iff.mp h), fun h => ?_⟩
  · obtain ⟨z, hexec, hshared, hslab⟩ := exec_inputRise h
    have hk : z.startLocks.slab k = if s.shared.perstN && s.shared.reference then
        { (s.slab k).risen with clocks := { (s.slab k).risen.clocks with lost := false, locking := true } } else (s.slab k).risen := by
      rw [slab_startLocks, hslab k, hshared, Bool.and_true, startLock_risen]
    refine ⟨_, hexec, by rw [shared_startLocks, hshared], by rw [shared_startLocks, hshared], by rw [shared_startLocks, hshared],
      by rw [shared_startLocks, hshared], ?_⟩
    rw [hk]
    cases s.shared.perstN && s.shared.reference <;> exact ⟨rfl, rfl, rfl, rfl, fun _ => rfl⟩
  · exact ⟨s.poweredOff false _, rfl, poweredOff_off s false _, rfl, rfl, rfl, rfl, rfl⟩
  · exact ⟨s.poweredOff false _, rfl, poweredOff_off s false _, rfl, rfl, rfl, rfl⟩
  · refine ⟨s.poweredOff true _, exec_thermalTrip hon hp, poweredOff_off s true _, rfl, rfl, rfl, rfl, fun i n hn => ?_⟩
    rw [(slab_poweredOff s true _ i).1, field_off_true _ hn]
    rfl
  · refine if_neg ?_
    rcases h with h | h
    · rw [h]; exact Bool.false_ne_true
    · rw [h, Bool.and_false]; exact Bool.false_ne_true
  · refine ⟨_, exec_slabRailLoss h, ?_⟩
    cases k <;> exact ⟨rfl, rfl, rfl, rfl, rfl, rfl, rfl, rfl, rfl, by simp [State.updateAlert, State.modSlab, State.setSlab, State.setFunc, Slab.off, Camp.reset, SlabId.other, State.slab]⟩

theorem fieldsStartAndLosePower : Claims.FieldsStartAndLosePower := by
  intro s f k failed sl fd z
  refine ⟨fun hp hf ho => if_pos ?_, fun h => if_neg ?_, fun hr hw hc hp ho => if_pos ?_, fun h => if_neg ?_, ?_, fun hr hf hc => if_pos ?_,
    ⟨List.length_take_le .., fun n hn => mem_nextStages hn⟩, fun h => if_neg ?_⟩
  · change (sl.powered && fd.powered && !fd.fuseOpen) = true
    rw [hp, hf, ho]; rfl
  · change ¬ (sl.powered && fd.powered && !fd.fuseOpen) = true
    rcases h with h | h | h <;> simp [h]
  · change (sl.ready && decide (sl.camp.firmware = .running) && decide (1000 ≤ fd.critSamples) && fd.powered && !fd.fuseOpen) = true
    rw [hr, decide_eq_true hw, decide_eq_true hc, hp, ho]; rfl
  · change ¬ (sl.ready && decide (sl.camp.firmware = .running) && decide (1000 ≤ fd.critSamples) && fd.powered && !fd.fuseOpen) = true
    rcases h with h | h | h | h | h
    · simp [h]
    · simp [h]
    · rw [decide_eq_false (Nat.not_le.mpr h)]; simp
    · simp [h]
    · simp [h]
  · intro y
    have hy : y = _ := field_openFuse sl (fieldNum f)
    rw [hy]
    exact ⟨rfl, rfl, rfl⟩
  · rw [hr, decide_eq_true hf, decide_eq_true hc]; rfl
  · rcases h with h | h | h <;> simp [h]

/-- Settles O49. -/
theorem suppliesStartAndStop : Obligations.SuppliesStartAndStop := by
  unfold Obligations.SuppliesStartAndStop
  exact ⟨supplyStartsAndStopsTheSlabs, fieldsStartAndLosePower⟩

end Sys2Proof.Proofs
end

section
/-! # Host accesses to BAR0 and BAR2, and the resets of the PCIe side (R378, R391 to R393, R405 to R407, R415 to R420) -/

namespace Sys2Proof.Machine

/-! ## An access that reaches its function -/

/-- The module after the host has set Bus Master Enable. -/
def State.mastered (s : State) (fn : SlabId) : State := s.modFunc fn (fun f => { f with busMaster := true })

theorem mailbox_mastered (s : State) (fn : SlabId) (m : Fin 4) : ((s.mastered fn).func fn).mailbox m = (s.func fn).mailbox m := by
  rw [State.mastered, func_modFunc_self]
  exact match m with | 0 | 1 | 2 | 3 => rfl

theorem slab_mastered (s : State) (fn i : SlabId) : (s.mastered fn).slab i = s.slab i := slab_modFunc ..

theorem evtEnable_mastered (s : State) (fn : SlabId) : ((s.mastered fn).func fn).evtEnable = (s.func fn).evtEnable := by
  rw [State.mastered, func_modFunc_self]

section
variable {s : State} {fn : SlabId} (h : s.hostReach fn = true)
include h

theorem barAccess_of_hostReach (f : State → State) : s.barAccess fn f = .next (f (s.mastered fn)) := if_pos h

theorem exec_doorbell_of_hostReach (m : Fin 4) :
    exec (.doorbell fn m) s = .next (if ((s.func fn).mailbox m).pending || ((s.func fn).mailbox m).done then
      (s.mastered fn).modFunc fn (fun f => f.count Ctr.MBX_IGNORED_DOORBELLS 1) else (s.mastered fn).ringDoorbell fn m) := by
  change execDoorbell fn m s = _
  rw [execDoorbell, barAccess_of_hostReach h]
  dsimp only
  rw [mailbox_mastered]

theorem exec_requestBufferWrite_of_hostReach (m : Fin 4) {off : Nat} {data : List Byte} (hfit : off + data.length ≤ 4096) :
    exec (.requestBufferWrite fn m off data) s = .next (if ((s.func fn).mailbox m).pending || ((s.func fn).mailbox m).done then
      (s.mastered fn).modFunc fn (fun f => f.count Ctr.MBX_DROPPED_WRITES 1)
      else (s.mastered fn).modFunc fn (fun f => f.modMailbox m (fun b => { b with request := Cells.writeN b.request off data }))) := by
  change execRequestBufferWrite fn m off data s = _
  rw [execRequestBufferWrite, if_neg (Nat.not_lt.mpr hfit), barAccess_of_hostReach h]
  dsimp only
  rw [mailbox_mastered]
  rfl

theorem exec_mbxDoneRelease_of_hostReach (m : Fin 4) :
    exec (.mbxDoneRelease fn m) s = .next ((s.mastered fn).modFunc fn (fun f => f.modMailbox m (fun b => { b with done := false }))) :=
  show execMbxDoneRelease fn m s = _ from barAccess_of_hostReach h _

theorem exec_evtConsumerWrite_of_hostReach (value : DWord) :
    exec (.evtConsumerWrite fn value) s
      = .next (((s.mastered fn).modFunc fn (fun f => { f with evtConsumer := value, evtArmed := true })).drainRing fn) :=
  show execEvtConsumerWrite fn value s = _ from barAccess_of_hostReach h _

/-- EVT_CTRL_ENABLE by the ring's enable and the bit written. -/
theorem exec_evtCtrlEnable_of_hostReach (base : DWord) (size : BitVec 5) (en : Bool) :
    exec (.evtCtrlEnable fn base size en) s = .next (
      if (s.func fn).evtEnable then (s.mastered fn).modFunc fn (fun f => { f with evtEnable := en })
      else if en && decide (base.toNat % 4096 = 0) && decide (6 ≤ size.toNat ∧ size.toNat ≤ 16) then
        ((s.mastered fn).modFunc fn (fun f =>
          { f with evtBase := base, evtSize := size, evtEnable := true, evtProducer := 0, evtConsumer := 0, evtArmed := true })).drainRing fn
      else (s.mastered fn).modFunc fn (fun f => { f with evtBase := base, evtSize := size })) := by
  change execEvtCtrlEnable fn base size en s = _
  rw [execEvtCtrlEnable, barAccess_of_hostReach h]
  rw [← evtEnable_mastered s fn]
  rfl

end

/-! ## A doorbell on a free mailbox -/

/-- The request of the mailbox put behind those already waiting. -/
def State.rung (s : State) (fn : SlabId) (m : Fin 4) : State :=
  s.modFunc fn (fun f => { f.modMailbox m (fun b => { b with pending := true, rung := f.rungCount }) with rungCount := f.rungCount + 1 })

theorem ringDoorbell_eq (s : State) (fn : SlabId) (m : Fin 4) :
    s.ringDoorbell fn m =
      let r := ((s.func fn).mailbox m).take
      let fw := (s.slab fn).camp.firmware
      if fw.absent then s.writeResponse fn m r stInternal [] 0
      else if decide (fw = .running) && (commandMailboxes r.opcode).isNone then
        (s.rung fn m).respond fn m r (((s.rung fn m).refusal fn m r).getD stBadOpcode) []
      else s.rung fn m := rfl

theorem pending_or_done {b : Mailbox} (h : b.pending = true ∨ b.done = true) : (b.pending || b.done) = true := by
  rwa [Bool.or_eq_true]

theorem neither_pending_nor_done {b : Mailbox} (hp : b.pending = false) (hd : b.done = false) : ¬ (b.pending || b.done) = true := by
  rw [hp, hd]
  exact Bool.false_ne_true

end Sys2Proof.Machine

namespace Sys2Proof.Proofs

open Sys2Proof.Machine

/-- Settles O41: an access reaches its function or comes to nothing, and a doorbell on a free mailbox goes by the firmware's state. -/
theorem hostWritesReachTheirMailbox : Obligations.HostWritesReachTheirMailbox := by
  unfold Obligations.HostWritesReachTheirMailbox
  intro s fn m off data base value size en on b rung
  refine ⟨fun hlong => if_pos hlong, fun h => ⟨exec_doorbell_of_hostReach_eq_false h m, exec_mbxDoneRelease_of_hostReach_eq_false h m,
      exec_evtCtrlEnable_of_hostReach_eq_false h base size en, exec_evtConsumerWrite_of_hostReach_eq_false h value,
      exec_requestBufferWrite_of_hostReach_eq_false h m⟩,
    fun h => ⟨fun hbusy => ?_, fun hp hd => ?_, fun hfit => ⟨fun hbusy => ?_, fun hp hd => ?_⟩, exec_mbxDoneRelease_of_hostReach h m,
      ⟨fun hon => ?_, fun hoff hen => ?_, fun hoff hen hbase hlow hhigh => ?_⟩, exec_evtConsumerWrite_of_hostReach h value⟩⟩
  · rw [exec_doorbell_of_hostReach h, if_pos (pending_or_done hbusy)]; rfl
  · have hring : exec (.doorbell fn m) s = .next (on.ringDoorbell fn m) := by
      rw [exec_doorbell_of_hostReach h, if_neg (neither_pending_nor_done hp hd)]; rfl
    have htake : ((on.func fn).mailbox m).take = b.take := congrArg Mailbox.take (mailbox_mastered s fn m)
    have hcamp : on.slab fn = s.slab fn := slab_mastered s fn fn
    rw [hring, ringDoorbell_eq, htake, hcamp]
    refine ⟨fun habsent => ?_, fun hserves hknown => ?_, fun hrunning hunknown => ?_⟩
    · exact congrArg _ (if_pos habsent)
    · dsimp only
      rw [hserves, if_neg Bool.false_ne_true, if_neg]
      · rfl
      · rcases hknown with hrecovery | hsome
        · rw [hrecovery]; exact Bool.false_ne_true
        · rw [Option.isNone_eq_false_iff.mpr hsome, Bool.and_false]; exact Bool.false_ne_true
    · dsimp only
      rw [hrunning, hunknown]
      rfl
  · rw [exec_requestBufferWrite_of_hostReach h m hfit, if_pos (pending_or_done hbusy)]; rfl
  · rw [exec_requestBufferWrite_of_hostReach h m hfit, if_neg (neither_pending_nor_done hp hd)]; rfl
  · rw [exec_evtCtrlEnable_of_hostReach h, if_pos hon]; rfl
  · rw [exec_evtCtrlEnable_of_hostReach h, if_neg (Bool.eq_false_iff.mp hoff), if_neg (by rw [hen]; exact Bool.false_ne_true)]; rfl
  · rw [exec_evtCtrlEnable_of_hostReach h, if_neg (Bool.eq_false_iff.mp hoff),
      if_pos (by rw [hen, decide_eq_true hbase, decide_eq_true ⟨hlow, hhigh⟩]; rfl)]
    rfl

end Sys2Proof.Proofs
end

section
/-! # BAR2 and the resets of the PCIe side (R378, R415 to R418, R420) -/

namespace Sys2Proof.Machine

/-! ## Apertures and staging -/

theorem exec_feedApertureWrite_of_hostReach {s : State} {fn : SlabId} (h : s.hostReach fn = true) (hready : (s.slab fn).ready = true) (k : Fin 16)
    {off : Nat} {data : List Byte} (hfit : off + data.length ≤ 16777216) :
    exec (.feedApertureWrite fn k off data) s = .next (match (s.mastered fn).feedNo fn k.val with
      | none => (s.mastered fn).modSlab fn (fun sl => sl.apertureDrop k.val)
      | some q => if q.bound && q.fromHost then (s.mastered fn).apertureWrite fn q off data
          else (s.mastered fn).modSlab fn (fun sl => sl.apertureDrop k.val)) := by
  change execFeedApertureWrite fn k off data s = _
  rw [execFeedApertureWrite, if_neg (Nat.not_lt.mpr hfit), if_neg (by rw [hready]; exact Bool.false_ne_true), barAccess_of_hostReach h] <;> rfl

theorem exec_stagingWrite_of_hostReach {s : State} {fn : SlabId} (h : s.hostReach fn = true) (hup : (s.slab fn).stagingUp = true)
    {off : Nat} {data : List Byte} (hfit : off + data.length ≤ 0xF0000000) :
    exec (.stagingWrite fn off data) s
      = .next ((s.mastered fn).modSlab fn (fun sl => sl.modMem (fun x => { x with staging := Cells.writeN x.staging off data }))) := by
  change execStagingWrite fn off data s = _
  rw [execStagingWrite, if_neg (Nat.not_lt.mpr hfit), if_neg (by rw [hup]; exact Bool.false_ne_true), barAccess_of_hostReach h]

theorem apertureRows_whole {off n : Nat} {data : List Byte} {slotBytes : Nat} (ho : off % 64 = 0) (hlen : data.length = 64 * n)
    (hfit : off + data.length ≤ slotBytes) : apertureRows slotBytes off data = n := by
  rw [apertureRows, if_neg (by omega)]
  omega

theorem apertureRows_none {off : Nat} {data : List Byte} {slotBytes : Nat} (h : off % 64 ≠ 0 ∨ data.length % 64 ≠ 0 ∨ slotBytes ≤ off) :
    apertureRows slotBytes off data = 0 := by
  unfold apertureRows
  split <;> omega

/-! ## A reset function -/

theorem func_setFunc_other (s : State) {i j : SlabId} (h : j ≠ i) (x : Func) : (s.setFunc i x).func j = s.func j :=
  (func_modFunc s i j (fun _ => x)).trans (if_neg h)

/-- A record for a closed ring keeps all of the function but its queue of records. -/
theorem func_post_proj {α : Type} (p : Func → α) (h : ∀ (f : Func) (r : EventRec), p (f.enqueue r) = p f) {s : State} {i : SlabId}
    (hclosed : (s.func i).ringOpen = false) (fn : SlabId) (r : EventRec) : p ((s.post fn r).func i) = p (s.func i) := by
  by_cases hfn : fn = i
  · subst hfn
    rw [post_of_ringOpen_eq_false hclosed, func_modFunc_self, h]
  · have hother : (s.post fn r).func i = s.func i := by
      unfold State.post State.drainRing
      dsimp only
      split
      · exact func_setFunc_other _ (Ne.symm hfn) _
      · exact (func_setFunc_other _ (Ne.symm hfn) _).trans ((func_modFunc ..).trans (if_neg (Ne.symm hfn)))
    rw [hother]

theorem func_pcieReset_proj {α : Type} (p : Func → α) (h : ∀ (f : Func) (r : EventRec), p (f.enqueue r) = p f) (s : State) (fn : SlabId) :
    p ((s.pcieReset fn).func fn) = p (s.func fn).pcieReset := by
  have hfunc : ((s.modFunc fn Func.pcieReset).modSlab fn (fun sl => sl.modCamp Camp.dropOperations)).func fn = (s.func fn).pcieReset := by
    rw [func_modSlab, func_modFunc_self]
  rw [← hfunc]
  unfold State.pcieReset State.withdrawTestPause
  extract_lets j
  split
  · have hclosed : (s.func fn).pcieReset.ringOpen = false := rfl
    rw [State.setJobState, State.event, func_post_proj p h (by rw [State.modJob, func_modSlab, hfunc]; exact hclosed), State.modJob,
      func_modSlab]
  · rfl

/-- What the host's requests and the ring see of a function. -/
def Func.hostSide (f : Func) (m : Fin 4) : Mailbox × List Outstanding × Bool × Bool × Bool :=
  (f.mailbox m, f.outstanding, f.evtEnable, f.busMaster, f.d3hot)

theorem hostSide_enqueue (m : Fin 4) (f : Func) (r : EventRec) : (f.enqueue r).hostSide m = f.hostSide m := by
  unfold Func.enqueue
  dsimp only
  split <;> exact match m with | 0 | 1 | 2 | 3 => rfl

theorem hostSide_pcieReset (f : Func) (m : Fin 4) : f.pcieReset.hostSide m = (Mailbox.reset, [], false, false, false) := 
  match m with | 0 | 1 | 2 | 3 => rfl

/-! ## Bulk reads that fail -/

/-- The read fails of a request that would have run. -/
theorem exec_dmaReadError {s : State} {fn : SlabId} {m : Fin 4} {r : Request} (hr : ((s.func fn).mailbox m).take = r)
    (hup : s.takesUp fn m = true) (hbulk : r.readsBulk = true) (hok : s.refusal fn m r = none) :
    exec (.dmaReadError fn m) s = .next ((s.modFunc fn (fun f =>
      { f.count Ctr.DMA_ERRORS (if r.hostbuf then 1 else 0) with aerLogged := f.aerLogged + if r.hostbuf then 1 else 0 })).respond fn m r
        stBadArg []) := by
  subst hr
  exact if_pos (by rw [hup, hbulk, hok]; rfl)

end Sys2Proof.Machine

namespace Sys2Proof.Proofs

open Sys2Proof.Machine

theorem aperturesTakeTheirRows : Claims.AperturesTakeTheirRows := by
  intro s fn k off data on
  refine ⟨fun hlong => if_pos hlong, fun hlong => if_pos hlong, fun hfit hready h => ⟨fun hinactive => ?_, fun q hq hbound hhost => ?_⟩,
    fun slotBytes n => apertureRows_whole, fun slotBytes => apertureRows_none, fun hfit hup h => exec_stagingWrite_of_hostReach h hup hfit⟩
  · rw [exec_feedApertureWrite_of_hostReach h hready k hfit]
    rcases hinactive with hnone | ⟨q, hq, hoff⟩
    · rw [show (s.mastered fn).feedNo fn k.val = none from hnone]
      rfl
    · rw [show (s.mastered fn).feedNo fn k.val = some q from hq]
      have hinactive : ¬ (q.bound && q.fromHost) = true := by
        rcases hoff with hb | hb <;> simp [hb]
      exact congrArg _ (if_neg hinactive)
  · intro n slot z1 z2
    rw [exec_feedApertureWrite_of_hostReach h hready k hfit, show (s.mastered fn).feedNo fn k.val = some q from hq]
    have hactive : (q.bound && q.fromHost) = true := by rw [hbound, hhost]; rfl
    exact congrArg _ (if_pos hactive)

theorem pcieSideResets : Claims.PcieSideResets := by
  intro s fn m r
  refine ⟨?_, fun hl hp => ⟨if_pos ?_, if_pos ?_, exec_d3hotEntry_of_linkUp hl hp, exec_d0Return_of_linkUp hl hp⟩,
    fun h => ⟨if_neg ?_, if_neg ?_, if_neg ?_, if_neg ?_⟩, fun hl => ?_, fun hl => ?_, fun h => if_pos h, fun h => if_neg (Bool.eq_false_iff.mp h),
    fun hr => ⟨fun h => if_neg ?_, fun hup hbulk hok => ⟨fun hh => ?_, fun hh => ?_⟩⟩⟩
  · intro t
    have hfunc : (t.func fn).hostSide m = _ := (func_pcieReset_proj (·.hostSide m) (hostSide_enqueue m) s fn).trans (hostSide_pcieReset ..)
    simp only [Func.hostSide, Prod.mk.injEq] at hfunc
    exact ⟨hfunc, slab_pcieReset_proj Slab.tiles (fun _ => rfl) (fun _ _ => rfl) .., slab_pcieReset_proj Slab.mem (fun _ => rfl) (fun _ _ => rfl) ..,
      slab_pcieReset_proj Slab.stackList (fun _ => rfl) (fun _ _ => rfl) ..⟩
  · rw [hl, hp]; rfl
  · rw [hl, hp]; rfl
  iterate 4 rcases h with h | h <;> simp [h]
  · exact congrArg _ (if_pos hl)
  · exact congrArg _ (if_neg (Bool.eq_false_iff.mp hl))
  · rw [hr]
    rcases h with h | h <;> simp [h]
  · rw [exec_dmaReadError hr hup hbulk hok, hh]; rfl
  · rw [exec_dmaReadError hr hup hbulk hok, hh]; rfl

/-- Settles O42. -/
theorem aperturesAndPcieSide : Obligations.AperturesAndPcieSide := by
  unfold Obligations.AperturesAndPcieSide
  exact ⟨aperturesTakeTheirRows, pcieSideResets⟩

end Sys2Proof.Proofs
end

section
/-! # Mailbox commands: take-up, checks and answers (R31, R392 to R398) -/

namespace Sys2Proof.Machine

variable {s : State} {fn : SlabId} {m : Fin 4} {op : Nat} {r : Request}

/-! ## A command's row -/

theorem serve_of_not_taken (pick : Request → Bool) (run : State → Request → State)
    (h : s.takesUp fn m = false ∨ ((s.func fn).mailbox m).take.opcode ≠ op ∨ pick ((s.func fn).mailbox m).take = false) :
    s.serve fn m op pick run = .next s := by
  refine if_neg ?_
  rcases h with h | h | h <;> simp [h]

theorem serve_of_taken (pick : Request → Bool) (run : State → Request → State) (htaken : s.takesUp fn m = true)
    (hop : ((s.func fn).mailbox m).take.opcode = op) (hpick : pick ((s.func fn).mailbox m).take = true) :
    s.serve fn m op pick run = .next ((s.refusal fn m ((s.func fn).mailbox m).take).elim (run s ((s.func fn).mailbox m).take)
      (fun st => s.respond fn m ((s.func fn).mailbox m).take st [])) := by
  have hcond : (s.takesUp fn m && decide (((s.func fn).mailbox m).take.opcode = op) && pick ((s.func fn).mailbox m).take) = true := by
    rw [htaken, decide_eq_true hop, hpick]
    rfl
  unfold State.serve
  extract_lets r
  rw [if_pos hcond]
  cases s.refusal fn m r <;> rfl

/-- A command that nothing turns away does what it is for. -/
theorem State.Runs.serve (h : s.Runs fn m op r) {pick : Request → Bool} (hpick : pick r = true) (run : State → Request → State) :
    s.serve fn m op pick run = .next (run s r) := by
  obtain ⟨htaken, rfl, hop, hok⟩ := h
  rw [serve_of_taken pick run htaken hop hpick, hok]
  rfl

/-- Every command of the mailbox table is served by its row. -/
theorem exec_of_mailboxRow {c : Instr} {pick : Request → Bool} (h : mailboxRow c = some (fn, m, op, pick)) (s : State) :
    ∃ run, exec c s = s.serve fn m op pick run := by
  unfold mailboxRow at h
  split at h <;> cases h <;> (unfold exec; exact ⟨_, rfl⟩)

/-! ## An answered mailbox -/

theorem mailbox_modMailbox (f : Func) (m : Fin 4) (g : Mailbox → Mailbox) : (f.modMailbox m g).mailbox m = g (f.mailbox m) := 
  match m with | 0 | 1 | 2 | 3 => rfl

theorem mailbox_signalIf (f : Func) (v : Nat) (m : Fin 4) : (f.signalIf v).mailbox m = f.mailbox m := by
  unfold Func.signalIf Func.signal
  split
  · split <;> exact match m with | 0 | 1 | 2 | 3 => rfl
  · rfl

theorem mailbox_count (f : Func) (id n : Nat) (m : Fin 4) : (f.count id n).mailbox m = f.mailbox m := 
  match m with | 0 | 1 | 2 | 3 => rfl

/-- The mailbox after its answer. -/
theorem mailbox_respond (s : State) (fn : SlabId) (m : Fin 4) (r : Request) (st : Byte) (payload : List Byte) :
    (((s.respond fn m r st payload).func fn).mailbox m).done = true ∧ (((s.respond fn m r st payload).func fn).mailbox m).pending = false
      ∧ (((s.respond fn m r st payload).func fn).mailbox m).lastTag = r.tag := by
  rw [State.respond, State.writeResponse, func_modFunc_self, func_modFunc_self, mailbox_signalIf, Func.countStatus, mailbox_count,
    mailbox_count, mailbox_modMailbox]
  exact ⟨rfl, rfl, rfl⟩

theorem slab_respond (s : State) (fn i : SlabId) (m : Fin 4) (r : Request) (st : Byte) (payload : List Byte) :
    (s.respond fn m r st payload).slab i = s.slab i := by
  rw [State.respond, State.writeResponse, slab_modFunc, slab_modFunc]

theorem shared_respond (s : State) (fn : SlabId) (m : Fin 4) (r : Request) (st : Byte) (payload : List Byte) :
    (s.respond fn m r st payload).shared = s.shared := by
  rw [State.respond, State.writeResponse, shared_modFunc, shared_modFunc]

theorem hostMem_respond (s : State) (fn : SlabId) (m : Fin 4) (r : Request) (st : Byte) (payload : List Byte) :
    (s.respond fn m r st payload).hostMem = s.hostMem := by
  rw [State.respond, State.writeResponse, hostMem_modFunc, hostMem_modFunc]

end Sys2Proof.Machine

namespace Sys2Proof.Proofs

open Sys2Proof.Machine

/-- Settles O34: every command of the mailbox table is served by its row, and an answer is its mailbox's alone. -/
theorem requestsAreTakenInOrderOrTurnedAway : Obligations.RequestsAreTakenInOrderOrTurnedAway := by
  unfold Obligations.RequestsAreTakenInOrderOrTurnedAway
  intro s c fn m op pick hrow r
  obtain ⟨run, hserve⟩ := exec_of_mailboxRow hrow s
  refine ⟨fun h => hserve.trans (serve_of_not_taken pick run h), fun st htaken hop hpick hrefused => ?_, fun hused => if_pos hused,
    fun hfree hfull => ?_⟩
  · obtain ⟨hdone, hpending, htag⟩ := mailbox_respond s fn m r st []
    refine ⟨?_, hdone, hpending, htag, slab_respond s fn .s0 m r st [], slab_respond s fn .s1 m r st [],
      shared_respond .., hostMem_respond ..⟩
    rw [hserve, serve_of_taken pick run htaken hop hpick, show s.refusal fn m ((s.func fn).mailbox m).take = some st from hrefused]
    rfl
  · unfold State.refusal
    extract_lets op
    rw [if_neg (Bool.eq_false_iff.mp hfree), if_pos hfull]

end Sys2Proof.Proofs
end

section
/-! # The job commands (R382 to R387) -/

namespace Sys2Proof.Machine

variable {s : State} {fn : SlabId} {m : Fin 4} {r : Request}

/-! ## What each command runs -/

theorem exec_jobStart_of_none (h : s.Runs fn m 0x30 r) (hnone : s.image fn = none) :
    exec (.jobStart fn m) s = .next (s.respond fn m r stRefusedState []) := by
  change execJobStart fn m s = _
  rw [execJobStart, h.serve rfl]
  rw [hnone]

theorem exec_jobStart_of_image (h : s.Runs fn m 0x30 r) {im : Image} (him : s.image fn = some im) :
    exec (.jobStart fn m) s = .next (if (s.job fn).needsHost then s.respond fn m r stRefusedState []
      else if !s.groupsCover fn im || !s.mcastReady fn im then s.respond fn m r stBadArg []
      else (s.startJob fn im (BitVec.ofNat 64 (r.arg 0 8))).respond fn m r stOk []) := by
  change execJobStart fn m s = _
  rw [execJobStart, h.serve rfl]
  rw [him]

theorem exec_jobPause (h : s.Runs fn m 0x31 r) :
    exec (.jobPause fn m) s = .next (if (s.job fn).state = .running then (s.setJobState fn .pausing .host).accept fn m r stAccepted true []
      else (if (s.job fn).reason = .selfTest then s.setJobState fn (s.job fn).state .host else s).respond fn m r stOk []) := by
  change execJobPause fn m s = _
  rw [execJobPause, h.serve rfl]
  dsimp only
  generalize (s.job fn).state = st
  cases st <;> rfl

/-- What JOB_RESUME makes of a pause not yet in effect. -/
def State.withdrawPause (s : State) (fn : SlabId) : State :=
  let z := if s.forcedWaits fn then s.setJobState fn .pausing .selfTest else s.setJobState fn .running .none
  z.completeAll (z.jobFn fn) 0x31

theorem exec_jobResume (h : s.Runs fn m 0x32 r) :
    exec (.jobResume fn m) s = .next (
      if (s.job fn).state = .pausing then
        if (s.job fn).reason = .host && !(s.job fn).hostPause then (s.withdrawPause fn).respond fn m r stOk [] else s.respond fn m r stOk []
      else if (s.job fn).state = .paused then
        if (s.job fn).reason = .host && !(s.job fn).needsHost then (s.resumeJob fn).respond fn m r stOk []
        else s.respond fn m r stRefusedState []
      else s.respond fn m r stOk []) := by
  change execJobResume fn m s = _
  rw [execJobResume, h.serve rfl]
  dsimp only
  generalize (s.job fn).state = st
  cases st <;> rfl

theorem dev_setJobState (s : State) (i k : SlabId) (st : JobState) (why : Reason) : (s.setJobState i st why).dev k = s.dev k :=
  dev_of_roots (setJobState_roots ..) k

theorem withdrawPause_of_forced (h : s.forcedWaits fn = true) :
    s.withdrawPause fn = (s.setJobState fn .pausing .selfTest).completeAll (s.jobFn fn) 0x31 := by
  rw [State.withdrawPause, if_pos h, State.jobFn, dev_setJobState]
  rfl

theorem withdrawPause_of_not_forced (h : s.forcedWaits fn = false) :
    s.withdrawPause fn = (s.setJobState fn .running .none).completeAll (s.jobFn fn) 0x31 := by
  rw [State.withdrawPause, if_neg (Bool.eq_false_iff.mp h), State.jobFn, dev_setJobState]
  rfl

theorem exec_jobStop (h : s.Runs fn m 0x33 r) (hf : r.force = false) : exec (.jobStop fn m) s = .next (s.stopJob fn m r false) := by
  change execJobStop fn m s = _
  rw [execJobStop, h.serve (by rw [hf]; rfl)]

theorem exec_jobStopForce (h : s.Runs fn m 0x33 r) (hf : r.force = true) : exec (.jobStopForce fn m) s = .next (s.stopJob fn m r true) := by
  change execJobStopForce fn m s = _
  rw [execJobStopForce, h.serve hf]

theorem exec_stepControl (h : s.Runs fn m 0x34 r) :
    exec (.stepControl fn m) s = .next (
      let j := s.job fn
      let asked : DWord := BitVec.ofNat 64 (r.arg 0 8)
      let n : DWord := if j.inStep = true ∧ asked = j.step then asked + 1 else asked
      if !s.stepArgOk fn r then s.respond fn m r stBadArg []
      else (s.modJob fn (fun j => { j with
        settings := (requestSettings r).foldl (fun l x => putSetting l n x) j.settings })).respond fn m r stOk (leBytes n.toNat 8)) := by
  change execStepControl fn m s = _
  rw [execStepControl, h.serve rfl]

/-! ## A stop and a pause at a boundary -/

theorem jobFn_of_chassis {t : State} (h : t.chassis = s.chassis) (k : SlabId) : t.jobFn k = s.jobFn k := by
  have hmode : t.shared.mode = s.shared.mode := congrArg Chassis.mode h
  unfold State.jobFn State.dev
  rw [hmode]

/-- The steps closed before the device enters PAUSED. -/
def State.pausedSteps (s : State) (d : SlabId) : State :=
  ((s.closeSteps d true).nextEpoch d).modJob d (fun j => { j with primed := [], hostPause := false, ranOut := false })

theorem pausedSteps_chassis (s : State) (d : SlabId) : (s.pausedSteps d).chassis = s.chassis := by simp [State.pausedSteps]

/-- The job PAUSED, its pause counted. -/
def State.enterPaused (s : State) (d : SlabId) (why : Reason) : State :=
  (s.setJobState d .paused why).modSlab d (fun sl => sl.count Ctr.JOB_PAUSES 1)

theorem enterPaused_chassis (s : State) (d : SlabId) (why : Reason) : (s.enterPaused d why).chassis = s.chassis := by simp [State.enterPaused]

/-- The pause takes effect. -/
theorem exec_pausedEntry {s : State} {fn : SlabId} (hs : (s.job (s.dev fn)).state = .pausing)
    (hfw : (s.slab (s.dev fn)).camp.firmware = .running) (hb : s.boundaryReached (s.dev fn) (s.job (s.dev fn)).hostPause = true) :
    exec (.pausedEntry fn) s = .next (
      let d := s.dev fn
      let j := s.job d
      let z := if j.hostPause then (s.pausedSteps d).modLedger d j.step (fun x => { x with phases := x.phases ||| 64 }) else s.pausedSteps d
      let z := z.enterPaused d (if j.hostPause && j.needsHost then j.hostReason else j.reason)
      let z := if j.hostPause then z.askHost d j.step else z
      (z.beginForced d).completeAll (z.jobFn d) 0x31) :=
  if_pos (by rw [decide_eq_true hs, decide_eq_true hfw, hb]; rfl)

theorem exec_pausedEntry_of_not {s : State} {fn : SlabId} (h : (s.job (s.dev fn)).state ≠ .pausing
    ∨ (s.slab (s.dev fn)).camp.firmware ≠ .running ∨ s.boundaryReached (s.dev fn) (s.job (s.dev fn)).hostPause = false) :
    exec (.pausedEntry fn) s = .next s := by
  refine if_neg ?_
  rcases h with h | h | h <;> simp [h]

theorem exec_jobStopEnd {s : State} {fn : SlabId} (hs : (s.job (s.dev fn)).state = .stopping)
    (hfw : (s.slab (s.dev fn)).camp.firmware = .running)
    (hb : s.boundaryReached (s.dev fn) ((s.job (s.dev fn)).stopAsked || (s.job (s.dev fn)).needsHost) = true) :
    exec (.jobStopEnd fn) s = .next (
      let d := s.dev fn
      (((s.endJob d).beginForced d).completeAll (s.jobFn d) 0x31).completeAll (s.jobFn d) 0x33) :=
  if_pos (by rw [decide_eq_true hs, decide_eq_true hfw, hb]; rfl)

theorem exec_jobStopEnd_of_not {s : State} {fn : SlabId} (h : (s.job (s.dev fn)).state ≠ .stopping
    ∨ (s.slab (s.dev fn)).camp.firmware ≠ .running
    ∨ s.boundaryReached (s.dev fn) ((s.job (s.dev fn)).stopAsked || (s.job (s.dev fn)).needsHost) = false) :
    exec (.jobStopEnd fn) s = .next s := by
  refine if_neg ?_
  rcases h with h | h | h <;> simp [h]

/-! ## JOB_STOP by the job's state -/

theorem stopJob_of_idle (s : State) (fn : SlabId) (m : Fin 4) (r : Request) (force : Bool) (h : (s.job fn).state = .loaded ∨ (s.job fn).state = .empty) :
    s.stopJob fn m r force = s.respond fn m r stOk [] := by
  unfold State.stopJob
  dsimp only
  rcases h with h | h <;> rw [h]

theorem stopJob_of_paused (s : State) (fn : SlabId) (m : Fin 4) (r : Request) (force : Bool) (h : (s.job fn).state = .paused) :
    s.stopJob fn m r force = (s.endJob fn).respond fn m r stOk [] := by
  unfold State.stopJob
  dsimp only
  rw [h]

/-- The hold that a forced stop asks for. -/
def State.askStop (s : State) (fn : SlabId) : State := (s.modJob fn (fun j => { j with stopAsked := true })).raise (s.dev fn) 0x19 none

theorem stopJob_of_stopping (s : State) (fn : SlabId) (m : Fin 4) (r : Request) (force : Bool) (h : (s.job fn).state = .stopping) :
    s.stopJob fn m r force = (if force then s.askStop fn else s).accept fn m r stAccepted true [] := by
  unfold State.stopJob
  dsimp only
  rw [h]
  rfl

theorem stopJob_of_running (s : State) (fn : SlabId) (m : Fin 4) (r : Request) (force : Bool)
    (h : (s.job fn).state = .running ∨ (s.job fn).state = .pausing) :
    s.stopJob fn m r force = (if force then (s.setJobState fn .stopping .none).askStop fn else s.setJobState fn .stopping .none).accept fn m r
      stAccepted true [] := by
  unfold State.stopJob
  dsimp only
  rcases h with h | h <;> rw [h] <;> rfl

end Sys2Proof.Machine

namespace Sys2Proof.Proofs

open Sys2Proof.Machine

/-- Settles O37: each command goes by the job's state, and a stop and a pause take effect at a boundary. -/
theorem jobCommandsMoveTheJob : Obligations.JobCommandsMoveTheJob := by
  unfold Obligations.JobCommandsMoveTheJob
  intro s fn m r j
  refine ⟨fun h hbad => ?_, fun im h him hhost => ⟨fun hcover => ?_, fun hgroups hmcast => ?_⟩,
    fun h => ⟨fun hs => ?_, fun hs hself => ?_, fun hs hself => ?_⟩,
    fun h => ⟨fun hp hq => ?_, fun hp hwhy => ?_, fun hp hwhy hhost hforced => ?_, fun hp hwhy hhost hforced => ?_, fun hp hwhy hhost => ?_,
      fun hp hwhy => ?_⟩,
    fun h hf => ?_, fun h hf => ?_, fun h hok => ?_, fun h hbad => ?_, ?_, fun h => ⟨?_, ?_⟩⟩
  · cases him : s.image fn with
    | none => exact exec_jobStart_of_none h him
    | some im =>
      rw [exec_jobStart_of_image h him, if_pos (hbad.resolve_left (by rw [him]; exact Option.some_ne_none im))]
  · rw [exec_jobStart_of_image h him, if_neg (Bool.eq_false_iff.mp hhost), if_pos (by rw [← Bool.not_and, hcover]; rfl)]
  · rw [exec_jobStart_of_image h him, if_neg (Bool.eq_false_iff.mp hhost), if_neg (by rw [hgroups, hmcast]; exact Bool.false_ne_true)]
  · rw [exec_jobPause h, if_pos hs]
  · rw [exec_jobPause h, if_neg hs, if_pos hself]
  · rw [exec_jobPause h, if_neg hs, if_neg hself]
  · rw [exec_jobResume h, if_neg hp, if_neg hq]
  · rw [exec_jobResume h, if_pos hp, if_neg]
    rcases hwhy with hw | hw
    · rw [decide_eq_false hw]; exact Bool.false_ne_true
    · rw [show (s.job fn).hostPause = true from hw, Bool.and_comm]; exact Bool.false_ne_true
  · rw [exec_jobResume h, if_pos hp, if_pos, withdrawPause_of_forced hforced]
    rw [decide_eq_true hwhy, show (s.job fn).hostPause = false from hhost]; rfl
  · rw [exec_jobResume h, if_pos hp, if_pos, withdrawPause_of_not_forced hforced]
    rw [decide_eq_true hwhy, show (s.job fn).hostPause = false from hhost]; rfl
  · rw [exec_jobResume h, if_neg (by rw [hp]; exact JobState.noConfusion), if_pos hp, if_pos]
    rw [decide_eq_true hwhy, show (s.job fn).needsHost = false from hhost]; rfl
  · rw [exec_jobResume h, if_neg (by rw [hp]; exact JobState.noConfusion), if_pos hp, if_neg]
    rcases hwhy with hw | hw
    · rw [decide_eq_false hw]; exact Bool.false_ne_true
    · rw [show (s.job fn).needsHost = true from hw, Bool.and_comm]; exact Bool.false_ne_true
  · rw [exec_jobStop h hf]
    exact ⟨fun hs => congrArg _ (stopJob_of_idle _ _ _ _ _ hs), fun hs => congrArg _ (stopJob_of_stopping _ _ _ _ _ hs),
      fun hs => congrArg _ (stopJob_of_paused _ _ _ _ _ hs), fun hs => congrArg _ (stopJob_of_running _ _ _ _ _ hs)⟩
  · rw [exec_jobStopForce h hf]
    refine ⟨fun hs => congrArg _ (stopJob_of_idle _ _ _ _ _ hs), fun hs => congrArg _ (stopJob_of_paused _ _ _ _ _ hs),
      fun hs => congrArg _ (stopJob_of_stopping _ _ _ _ _ hs), fun hs => ?_⟩
    rw [stopJob_of_running _ _ _ _ _ hs, if_pos rfl, State.askStop, dev_setJobState]
  · rw [exec_stepControl h]
    exact congrArg _ (if_neg (by rw [hok]; exact Bool.false_ne_true))
  · rw [exec_stepControl h]
    exact congrArg _ (if_pos (by rw [hbad]; rfl))
  · intro d jd hfw
    refine ⟨fun hs hb => exec_jobStopEnd hs hfw hb, fun hbad => exec_jobStopEnd_of_not (hbad.imp_right .inr),
      fun hbad => exec_pausedEntry_of_not (hbad.imp_right .inr), fun hs hhost hb => ?_, fun hs hhost hb => ?_⟩
    · have hz : ((s.pausedSteps d).enterPaused d jd.reason).chassis = s.chassis := (enterPaused_chassis ..).trans (pausedSteps_chassis ..)
      rw [exec_pausedEntry hs hfw (by rw [show (s.job (s.dev fn)).hostPause = false from hhost]; exact hb)]
      dsimp only
      rw [show (s.job (s.dev fn)).hostPause = false from hhost, if_neg Bool.false_ne_true, if_neg Bool.false_ne_true, Bool.false_and,
        if_neg Bool.false_ne_true, jobFn_of_chassis hz]
      rfl
    · intro z w
      rw [exec_pausedEntry hs hfw (by rw [show (s.job (s.dev fn)).hostPause = true from hhost]; exact hb)]
      dsimp only
      rw [show (s.job (s.dev fn)).hostPause = true from hhost, if_pos rfl, if_pos rfl, Bool.true_and,
        jobFn_of_chassis (s := s) (by simp [enterPaused_chassis, pausedSteps_chassis])]
      rfl
  · exact exec_jobStopEnd_of_not (.inr (.inl h))
  · exact exec_pausedEntry_of_not (.inr (.inl h))

end Sys2Proof.Proofs
end

section
/-! # The commands that report and read (R360, R362, R402, R403, Tables 15.7 and 15.12) -/

namespace Sys2Proof.Proofs

open Sys2Proof.Machine

/-- A number of records that a response holds: at most `room` without a buffer. -/
theorem not_too_many {n most room : Nat} {host : Bool} (hlow : 1 ≤ n) (hhigh : n ≤ most) (hroom : n ≤ room ∨ host = true) :
    ¬ (n = 0 ∨ most < n ∨ (room < n ∧ host = false)) := by
  rintro (h0 | hmany | ⟨hlong, hinline⟩)
  · omega
  · omega
  · rcases hroom with hshort | hhost
    · omega
    · exact absurd (hinline.symm.trans hhost) Bool.false_ne_true

theorem stateIsReported : Claims.StateIsReported := by
  intro s fn m r
  refine ⟨fun h => ?_, fun h => ?_, fun h hlow hhigh hroom => ?_, fun h hbad => ?_, fun h hid hkey => ?_, fun h hbad => ?_, fun h => ⟨fun h0 => ?_,
    fun h1 => ?_, fun h2 => ?_⟩⟩
  · change execIdentify fn m s = _
    rw [execIdentify, h.serve rfl]
  · change execGetStatus fn m s = _
    rw [execGetStatus, h.serve rfl]
  · change execTelemetry fn m s = _
    rw [execTelemetry, h.serve rfl]
    exact congrArg _ (if_neg (not_too_many hlow hhigh hroom))
  · change execTelemetry fn m s = _
    rw [execTelemetry, h.serve rfl]
    exact congrArg _ (if_pos (hbad.imp_right .inl))
  · change execAttest fn m s = _
    rw [execAttest, h.serve rfl]
    exact congrArg _ (if_neg (by rw [hid, hkey]; exact Bool.false_ne_true))
  · change execAttest fn m s = _
    rw [execAttest, h.serve rfl]
    exact congrArg _ (if_pos (Bool.or_eq_true_iff.mpr hbad))
  · change execGetCert fn m s = _
    rw [execGetCert, h.serve rfl, h0]
    rfl
  · change execGetCert fn m s = _
    rw [execGetCert, h.serve rfl, h1]
    rfl
  · change execGetCert fn m s = _
    rw [execGetCert, h.serve rfl]
    obtain ⟨n, hn⟩ : ∃ n, r.arg 0 1 = n + 2 := ⟨r.arg 0 1 - 2, by omega⟩
    rw [hn]
    rfl

theorem recordsAreRead : Claims.RecordsAreRead := by
  intro s fn m r
  refine ⟨fun h hlow hhigh hroom => ?_, fun h hbad => ?_, fun h h1 h4 h0 hlow hhigh hroom => ?_, fun h h1 h4 h0 hhost => ?_,
    fun h hok hroom => ?_, fun h hbad => ?_, fun h hok => ?_⟩
  · change execLedgerRead fn m s = _
    rw [execLedgerRead, h.serve rfl]
    exact congrArg _ (if_neg (not_too_many hlow hhigh hroom))
  · change execLedgerRead fn m s = _
    rw [execLedgerRead, h.serve rfl]
    exact congrArg _ (if_pos (hbad.imp_right .inl))
  · change execFaultLogRead fn m s = _
    rw [execFaultLogRead, h.serve rfl]
    refine congrArg _ ((if_neg ?_).trans ((if_pos h0).trans (if_neg (not_too_many hlow hhigh hroom))))
    rintro (h | h) <;> contradiction
  · change execFaultLogRead fn m s = _
    rw [execFaultLogRead, h.serve rfl]
    refine congrArg _ ((if_neg ?_).trans ((if_neg (by omega)).trans ((if_pos h0).trans (if_neg (by rw [hhost]; exact Bool.noConfusion)))))
    rintro (h | h) <;> contradiction
  · change execCountersRead fn m s = _
    rw [execCountersRead, h.serve rfl]
    refine congrArg _ (if_neg ?_)
    rw [hok, Bool.not_true, Bool.false_or]
    rcases hroom with hshort | hhost
    · rw [decide_eq_false (Nat.not_lt.mpr hshort)]; exact Bool.false_ne_true
    · rw [hhost, Bool.not_true, Bool.and_false]; exact Bool.false_ne_true
  · change execCountersRead fn m s = _
    rw [execCountersRead, h.serve rfl]
    exact congrArg _ (if_pos (by rw [hbad]; rfl))
  · change execCountersClear fn m s = _
    rw [execCountersClear, h.serve rfl]
    exact congrArg _ (if_neg (by rw [hok]; exact Bool.false_ne_true))

/-- Settles O35. -/
theorem reportsAnswerTheirFields : Obligations.ReportsAnswerTheirFields := by
  unfold Obligations.ReportsAnswerTheirFields
  exact ⟨stateIsReported, recordsAreRead⟩

end Sys2Proof.Proofs
end

section
/-! # Images, objects and pages written by the host (R203, R353, R370, R371, R376, R381, R387) -/

namespace Sys2Proof.Machine

variable {s : State} {fn : SlabId} {m : Fin 4} {r : Request}

/-- A fold none of whose elements changes the state it starts from. -/
theorem foldl_keeps {α β : Type} {f : α → β → α} {a : α} {l : List β} (h : ∀ b ∈ l, f a b = a) : l.foldl f a = a := by
  induction l with
  | nil => rfl
  | cons b l ih =>
    rw [List.foldl_cons, h b List.mem_cons_self]
    exact ih (fun c hc => h c (List.mem_cons_of_mem b hc))

theorem slab_modDev {i k : SlabId} (h : k ∈ s.devSlabs i) (f : Slab → Slab) : (s.modDev i f).slab k = f (s.slab k) := by
  unfold State.devSlabs at h
  unfold State.modDev
  split at h
  · rw [List.mem_singleton.mp h]
    exact slab_modSlab_self ..
  · exact slab_modSlab_both s f k

/-! ## Images -/

theorem exec_loadImage (h : s.Runs fn m 0x10 r) (hload : r.unload = false) (hsplit : s.shared.mode = .split) (bulk : List Byte) :
    exec (.loadImage fn m bulk) s = .next ((s.imageInput fn r bulk).elim (s.respond fn m r stBadArg []) (fun bs =>
      match s.checkImage fn bs (r.arg 0 8) true with
      | .error e => s.rejectImage fn m r bs e
      | .ok x => (s.modJob fn (fun j => { j with incoming := some x.1 })).accept fn m r stAccepted true
          (loadDetail x.2 noSection noOffset x.1.digest))) := by
  change execLoadImage fn m bulk s = _
  rw [execLoadImage, h.serve (by rw [hload]; rfl)]
  refine congrArg _ ((if_neg (fun hjoin => ?_)).trans ?_)
  · exact absurd (hsplit.symm.trans hjoin.1) (by decide)
  · cases s.imageInput fn r bulk <;> rfl

theorem exec_verifyImage (h : s.Runs fn m 0x11 r) (bulk : List Byte) :
    exec (.verifyImage fn m bulk) s = .next ((s.imageInput fn r bulk).elim (s.respond fn m r stBadArg []) (fun bs =>
      match s.checkImage fn bs (r.arg 0 8) false with
      | .error e => s.rejectImage fn m r bs e
      | .ok x => (s.accept fn m r stAccepted true (loadDetail x.2 noSection noOffset x.1.digest)).complete fn r.tag stOk
          (loadDetail x.2 noSection noOffset x.1.digest))) := by
  change execVerifyImage fn m bulk s = _
  rw [execVerifyImage, h.serve rfl]
  cases s.imageInput fn r bulk <;> rfl

/-- The job without the image that was coming in. -/
def State.dropIncoming (s : State) (fn : SlabId) : State :=
  (s.modJob fn (fun j => { j with incoming := none })).modSlab fn (fun sl => sl.count Ctr.IMAGE_REJECTS 1)

theorem exec_loadImageComplete {im : Image} (hfw : (s.slab fn).camp.firmware = .running) (him : (s.slab fn).job.incoming = some im) :
    exec (.loadImageComplete fn) s = .next ((s.installImage fn im).elim
      (((s.func fn).outstanding.filter (fun o => decide (o.opcode = 0x10))).foldl (fun s o =>
        s.complete fn o.tag stNoSpace (loadDetail 0xFFFF noSection noOffset [])) (s.dropIncoming fn))
      (fun t => (t.modSlab fn (fun sl => sl.count Ctr.IMAGE_LOADS 1)).completeAll fn 0x10)) := by
  change execLoadImageComplete fn s = _
  unfold execLoadImageComplete
  rw [if_pos hfw, him]
  dsimp only
  cases s.installImage fn im with
  | some t => rfl
  | none =>
    have hfunc : (s.dropIncoming fn).func fn = s.func fn := by rw [State.dropIncoming, func_modSlab, State.modJob, func_modSlab]
    dsimp only [Option.elim_none]
    rw [← hfunc]
    rfl

theorem exec_loadImageUnload (h : s.Runs fn m 0x10 r) (hunload : r.unload = true) (hpayload : r.payload = List.replicate 16 0)
    (hhost : r.hostbuf = false) (hbar : r.bar2 = false) :
    exec (.loadImageUnload fn m) s = .next (match (s.job fn).state with
      | .empty => s.respond fn m r stOk []
      | .loaded => (s.unloadImage fn).respond fn m r stOk []
      | _ => s.respond fn m r stRefusedState []) := by
  change execLoadImageUnload fn m s = _
  rw [execLoadImageUnload, h.serve hunload]
  refine congrArg _ (if_neg ?_)
  rintro (h | h | h)
  · exact h hpayload
  · exact absurd h (Bool.eq_false_iff.mp hhost)
  · exact absurd h (Bool.eq_false_iff.mp hbar)

/-! ## Objects -/

theorem exec_mapObject (h : s.Runs fn m 0x20 r) (bulk : List Byte) :
    exec (.mapObject fn m bulk) s = .next (
      let o := parseObject r.payload
      (if s.mapArgOk fn o r.payload then s.mapData fn r bulk o else none).elim (s.respond fn m r stBadArg []) (fun data =>
        (s.mapObjects fn [o]).elim (s.respond fn m r stNoSpace []) (fun t =>
          (t.fillObject fn o data).accept fn m r stAccepted true
            (leBytes o.pages 4 ++ leBytes (t.parityFrames fn - s.parityFrames fn) 4)))) := by
  change execMapObject fn m bulk s = _
  rw [execMapObject, h.serve rfl]

theorem exec_unmapObject (h : s.Runs fn m 0x21 r) :
    exec (.unmapObject fn m) s = .next ((s.objectNo fn (r.arg 0 2)).elim (s.respond fn m r stNotFound []) (fun o =>
      if s.imageNames fn o.object then s.respond fn m r stRefusedState [] else (s.unmapObject fn o).respond fn m r stOk [])) := by
  change execUnmapObject fn m s = _
  rw [execUnmapObject, h.serve rfl]
  cases s.objectNo fn (r.arg 0 2) <;> rfl

theorem exec_placeHint (h : s.Runs fn m 0x22 r) :
    exec (.placeHint fn m) s = .next ((s.objectNo fn (r.arg 0 2)).elim (s.respond fn m r stNotFound []) (fun o =>
      if classOk { o with hint := r.arg 2 1 } && decide (r.arg 3 1 ≤ 7) then
        ((s.modSlab (s.objectSlab fn o) (fun sl => sl.modMem (fun x =>
          { x with hints := x.hints.filter (fun y => decide (y.1 ≠ o.object)) ++ [(o.object, r.arg 2 1, r.arg 3 1)] }))).dropUnhinted fn o
            (r.arg 2 1)).respond fn m r stOk []
      else s.respond fn m r stBadArg [])) := by
  change execPlaceHint fn m s = _
  rw [execPlaceHint, h.serve rfl]
  cases s.objectNo fn (r.arg 0 2) <;> rfl

theorem mem_foldl_insertNew {α : Type} [DecidableEq α] {a : α} {l : List α} (h : a ∈ l) (acc : List α) :
    a ∈ l.foldl (fun l k => insertNew k l) acc := by
  have hkeep (l acc : List α) (hacc : a ∈ acc) : a ∈ l.foldl (fun l k => insertNew k l) acc := by
    induction l generalizing acc with
    | nil => exact hacc
    | cons b l ih => exact ih _ (mem_insertNew_of_mem hacc)
  induction l generalizing acc with
  | nil => cases h
  | cons b l ih =>
    rcases List.mem_cons.mp h with rfl | h
    · exact hkeep l _ (mem_insertNew ..)
    · exact ih h _

/-! ## Pages written by the host -/

theorem exec_hostPageWrite {vpn : BitVec 27} {data : List Byte} {k : SlabId} {e : DWord} (hdev : s.dev fn = fn) (hlen : data.length = 2097152)
    (hfw : (s.slab fn).camp.firmware = .running) (hmay : s.hostMayWrite fn vpn.toNat = true) (hpte : s.pte fn vpn.toNat = some (k, e)) :
    exec (.hostPageWrite fn vpn data) s = .next (
      let z := if (s.slab k).stackUp (pteStack e) = true then s else s.rehome k vpn.toNat e
      (((z.writeRange fn (vpn.toNat * 2097152) data).refill fn vpn.toNat).modJob fn (fun j =>
        { j with lostPages := j.lostPages.filter (fun x => decide (x ≠ vpn.toNat)) })).restored fn) := by
  change execHostPageWrite fn vpn data s = _
  unfold execHostPageWrite
  dsimp only
  have hlen' : data.length = pageBytes := hlen
  rw [if_pos (by rw [decide_eq_true hdev, decide_eq_true hlen', decide_eq_true hfw, hmay]; rfl), hpte]
  rfl

end Sys2Proof.Machine

namespace Sys2Proof.Proofs

open Sys2Proof.Machine

theorem imagesAreCheckedThenInstalled : Claims.ImagesAreCheckedThenInstalled := by
  intro s fn m r bulk bs
  refine ⟨fun h hload hsplit hin => ⟨fun e hbad => ?_, fun im n hok => ?_⟩, fun h hload hin hsplit => ?_, fun h hin => ⟨fun e hbad => ?_, fun im n hok => ?_⟩,
    fun im hfw him => ⟨fun t ht => ?_, fun hnone hout => ?_⟩, fun h hunload hpayload hhost hbar => ⟨fun hs => ?_, fun hs => ?_, fun hs => ?_⟩⟩
  · rw [exec_loadImage h hload hsplit, hin, Option.elim_some, hbad]
  · rw [exec_loadImage h hload hsplit, hin, Option.elim_some, hok]
  · rw [exec_loadImage h hload hsplit, hin]
    rfl
  · rw [exec_verifyImage h, hin, Option.elim_some, hbad]
  · rw [exec_verifyImage h, hin, Option.elim_some, hok]
  · rw [exec_loadImageComplete hfw him, ht]
    rfl
  · have hnone' : (s.func fn).outstanding.filter (fun o => decide (o.opcode = 0x10)) = [] := by
      simpa [List.filter_eq_nil_iff] using hout
    rw [exec_loadImageComplete hfw him, hnone, hnone']
    rfl
  · rw [exec_loadImageUnload h hunload hpayload hhost hbar, hs]
  · rw [exec_loadImageUnload h hunload hpayload hhost hbar, hs]
  · rw [exec_loadImageUnload h hunload hpayload hhost hbar, hs]

theorem objectsAreMappedAndWritten : Claims.ObjectsAreMappedAndWritten := by
  intro s fn m r bulk data
  refine ⟨fun h => ?_, fun hfw => if_pos hfw, fun hfw => if_neg hfw, fun h => ⟨fun hnone => ?_, fun o ho => ⟨fun hnamed => ?_, fun hfree => ?_⟩⟩,
    fun h => ⟨fun hnone => ?_, fun o ho hclass hprot => ?_⟩, fun o hint k p q e hk hp hlow hhigh hpte hbivouac hlocal => ?_,
    fun vpn hbad => if_neg ?_, fun vpn k e hdev hlen hfw hmay hpte => exec_hostPageWrite hdev hlen hfw hmay hpte, fun v hv => ?_⟩
  · intro o
    refine ⟨fun hbad => ?_, fun hok hdata => ⟨fun hfull => ?_, fun t ht => ?_⟩⟩
    · rw [exec_mapObject h]
      dsimp only
      rw [hbad]
      rfl
    · rw [exec_mapObject h]
      dsimp only
      rw [if_pos hok, hdata, Option.elim_some, hfull]
      rfl
    · rw [exec_mapObject h]
      dsimp only
      rw [if_pos hok, hdata, Option.elim_some, ht]
      rfl
  · rw [exec_unmapObject h, hnone]
    rfl
  · rw [exec_unmapObject h, ho, Option.elim_some, if_pos hnamed]
  · rw [exec_unmapObject h, ho, Option.elim_some, if_neg (Bool.eq_false_iff.mp hfree)]
  · rw [exec_placeHint h, hnone]
    rfl
  · rw [exec_placeHint h, ho, Option.elim_some, if_pos (by rw [hclass, decide_eq_true hprot]; rfl)]
  · unfold State.dropUnhinted
    extract_lets mine kept
    have hmine : mine p.2.1 = true := by simp [mine, pageBytes, hlow, hhigh]
    have hkept : kept p.2.1 = false := by
      dsimp only [kept]
      rw [hpte]
      dsimp only
      rw [decide_eq_false hbivouac, decide_eq_false hlocal]
      rfl
    rw [slab_modDev hk]
    refine mem_foldl_insertNew (List.mem_map_of_mem (List.mem_filter.mpr ⟨hp, ?_⟩)) _
    rw [hmine, hkept]
    rfl
  · rcases hbad with h | h
    · rw [h, Bool.and_false]; exact Bool.false_ne_true
    · simp [show ¬ data.length = pageBytes from h]
  · refine foldl_keeps (fun k hk => ?_)
    have hnone : (s.slab k).mem.residence.filter (fun p => decide (p.2.1 = v)) = [] := by
      simpa [List.filter_eq_nil_iff] using hv k hk
    rw [hnone]
    rfl

/-- Settles O36. -/
theorem imagesAndObjectsTakeTheirPlace : Obligations.ImagesAndObjectsTakeTheirPlace := by
  unfold Obligations.ImagesAndObjectsTakeTheirPlace
  exact ⟨imagesAreCheckedThenInstalled, objectsAreMappedAndWritten⟩

end Sys2Proof.Proofs
end

section
/-! # Self-tests, calibrations, firmware images and the mode (R4, R32, R386, R408 to R412, R427, R428, R430) -/

namespace Sys2Proof.Machine

variable {s : State} {fn : SlabId} {m : Fin 4} {r : Request}

/-! ## Operations -/

theorem startOperation_of_bad_target (h : 4 < r.arg 0 1) : s.startOperation fn m r = s.respond fn m r stBadArg [] := if_pos h

theorem startOperation_at_once (ht : r.arg 0 1 ≤ 4) (h : (s.job fn).state.runsSteps = false ∨ runsBeside r.opcode (r.arg 0 1) = true) :
    s.startOperation fn m r = (s.addOperation fn m r false false true).accept fn m r stAccepted true [] := by
  unfold State.startOperation
  dsimp only
  rw [if_neg (Nat.not_lt.mpr ht), if_pos]
  rcases h with h | h
  · rw [h]; rfl
  · rw [h, Bool.or_true]

section
variable (ht : r.arg 0 1 ≤ 4) (hsteps : (s.job fn).state.runsSteps = true) (hbeside : runsBeside r.opcode (r.arg 0 1) = false)
include ht hsteps hbeside

/-- An operation that must wait for a boundary, by what waits already and by FORCE. -/
theorem startOperation_later :
    s.startOperation fn m r =
      if (s.slab fn).camp.operations.any (fun o => o.deferred || o.forced) then s.respond fn m r stBusy []
      else if r.force then
        if (s.job fn).state = .running then ((s.addOperation fn m r false true false).accept fn m r stAccepted false []).setJobState fn .pausing .selfTest
        else (s.addOperation fn m r false true false).accept fn m r stAccepted false []
      else ((s.addOperation fn m r true false false).modSlab fn (fun sl => sl.count Ctr.DEFERRED_OPS 1)).accept fn m r stDeferred false [] := by
  unfold State.startOperation
  dsimp only
  rw [if_neg (Nat.not_lt.mpr ht), if_neg (by rw [hsteps, hbeside]; exact Bool.false_ne_true)]

theorem startOperation_of_waiting (h : ∃ o ∈ (s.slab fn).camp.operations, o.deferred = true ∨ o.forced = true) :
    s.startOperation fn m r = s.respond fn m r stBusy [] := by
  obtain ⟨o, ho, hwaits⟩ := h
  rw [startOperation_later ht hsteps hbeside, if_pos (List.any_eq_true.mpr ⟨o, ho, Bool.or_eq_true_iff.mpr hwaits⟩)]

theorem startOperation_of_none_waiting (h : ∀ o ∈ (s.slab fn).camp.operations, o.deferred = false ∧ o.forced = false) :
    s.startOperation fn m r =
      if r.force then
        if (s.job fn).state = .running then ((s.addOperation fn m r false true false).accept fn m r stAccepted false []).setJobState fn .pausing .selfTest
        else (s.addOperation fn m r false true false).accept fn m r stAccepted false []
      else ((s.addOperation fn m r true false false).modSlab fn (fun sl => sl.count Ctr.DEFERRED_OPS 1)).accept fn m r stDeferred false [] := by
  rw [startOperation_later ht hsteps hbeside, if_neg]
  intro hany
  obtain ⟨o, ho, hwaits⟩ := List.any_eq_true.mp hany
  obtain ⟨hdeferred, hforced⟩ := h o ho
  rw [hdeferred, hforced] at hwaits
  exact Bool.false_ne_true hwaits

end

theorem takesUp_of_deferredDue (h : s.deferredDue fn = true) (k : Fin 4) : s.takesUp fn k = false := by
  unfold State.takesUp
  dsimp only
  rw [h, Bool.not_true, Bool.and_false, Bool.false_and]

theorem stamp_congr {t : State} {i : SlabId} (hpower : (t.slab i).camp.powerOn = (s.slab i).camp.powerOn)
    (hreleased : (t.slab i).camp.releasedAt = (s.slab i).camp.releasedAt) (hcycle : t.cycle i = s.cycle i) (hroot : t.root i = s.root i) :
    t.stamp i = s.stamp i := by
  unfold State.stamp State.stampAt State.rootStamp State.stampOf
  rw [hpower, hreleased, hcycle, hroot]

/-- The deferred operations of the slab begun, and the command of one of them committed. -/
def State.deferredBegun (s : State) (fn : SlabId) (o : Operation) : State :=
  (s.modSlab fn (fun sl => sl.modCamp (fun c => { c with
    operations := c.operations.map (fun x => if x.deferred then { x with running := true } else x) }))).modFunc fn (fun f => { f with
      outstanding := f.outstanding.map (fun x => if x.tag = o.tag then { x with committed := true } else x) })

theorem stamp_deferredBegun (s : State) (fn : SlabId) (o : Operation) : (s.deferredBegun fn o).stamp fn = s.stamp fn := by
  have hslab : (s.deferredBegun fn o).slab fn = (s.slab fn).modCamp (fun c => { c with
      operations := c.operations.map (fun x => if x.deferred then { x with running := true } else x) }) := by
    rw [State.deferredBegun, slab_modFunc, slab_modSlab_self]
  have hroots : (s.deferredBegun fn o).roots = s.roots := by cases fn <;> rfl
  exact stamp_congr (by rw [hslab]; rfl) (by rw [hslab]; rfl) (by rw [State.cycle, hslab]; rfl) (root_of_roots hroots fn)

theorem exec_deferredStart {o : Operation} (hfw : (s.slab fn).camp.firmware = .running) (hdue : s.deferredDue fn = true)
    (ho : (s.slab fn).camp.operations.find? (fun o => o.deferred && !o.running) = some o) :
    exec (.deferredStart fn) s = .next ((s.deferredBegun fn o).post fn
      { stamp := s.stamp fn, type := evtDeferredStart, status := 0, mailbox := BitVec.ofNat 8 o.mailbox.val, tag := o.tag
        opcode := o.opcode, detail := [] }) := by
  change execDeferredStart fn s = _
  unfold execDeferredStart
  rw [if_pos (by rw [decide_eq_true hfw, hdue]; rfl), ho, ← stamp_deferredBegun s fn o]
  rfl

theorem exec_operationComplete_calibration {o : Operation} (tested : Word) (hfw : (s.slab fn).camp.firmware = .running)
    (ho : (s.slab fn).camp.operations.find? (fun o => o.running && s.mayEnd fn o) = some o) (hop : o.opcode = 0x61) (hlive : o.live = true)
    (hforced : o.forced = false) :
    exec (.operationComplete fn tested []) s = .next ((s.modSlab fn (fun sl => sl.modCamp (fun c => { c with
      operations := c.operations.erase o }))).complete fn o.tag stOk (leBytes tested.toNat 4 ++ leBytes 0 4 ++ leBytes allOnes64.toNat 8)) := by
  change execOperationComplete fn tested [] s = _
  unfold execOperationComplete
  rw [if_pos hfw, ho]
  dsimp only [List.foldl_nil]
  rw [hforced, Bool.false_and, Bool.false_and, if_neg Bool.false_ne_true, if_pos hlive,
    if_neg (by rw [hop]; exact fun h => absurd h.1 (by decide))]
  rfl

/-! ## Firmware images -/

theorem exec_fwBegin (h : s.Runs fn m 0x70 r) :
    exec (.fwBegin fn m) s = .next (if !fwTotalOk (r.arg 0 4) then s.respond fn m r stBadArg []
      else (s.modSlab fn (fun sl => sl.modCamp (fun c =>
        { c with session := some { total := r.arg 0 4, bytes := [], activate := false, committing := false } }))).respond fn m r stOk []) := by
  change execFwBegin fn m s = _
  rw [execFwBegin, h.serve rfl]

theorem exec_fwChunk (h : s.Runs fn m 0x71 r) (bulk : List Byte) :
    exec (.fwChunk fn m bulk) s = .next ((s.slab fn).camp.session.elim (s.respond fn m r stRefusedState []) (fun x =>
      ((s.chunkData fn r bulk).bind (x.chunk (r.arg 0 4))).elim (s.respond fn m r stBadArg []) (fun y =>
        (s.modSlab fn (fun sl => sl.modCamp (fun c => { c with session := some y }))).respond fn m r stOk []))) := by
  change execFwChunk fn m bulk s = _
  rw [execFwChunk, h.serve rfl]
  cases (s.slab fn).camp.session with
  | none => rfl
  | some x =>
    dsimp only [Option.elim_some]
    cases (s.chunkData fn r bulk).bind (x.chunk (r.arg 0 4)) <;> rfl

theorem commitBusy_of_session {x : FwSession} (h : (s.slab fn).camp.session = some x) : s.commitBusy fn = x.committing := by
  unfold State.commitBusy
  rw [h]
  rfl

theorem exec_fwCommit {x : FwSession} (h : s.Runs fn m 0x72 r) (hact : r.arg 0 1 ≤ 1)
    (hstate : r.arg 0 1 = 0 ∨ (s.job fn).state = .empty ∨ (s.job fn).state = .loaded) (hx : (s.slab fn).camp.session = some x)
    (hidle : x.committing = false) :
    exec (.fwCommit fn m) s = .next ((x.fault (s.slab fn).camp.flash.minSvn).elim
      ((s.modSlab fn (fun sl => sl.modCamp (fun c =>
        { c with session := some { x with activate := decide (r.arg 0 1 = 1), committing := true }
                 flash := { c.flash with fwCommitted := false, fwImage := [] } }))).accept fn m r stAccepted true [])
      (fun e => s.respond fn m r e [])) := by
  change execFwCommit fn m s = _
  rw [execFwCommit, h.serve rfl]
  dsimp only
  rw [if_neg (Nat.not_lt.mpr hact), if_neg (by rw [commitBusy_of_session hx, hidle]; exact Bool.false_ne_true), if_neg, hx]
  · dsimp only
    cases x.fault (s.slab fn).camp.flash.minSvn <;> rfl
  · rintro ⟨hone, hempty, hloaded⟩
    rcases hstate with h0 | h1 | h1
    · omega
    · exact hempty h1
    · exact hloaded h1

theorem exec_fwCommitComplete {x : FwSession} (hfw : (s.slab fn).camp.firmware = .running) (hx : (s.slab fn).camp.session = some x)
    (hbusy : x.committing = true) :
    exec (.fwCommitComplete fn) s = .next (
      let z := s.modSlab fn (fun sl => sl.commitFirmware x.bytes)
      if x.activate then z.modSlab fn (fun sl => sl.modCamp (fun c => c.restart 3)) else z.completeAll fn 0x72) := by
  change execFwCommitComplete fn s = _
  unfold execFwCommitComplete
  rw [if_pos ⟨hfw, (commitBusy_of_session hx).trans hbusy⟩, hx]

/-! ## The mode -/

theorem exec_setMode (h : s.Runs fn m 0x90 r) (harg : r.arg 0 1 ≤ 1) :
    exec (.setMode fn m) s = .next (if !s.noImages then s.respond fn m r stRefusedState []
      else if (s.slab fn.other).camp.firmware ≠ .running then s.respond fn m r stInternal []
      else State.accept { s with shared := { s.shared with setMode := some (fn, r.tag, m, if r.arg 0 1 = 1 then .joined else .split) } }
        fn m r stAccepted true []) := by
  change execSetMode fn m s = _
  rw [execSetMode, h.serve rfl]
  exact congrArg _ (if_neg (Nat.not_lt.mpr harg))

theorem exec_setModeComplete {x : SlabId × Half × Fin 4 × Mode} (h0 : s.slab0.camp.firmware = .running) (h1 : s.slab1.camp.firmware = .running)
    (hx : s.shared.setMode = some x) :
    exec .setModeComplete s = .next (
      let record (sl : Slab) : Slab := (sl.writeRecord 2 [modeCode x.2.2.2]).modJob (fun j => if x.2.2.2 = .split then { j with colLost := false } else j)
      let z := (s.modSlab .s0 record).modSlab .s1 record
      State.completeAll { z with shared := { z.shared with setMode := none } } x.1 0x90) := by
  change execSetModeComplete s = _
  unfold execSetModeComplete
  rw [if_pos ⟨h0, h1⟩, hx]

end Sys2Proof.Machine

namespace Sys2Proof.Proofs

open Sys2Proof.Machine

theorem operationsRunOrAreDeferred : Claims.OperationsRunOrAreDeferred := by
  intro s fn m r st
  refine ⟨fun h => ?_, fun h => ?_, startOperation_of_bad_target, startOperation_at_once,
    fun ht hsteps hbeside => ⟨startOperation_of_waiting ht hsteps hbeside, fun hnone => ⟨fun hf => ?_, fun hf hrun => ?_⟩⟩,
    fun hfw hdue o ho => ⟨takesUp_of_deferredDue hdue, exec_deferredStart hfw hdue ho⟩,
    fun tested o hfw ho hop hlive hforced => exec_operationComplete_calibration tested hfw ho hop hlive hforced⟩
  · change execSelfTest fn m s = _
    rw [execSelfTest, h.serve rfl]
  · change execCalibrate fn m s = _
    rw [execCalibrate, h.serve rfl]
  · rw [startOperation_of_none_waiting ht hsteps hbeside hnone, if_neg (Bool.eq_false_iff.mp hf)]
    rfl
  · rw [startOperation_of_none_waiting ht hsteps hbeside hnone, if_pos hf, if_pos hrun]

theorem firmwareAndModeAreCommitted : Claims.FirmwareAndModeAreCommitted := by
  intro s fn m r bulk camp
  refine ⟨fun h => ⟨fun hbad => ?_, fun hok => ?_⟩, fun h => ⟨fun hnone => ?_, fun x bs hx hdata hoff hfit => ?_, fun x bs hx hdata hbad => ?_⟩,
    fun x h hact hstate hx hidle => ⟨fun e he => ?_, fun hok => ?_⟩, fun x hfw hx hbusy => ?_,
    fun h harg => ⟨fun him => ?_, fun him hpeer => ?_⟩, fun x h0 h1 hx => exec_setModeComplete h0 h1 hx⟩
  · rw [exec_fwBegin h, hbad]
    rfl
  · rw [exec_fwBegin h, hok]
    rfl
  · rw [exec_fwChunk h, hnone]
    rfl
  · rw [exec_fwChunk h, hx, Option.elim_some, hdata, Option.bind_some, FwSession.chunk, if_pos ⟨hoff, by rw [hoff]; exact hfit⟩]
    rfl
  · have hchunk : x.chunk (r.arg 0 4) bs = none := by
      rw [FwSession.chunk, if_neg]
      rintro ⟨hoff, hfit⟩
      rcases hbad with h | h
      · exact h hoff
      · omega
    rw [exec_fwChunk h, hx, Option.elim_some, hdata, Option.bind_some, hchunk]
    rfl
  · rw [exec_fwCommit h hact hstate hx hidle, he]
    rfl
  · rw [exec_fwCommit h hact hstate hx hidle, hok]
    rfl
  · intro z
    rw [exec_fwCommitComplete hfw hx hbusy]
    exact ⟨fun hact => congrArg _ (if_neg (Bool.eq_false_iff.mp hact)), fun hact => congrArg _ (if_pos hact)⟩
  · rw [exec_setMode h harg, him]
    rfl
  · rw [exec_setMode h harg, him, Bool.not_true, if_neg Bool.false_ne_true, if_neg (not_not_intro hpeer)]

/-- Settles O39. -/
theorem maintenanceCommandsTakeEffect : Obligations.MaintenanceCommandsTakeEffect := by
  unfold Obligations.MaintenanceCommandsTakeEffect
  exact ⟨operationsRunOrAreDeferred, firmwareAndModeAreCommitted⟩

end Sys2Proof.Proofs
end

section
/-! # LINK_CONFIG, EXPORT_CONFIG and FEED_CONFIG (R301, R306, R311, R315, R319, R324, R331, R335, R404, R420) -/

namespace Sys2Proof.Machine

variable {s : State} {fn : SlabId} {m : Fin 4} {r : Request}

/-- The slab with its link tables changed. -/
def State.relinked (s : State) (fn : SlabId) (g : Links → Links) : State := s.modSlab fn (fun sl => sl.modLinks g)

/-! ## LINK_CONFIG -/

theorem exec_linkConfigEndpoint (h : s.Runs fn m 0xB0 r) (hop : r.op = 0) :
    exec (.linkConfigEndpoint fn m) s = .next (if !s.linkIdle fn then s.respond fn m r stRefusedState []
      else (s.relinked fn (fun l => { l with endpoint := BitVec.ofNat 16 r.arg0 })).linkOk fn m r) := by
  change execLinkConfigEndpoint fn m s = _
  rw [execLinkConfigEndpoint, h.serve (by rw [decide_eq_true hop]; rfl)]
  exact congrArg _ (if_neg (not_not_intro hop))

theorem exec_linkConfigPort (h : s.Runs fn m 0xB0 r) (hop : r.op = 1) :
    exec (.linkConfigPort fn m) s = .next (
      if 16 ≤ r.sel ∨ 1 < r.arg0 ∨ quotasOk r.quotas = false ∨ r.arg 28 16 ≠ 0 then s.respond fn m r stBadArg []
      else
        let z := s.modSlab fn (fun sl => sl.modPort r.sel (fun x => x.setQuotas r.quotas))
        (if r.arg0 = 1 then z.modSlab fn (fun sl => sl.modPort r.sel (fun x => { x with enabled := true, training := x.cable && !x.up }))
          else z.disablePort fn r.sel).linkOk fn m r) := by
  change execLinkConfigPort fn m s = _
  rw [execLinkConfigPort, h.serve (decide_eq_true hop)]

theorem exec_linkConfigPort_ok (h : s.Runs fn m 0xB0 r) (hop : r.op = 1) (hsel : r.sel < 16) (hon : r.arg0 ≤ 1) (hquotas : quotasOk r.quotas = true)
    (hzero : r.arg 28 16 = 0) :
    exec (.linkConfigPort fn m) s = .next (
      let z := s.modSlab fn (fun sl => sl.modPort r.sel (fun x => x.setQuotas r.quotas))
      (if r.arg0 = 1 then z.modSlab fn (fun sl => sl.modPort r.sel (fun x => { x with enabled := true, training := x.cable && !x.up }))
        else z.disablePort fn r.sel).linkOk fn m r) := by
  rw [exec_linkConfigPort h hop, if_neg]
  rintro (h | h | h | h)
  · omega
  · omega
  · exact Bool.false_ne_true (h.symm.trans hquotas)
  · exact h hzero

theorem exec_linkConfigRoutes {es : List Nat} {bulk : List Byte} (h : s.Runs fn m 0xB0 r) (hop : r.op = 2) (hcount : 1 ≤ r.count)
    (hfit : r.arg1 + r.count ≤ 65536) (hes : s.linkList fn r bulk r.count = some es) (hok : ∀ e ∈ es, e % 128 = 0) :
    exec (.linkConfigRoutes fn m bulk) s
      = .next ((s.relinked fn (fun l => { l with routes := setRoutes l.routes r.arg1 es })).linkOk fn m r) := by
  change execLinkConfigRoutes fn m bulk s = _
  rw [execLinkConfigRoutes, h.serve (decide_eq_true hop), if_neg (by omega), hes]
  refine congrArg _ (if_neg (fun hany => ?_))
  obtain ⟨e, he, hbad⟩ := List.any_eq_true.mp hany
  exact of_decide_eq_true hbad (hok e he)

theorem exec_linkConfigGroup {es : List Nat} {bulk : List Byte} (h : s.Runs fn m 0xB0 r) (hidle : s.linkIdle fn = true) (hop : r.op = 3)
    (hsel : r.sel < 16) (hsummit : r.arg1 ≤ 1) (hmany : r.count ≤ 65536) (hrank : r.arg0 < r.count)
    (hes : s.linkList fn r bulk r.count = some es) :
    exec (.linkConfigGroup fn m bulk) s = .next ((s.relinked fn (fun l => { l with
      groups := aset r.sel { ranks := es.map (BitVec.ofNat 16), rank := r.arg0, summit := decide (r.arg1 = 1) } l.groups })).linkOk fn m r) := by
  change execLinkConfigGroup fn m bulk s = _
  rw [execLinkConfigGroup, h.serve (decide_eq_true hop), if_neg (by rw [hidle]; exact Bool.false_ne_true), if_neg (by omega), hes]
  rfl

theorem exec_linkConfigMcastTx {es : List Nat} {bulk : List Byte} (h : s.Runs fn m 0xB0 r) (hidle : s.linkIdle fn = true) (hop : r.op = 4)
    (hcount : 1 ≤ r.count) (hmany : r.count ≤ 64) (hes : s.linkList fn r bulk r.count = some es) :
    exec (.linkConfigMcastTx fn m bulk) s = .next ((s.relinked fn (fun l => { l with
      mcastTx := aset r.sel { targets := es.map (BitVec.ofNat 16), attached := es.map (BitVec.ofNat 16), nextSeq := 0, detached := [] } l.mcastTx
      packets := l.packets.filter (fun p => decide (p.group ≠ r.sel)) })).linkOk fn m r) := by
  change execLinkConfigMcastTx fn m bulk s = _
  rw [execLinkConfigMcastTx, h.serve (decide_eq_true hop), if_neg (by rw [hidle]; exact Bool.false_ne_true), if_neg (by omega), hes]
  rfl

/-- The receiver that an MCAST_RX request describes. -/
def Request.mcastRx (r : Request) : McastRx :=
  { source := BitVec.ofNat 16 r.arg0, group := r.sel, toUnits := decide (r.arg 4 1 = 1), window := r.arg 5 1
    relay := if r.arg 6 1 = 0xFF then none else some (r.arg 6 1), expected := 0, first := 0, held := [], frames := [], lastFrag := []
    unacked := 0, unackedAt := 0, attached := true }

theorem exec_linkConfigMcastRx (h : s.Runs fn m 0xB0 r) (hidle : s.linkIdle fn = true) (hop : r.op = 5) (hto : r.arg 4 1 ≤ 1) (hzero : r.arg 7 1 = 0) :
    exec (.linkConfigMcastRx fn m) s = .next ((s.relinked fn (fun l => { l with
      mcastRx := l.mcastRx.filter (fun y => !(decide (y.source = r.mcastRx.source) && decide (y.group = r.mcastRx.group)))
        ++ [r.mcastRx] })).linkOk fn m r) := by
  change execLinkConfigMcastRx fn m s = _
  rw [execLinkConfigMcastRx, h.serve (decide_eq_true hop)]
  exact congrArg _ ((if_neg (by rw [hidle]; exact Bool.false_ne_true)).trans (if_neg (by omega)))

theorem exec_linkConfigTimers (h : s.Runs fn m 0xB0 r) (hop : r.op = 6) (hzero : r.arg 32 12 = 0) :
    exec (.linkConfigTimers fn m) s = .next (if !r.timersOk then s.respond fn m r stBadArg []
      else (s.relinked fn (fun l => { l with
        retryTimeout := r.timer 0, resendDelay := r.timer 1, mcastRetry := r.timer 2, collTimeout := r.timer 3
        summitTimeout := r.timer 4 })).linkOk fn m r) := by
  change execLinkConfigTimers fn m s = _
  rw [execLinkConfigTimers, h.serve (decide_eq_true hop), hzero]
  cases r.timersOk <;> rfl

/-! ## EXPORT_CONFIG -/

theorem exec_exportConfig_sink (h : s.Runs fn m 0xA0 r) (hrole : r.arg 0 1 = 0) (hon : r.arg 1 1 ≤ 1) (hsrc : r.arg 2 1 ≤ 15) :
    exec (.exportConfig fn m) s = .next ((s.relinked fn (fun l => { l with sinkNext := some (
      if decide (r.arg 1 1 = 1) then
        some (BitVec.ofNat 8 (r.arg 2 1), BitVec.ofNat 16 (r.arg 4 2), BitVec.ofNat 8 (r.arg 3 1), r.arg 8 4, r.arg 12 4)
      else none) })).respond fn m r stOk []) := by
  change execExportConfig fn m s = _
  rw [execExportConfig, h.serve rfl]
  exact congrArg _ ((if_neg (by omega)).trans (if_pos hrole))

/-! ## FEED_CONFIG -/

variable {q : FeedQueue}

/-- A queue bound anew. -/
def State.rebindFeed (s : State) (fn : SlabId) (q : FeedQueue) (fromHost : Bool) (w : Nat) : State :=
  (s.unbindFeed fn q).putFeed fn { q with bound := true, fromHost := fromHost, window := w }

theorem exec_feedConfigBind (h : s.Runs fn m 0xC0 r) (haction : r.arg 3 1 = 0) (hok : r.feedArgOk = true) (hq : s.feedNo fn (r.arg 0 1) = some q) :
    exec (.feedConfigBind fn m) s = .next (
      if r.arg 1 1 = 0 then
        if 16777216 < q.entry.slotBytes then s.respond fn m r stBadArg []
        else (s.rebindFeed fn q true 0xFF).respond fn m r stOk (leBytes 0 2)
      else if ((s.slab fn).window (r.arg 2 1)).kind ≠ 3 ∨ ((s.slab fn).window (r.arg 2 1)).object ≠ q.entry.object then s.respond fn m r stBadArg []
      else
        let z := (s.rebindFeed fn q false (r.arg 2 1)).feedWindow fn (r.arg 2 1) true
        z.respond fn m r stOk (leBytes ((z.slab fn).window (r.arg 2 1)).epoch.toNat 2)) := by
  change execFeedConfigBind fn m s = _
  rw [execFeedConfigBind, h.serve (decide_eq_true haction), if_neg (by rw [hok]; exact Bool.false_ne_true), hq]
  rfl

theorem exec_feedConfigClose (h : s.Runs fn m 0xC0 r) (haction : r.arg 3 1 ≠ 0) (hok : r.feedArgOk = true) (hq : s.feedNo fn (r.arg 0 1) = some q) :
    exec (.feedConfigClose fn m) s = .next ((s.unbindFeed fn q).respond fn m r stOk (leBytes (if q.bound && !q.fromHost then
      (((s.unbindFeed fn q).slab fn).window q.window).epoch.toNat else 0) 2)) := by
  change execFeedConfigClose fn m s = _
  rw [execFeedConfigClose, h.serve (decide_eq_true haction), if_neg (by rw [hok]; exact Bool.false_ne_true), hq]

end Sys2Proof.Machine

namespace Sys2Proof.Proofs

open Sys2Proof.Machine

/-- Settles O40: a command that nothing turns away passes its own checks and puts its values into its table. -/
theorem linkTablesAreConfigured : Obligations.LinkTablesAreConfigured := by
  unfold Obligations.LinkTablesAreConfigured
  intro s fn m r bulk es links
  refine ⟨fun h hidle hop => ?_, fun h hbusy hop => ?_, fun h hop hsel hquotas hzero => ?_, fun h hop hbad => ?_,
    fun h hop hcount hfit hes hok => exec_linkConfigRoutes h hop hcount hfit hes hok,
    fun h hidle hop hsel hsummit hmany hrank hes => exec_linkConfigGroup h hidle hop hsel hsummit hmany hrank hes,
    fun h hidle hop hcount hmany hes => exec_linkConfigMcastTx h hidle hop hcount hmany hes,
    fun h hidle hop hto hzero => exec_linkConfigMcastRx h hidle hop hto hzero,
    fun h hop hzero => ⟨fun hok => ?_, fun hbad => ?_⟩, fun h hrole hon hsrc => ?_, fun h hrole hoff hsrc => ?_,
    fun q hq hok => ⟨fun h haction hhost hsize => ?_, fun h haction hzetra => ⟨fun hkind => ?_, fun hkind hobject => ?_⟩, fun h haction => ?_⟩⟩
  · rw [exec_linkConfigEndpoint h hop, hidle]
    rfl
  · rw [exec_linkConfigEndpoint h hop, hbusy]
    rfl
  · intro z
    refine ⟨fun hon => ?_, fun hoff => ?_⟩
    · rw [exec_linkConfigPort_ok h hop hsel (by omega) hquotas hzero]
      dsimp only
      rw [if_pos hon]
    · rw [exec_linkConfigPort_ok h hop hsel (by omega) hquotas hzero]
      dsimp only
      rw [if_neg (by omega)]
  · rw [exec_linkConfigPort h hop, if_pos]
    rcases hbad with h | h
    · exact .inl h
    · exact .inr (.inr (.inl h))
  · rw [exec_linkConfigTimers h hop hzero, hok]
    rfl
  · rw [exec_linkConfigTimers h hop hzero, hbad]
    rfl
  · rw [exec_exportConfig_sink h hrole (by omega) hsrc, hon]
    rfl
  · rw [exec_exportConfig_sink h hrole (by omega) hsrc, hoff]
    rfl
  · rw [exec_feedConfigBind h haction hok hq, if_pos hhost, if_neg (Nat.not_lt.mpr hsize)]
    rfl
  · rw [exec_feedConfigBind h haction hok hq, if_neg (by omega), if_pos (.inl hkind)]
  · rw [exec_feedConfigBind h haction hok hq, if_neg (by omega), if_neg]
    · rfl
    · rintro (hbad | hbad) <;> contradiction
  · exact exec_feedConfigClose h (by omega) hok hq

end Sys2Proof.Proofs
end

section
/-! # Base camp's firmware, from the boot ROM to its service (R32, R358, R389, R390, R421, R422, R429, R431, R434) -/

namespace Sys2Proof.Machine

variable {s : State} {k : SlabId} {m : Fin 4} {r : Request}

/-! ## A cold start -/

theorem foldl_proj {α β γ : Type} {f : α → β → α} (p : α → γ) (h : ∀ a b, p (f a b) = p a) (l : List β) (a : α) : p (l.foldl f a) = p a := by
  induction l generalizing a with
  | nil => rfl
  | cons b l ih => rw [List.foldl_cons, ih, h]

theorem camp_readMap (sl : Slab) (bs : List Byte) : (sl.readMap bs).camp = sl.camp := by
  unfold Slab.readMap
  split
  · rfl
  · extract_lets links tables lost ports
    rw [foldl_proj Slab.camp (fun sl j => ?_), foldl_proj Slab.camp (fun sl p => ?_)]
    · rfl
    · extract_lets e n d
      split <;> rfl

theorem camp_loadMap (sl : Slab) : sl.loadMap.camp = sl.camp := by
  unfold Slab.loadMap
  extract_lets old read
  rw [foldl_proj Slab.camp (fun sl n => ?_)]
  · exact camp_readMap ..
  · rfl

/-- A slab as its firmware finds it at a cold start, before the mode is decided. -/
def Slab.coldLoaded (sl : Slab) (k : SlabId) : Slab :=
  ((((sl.count Ctr.FLASH_RECORDS_INVALID sl.camp.flash.invalidRecords).modCamp (fun c => c.checkIdentity k)).countPowerOn.loadMap).modMem
    Memory.reserveStaging)

/-- Only the power-on count is written to flash before the mode is decided. -/
theorem flash_coldLoaded (sl : Slab) (k : SlabId) : (sl.coldLoaded k).camp.flash = sl.countPowerOn.camp.flash := by
  rw [Slab.coldLoaded, show ∀ (x : Slab) (g : Memory → Memory), (x.modMem g).camp = x.camp from fun _ _ => rfl, camp_loadMap]
  rfl

theorem mode_coldStart (s : State) (k : SlabId) (x : TestFindings) :
    (s.coldStart k x).shared.mode = (s.modSlab k (fun sl => sl.coldLoaded k)).slab0.camp.flash.mode := by
  have h : (s.coldStart k x).chassis = { s.chassis with mode := (s.modSlab k (fun sl => sl.coldLoaded k)).slab0.camp.flash.mode } := by
    simp only [State.coldStart, setHoles_chassis, powerOnTest_chassis, ite_chassis, logFault_chassis, ite_self, decideMode_chassis,
      chassis_colLanes, modSlab_chassis]
    rfl
  exact congrArg Chassis.mode h

theorem mode_coldStart_s1 (s : State) (x : TestFindings) : (s.coldStart .s1 x).shared.mode = s.slab0.camp.flash.mode := mode_coldStart s .s1 x

theorem mode_coldStart_s0 (s : State) (x : TestFindings) : (s.coldStart .s0 x).shared.mode = s.slab0.countPowerOn.camp.flash.mode :=
  (mode_coldStart s .s0 x).trans (congrArg Flash.mode (flash_coldLoaded s.slab0 .s0))

theorem powerOn_countPowerOn (sl : Slab) :
    sl.countPowerOn.camp.powerOn.toNat = min ((sl.camp.flash.record 1).elim 0 (fun r => leAt r.payload 0 4) + 1) 0xFFFFFFFF := by
  change (BitVec.ofNat 32 (min _ 0xFFFFFFFF)).toNat = _
  rw [BitVec.toNat_ofNat, Nat.mod_eq_of_lt (by omega)]

/-! ## The boot ROM and the restarts -/

theorem exec_firmwareStart (hready : (s.slab k).ready = true) (hrom : (s.slab k).camp.firmware = .bootRom) (x : TestFindings) :
    exec (.firmwareStart k x) s =
      if (s.slab k).camp.flash.bootable then
        .next (if (s.slab k).camp.restartCause = 4 then (s.modSlab k (fun sl => sl.modCamp Camp.loadFirmware)).coldStart k x
          else s.modSlab k (fun sl => sl.modCamp Camp.loadFirmware))
      else .next ((s.modSlab k (fun sl => sl.modCamp (fun c => c.enterRecovery k))).modFunc k (fun f => f.signalIf 6)) :=
  if_pos (by rw [decide_eq_true hrom, hready]; rfl)

theorem exec_sramUncorrectable (hready : (s.slab k).ready = true) (hrun : (s.slab k).camp.firmware = .running) (n : Option Nat) :
    exec (.sramUncorrectable k n) s
      = .next (n.elim (s.modSlab k (fun sl => sl.modCamp (fun c => c.restart 1))) (fun n => s.invalidateRecord k n)) := by
  change execSramUncorrectable k n s = _
  unfold execSramUncorrectable
  rw [if_neg (by rw [hready, decide_eq_true hrun]; exact Bool.false_ne_true)]
  cases n <;> rfl

theorem not_serving (h : (s.slab k).ready = false ∨ (s.slab k).camp.firmware ≠ .running) :
    ((s.slab k).ready && decide ((s.slab k).camp.firmware = .running)) = false := by
  rcases h with h | h <;> simp [h]

theorem mem_ledger_invalidateRecord {n : Nat} (hn : n < 256) {r : LedgerRec} (hr : r ∈ (s.slab k).camp.ledger) :
    { r with valid := r.valid && decide (r.step.toNat % 256 ≠ n) } ∈ ((s.invalidateRecord k n).slab k).camp.ledger := by
  rw [State.invalidateRecord, if_pos hn, slab_modSlab_self]
  refine List.mem_map.mpr ⟨r, hr, ?_⟩
  split
  case isTrue heq => rw [decide_eq_false (not_not_intro heq), Bool.and_false]
  case isFalse hne => rw [decide_eq_true hne, Bool.and_true]

/-! ## Firmware that begins to serve -/

theorem exec_firmwareServing (hready : (s.slab k).ready = true) (hstart : (s.slab k).camp.firmware = .restarting)
    (h : (s.slab k).camp.restartCause ≠ 4 ∨ (s.slab k).fieldsPowered = true) :
    exec (.firmwareServing k) s = .next (
      let run := s.modSlab k (fun sl => sl.modCamp (fun c => { c with firmware := .running, restartCause := 0 }))
      if (s.slab k).camp.restartCause = 4 then run.firstIdle k else (run.afterRestart k (s.slab k).camp.restartCause).drainRing k) := by
  refine if_pos ?_
  rw [hready, decide_eq_true hstart]
  rcases h with h | h
  · rw [decide_eq_true h]; rfl
  · rw [h, Bool.or_true]; rfl

theorem exec_firmwareServing_of_not (h : (s.slab k).ready = false ∨ (s.slab k).camp.firmware ≠ .restarting
    ∨ ((s.slab k).camp.restartCause = 4 ∧ (s.slab k).fieldsPowered = false)) : exec (.firmwareServing k) s = .next s := by
  refine if_neg ?_
  rcases h with h | h | ⟨hcause, hfields⟩
  · simp [h]
  · simp [h]
  · simp [hcause, hfields]

theorem root_firstIdle (h : s.dev k = k) : (s.firstIdle k).root k = { Root.reset with
    running := true, kind := .idle, issued := s.cycle k, length := 65536, deadline := 65536, releases := 1 } := by
  rw [State.firstIdle, if_pos h, root_modRoot, h]

/-! ## The recovery mailbox -/

theorem exec_recoveryMailbox (bulk : List Byte) (hr : ((s.func k).mailbox m).take = r) (hrec : (s.slab k).camp.firmware = .recovery)
    (hready : (s.slab k).ready = true) (hp : ((s.func k).mailbox m).pending = true) :
    exec (.recoveryMailbox k m bulk) s =
      if m ≠ 3 then .next (s.respond k m r stRefusedState [])
      else if r.opcode ∉ [0x01, 0x70, 0x71, 0x72] then .next (s.respond k m r stBadOpcode [])
      else if r.headerBad || r.bar2 || (r.hostbuf && !(s.func k).busMaster) then .next (s.respond k m r stBadArg [])
      else .next (s.recoveryCommand k m r bulk) := by
  subst hr
  exact if_pos (by rw [decide_eq_true hrec, hp, hready]; rfl)

theorem exec_recoveryMailbox_command (bulk : List Byte) (hr : ((s.func k).mailbox m).take = r) (hrec : (s.slab k).camp.firmware = .recovery)
    (hready : (s.slab k).ready = true) (hp : ((s.func k).mailbox m).pending = true) (hm : m = 3) (hhead : r.headerBad = false)
    (hbar : r.bar2 = false) (hhost : r.hostbuf = false) (hop : r.opcode ∈ [0x01, 0x70, 0x71, 0x72]) :
    exec (.recoveryMailbox k m bulk) s = .next (s.recoveryCommand k m r bulk) := by
  rw [exec_recoveryMailbox bulk hr hrec hready hp, if_neg (not_not_intro hm), if_neg (not_not_intro hop),
    if_neg (by rw [hhead, hbar, hhost]; exact Bool.false_ne_true)]

/-- FW_COMMIT in recovery: the slot is committed, and the boot ROM starts it. -/
theorem recoveryCommand_commit (bulk : List Byte) {z : FwSession} (hop : r.opcode = 0x72) (harg : r.arg 0 1 ≤ 1)
    (hz : (s.slab k).camp.session = some z) (hok : z.fault (s.slab k).camp.flash.minSvn = none) :
    s.recoveryCommand k m r bulk = (s.modSlab k (fun sl => (sl.modCamp (fun c =>
      { c with session := none, firmware := .bootRom, flash := { c.flash with fwCommitted := true } })).count Ctr.FW_COMMITS 1)).respond k m r
        stOk [] := by
  unfold State.recoveryCommand
  dsimp only
  rw [hop, if_neg (by decide), if_neg (by decide), hz]
  dsimp only
  rw [if_neg (by decide), if_neg (Nat.not_lt.mpr harg), hok]

theorem recoveryCommand_chunk_without_session (bulk : List Byte) (hop : r.opcode = 0x71) (hnone : (s.slab k).camp.session = none) :
    s.recoveryCommand k m r bulk = s.respond k m r stRefusedState [] := by
  unfold State.recoveryCommand
  dsimp only
  rw [hop, if_neg (by decide), if_neg (by decide), hnone]
  rfl

theorem recoveryCommand_begin (bulk : List Byte) (hop : r.opcode = 0x70) (hok : fwTotalOk (r.arg 0 4) = true) :
    s.recoveryCommand k m r bulk = (s.modSlab k (fun sl => sl.modCamp (fun c =>
      { c with session := some { total := r.arg 0 4, bytes := [], activate := false, committing := false }
               flash := { c.flash with fwImage := [], fwCommitted := false } }))).respond k m r stOk [] := by
  unfold State.recoveryCommand
  dsimp only
  rw [hop, if_neg (by decide), if_pos rfl, hok]
  rfl

end Sys2Proof.Machine

namespace Sys2Proof.Proofs

open Sys2Proof.Machine

theorem firmwareStartsAndRestarts : Claims.FirmwareStartsAndRestarts := by
  intro s k x n c loaded
  refine ⟨fun h => if_neg ?_, fun hready hrom hboot hwarm => ?_, fun hready hrom hboot hcold => ⟨?_, fun hk => ?_, fun hk => ?_⟩,
    fun sl => ⟨powerOn_countPowerOn sl, rfl⟩, fun hready hrom hboot => ?_, fun hready hrun => ⟨if_pos ?_, ?_, ?_⟩,
    fun h => ⟨if_neg ?_, if_pos ?_, if_pos ?_⟩, fun r hn hr => mem_ledger_invalidateRecord hn hr⟩
  · rcases h with h | h
    · rw [h, Bool.and_false]; exact Bool.false_ne_true
    · rw [decide_eq_false h]; exact Bool.false_ne_true
  · rw [exec_firmwareStart hready hrom, if_pos hboot, if_neg hwarm]
  · rw [exec_firmwareStart hready hrom, if_pos hboot, if_pos hcold]
  · subst hk
    exact mode_coldStart_s1 loaded x
  · subst hk
    exact mode_coldStart_s0 loaded x
  · rw [exec_firmwareStart hready hrom, if_neg (Bool.eq_false_iff.mp hboot)]
  · rw [hready, decide_eq_true hrun]; rfl
  · exact exec_sramUncorrectable hready hrun none
  · exact exec_sramUncorrectable hready hrun (some n)
  · rw [not_serving h]; exact Bool.false_ne_true
  · rw [not_serving h]; rfl
  · rw [not_serving h]; rfl

theorem firmwareServesAndRecovers : Claims.FirmwareServesAndRecovers := by
  intro s k m bulk r c run
  refine ⟨fun hready hstart => ⟨fun hwarm => ?_, fun hcold hfields => ⟨?_, fun hdev => ?_⟩, fun hcold hfields => ?_⟩,
    fun h => exec_firmwareServing_of_not (.inr (.inl h)), fun hr hrec hready hp => ⟨fun hm => ?_, fun hm hop => ?_, fun hm hhead hbar hhost => ⟨?_, ?_, ?_, ?_⟩⟩,
    fun h => if_neg ?_, fun hrun hmap => if_pos ?_, fun h => if_neg ?_⟩
  · rw [exec_firmwareServing hready hstart (.inl hwarm)]
    exact congrArg _ (if_neg hwarm)
  · rw [exec_firmwareServing hready hstart (.inr hfields)]
    exact congrArg _ (if_pos hcold)
  · have hrun : run.dev k = k := (dev_of_roots (modSlab_roots s k _) k).trans hdev
    rw [root_firstIdle hrun]
    exact ⟨rfl, rfl, rfl, rfl⟩
  · exact exec_firmwareServing_of_not (.inr (.inr ⟨hcold, hfields⟩))
  · rw [exec_recoveryMailbox bulk hr hrec hready hp, if_pos hm]
  · rw [exec_recoveryMailbox bulk hr hrec hready hp, if_neg (not_not_intro hm), if_pos hop]
  · intro hop
    rw [exec_recoveryMailbox_command bulk hr hrec hready hp hm hhead hbar hhost (by rw [hop]; decide)]
    exact congrArg _ (if_pos hop)
  · intro hop hok
    rw [exec_recoveryMailbox_command bulk hr hrec hready hp hm hhead hbar hhost (by rw [hop]; decide), recoveryCommand_begin bulk hop hok]
  · intro hop hnone
    rw [exec_recoveryMailbox_command bulk hr hrec hready hp hm hhead hbar hhost (by rw [hop]; decide),
      recoveryCommand_chunk_without_session bulk hop hnone]
  · intro z hop harg hz hok
    rw [exec_recoveryMailbox_command bulk hr hrec hready hp hm hhead hbar hhost (by rw [hop]; decide), recoveryCommand_commit bulk hop harg hz hok]
  · rw [decide_eq_false h]; exact Bool.false_ne_true
  · rw [decide_eq_true hrun]; exact hmap
  · rcases h with h | h
    · simp [c] at h
      simp [h]
    · simp [c] at h
      simp [h]

/-- Settles O46. -/
theorem firmwareStartsServesAndRecovers : Obligations.FirmwareStartsServesAndRecovers := by
  unfold Obligations.FirmwareStartsServesAndRecovers
  exact ⟨firmwareStartsAndRestarts, firmwareServesAndRecovers⟩

end Sys2Proof.Proofs
end

section
/-! # The col between the slabs (R28, R31, R53, R63, R179, R180, R252) -/

namespace Sys2Proof.Machine

variable {s : State}

/-! ## Messages -/

theorem exec_colCoordination_clean {i : SlabId} (hi : (s.slab i).ready = true) (hother : (s.slab i.other).ready = true)
    (hcol : s.shared.colControl = true) (hphase : s.shared.mode = .split ∨ s.campAhead i.other (s.campReleases i) = false) (m : ColMsg) :
    exec (.colCoordination i ⟨m, .clean⟩) s = .next (s.colArrive i m) := by
  change execColCoordination i ⟨m, .clean⟩ s = _
  unfold execColCoordination
  dsimp only
  rw [if_neg (by rw [hi, hother, hcol]; exact Bool.false_ne_true), if_neg (by decide), if_neg]
  rcases hphase with h | h
  · rw [h]; exact Bool.false_ne_true
  · rw [h, Bool.and_false]; exact Bool.false_ne_true

/-! ## Failures -/

/-- The module with lane `l` of the col failed, counted and logged. -/
def State.colLaneNoted (s : State) (l : Fin 96) (last : Bool) : State :=
  (({ s with shared := { s.shared with colLanes := s.shared.colLanes ++ [l], counters := Counters.bump s.shared.counters Ctr.COL_LANE_FAILURES 1 } } :
    State).modSlab .s0 Slab.mapChanged).logFault .s0 { FaultEntry.basic 0x0F 1 with aux := BitVec.ofNat 8 l.val, map := true, hold := last }

theorem belayLane_colLaneNoted (s : State) (l : Fin 96) (last : Bool) : (s.colLaneNoted l last).shared.belayLane = s.shared.belayLane := by
  rw [State.colLaneNoted, State.logFault, shared_logFaultAt, shared_modSlab]

/-- The failed lane's traffic moved, and the device's loss of the col with its last lane. -/
def State.colLaneMoved (s : State) (l : Fin 96) (last : Bool) : State :=
  let y := s.colLaneNoted l last
  let z := if y.shared.belayLane = some l.val then y.moveBelay else y
  if last then (z.modJob .s0 (fun j => { j with colLost := true })).raise .s0 0x0F none else z

/-- A lane that fails in joined mode, by what it carried and by what is left. -/
theorem failColLane_of_working {l : Fin 96} (hworks : l ∉ s.shared.colLanes) (hjoined : s.shared.mode = .joined) :
    s.failColLane .s0 l =
      let y := s.colLaneNoted l (decide (95 ≤ s.shared.colLanes.length))
      let z := if s.shared.belayLane = some l.val then y.moveBelay else y
      if 95 ≤ s.shared.colLanes.length then (z.modJob .s0 (fun j => { j with colLost := true })).raise .s0 0x0F none else z := by
  have hlast : decide (96 ≤ (s.shared.colLanes ++ [l]).length) = decide (95 ≤ s.shared.colLanes.length) := by
    rw [List.length_append, List.length_singleton]
    exact decide_eq_decide.mpr (by omega)
  have hcond : ¬ (l ∈ s.shared.colLanes ∨ s.shared.mode = .split) := by
    rintro (h | h)
    · exact hworks h
    · exact absurd (hjoined.symm.trans h) (by decide)
  have hmoved : s.failColLane .s0 l = s.colLaneMoved l (decide (96 ≤ (s.shared.colLanes ++ [l]).length)) := if_neg hcond
  rw [hmoved, hlast, State.colLaneMoved, belayLane_colLaneNoted]
  exact ite_eq_of_iff decide_eq_true_iff

theorem failColLane_of_idle {l : Fin 96} (h : l ∈ s.shared.colLanes ∨ s.shared.mode = .split) : s.failColLane .s0 l = s := if_pos h

theorem exec_colLaneFailure (h0 : s.slab0.ready = true) (l : Fin 96) : exec (.colLaneFailure l) s = .next (s.failColLane .s0 l) := if_pos h0

theorem exec_colBelayPairFailure_of_idle {p : Fin 4} (h : p ∈ s.shared.belayPairs ∨ s.shared.mode = .split) :
    exec (.colBelayPairFailure p) s = .next s := by
  refine if_pos ?_
  rcases h with h | h <;> simp [h]

/-- A belay pair that fails in joined mode: the last one moves the belays. -/
theorem exec_colBelayPairFailure (h0 : s.slab0.ready = true) {p : Fin 4} (hworks : p ∉ s.shared.belayPairs) (hjoined : s.shared.mode = .joined) :
    exec (.colBelayPairFailure p) s = .next (
      let c := { s.shared with belayPairs := s.shared.belayPairs ++ [p], counters := Counters.bump s.shared.counters Ctr.COL_BELAY_EVENTS 1 }
      let z := ({ s with shared := c } : State).logFault .s0 { FaultEntry.basic 0x10 1 with aux := BitVec.ofNat 8 p.val }
      if 3 ≤ s.shared.belayPairs.length then z.moveBelay else z) := by
  have hcount : (4 ≤ (s.shared.belayPairs ++ [p]).length) = (3 ≤ s.shared.belayPairs.length) := by
    rw [List.length_append, List.length_singleton]
    exact propext (by omega)
  change execColBelayPairFailure p s = _
  unfold execColBelayPairFailure
  rw [if_neg (by simp [h0, hworks, hjoined])]
  exact congrArg _ (ite_eq_of_iff (iff_of_eq hcount))

theorem exec_colCrossingFailure_of_failed {c : Fin 8} (h : c ∈ s.shared.crossings) : exec (.colCrossingFailure c) s = .next s :=
  if_pos (by simp [h])

theorem exec_colCrossingFailure (h0 : s.slab0.ready = true) {c : Fin 8} (hworks : c ∉ s.shared.crossings) :
    exec (.colCrossingFailure c) s
      = .next (({ s with shared := { s.shared with crossings := s.shared.crossings ++ [c] } } : State).logFault .s0
          { FaultEntry.basic 0x10 1 with aux := BitVec.ofNat 8 c.val }) :=
  if_neg (by simp [h0, hworks])

/-- The belays' next lane is the lowest that works. -/
theorem moveBelay_of_lowest {n : Fin 96} (hn : n ∉ s.shared.colLanes) (hlow : ∀ k : Fin 96, k < n → k ∈ s.shared.colLanes) :
    s.moveBelay = (({ s with shared := { s.shared with belayLane := some n.val, counters := Counters.bump s.shared.counters Ctr.COL_BELAY_EVENTS 1 } } :
      State)).logFault .s0 { FaultEntry.basic 0x10 1 with aux := BitVec.ofNat 8 n.val } := by
  have hworks (l : Fin 96) : s.shared.colLanes.all (fun f => decide (f.val ≠ l.val)) = true ↔ l ∉ s.shared.colLanes := by
    simp only [List.all_eq_true, decide_eq_true_eq]
    exact ⟨fun h hl => h l hl rfl, fun h f hf heq => h (Fin.ext heq ▸ hf)⟩
  have hfind : (List.range 96).find? (fun l => s.shared.colLanes.all (fun f => decide (f.val ≠ l))) = some n.val := by
    rw [List.find?_range_eq_some]
    refine ⟨(hworks n).mpr hn, List.mem_range.mpr n.isLt, fun j hj => ?_⟩
    have hfailed := hlow ⟨j, by omega⟩ hj
    rw [Bool.not_eq_true', Bool.eq_false_iff]
    exact fun hall => (hworks ⟨j, by omega⟩).mp hall hfailed
  unfold State.moveBelay
  rw [hfind]
  rfl

end Sys2Proof.Machine

namespace Sys2Proof.Proofs

open Sys2Proof.Machine

theorem colMessagesReachThePeer : Claims.ColMessagesReachThePeer := by
  intro s i hi hother hcol hphase peer
  have harrive := exec_colCoordination_clean hi hother hcol hphase
  exact ⟨fun m => harrive _, fun v => harrive _, fun v => harrive _, fun n => harrive _, fun mV mA => harrive _⟩

theorem colFailuresAreNotedOnce : Claims.ColFailuresAreNotedOnce := by
  intro s h0
  refine ⟨fun n hn hlow => moveBelay_of_lowest hn hlow, fun l => ⟨fun hidle => ?_, fun hworks hjoined => ?_⟩,
    fun p => ⟨exec_colBelayPairFailure_of_idle, fun hworks hjoined => exec_colBelayPairFailure h0 hworks hjoined⟩,
    fun c => ⟨exec_colCrossingFailure_of_failed, exec_colCrossingFailure h0⟩⟩
  · rw [exec_colLaneFailure h0, failColLane_of_idle hidle]
  · intro c y z
    rw [exec_colLaneFailure h0, failColLane_of_working hworks hjoined]
    exact ⟨fun hleft => congrArg _ (if_neg (by omega)), fun hlost => congrArg _ (if_pos hlost)⟩

/-- Settles O33. -/
theorem colCarriesMessagesAndFailures : Obligations.ColCarriesMessagesAndFailures := by
  unfold Obligations.ColCarriesMessagesAndFailures
  exact ⟨colMessagesReachThePeer, colFailuresAreNotedOnce⟩

end Sys2Proof.Proofs
end

section
/-! # Difference and repair records (R298 to R300, R336) -/

namespace Sys2Proof.Machine

variable {s : State} {i : SlabId} {r : DiffRecord} {o : ObjectEntry}

/-- The owner's record of a replica's own commit differs from it. -/
def State.recordDiffers (s : State) (i : SlabId) (o : ObjectEntry) (r : DiffRecord) : Prop :=
  r.source = s.replicaOwner i o ∧ s.blockStep i o r.block.toNat = r.step ∧ s.headerField i o r.block.toNat 8 8 ≠ r.fingerprint.toNat

section
variable (hready : (s.slab i).ready = true) (ho : s.objectNo i r.object.toNat = some o)
include hready ho

theorem exec_differenceRecord_of_copy (hparam : o.isParam = true) (hown : o.prot ≠ 2 ∨ r.source = (s.slab i).links.endpoint) :
    exec (.differenceRecord i r) s = .next ((s.copyOf i o).elim s (fun c => s.applyRecord i o c r)) := by
  change execDifferenceRecord i r s = _
  unfold execDifferenceRecord
  rw [if_pos hready, ho]
  dsimp only
  rw [if_neg (by rw [hparam]; exact Bool.false_ne_true), if_neg]
  · cases s.copyOf i o <;> rfl
  · rintro ⟨hreplica, hforeign⟩
    rcases hown with h | h
    · exact h hreplica
    · exact hforeign h

theorem exec_differenceRecord_of_replica (hparam : o.isParam = true) (hreplica : o.prot = 2) (hforeign : r.source ≠ (s.slab i).links.endpoint) :
    (¬ s.recordDiffers i o r → exec (.differenceRecord i r) s = .next s)
      ∧ (s.recordDiffers i o r → ∀ (k : SlabId) (u : Nat), s.blockOwner i o r.block.toNat = some (k, u) →
          exec (.differenceRecord i r) s = .next (s.mismatch i k u o.object r.block.toNat r.step)) := by
  change (_ → execDifferenceRecord i r s = _) ∧ (_ → ∀ k u, _ → execDifferenceRecord i r s = _)
  unfold execDifferenceRecord
  rw [if_pos hready, ho]
  dsimp only
  rw [if_neg (by rw [hparam]; exact Bool.false_ne_true), if_pos ⟨hreplica, hforeign⟩]
  refine ⟨fun hsame => if_neg hsame, fun hdiffers k u hk => (if_pos hdiffers).trans ?_⟩
  rw [hk]

/-- The block awaits no repair any more. -/
def State.repairDone (s : State) (k : SlabId) (u object block : Nat) : State :=
  s.modSlab k (fun sl => sl.modUnit u (fun x =>
    { x with repairs := x.repairs.filter (fun p => decide (p.1 ≠ (object, block))), counters := Counters.bump x.counters Ctr.REPAIRS_APPLIED 1 }))

theorem exec_repairRecord_full (hkind : r.kind = 2) {c : ObjectEntry} (hc : s.copyOf i o = some c) :
    exec (.repairRecord i r) s = .next (
      let at_ := s.unitAt i (copyStart o c r.block.toNat)
      ((s.putCopy i o c r.block.toNat (r.payload.take (elemBytes o.update.wfmt blockElems + scaleBytes o.update.wfmt blockElems))).modSlab at_.1
        (fun sl => sl.modUnit at_.2 (fun x => { x with full := aset (c.object, r.block.toNat) r.step x.full }))).repairDone at_.1 at_.2 c.object
          r.block.toNat) := by
  change execRepairRecord i r s = _
  unfold execRepairRecord
  rw [if_pos hready, ho]
  dsimp only
  rw [if_pos hkind, hc]
  rfl

theorem exec_repairRecord_block (hkind : r.kind = 3) {k : SlabId} {u : Nat} (hk : s.blockOwner i o r.block.toNat = some (k, u)) :
    exec (.repairRecord i r) s = .next (
      let planes := [1, 2] ++ (stateFields o.update.rule).flatMap (fun f => [fieldPlane o.update.rule f, fieldPlane o.update.rule f + 1])
      let fl := leAt r.payload 0x14 2
      ((s.putPlanes i o r.block.toNat (r.payload.drop 32) planes).unitWrite i (o.planeAddr r.block.toNat 0)
        (r.payload.take 0x14 ++ leBytes (fl / 4 * 4 + fl % 2 + 2) 2 ++ (r.payload.drop 0x16).take 10)).repairDone k u o.object r.block.toNat) := by
  change execRepairRecord i r s = _
  unfold execRepairRecord
  rw [if_pos hready, ho]
  dsimp only
  rw [if_neg (by rw [hkind]; decide), if_pos hkind, hk]
  rfl

end

end Sys2Proof.Machine

namespace Sys2Proof.Proofs

open Sys2Proof.Machine

/-- Settles O24: a record goes by its object's protection and its source, a repair by its kind. -/
theorem recordsReachTheirCopy : Obligations.RecordsReachTheirCopy := by
  unfold Obligations.RecordsReachTheirCopy
  intro s i r o hready ho b
  refine ⟨fun hparam hown => ⟨fun hnone => ?_, fun c hc => ?_⟩, fun hparam hreplica hforeign => ⟨fun hsame => ?_, fun k u howner hstep hdiff hk => ?_⟩,
    ?_⟩
  · rw [exec_differenceRecord_of_copy hready ho hparam hown, hnone]
    rfl
  · rw [exec_differenceRecord_of_copy hready ho hparam hown, hc]
    rfl
  · refine (exec_differenceRecord_of_replica hready ho hparam hreplica hforeign).1 ?_
    rintro ⟨howner, hstep, hdiff⟩
    rcases hsame with h | h | h
    · exact h howner
    · exact h hstep
    · exact hdiff h
  · exact (exec_differenceRecord_of_replica hready ho hparam hreplica hforeign).2 ⟨howner, hstep, hdiff⟩ k u hk
  · intro done
    refine ⟨fun c hkind hc => ?_, fun k u hkind hk => ?_⟩
    · intro at_
      exact exec_repairRecord_full hready ho hkind hc
    · intro planes fl
      exact exec_repairRecord_block hready ho hkind hk

end Sys2Proof.Proofs
end

section
/-! # Gradient landings (R272, R276 to R279) -/

namespace Sys2Proof.Machine

variable {s : State} {i : SlabId} {u : Fin 24}

/-- The landings of an update unit. -/
def State.landings (s : State) (i : SlabId) (u : Fin 24) : List Landing := ((s.slab i).stack u.val).unit.landings

/-- The unit's landings put as `ls`, and the event counted. -/
def State.landingsCounted (s : State) (i : SlabId) (u : Fin 24) (ctr : Nat) (ls : List Landing) : State :=
  (s.setLandings i u.val ls).modSlab i (fun sl => sl.modUnit u.val (fun x => x.count ctr 1))

/-! ## The next landing -/

theorem exec_gradientLanding_of_none (hready : (s.slab i).ready = true) (h : nextLanding false (s.landings i u) = none) :
    exec (.gradientLanding i u) s = .next s := by
  change execGradientLanding i u s = _
  unfold execGradientLanding
  dsimp only
  rw [if_pos hready]
  rw [show nextLanding false ((s.slab i).stack u.val).unit.landings = none from h]

section
variable {j : Nat} {l : Landing} (hready : (s.slab i).ready = true) (hj : nextLanding false (s.landings i u) = some j)
  (hl : (s.landings i u)[j]? = some l)
include hready hj hl

theorem exec_gradientLanding_late (hw : (s.job i).window = none) :
    exec (.gradientLanding i u) s = .next (s.landingsCounted i u Ctr.UPD_LATE_LANDINGS ((s.landings i u).eraseIdx j)) := by
  change execGradientLanding i u s = _
  unfold execGradientLanding
  dsimp only
  rw [if_pos hready]
  rw [show nextLanding false ((s.slab i).stack u.val).unit.landings = some j from hj]
  dsimp only
  rw [show ((s.slab i).stack u.val).unit.landings[j]? = some l from hl, hw]
  rfl

theorem exec_gradientLanding_fault {w : DWord × Nat} (hw : (s.job i).window = some w) (ho : s.landingObject i l = none) :
    exec (.gradientLanding i u) s = .next (s.landingsCounted i u Ctr.UPD_LANDING_FAULTS ((s.landings i u).eraseIdx j)) := by
  change execGradientLanding i u s = _
  unfold execGradientLanding
  dsimp only
  rw [if_pos hready]
  rw [show nextLanding false ((s.slab i).stack u.val).unit.landings = some j from hj]
  dsimp only
  rw [show ((s.slab i).stack u.val).unit.landings[j]? = some l from hl]
  dsimp only
  rw [hw, ho]
  rfl

/-- A landing on a block that exists, in an open window. -/
theorem exec_gradientLanding_of_object {n : DWord} {r : Nat} {o : ObjectEntry} (hw : (s.job i).window = some (n, r))
    (ho : s.landingObject i l = some o) :
    exec (.gradientLanding i u) s =
      if !s.headerOk i o l.block then .next (s.headerError i o l.block)
      else if s.blockFrozen i o l.block then .next ((s.setLandings i u.val ((s.landings i u).eraseIdx j)).landFrozen i i u.val o l n r)
      else if s.landingWaits i i u.val o l.block n then
        .next (s.landingsCounted i u Ctr.UPD_COMMIT_WAITS ((s.landings i u).set j { l with waiting := true }))
      else .next ((s.setLandings i u.val ((s.landings i u).eraseIdx j)).landApply i i u.val o l n r) := by
  change execGradientLanding i u s = _
  unfold execGradientLanding
  dsimp only
  rw [if_pos hready]
  rw [show nextLanding false ((s.slab i).stack u.val).unit.landings = some j from hj]
  dsimp only
  rw [show ((s.slab i).stack u.val).unit.landings[j]? = some l from hl]
  dsimp only
  rw [hw, ho]
  rfl

end

/-! ## A landing that waits -/

theorem exec_landingWaitRelease {n : DWord} {r : Nat} {o : ObjectEntry} {l : Landing} (hready : (s.slab i).ready = true)
    (hw : (s.job i).window = some (n, r)) (hl : s.landings i u = [l]) (hwaits : l.waiting = true) (ho : s.landingObject i l = some o) :
    exec (.landingWaitRelease i u) s = .next (
      if s.landingWaits i i u.val o l.block n then s
      else
        let z := s.setLandings i u.val []
        if z.blockFrozen i o l.block then z.landFrozen i i u.val o l n r else z.landApply i i u.val o l n r) := by
  have hls : ((s.slab i).stack u.val).unit.landings = [l] := hl
  have hrange : List.range (min 64 [l].length) = [0] := rfl
  change execLandingWaitRelease i u s = _
  unfold execLandingWaitRelease
  dsimp only
  rw [if_pos hready, hw, hls]
  dsimp only
  rw [hrange, List.find?_singleton]
  simp only [List.getElem?_cons_zero, hwaits, ho, List.take_zero, List.any_nil, Bool.not_false, Bool.true_and]
  cases s.landingWaits i i u.val o l.block n
  · simp only [Bool.not_false, if_true, Bool.false_eq_true, if_false, List.getElem?_cons_zero, ho]; rfl
  · rfl

/-! ## A landing's groups -/

/-- The values of the 32 elements of a group: its bytes and its scale. -/
def groupValues (es : List Byte) (scale : Byte) : List Word :=
  (List.range 32).map (fun j => toF32 .nearestEven (decodeElem 8 (planeRaw (fun x => es.toArray.getD x 0) 8 j) scale))

theorem zipWith_map_same {α β γ δ : Type} (f : β → γ → δ) (g : α → β) (h : α → γ) (l : List α) :
    List.zipWith f (l.map g) (l.map h) = l.map (fun x => f (g x) (h x)) := by
  rw [List.zipWith_map, List.zipWith_self]

theorem applyGroup_first {o : ObjectEntry} {b fresh : Nat} {g : Fin 128} (h : fresh.testBit g.val = false) (d : Row) (c : Byte) :
    s.applyGroup i o b fresh (g, d, c) =
      (s.unitWrite i (o.planeAddr b (slotPlane o.update.rule) + 64 * g.val) (rowBytes d)).unitWrite i
        (o.planeAddr b (slotPlane o.update.rule + 1) + g.val) [c] := by
  unfold State.applyGroup
  exact if_neg (by rw [h]; exact Bool.false_ne_true)

theorem applyGroup_later {o : ObjectEntry} {b fresh : Nat} {g : Fin 128} (h : fresh.testBit g.val = true) (d : Row) (c : Byte) :
    let ea := o.planeAddr b (slotPlane o.update.rule) + 64 * g.val
    let sa := o.planeAddr b (slotPlane o.update.rule + 1) + g.val
    let new := encodeSbf16 (fun _ => .nearestEven) 0 ((List.zipWith f32add (groupValues (s.readRangeD i ea 64) ((s.readRangeD i sa 1).headD 0))
      (groupValues (rowBytes d) c)).map Word.fp)
    s.applyGroup i o b fresh (g, d, c) =
      ((s.unitRead i ea 64).unitWrite i ea (leBytes (packRaws 8 new.raws) 64)).unitWrite i sa new.scales := by
  intro ea sa new
  unfold State.applyGroup
  refine (if_pos h).trans ?_
  simp only [decodeElems, List.map_map]
  rfl

theorem noteShort_of_le {k : SlabId} {u old new : Nat} {o : ObjectEntry} (h : new ≤ o.fullCount) :
    s.noteShort k u o old new = s := if_neg (Nat.not_lt.mpr h)

end Sys2Proof.Machine

namespace Sys2Proof.Proofs

open Sys2Proof.Machine

theorem landingsAreTakenInOrder : Claims.LandingsAreTakenInOrder := by
  intro s i u j l hready ls counted
  refine ⟨fun hj hl => ⟨exec_gradientLanding_late hready hj hl, fun n r hw => ⟨exec_gradientLanding_fault hready hj hl hw, ?_, ?_⟩⟩,
    exec_gradientLanding_of_none hready, fun n r o hw hls ho => ?_⟩
  · intro o ho hbad
    rw [exec_gradientLanding_of_object hready hj hl hw ho, hbad]
    rfl
  · intro o ho hok
    have hexec := exec_gradientLanding_of_object hready hj hl hw ho
    rw [hok] at hexec
    refine ⟨fun hfrozen => ?_, fun hfrozen hwaits => ?_, fun hfrozen hwaits => ?_⟩
    · rw [hexec, hfrozen]; rfl
    · rw [hexec, hfrozen, hwaits]; rfl
    · rw [hexec, hfrozen, hwaits]; rfl
  · have hexec := exec_landingWaitRelease hready hw hls rfl ho
    exact ⟨fun hwaits => hexec.trans (congrArg _ (if_pos hwaits)),
      fun hwaits => hexec.trans (congrArg _ (if_neg (by rw [hwaits]; exact Bool.false_ne_true)))⟩

theorem groupsAreWrittenOrAdded : Claims.GroupsAreWrittenOrAdded := by
  intro s i o b fresh n g d c k
  refine ⟨fun h => applyGroup_first h d c, fun h => ?_, fun r step u l hb hg hn hlt => ?_⟩
  · intro ea sa value sum new
    rw [applyGroup_later h d c, groupValues, groupValues, zipWith_map_same]
  · subst hb
    unfold State.landApply
    dsimp only
    rw [hg, hn]
    simp only [List.foldl_cons, List.foldl_nil, List.length_singleton]
    rw [if_neg (by omega), noteShort_of_le (by omega)]
    rfl

/-- Settles O25: landings by the order of the queue and the state of their block, groups by whether the window has had one. -/
theorem landingsFillTheirGroup : Obligations.LandingsFillTheirGroup :=
  ⟨landingsAreTakenInOrder, groupsAreWrittenOrAdded⟩

end Sys2Proof.Proofs
end

section
/-! # Pass 2 of an update unit (R272, R286 to R294) -/

namespace Sys2Proof.Machine

variable {s : State} {i : SlabId} {u : Fin 24}

/-! ## The next block of pass 2 -/

theorem pass2Next_eq_some {u : Nat} {o : ObjectEntry} {b : Nat} {r : SummitResult} (h : s.pass2Next i u = some (o, b, r)) :
    r.skip = false ∧ ((s.slab i).stack u).unit.torn = false ∧ s.owes i u ((s.slab i).stack u).unit.pos = true := by
  unfold State.pass2Next at h
  dsimp only at h
  split at h
  next r' o' b' _ _ =>
    by_cases hc : (r'.skip || ((s.slab i).stack u).unit.torn || !s.owes i u ((s.slab i).stack u).unit.pos) = true
    · rw [if_pos hc] at h
      exact nomatch h
    · rw [if_neg hc] at h
      obtain ⟨⟩ := h
      simpa [and_assoc] using hc
  next => exact nomatch h

theorem exec_pass2Block_of_none (h : s.pass2Next i u.val = none) : exec (.pass2Block i u) s = .next s := by
  change execPass2Block i u s = _
  unfold execPass2Block
  dsimp only
  rw [h, ite_self]

theorem exec_pass2Block_of_some {o : ObjectEntry} {b : Nat} {r : SummitResult} (hready : (s.slab i).ready = true)
    (h : s.pass2Next i u.val = some (o, b, r)) :
    exec (.pass2Block i u) s = if !s.headerOk i o b then .next (s.headerError i o b)
      else .next ((((s.readPlanes i o b (List.range (planeSizes o.update).length)).modSlab i (fun sl =>
        sl.modUnit u.val (fun y => y.ruleCounts (s.computeBlock i o b r).2))).writeResult i (s.computeBlock i o b r).1).commitBlock i i
          u.val o (s.computeBlock i o b r).1) := by
  change execPass2Block i u s = _
  unfold execPass2Block
  dsimp only
  rw [if_pos hready, h]

/-! ## Frozen changes -/

theorem exec_frozenChange {object : Half} {block : Word} {o : ObjectEntry} {n : DWord} {frozen : Bool} {k : SlabId} {u : Nat}
    (hready : (s.slab i).ready = true) (ho : s.objectNo i object.toNat = some o)
    (hf : (s.job i).freezeOf object.toNat block.toNat = some (n, frozen)) (hk : s.blockOwner i o block.toNat = some (k, u))
    (hparam : o.isParam = true) (hblock : block.toNat < o.update.nblocks) :
    exec (.frozenChange i object block) s =
      if s.landingWaits i k u o block.toNat n = true ∨ (s.job i).step.toNat + 1 < n.toNat
          ∨ (n.toNat ≤ s.headerField i o block.toNat 0x20 8 ∧ s.headerField i o block.toNat 0x20 8 < 2 ^ 64 - 1) then .next s
      else .next (s.putFrozen i o block.toNat frozen) := by
  change execFrozenChange i object block s = _
  unfold execFrozenChange
  dsimp only
  rw [if_pos hready, ho, hf]
  dsimp only
  rw [hk]
  simp only [hparam, Nat.not_le.mpr hblock, Bool.not_true, decide_false, Bool.false_or, Bool.or_eq_true, decide_eq_true_eq, or_assoc]

/-! ## Torn and lost blocks -/

theorem tear_of_next {u f j : Nat} {o : ObjectEntry} {b : Nat} {r : SummitResult} (h : s.pass2Next i u = some (o, b, r)) :
    (((s.tear i u f j).slab i).stack u).unit.torn = true
      ∧ (((s.tear i u f j).slab i).stack u).unit.journal = some { object := o.object, block := b, step := r.step, fieldPos := f, sector := j } := by
  unfold State.tear
  rw [h]
  dsimp only
  rw [slab_modSlab_self, Slab.stack_modCamp, Slab.modUnit, Slab.stack_modStack_self]
  exact ⟨rfl, rfl⟩

theorem find?_of_unique {α : Type} {p : α → Bool} {l : List α} {a : α} (ha : a ∈ l) (hp : p a = true)
    (huniq : ∀ b ∈ l, b ≠ a → p b = false) : l.find? p = some a := by
  obtain ⟨b, hb⟩ := Option.isSome_iff_exists.mp (List.find?_isSome.mpr ⟨a, ha, hp⟩)
  by_cases h : b = a
  · rw [hb, h]
  · have := huniq b (List.mem_of_find?_eq_some hb) h
    rw [List.find?_some hb] at this
    exact nomatch this

/-- The unit's torn block forgotten. -/
def State.forgetTorn (s : State) (i : SlabId) (u : Fin 24) : State :=
  s.modSlab i (fun sl => sl.modUnit u.val (fun y => { y with journal := none, torn := false, result := none }))

/-- The reset of a block torn on a lost stack, when it is the only torn one. -/
theorem exec_lostBlockReset {o : ObjectEntry} {jr : Journal} {object : Half} {block : Word} {peer : List Byte}
    (hready : (s.slab i).ready = true) (ho : s.objectNo i object.toNat = some o)
    (hothers : ∀ v ∈ stacks24, v ≠ u.val → ((s.slab i).stack v).unit.torn = false)
    (hlost : ((s.slab i).stack u.val).state.lost = true) (htorn : ((s.slab i).stack u.val).unit.torn = true)
    (hjr : ((s.slab i).stack u.val).unit.journal = some jr) (hobj : jr.object = object.toNat) (hblk : jr.block = block.toNat) :
    exec (.lostBlockReset i object block peer) s =
      ((s.forgetTorn i u).resetWeights i o block.toNat peer).elim
        (.next ((s.forgetTorn i u).modJob i (fun j =>
          { j with lostPages := insertNew (vpnOf (o.base + pageBytes * o.blockPage block.toNat)) j.lostPages })))
        (fun ws => .next ((s.forgetTorn i u).resetBlock i i (((s.forgetTorn i u).slab i).unitFor u.val) o block.toNat ws)) := by
  have hmem : u.val ∈ stacks24 := List.mem_range.mpr u.isLt
  change execLostBlockReset i object block peer s = _
  unfold execLostBlockReset
  dsimp only
  rw [if_pos hready, find?_of_unique hmem, ho]
  · unfold State.forgetTorn
    dsimp only
    split
    · next h => rw [h]; rfl
    · next ws h => rw [h]; rfl
  · simp [hlost, hjr, htorn, hobj, hblk]
  · intro v hv hne
    rw [hothers v hv hne]
    cases ((s.slab i).stack v).unit.journal <;> simp

end Sys2Proof.Machine

namespace Sys2Proof.Proofs

open Sys2Proof.Machine

theorem pass2CommitsTheNextBlock : Claims.Pass2CommitsTheNextBlock := by
  intro s i u hready
  refine ⟨exec_pass2Block_of_none, fun o b r h => ⟨fun hbad => ?_, fun hok => ?_, pass2Next_eq_some h⟩⟩
  · rw [exec_pass2Block_of_some hready h, hbad]; rfl
  · rw [exec_pass2Block_of_some hready h, hok]; rfl

theorem frozenChangesBetweenSteps : Claims.FrozenChangesBetweenSteps := by
  intro s i object block o n frozen k u hready ho hf hk hparam hblock
  rw [exec_frozenChange hready ho hf hk hparam hblock]
  refine ⟨fun h => if_pos (h.imp_right Or.symm), fun hwaits hstep hlate => if_neg ?_⟩
  rw [hwaits]
  rintro (h | h | ⟨hle, hlt⟩)
  · exact Bool.false_ne_true h
  · omega
  · omega

theorem unitErrorsTearAndLostBlocksReset : Claims.UnitErrorsTearAndLostBlocksReset := by
  refine ⟨fun s i u hready => ?_, fun s i u o jr object block peer hready ho hothers hlost htorn hjr hobj hblk => ?_⟩
  · have hexec : ∀ torn, exec (.updateUnitError i u torn) s = execUpdateUnitError i u torn s := fun _ => rfl
    simp only [hexec, execUpdateUnitError, hready, Bool.not_true, Bool.false_eq_true, if_false]
    exact ⟨trivial, fun f j => ⟨trivial, fun o b r h => tear_of_next h⟩⟩
  · intro z
    rw [exec_lostBlockReset hready ho hothers hlost htorn hjr hobj hblk]
    exact ⟨fun ws h => congrArg (Option.elim · _ _) h, fun h => congrArg (Option.elim · _ _) h⟩

/-- Settles O27: pass 2 by the next block owed, a FROZEN change by its interval, torn blocks by their journal. -/
theorem pass2CommitsOrLosesBlocks : Obligations.Pass2CommitsOrLosesBlocks :=
  ⟨pass2CommitsTheNextBlock, frozenChangesBetweenSteps, unitErrorsTearAndLostBlocksReset⟩

end Sys2Proof.Proofs
end

section
/-! # Frames that a port takes (R307, R309, R310, R312) -/

namespace Sys2Proof.Machine

variable {s : State} {i : SlabId} {p : Fin 16} {f : ZFrame} {type : Nat}

/-- A port that has taken a frame: what the header says is heard, and the frame is owed a credit. -/
def Port.took (x : Port) (now : Nat) (f : ZFrame) : Port :=
  let y := (x.codeword f).heard now f.header
  { y with rxSeq := zLseq f.header, rq := false, owed := bumpAt y.owed (zVc f.header) 1 }

theorem receive_of_next {x : Port} {now : Nat} (hcheck : f.check = .clean ∨ f.check = .corrected) (hpos : 0 < zType f.header)
    (hlt : zType f.header < 6) (hseq : (zLseq f.header - x.rxSeq).toNat = 1) : x.receive now f = (x.took now f, .taken) := by
  have hgood : ¬ (f.check = .uncorrectable ∨ f.check = .badCrc) := by
    rintro (h | h) <;> rw [h] at hcheck <;> exact absurd hcheck (by decide)
  unfold Port.receive
  rw [if_neg hgood]
  dsimp only
  rw [if_neg (Nat.pos_iff_ne_zero.mp hpos), if_pos hseq, if_neg (Nat.not_le.mpr hlt)]
  rfl

theorem modPort_const (sl : Slab) (k : Nat) (g : Port → Port) : sl.modPort k (fun _ => g (sl.port k)) = sl.modPort k g := rfl

theorem linkIn_of_inOrder (h : Claims.inOrder s i p f type) : s.linkIn i p.val f type = (Claims.taken s i p f, true) := by
  obtain ⟨hready, hup, hcheck, htype, hpos, hlt, hseq⟩ := h
  subst htype
  unfold State.linkIn
  simp only [hready, hup, Bool.not_true, Bool.false_or, ne_eq, not_true, and_false, decide_false, Bool.false_eq_true, if_false]
  rw [receive_of_next hcheck hpos hlt hseq]
  exact congrArg (Prod.mk · true) (modSlab_congr s i rfl)

theorem linkInOwn_of_forThis (h : Claims.forThis s i p f type) : s.linkInOwn i p.val f type = (Claims.taken s i p f, true) :=
  (if_pos h.2).trans (linkIn_of_inOrder h.1)

theorem ctrlIn_of_ctrl {op : Nat} (h : Claims.ctrl s i p f op) : s.ctrlIn i p.val f op = (Claims.taken s i p f, true) :=
  (if_pos h.2).trans (linkInOwn_of_forThis h.1)

/-- A frame taken changes its port and nothing else of a slab. -/
theorem slab_taken_proj {α : Type} (π : Slab → α) (h : ∀ (sl : Slab) (k : Nat) (g : Port → Port), π (sl.modPort k g) = π sl)
    (s : State) (i j : SlabId) (p : Fin 16) (f : ZFrame) : π ((Claims.taken s i p f).slab j) = π (s.slab j) :=
  slab_modSlab_proj π (fun sl => h sl _ _) s i j

theorem dev_taken (j : SlabId) : (Claims.taken s i p f).dev j = s.dev j := dev_modSlab ..

theorem job_taken (j : SlabId) : (Claims.taken s i p f).job j = s.job j := by
  rw [State.job, dev_taken]
  exact slab_taken_proj (fun sl => sl.job) (fun _ _ _ => rfl) s i (s.dev j) p f

theorem engines_taken (j : SlabId) : ((Claims.taken s i p f).slab j).engines = (s.slab j).engines :=
  slab_taken_proj (fun sl => sl.engines) (fun _ _ _ => rfl) s i j p f

theorem links_taken (j : SlabId) : ((Claims.taken s i p f).slab j).links = (s.slab j).links :=
  slab_taken_proj (fun sl => sl.links) (fun _ _ _ => rfl) s i j p f

theorem camp_taken (j : SlabId) : ((Claims.taken s i p f).slab j).camp = (s.slab j).camp :=
  slab_taken_proj (fun sl => sl.camp) (fun _ _ _ => rfl) s i j p f

end Sys2Proof.Machine
end

section
/-! # The summit reduction: contributions and frames of the tree (R280, R281, R330) -/

namespace Sys2Proof.Machine

variable {s : State} {i : SlabId}

/-! ## The contribution of a slab -/

theorem exec_summitContributionSend_of_contributed (h : (s.slab i).links.contributed = true) :
    exec (.summitContributionSend i) s = .next s := by
  change execSummitContributionSend i s = _
  unfold execSummitContributionSend
  rw [h, Bool.not_true, Bool.and_false]
  rfl

/-- The part of a slab: what it contributes to step `n`. -/
abbrev State.part (s : State) (i : SlabId) (n : DWord) : Contribution := s.slabContribution i n (Config.slowPitches s.free)

/-- The module once a slab has made its part: it has contributed, and the ledger and a SLOW part's timers are told. -/
def State.partMade (s : State) (i : SlabId) (n : DWord) : State :=
  let z := ({ s with free := s.free + 1 } : State).modSlab i (fun sl =>
    (sl.modLinks (fun l => { l with contributed := true, summitSince := sl.clocks.cycle })).modCamp (fun cp =>
      cp.modLedger n (fun x => { x with phases := x.phases ||| 2 })))
  if (s.part i n).slow then z.modSlab i (fun sl => sl.heardSlow (s.part i n).slowPitches) else z

theorem dev_partMade (n : DWord) (j : SlabId) : (s.partMade i n).dev j = s.dev j := by
  unfold State.partMade
  dsimp only
  split
  · rw [dev_modSlab, dev_modSlab]; rfl
  · rw [dev_modSlab]; rfl

/-- A slab's part sent: the device's own goes up the tree, slab 1's to slab 0. -/
def State.sendPart (s : State) (i : SlabId) (n : DWord) : Result :=
  if (s.partMade i n).dev i = i then
    .next (((s.partMade i n).modSlab i (fun sl => sl.modLinks (fun l => { l with own := some (s.part i n) }))).summitAdvance i)
  else
    .next ((s.partMade i n).modSlab i (fun sl =>
      sl.sendFrames (sl.summitFrames (s.partMade i n).slab0.links.endpoint n false false (s.part i n).bytes)))

/-- The units of a slab that lack blocks of a window, with their number. -/
abbrev State.lacks (s : State) (i : SlabId) (n : DWord) (r : Nat) : List (Nat × Nat) := stacks24.map (fun u => (u, s.incomplete i i u n r))

theorem lacks_zero {n : DWord} {r : Nat} (h : ∀ u ∈ stacks24, s.incomplete i i u n r = 0) : ∀ p ∈ s.lacks i n r, p.2 = 0 := by
  intro p hp
  obtain ⟨u, hu, rfl⟩ := List.mem_map.mp hp
  exact h u hu

theorem exec_summitContributionSend_of_complete {n : DWord} {r : Nat} (hready : (s.slab i).ready = true) (hw : (s.job i).window = some (n, r))
    (hc : (s.slab i).links.contributed = false) (h : ∀ u ∈ stacks24, s.incomplete i i u n r = 0) :
    exec (.summitContributionSend i) s =
      if s.dev i = i then .next (((s.partMade i n).modSlab i (fun sl => sl.modLinks (fun l => { l with own := some (s.part i n) }))).summitAdvance i)
      else .next ((s.partMade i n).modSlab i (fun sl =>
        sl.sendFrames (sl.summitFrames (s.partMade i n).slab0.links.endpoint n false false (s.part i n).bytes))) := by
  have hall : (s.lacks i n r).all (fun p => decide (p.2 = 0)) = true :=
    List.all_eq_true.mpr (fun p hp => decide_eq_true (lacks_zero h p hp))
  change execSummitContributionSend i s = _
  unfold execSummitContributionSend
  rw [hready, hc, hw]
  change (if (!(s.lacks i n r).all (fun p => decide (p.2 = 0)) && _) = true then _ else State.sendPart ((s.lacks i n r).foldl _ s) i n) = _
  rw [hall, foldl_keeps (fun p hp => if_pos (lacks_zero h p hp)), State.sendPart, dev_partMade]
  rfl

theorem exec_summitContributionSend_of_lacking {n : DWord} {r u : Nat} (hw : (s.job i).window = some (n, r))
    (hu : u ∈ stacks24) (hlacks : s.incomplete i i u n r ≠ 0) (hno : ∀ im, s.image i = some im → im.collectives = []) :
    exec (.summitContributionSend i) s = .next s := by
  have hall : (s.lacks i n r).all (fun p => decide (p.2 = 0)) = false :=
    List.all_eq_false.mpr ⟨_, List.mem_map.mpr ⟨u, hu, rfl⟩, by simpa using hlacks⟩
  change execSummitContributionSend i s = _
  unfold execSummitContributionSend
  by_cases hrun : ((s.slab i).ready && !(s.slab i).links.contributed) = true
  · rw [if_pos hrun, hw]
    change (if (!(s.lacks i n r).all (fun p => decide (p.2 = 0)) && _) = true then _ else State.sendPart ((s.lacks i n r).foldl _ s) i n) = _
    rw [hall]
    cases him : s.image i with
    | none => rfl
    | some im => exact if_pos (by simp [hno im him])
  · rw [if_neg hrun]

/-! ## A frame of the tree -/

/-- The frame put with the others of its packet. -/
def State.partAdded (s : State) (i : SlabId) (f : ZFrame) : State :=
  s.modSlab i (fun sl => { sl with links := ((s.slab i).links.addSummitPart f).1 })

/-- What a whole packet brings: a result goes on to the children and is the device's own, a contribution is its sender's. -/
def State.packetWhole (s : State) (i : SlabId) (f : ZFrame) (bs : List Byte) : State :=
  if zSumDir f.header then
    (s.forwardResult i (resultOf bs)).modSlab i (fun sl => sl.modLinks (fun l => { l with result := some (resultOf bs) }))
  else
    (s.modSlab i (fun sl =>
      let sl := sl.modLinks (fun l => { l with children := aset (zSrc f.header) (contributionOf bs (zSumLrm f.header)) l.children })
      if (contributionOf bs (zSumLrm f.header)).slow then sl.heardSlow (contributionOf bs (zSumLrm f.header)).slowPitches else sl)).summitAdvance i

theorem exec_summitFrame_of_not_taken {p : Fin 16} {f : ZFrame} {z : State} (h : s.linkInOwn i p.val f 4 = (z, false)) :
    exec (.summitFrame i p f) s = .next z := by
  change execSummitFrame i p f s = _
  unfold execSummitFrame
  rw [h]
  rfl

theorem exec_summitFrame_of_taken {p : Fin 16} {f : ZFrame} (h : Claims.forThis s i p f 4) :
    exec (.summitFrame i p f) s = .next (
      ((((Claims.taken s i p f).slab i).links.addSummitPart f).2).elim ((Claims.taken s i p f).partAdded i f)
        (((Claims.taken s i p f).partAdded i f).packetWhole i f)) := by
  change execSummitFrame i p f s = _
  unfold execSummitFrame
  rw [linkInOwn_of_forThis h]
  simp only [Bool.not_true, Bool.false_eq_true, if_false]
  cases hp : (((Claims.taken s i p f).slab i).links.addSummitPart f) with
  | mk l whole =>
    cases whole with
    | none => simp only [State.partAdded, hp, Option.elim]
    | some bs =>
      simp only [State.partAdded, hp, Option.elim, State.packetWhole]
      split <;> rfl

end Sys2Proof.Machine

namespace Sys2Proof.Proofs

open Sys2Proof.Machine

theorem completeUnitsContribute : Claims.CompleteUnitsContribute := by
  intro s i n r hready hw
  refine ⟨exec_summitContributionSend_of_contributed, fun hc hall => ?_, fun _ ⟨u, hu, hlacks⟩ => exec_summitContributionSend_of_lacking hw hu hlacks⟩
  intro c z y
  have hexec := exec_summitContributionSend_of_complete hready hw hc hall
  exact ⟨fun hdev => hexec.trans (if_pos hdev), fun hdev => hexec.trans (if_neg hdev)⟩

theorem treeFramesAddUp : Claims.TreeFramesAddUp := by
  intro s i p f
  refine ⟨fun z => exec_summitFrame_of_not_taken, fun h => ?_⟩
  intro z x y
  have hexec := exec_summitFrame_of_taken h
  refine ⟨fun hx => hexec.trans (by rw [show (((Claims.taken s i p f).slab i).links.addSummitPart f).2 = none from hx]; rfl), fun bs hx => ?_⟩
  rw [show (((Claims.taken s i p f).slab i).links.addSummitPart f).2 = some bs from hx] at hexec
  exact ⟨fun hdir => hexec.trans (congrArg _ (if_pos hdir)),
    fun hdir => hexec.trans (congrArg _ (if_neg (by rw [hdir]; exact Bool.false_ne_true)))⟩

/-- Settles O26: the slab's part by its complete units, and a frame of the tree by the packet that it makes whole. -/
theorem unitsContributeUpTheTree : Obligations.UnitsContributeUpTheTree := ⟨completeUnitsContribute, treeFramesAddUp⟩

end Sys2Proof.Proofs
end

section
/-! # Timers, probes and advisories of the links (R312, R313, R327, R338, R339) -/

namespace Sys2Proof.Machine

variable {s : State} {i : SlabId} {p : Fin 16}

/-! ## Timers -/

theorem exec_retryTimeout (hready : (s.slab i).ready = true) (hup : ((s.slab i).port p.val).up = true)
    (hne : ((s.slab i).port p.val).replay ≠ []) :
    exec (.retryTimeout i p) s =
      if s.cycle i < ((s.slab i).port p.val).oldestSent + fabric (s.slab i).links.retryTimeout then .next s
      else .next ((s.modSlab i (fun sl => sl.modPort p.val (fun x => x.resend (s.cycle i)))).checkResends i p.val) := by
  change execRetryTimeout i p s = _
  unfold execRetryTimeout
  simp only [hready, hup, List.isEmpty_eq_false_iff.mpr hne, Bool.not_true, Bool.false_or, decide_eq_true_eq]

theorem exec_linkSilenceTimeout (hready : (s.slab i).ready = true) (hup : ((s.slab i).port p.val).up = true) :
    exec (.linkSilenceTimeout i p) s =
      if s.cycle i < ((s.slab i).port p.val).lastFrame + fabric 65536 then .next s else .next (s.linkFail i p.val) := by
  change execLinkSilenceTimeout i p s = _
  unfold execLinkSilenceTimeout
  simp only [hready, hup, Bool.not_true, Bool.false_or, decide_eq_true_eq]

/-- The contributors that a bucket awaits asked again and probed; reported too after the third probe. -/
def State.chaseBucket (s : State) (i : SlabId) (e : Nat) (co : Collective) (b : Half) (k : Bucket) : State :=
  let g := (s.slab i).group co.group
  let late := (List.range g.ranks.length).filter (fun r => decide (r ≠ g.rank) && !(k.missing co.bb r).isEmpty)
  late.foldl (fun s r =>
    let s := s.askResend i e co b.toNat k.epoch r (k.missing co.bb r)
    let s := if k.probes = 3 then s.reportUnreachable i (g.endpoint r) 0 else s
    s.sendProbe i (g.endpoint r) 0) s

theorem exec_collTimeout {c : Nat} {b : Half} {co : Collective} {k : Bucket} (hready : (s.slab i).ready = true)
    (hco : s.collective i c = some co)
    (hk : ((s.slab i).engine p.val).buckets.find? (fun x => decide (x.coll = c) && decide (x.bucket = b.toNat) && !x.complete) = some k) :
    exec (.collTimeout i p c b) s = if s.cycle i < k.opened + fabric k.timeout then .next s
      else .next ((s.chaseBucket i p.val co b k).modSlab i (fun sl => sl.modEngine p.val (fun y => y.modBucket c b.toNat (fun v =>
        { v with probes := v.probes + 1, opened := sl.clocks.cycle, timeout := if 3 ≤ v.probes then maxTimer else v.timeout })))) := by
  change execCollTimeout i p c b s = _
  unfold execCollTimeout
  dsimp only
  rw [hready, if_pos rfl, hco, hk]
  rfl

/-- The endpoints that a device awaits in the summit reduction. -/
def State.awaited (s : State) (i : SlabId) : List Half :=
  (s.slab i).links.own.elim ((s.slab i).summitGroup.bind summitParent).toList
    (fun c => (s.awaitedParts i).filter (fun e => ((s.slab i).childPart e c.step).isNone))

/-- The endpoints awaited in the summit reduction probed; reported too after the third probe. -/
def State.chaseSummit (s : State) (i : SlabId) : State :=
  (s.awaited i).foldl (fun z e =>
    let z := if (s.slab i).links.summitProbes = 3 then z.reportUnreachable i e 1 else z
    z.sendProbe i e 1) s

theorem exec_summitTimeout (hready : (s.slab i).ready = true) (hc : (s.slab i).links.contributed = true)
    (hr : (s.slab i).links.result = none) :
    exec (.summitTimeout i) s = if s.cycle i < (s.slab i).links.summitSince + fabric (s.slab i).links.summitWait then .next s
      else if (s.awaited i).isEmpty then .next s
      else .next ((s.chaseSummit i).modSlab i (fun sl => sl.modLinks (fun l =>
        { l with summitProbes := l.summitProbes + 1, summitSince := sl.clocks.cycle
                 unreachable := l.unreachable || decide (l.summitProbes = 3)
                 summitWait := if 3 ≤ l.summitProbes then maxTimer else l.summitWait }))) := by
  change execSummitTimeout i s = _
  unfold execSummitTimeout State.chaseSummit State.awaited
  simp only [hready, hc, hr, Bool.not_true, Option.isSome_none, Bool.false_or, decide_eq_true_eq]
  cases (s.slab i).links.own <;> rfl

/-! ## Probes, answers and advisories -/

theorem exec_probe_of_taken {f : ZFrame} {step : DWord} {a : Byte} (h : Claims.ctrl s i p f 6) :
    exec (.probe i p f step a) s = .next ((Claims.taken s i p f).modSlab i (fun sl => sl.sendCtrl (zSrc f.header) 7
      (leBytes (s.job i).step.toNat 8 ++ [if (s.job i).state = .paused then 2 else if (s.job i).window.isSome then 1 else 0]
        ++ leBytes sl.links.slowPitches.toNat 2))) := by
  change execProbe i p f step a s = _
  unfold execProbe
  rw [ctrlIn_of_ctrl h]
  simp only [Bool.not_true, Bool.false_eq_true, if_false, job_taken]

theorem exec_probe_of_not_taken {f : ZFrame} {step : DWord} {a : Byte} {y : State} (h : s.ctrlIn i p.val f 6 = (y, false)) :
    exec (.probe i p f step a) s = .next y := by
  change execProbe i p f step a s = _
  unfold execProbe
  rw [h]
  rfl

theorem exec_alive_of_not_taken {f : ZFrame} {step : DWord} {a : Byte} {slow : Half} {y : State}
    (h : s.ctrlIn i p.val f 7 = (y, false)) : exec (.alive i p f step a slow) s = .next y := by
  change execAlive i p f step a slow s = _
  unfold execAlive
  rw [h]
  rfl

theorem exec_advisory_of_taken {f : ZFrame} {step : DWord} {slow : Half} (h : Claims.ctrl s i p f 8) :
    exec (.advisory i p f step slow) s = .next ((Claims.taken s i p f).modSlab i (fun sl =>
      ((sl.heardSlow slow).count Ctr.SLOW_ADVISORIES 1).sendAdvisory step (some (zSrc f.header)))) := by
  change execAdvisory i p f step slow s = _
  unfold execAdvisory
  rw [ctrlIn_of_ctrl h]
  rfl

/-- The module once ALIVE is logged. -/
def State.aliveLogged (s : State) (i : SlabId) (f : ZFrame) (slow : Half) : State :=
  s.logFault i { FaultEntry.basic 0x17 1 with node := zSrc f.header, detail := leBytes slow.toNat 2 }

/-- The summit timer after ALIVE: a device that has probed starts it again. -/
def Links.aliveHeard (l : Links) (now : Nat) : Links :=
  if l.summitProbes = 0 then l
  else { l with summitWait := aliveTimer l.summitWait l.summitTimeout l.summitProbes, summitProbes := 0, summitSince := now, unreachable := false }

/-- A bucket that has probed and awaits blocks of the sender of ALIVE. -/
def State.bucketAwaits (s : State) (i : SlabId) (src : Half) (x : Bucket) : Bool :=
  match s.collective i x.coll with
  | none => false
  | some co =>
    match ((s.slab i).group co.group).rankOf src with
    | none => false
    | some r => !x.complete && decide (0 < x.probes) && !(x.missing co.bb r).isEmpty

/-- A bucket after ALIVE of an endpoint: one that awaits it starts its timer again. -/
def State.bucketHeard (s : State) (i : SlabId) (src : Half) (now configured : Nat) (x : Bucket) : Bucket :=
  if s.bucketAwaits i src x then { x with timeout := aliveTimer x.timeout configured x.probes, probes := 0, opened := now } else x

/-- ALIVE is logged, and changes the buckets that await its sender and the summit timer. -/
theorem exec_alive_of_taken {f : ZFrame} {step : DWord} {a : Byte} {slow : Half} (h : Claims.ctrl s i p f 7) :
    exec (.alive i p f step a slow) s = .next (((Claims.taken s i p f).aliveLogged i f slow).modSlab i (fun sl =>
      ({ sl with engines := sl.engines.map (fun q => (q.1, { q.2 with
          buckets := q.2.buckets.map (((Claims.taken s i p f).aliveLogged i f slow).bucketHeard i (zSrc f.header) sl.clocks.cycle
            sl.links.collTimeout) })) } : Slab).modLinks (fun l => l.aliveHeard sl.clocks.cycle))) := by
  change execAlive i p f step a slow s = _
  unfold execAlive
  rw [ctrlIn_of_ctrl h]
  rfl

theorem engines_aliveLogged (f : ZFrame) (slow : Half) : ((s.aliveLogged i f slow).slab i).engines = (s.slab i).engines :=
  slab_logFault_proj (fun sl => sl.engines) (fun _ _ _ => rfl) s i i _

theorem links_aliveLogged (f : ZFrame) (slow : Half) : ((s.aliveLogged i f slow).slab i).links = (s.slab i).links :=
  slab_logFault_proj (fun sl => sl.links) (fun _ _ _ => rfl) s i i _

theorem logSeq_logFault (e : FaultEntry) : ((s.logFault i e).slab i).camp.logSeq = (s.slab i).camp.logSeq + 1 := by
  unfold State.logFault State.logFaultAt
  dsimp only
  rw [slab_event, slab_modSlab_self]
  rfl

/-- With no bucket open ALIVE starts the summit timer alone. -/
theorem exec_alive_of_no_engine {f : ZFrame} {step : DWord} {a : Byte} {slow : Half} (h : Claims.ctrl s i p f 7)
    (he : (s.slab i).engines = []) (hp : 0 < (s.slab i).links.summitProbes) :
    exec (.alive i p f step a slow) s = .next (((Claims.taken s i p f).aliveLogged i f slow).modSlab i (fun sl => sl.modLinks (fun l =>
      { l with summitWait := aliveTimer l.summitWait l.summitTimeout l.summitProbes, summitProbes := 0
               summitSince := sl.clocks.cycle, unreachable := false }))) := by
  rw [exec_alive_of_taken h]
  refine congrArg _ (modSlab_congr _ i ?_)
  have he' : (((Claims.taken s i p f).aliveLogged i f slow).slab i).engines = [] := by rw [engines_aliveLogged, engines_taken, he]
  have hp' : (((Claims.taken s i p f).aliveLogged i f slow).slab i).links.summitProbes ≠ 0 := by
    rw [links_aliveLogged, links_taken]; exact Nat.ne_of_gt hp
  generalize ((Claims.taken s i p f).aliveLogged i f slow).slab i = sl at he' hp'
  rw [Slab.modLinks, Slab.modLinks, Links.aliveHeard]
  dsimp only
  rw [if_neg hp', he', List.map_nil]

end Sys2Proof.Machine

namespace Sys2Proof.Proofs

open Sys2Proof.Machine

theorem timersRetryProbeOrFail : Claims.TimersRetryProbeOrFail := by
  intro s i p hready x l
  refine ⟨fun hup hne => ?_, fun hup => ?_, fun c b co k hco hk => ?_, fun hc hr => ?_⟩
  · rw [exec_retryTimeout hready hup hne]
    exact ⟨fun h => if_pos h, fun h => if_neg (Nat.not_lt.mpr h)⟩
  · rw [exec_linkSilenceTimeout hready hup]
    exact ⟨fun h => if_pos h, fun h => if_neg (Nat.not_lt.mpr h)⟩
  · intro g late z
    rw [exec_collTimeout hready hco hk]
    exact ⟨fun h => if_pos h, fun h => if_neg (Nat.not_lt.mpr h)⟩
  · intro missing z
    have hmissing : s.awaited i = missing := by
      unfold State.awaited
      cases h : (s.slab i).links.own <;> simp only [missing, l, h] <;> rfl
    rw [exec_summitTimeout hready hc hr]
    refine ⟨fun h => if_pos h, fun h hne => (if_neg (Nat.not_lt.mpr h)).trans ((if_neg ?_).trans ?_)⟩
    · rw [hmissing]
      simpa using hne
    · rw [State.chaseSummit, hmissing]

theorem probesAreAnsweredAndAdvisoriesRelayed : Claims.ProbesAreAnsweredAndAdvisoriesRelayed := by
  intro s i p f step a slow j z
  refine ⟨exec_probe_of_taken, fun y => exec_probe_of_not_taken, fun y => exec_alive_of_not_taken, exec_alive_of_no_engine, fun h => ?_,
    exec_advisory_of_taken⟩
  refine ⟨_, exec_alive_of_taken h, ?_⟩
  rw [slab_modSlab_self, Slab.modLinks, State.aliveLogged, logSeq_logFault, camp_taken]

/-- Settles O32: each timer by its cycle, and PROBE, ALIVE and ADVISORY by what a taken frame of theirs leaves. -/
theorem timersAndProbesFollowTheirTables : Obligations.TimersAndProbesFollowTheirTables :=
  ⟨timersRetryProbeOrFail, probesAreAnsweredAndAdvisoriesRelayed⟩

end Sys2Proof.Proofs
end

section
/-! # The ports of a slab and their links (R306 to R313, R323) -/

namespace Sys2Proof.Machine

variable {s : State} {i : SlabId} {p : Fin 16} {f : ZFrame}

/-! ## What the link layer does with a frame -/

theorem receive_of_bad {x : Port} {now : Nat} (h : f.check = .uncorrectable ∨ f.check = .badCrc) :
    x.receive now f = ({ x.codeword f with rq := true, lastFrame := now }, .dropped) := if_pos h

section
variable {x : Port} {now : Nat} (hclean : f.check = .clean)
include hclean

theorem codeword_of_clean : x.codeword f = x := by
  unfold Port.codeword; rw [hclean]

/-- A frame without an error, by its type and its distance from the last one taken. -/
theorem receive_of_clean :
    x.receive now f = if zType f.header = 0 then (x.heard now f.header, .dropped)
      else if (zLseq f.header - x.rxSeq).toNat = 1 then
        if 6 ≤ zType f.header then ((x.took now f).count Ctr.ZETRA_BAD_FRAMES 1, .dropped) else (x.took now f, .taken)
      else if 1 < (zLseq f.header - x.rxSeq).toNat ∧ (zLseq f.header - x.rxSeq).toNat < 17 then (x, .waits)
      else (if (zLseq f.header - x.rxSeq).toNat = 0 ∨ 2048 ≤ (zLseq f.header - x.rxSeq).toNat then x.heard now f.header
        else { x.heard now f.header with rq := true }, .dropped) := by
  unfold Port.receive Port.took
  rw [if_neg (by rw [hclean]; decide), codeword_of_clean hclean]

end

/-- A frame's port put back after its reception; one that is dropped may have made the link fail. -/
def State.received (s : State) (i : SlabId) (p : Fin 16) (q : Port) : LinkTake → State × Bool
  | .waits => (s, false)
  | .dropped => ((s.modSlab i (fun sl => sl.modPort p.val (fun _ => q))).checkResends i p.val, false)
  | .taken => (s.modSlab i (fun sl => sl.modPort p.val (fun _ => q)), true)

theorem linkIn_of_down {type : Nat} (hdown : ((s.slab i).port p.val).up = false) : s.linkIn i p.val f type = (s, false) := by
  unfold State.linkIn
  simp only [hdown, Bool.not_false, Bool.or_true, Bool.true_or, if_true]

theorem linkIn_of_up {type : Nat} (hready : (s.slab i).ready = true) (hup : ((s.slab i).port p.val).up = true)
    (htype : f.check = .uncorrectable ∨ zType f.header = type) :
    s.linkIn i p.val f type =
      s.received i p (((s.slab i).port p.val).receive (s.cycle i) f).1 (((s.slab i).port p.val).receive (s.cycle i) f).2 := by
  have hserve : ¬ (f.check ≠ .uncorrectable ∧ zType f.header ≠ type) := fun h => htype.elim h.1 h.2
  unfold State.linkIn
  simp only [hready, hup, hserve, Bool.not_true, Bool.false_or, decide_false, Bool.false_eq_true, if_false]
  rcases ((s.slab i).port p.val).receive (s.cycle i) f with ⟨q, _ | _ | _⟩ <;> rfl

/-! ## Training -/

/-- The lanes that work after a port's training: after a failure a free value adds to them. -/
theorem exec_portTrainingDone (hready : (s.slab i).ready = true) (hen : ((s.slab i).port p.val).enabled = true)
    (hcable : ((s.slab i).port p.val).cable = true) (htrain : ((s.slab i).port p.val).training = true)
    (hdown : ((s.slab i).port p.val).up = false) {z : State} {v : Nat}
    (hz : (if ((s.slab i).port p.val).retrain then s.takeFree 256 else (0, s)) = (v, z)) :
    exec (.portTrainingDone i p) s =
      if laneForm (((s.slab i).port p.val).working ||| BitVec.ofNat 8 v) = 0
          ∨ (((s.slab i).port p.val).retrain = true ∧ (z.root i).kind ≠ .maint) then .next z
      else .next (z.modSlab i (fun sl => sl.modPort p.val (fun y =>
        { y with helloSent := true, training := false, retrain := false
                 working := ((s.slab i).port p.val).working ||| BitVec.ofNat 8 v
                 lanes := laneForm (((s.slab i).port p.val).working ||| BitVec.ofNat 8 v) }))) := by
  change execPortTrainingDone i p s = _
  unfold execPortTrainingDone
  dsimp only
  rw [hz]
  simp only [hready, hen, hcable, htrain, hdown, Bool.not_true, Bool.false_or, Bool.or_eq_true, Bool.and_eq_true, Bool.not_eq_true',
    decide_eq_true_eq, decide_eq_false_iff_not, ne_eq]

theorem exec_hello (hready : (s.slab i).ready = true) (hen : ((s.slab i).port p.val).enabled = true)
    (hcable : ((s.slab i).port p.val).cable = true) (hdown : ((s.slab i).port p.val).up = false) (e : Half) (q : BitVec 4) (m : Byte) :
    exec (.hello i p f e q m) s = if ((s.slab i).port p.val).helloSent = false then .next s
      else .next ((s.modSlab i (fun sl => sl.modPort p.val (fun x =>
        ({ x with helloGot := true, neighbour := e, neighbourPort := q } : Port).bringUp sl.clocks.cycle))).linkEvent i p.val) := by
  change execHello i p f e q m s = _
  unfold execHello
  simp only [hready, hen, hcable, hdown, Bool.not_true, Bool.false_or, Bool.not_eq_true']

theorem exec_laneMap_of_inOrder (h : Claims.inOrder s i p f 5) (lanes : BitVec 8) :
    exec (.laneMap i p f lanes) s =
      if laneForm lanes = 0 then .next ((Claims.taken s i p f).linkFail i p.val)
      else .next (((Claims.taken s i p f).modSlab i (fun sl => sl.modPort p.val (fun x =>
        { x with working := lanes, lanes := laneForm lanes }))).linkEvent i p.val) := by
  change execLaneMap i p f lanes s = _
  unfold execLaneMap
  rw [linkIn_of_inOrder h]
  rfl

theorem exec_zetraLaneFailure (hready : (s.slab i).ready = true) (hup : ((s.slab i).port p.val).up = true) (lane : Fin 8) :
    exec (.zetraLaneFailure i p lane) s =
      if ((s.slab i).port p.val).working.getLsbD lane.val = false then .next s else .next (s.laneFail i p.val lane.val) := by
  change execZetraLaneFailure i p lane s = _
  unfold execZetraLaneFailure
  simp only [hready, hup, Bool.not_true, Bool.false_or, Bool.not_eq_true']

theorem exec_zetraLaneErrorWindow (hready : (s.slab i).ready = true) (hup : ((s.slab i).port p.val).up = true) (m : BitVec 8) :
    exec (.zetraLaneErrorWindow i p m) s = .next (s.modSlab i (fun sl => sl.modPort p.val (fun x =>
      { x with marginal := x.marginal ||| (m &&& x.working), uncorrectable := [] }))) := by
  change execZetraLaneErrorWindow i p m s = _
  unfold execZetraLaneErrorWindow
  dsimp only
  rw [hready, hup]
  rfl

/-! ## Slot errors -/

/-- A slot's error empties its engine but for landed buckets. -/
def State.engineEmptied (s : State) (i : SlabId) (e : Nat) : State :=
  s.modSlab i (fun sl => (sl.modEngine e (fun y =>
    { y with staged := [], retained := [], resendAt := none, buckets := y.buckets.filter Bucket.landed })).modLinks (fun l =>
      { l with packets := l.packets.filter (fun p => decide (p.engine ≠ e)) }))

/-- The error of a slot in an engine whose buckets have all landed: none moves. -/
theorem exec_reduceSlotError {e : Fin 16} (hready : (s.slab i).ready = true)
    (hlanded : ∀ b ∈ ((s.slab i).engine e.val).buckets, b.landed = true) :
    exec (.reduceSlotError i e) s = .next (
      if s.ownPart i e.val then (s.engineEmptied i e.val).raise i 0x0D (some ⟨e.val % 24, Nat.mod_lt _ (by decide)⟩)
      else (s.engineEmptied i e.val).logFault i { FaultEntry.basic 0x0D 1 with node := unitNode i 4 e.val, aux := BitVec.ofNat 8 e.val }) := by
  have hopen : ((s.slab i).engine e.val).buckets.filter (fun b => !b.landed) = [] :=
    List.filter_eq_nil_iff.mpr (fun b hb => by rw [hlanded b hb]; exact Bool.false_ne_true)
  change execReduceSlotError i e s = _
  unfold execReduceSlotError
  dsimp only
  rw [hready, Bool.not_true, if_neg Bool.false_ne_true, hopen]
  rfl

end Sys2Proof.Machine

namespace Sys2Proof.Proofs

open Sys2Proof.Machine

theorem linkTakesFramesInOrder : Claims.LinkTakesFramesInOrder := by
  intro s i p f type hready x now d put
  refine ⟨fun hdown => ⟨linkIn_of_down hdown, ?_⟩, fun hup hclean htype => ?_, fun hup hbad => ?_, linkIn_of_inOrder,
    fun hup hclean hres hd => ?_⟩
  · exact congrArg (fun r => Host.Outcome.next r.1) (linkIn_of_down hdown)
  · have hin := linkIn_of_up hready hup (Or.inr htype)
    rw [receive_of_clean hclean] at hin
    refine ⟨fun h0 => ?_, fun hpos hlt hd => ?_, fun hpos hlow hhigh => ?_, fun hpos hd => ?_, fun hpos hlow hhigh => ?_⟩
    · subst h0
      rw [if_pos htype] at hin
      exact congrArg (fun r => Host.Outcome.next r.1) hin
    all_goals rw [if_neg (by omega)] at hin
    · rw [if_pos hd, if_neg (by omega), Port.took, codeword_of_clean hclean] at hin
      exact hin
    · rw [if_neg (Nat.ne_of_gt hlow), if_pos ⟨hlow, hhigh⟩] at hin
      exact hin
    · have hd' : d = 0 ∨ 2048 ≤ d := hd
      rw [if_neg (show ¬ d = 1 by omega), if_neg (show ¬ (1 < d ∧ d < 17) by omega), if_pos hd] at hin
      exact hin
    · have hlow' : 17 ≤ d := hlow
      have hhigh' : d < 2048 := hhigh
      rw [if_neg (show ¬ d = 1 by omega), if_neg (show ¬ (1 < d ∧ d < 17) by omega), if_neg (show ¬ (d = 0 ∨ 2048 ≤ d) by omega)] at hin
      exact hin
  · rw [linkIn_of_up hready hup (hbad.imp_right And.right), receive_of_bad (hbad.imp_right And.left)]
    rfl
  · intro y z
    have hin := linkIn_of_up (type := zType f.header) hready hup (Or.inr rfl)
    rw [receive_of_clean hclean, if_neg (by omega), if_pos hd, if_pos hres, Port.took, codeword_of_clean hclean] at hin
    change execZetraTransitFrame i p f s = _
    unfold execZetraTransitFrame
    rw [if_neg (fun h => absurd h.2 (Nat.not_lt.mpr hres)), hin]
    rfl

theorem portsTrainAndDropLanes : Claims.PortsTrainAndDropLanes := by
  intro s i p hready x
  refine ⟨fun hen hcable htrain hdown hret hform => ?_, fun hen hcable htrain hdown hret => ?_, fun f e q m hen hcable hdown => ?_,
    fun f lanes h => ?_, fun lane hup => ?_, fun m hup => exec_zetraLaneErrorWindow hready hup m, by decide⟩
  · have hw : x.working ||| BitVec.ofNat 8 0 = x.working := BitVec.or_zero
    rw [exec_portTrainingDone hready hen hcable htrain hdown (if_neg (by rw [hret]; exact Bool.false_ne_true))]
    rw [show ((s.slab i).port p.val).working ||| BitVec.ofNat 8 0 = x.working from hw]
    exact if_neg (fun h => h.elim hform (fun hr => Bool.false_ne_true (hret.symm.trans hr.1)))
  · have hexec := exec_portTrainingDone hready hen hcable htrain hdown (if_pos hret)
    refine ⟨fun h => hexec.trans (if_pos (h.symm.imp_right (⟨hret, ·⟩))), fun hk hform => hexec.trans (if_neg ?_)⟩
    exact fun h => h.elim hform (fun hr => hr.2 hk)
  · rw [exec_hello hready hen hcable hdown]
    exact ⟨fun h => if_pos h, fun h => if_neg (by rw [h]; exact Bool.noConfusion)⟩
  · rw [exec_laneMap_of_inOrder h]
    exact ⟨fun hf => if_pos hf, fun hf => if_neg hf⟩
  · rw [exec_zetraLaneFailure hready hup]
    exact ⟨fun h => if_pos h, fun h => if_neg (by rw [h]; exact Bool.noConfusion)⟩

theorem slotErrorsEmptyTheEngine : Claims.SlotErrorsEmptyTheEngine := by
  intro s i e hready hlanded z
  rw [exec_reduceSlotError hready hlanded]
  exact ⟨fun h => congrArg _ (if_pos h), fun h => congrArg _ (if_neg (by rw [h]; exact Bool.false_ne_true))⟩

/-- Settles O30: a port's frames by their distance, its training by its conditions, and the error of a slot by what its engine held. -/
theorem linksTrainAndTakeFrames : Obligations.LinksTrainAndTakeFrames :=
  ⟨linkTakesFramesInOrder, portsTrainAndDropLanes, slotErrorsEmptyTheEngine⟩

end Sys2Proof.Proofs
end

section
/-! # Frames in transit and at their window (R221, R315, R320, R325, R340) -/

namespace Sys2Proof.Machine

variable {s : State} {i : SlabId} {p : Fin 16} {f : ZFrame}

/-! ## Transit -/

theorem exec_zetraTransitFrame_of_own (hdest : zDest f.header = (s.slab i).links.endpoint) (htype : zType f.header < 6) :
    exec (.zetraTransitFrame i p f) s = .next s := if_pos ⟨hdest, htype⟩

/-- A frame in transit by its route: without one it is discarded and counted. -/
def Slab.routed (sl : Slab) (f : ZFrame) : Slab :=
  match sl.routeOf f false with
  | none => sl.count Ctr.ZETRA_UNROUTABLE 1
  | some _ => (sl.sendFrame f false).count Ctr.ZETRA_TRANSIT_FRAMES 1

theorem routed_of_none {sl : Slab} (h : sl.routeOf f false = none) : sl.routed f = sl.count Ctr.ZETRA_UNROUTABLE 1 := by
  unfold Slab.routed; rw [h]

theorem routed_of_some {sl : Slab} {q vc : Nat} (h : sl.routeOf f false = some (q, vc)) :
    sl.routed f = (sl.modPort q (fun x => x.give sl.clocks.cycle { f with header := zOnVc f.header vc })).count Ctr.ZETRA_TRANSIT_FRAMES 1 := by
  unfold Slab.routed Slab.sendFrame; rw [h]

theorem exec_zetraTransitFrame (hdest : zDest f.header ≠ (s.slab i).links.endpoint) :
    exec (.zetraTransitFrame i p f) s =
      if (s.linkIn i p.val f (zType f.header)).2 then .next ((s.linkIn i p.val f (zType f.header)).1.modSlab i (fun sl => sl.routed f))
      else .next (s.linkIn i p.val f (zType f.header)).1 := by
  change execZetraTransitFrame i p f s = _
  unfold execZetraTransitFrame
  rw [if_neg (fun h => hdest h.1)]
  rfl

/-! ## The checks of a window -/

theorem windowCheck_eq (s : State) (i : SlabId) (type w : Nat) (epoch : Half) (off n : Nat) :
    s.windowCheck i type w epoch off n =
      if !kindTakes ((s.slab i).window w).kind type then some .windowUnknown
      else if !(s.windowNow i w).1 || decide ((s.windowNow i w).2 ≠ epoch) then some .windowClosed
      else if ((s.slab i).window w).size < off + n then some .windowRange else none := rfl

section
variable {type w off n : Nat} {ep : Half}

theorem windowCheck_of_kind (h : kindTakes ((s.slab i).window w).kind type = false) : s.windowCheck i type w ep off n = some .windowUnknown := by
  rw [windowCheck_eq, h]; rfl

theorem windowCheck_of_closed (hk : kindTakes ((s.slab i).window w).kind type = true) (h : (s.windowNow i w).1 = false) :
    s.windowCheck i type w ep off n = some .windowClosed := by
  rw [windowCheck_eq, hk, h]; rfl

theorem windowCheck_of_open (hk : kindTakes ((s.slab i).window w).kind type = true) (h : s.windowNow i w = (true, ep)) :
    s.windowCheck i type w ep off n = if ((s.slab i).window w).size < off + n then some .windowRange else none := by
  rw [windowCheck_eq, hk, h]
  simp

end

/-! ## WRITE and REDUCE frames -/

theorem exec_zetraWriteFrame_of_not_taken {y : State} (h : s.linkInOwn i p.val f 1 = (y, false)) :
    exec (.zetraWriteFrame i p f) s = .next y := by
  change execZetraWriteFrame i p f s = _
  unfold execZetraWriteFrame
  rw [h]
  rfl

theorem exec_zetraReduceFrame_of_not_taken {y : State} (h : s.linkInOwn i p.val f 2 = (y, false)) :
    exec (.zetraReduceFrame i p f) s = .next y := by
  change execZetraReduceFrame i p f s = _
  unfold execZetraReduceFrame
  rw [h]
  rfl

section
variable (h : Claims.forThis s i p f 1)
include h

theorem exec_zetraWriteFrame_of_rejected {c : NackCode} (hc : (Claims.taken s i p f).windowCheck i 1 (zWindow f.header) (zEpoch f.header)
    (64 * zOffset f.header) (64 * zRows f.header) = some c) :
    exec (.zetraWriteFrame i p f) s = .next ((Claims.taken s i p f).rejectFrame i f c) := by
  change execZetraWriteFrame i p f s = _
  unfold execZetraWriteFrame
  rw [linkInOwn_of_forThis h]
  simp only [hc, Bool.not_true, Bool.false_eq_true, if_false]

theorem exec_zetraWriteFrame_of_passed (hc : (Claims.taken s i p f).windowCheck i 1 (zWindow f.header) (zEpoch f.header)
    (64 * zOffset f.header) (64 * zRows f.header) = none) :
    exec (.zetraWriteFrame i p f) s = .next (if s.windowRoom i (zWindow f.header) (64 * zRows f.header) then
      (Claims.taken s i p f).windowWrite i p.val (zWindow f.header) (64 * zOffset f.header) (f.payload.take (64 * zRows f.header)) else s) := by
  change execZetraWriteFrame i p f s = _
  unfold execZetraWriteFrame
  rw [linkInOwn_of_forThis h]
  simp only [hc, Bool.not_true, Bool.false_eq_true, if_false]

end

/-- The room of a window's rows, in messages of the tile that delivers them. -/
theorem windowRoom_iff (s : State) (i : SlabId) (w n : Nat) :
    s.windowRoom i w (64 * n) = true ↔
      (((s.slab i).window w).kind = 4 → (s.tile (streamTile i ((s.slab i).window w).object)).unacked + n ≤ 64) := by
  unfold State.windowRoom
  simp only [Nat.mul_div_cancel_left n (by decide : 0 < 64), maxUnacked, Bool.or_eq_true, decide_eq_true_eq, ne_eq]
  exact Decidable.imp_iff_not_or.symm

section
variable (h : Claims.forThis s i p f 2)
include h

theorem exec_zetraReduceFrame_of_rejected {c : NackCode}
    (hc : (Claims.taken s i p f).windowCheck i 2 (zWindow f.header) (zEpoch f.header) 0 0 = some c) :
    exec (.zetraReduceFrame i p f) s = .next ((Claims.taken s i p f).rejectFrame i f c) := by
  change execZetraReduceFrame i p f s = _
  unfold execZetraReduceFrame
  rw [linkInOwn_of_forThis h]
  simp only [hc, Bool.not_true, Bool.false_eq_true, if_false]

variable (hc : (Claims.taken s i p f).windowCheck i 2 (zWindow f.header) (zEpoch f.header) 0 0 = none)
include hc

theorem exec_zetraReduceFrame_of_no_target (ht : (Claims.taken s i p f).reduceTarget i f = none) :
    exec (.zetraReduceFrame i p f) s = .next ((Claims.taken s i p f).rejectFrame i f .windowRange) := by
  change execZetraReduceFrame i p f s = _
  unfold execZetraReduceFrame
  rw [linkInOwn_of_forThis h]
  simp only [hc, ht, Bool.not_true, Bool.false_eq_true, if_false]

theorem exec_zetraReduceFrame_of_target {c r e : Nat} {co : Collective}
    (ht : (Claims.taken s i p f).reduceTarget i f = some (c, co, r, e)) :
    exec (.zetraReduceFrame i p f) s =
      if (Claims.taken s i p f).hasSlots i e c (zBucket f.header) (zEpoch f.header)
          (if (((Claims.taken s i p f).slab i).engine e |>.stagedOf r c (zBucket f.header) (zBlock f.header)).isSome then 0 else 1) then
        .next ((Claims.taken s i p f).stageFrame i f c co r e)
      else .next (((Claims.taken s i p f).modSlab i (fun sl => sl.modEngine e (fun y => y.count Ctr.REDUCE_NO_BUFFER 1))).rejectFrame i f
        .noBuffer) := by
  change execZetraReduceFrame i p f s = _
  unfold execZetraReduceFrame
  rw [linkInOwn_of_forThis h]
  simp only [hc, ht, Bool.not_true, Bool.false_eq_true, if_false]

end

end Sys2Proof.Machine

namespace Sys2Proof.Proofs

open Sys2Proof.Machine

theorem transitFramesFollowTheirRoute : Claims.TransitFramesFollowTheirRoute := by
  intro s i p f
  refine ⟨exec_zetraTransitFrame_of_own, fun type h hdest => ?_, fun z hz hdest => ?_⟩
  · obtain ⟨-, -, -, htype, -⟩ := id h
    subst htype
    intro z
    have hexec := exec_zetraTransitFrame (p := p) hdest
    rw [linkIn_of_inOrder h, if_pos rfl] at hexec
    exact ⟨fun hr => hexec.trans (congrArg _ (modSlab_congr z i (routed_of_none hr))),
      fun q vc hr => hexec.trans (congrArg _ (modSlab_congr z i (routed_of_some hr)))⟩
  · rw [exec_zetraTransitFrame hdest, hz]
    rfl

theorem windowFramesAreCheckedThenServed : Claims.WindowFramesAreCheckedThenServed := by
  intro s i p f h z
  refine ⟨fun hthis => ⟨fun c => exec_zetraWriteFrame_of_rejected hthis, fun hc => ?_⟩, fun y => exec_zetraWriteFrame_of_not_taken,
    fun y => exec_zetraReduceFrame_of_not_taken, fun hthis => ⟨fun c => exec_zetraReduceFrame_of_rejected hthis,
      fun hc => exec_zetraReduceFrame_of_no_target hthis hc, fun c co r e hc ht => ?_⟩, fun type w off n ep => ?_⟩
  · intro e
    have hexec := exec_zetraWriteFrame_of_passed hthis hc
    refine ⟨fun hroom => hexec.trans (congrArg _ (if_pos ((windowRoom_iff ..).mpr hroom))), fun hk hfull => hexec.trans (congrArg _ (if_neg ?_))⟩
    exact fun hroom => absurd ((windowRoom_iff ..).mp hroom hk) (Nat.not_le.mpr hfull)
  · have hexec := exec_zetraReduceFrame_of_target hthis hc ht
    exact ⟨fun hs => hexec.trans (if_pos hs), fun hs => hexec.trans (if_neg (by rw [hs]; exact Bool.false_ne_true))⟩
  · intro e
    refine ⟨windowCheck_of_kind, fun hk hopen => ?_, windowCheck_of_closed, fun hk hopen => ?_⟩
    · rw [windowCheck_of_open hk hopen]
      split <;> exact nofun
    · rw [windowCheck_of_open hk hopen, ite_eq_right_iff]
      exact ⟨fun hle => Nat.not_lt.mp (fun hlt => nomatch hle hlt), fun hle hlt => absurd hlt (Nat.not_lt.mpr hle)⟩

/-- Settles O31: a frame in transit by its route, a window's frame by the checks of Table 12.10 and then by its room. -/
theorem framesFollowRoutesAndWindows : Obligations.FramesFollowRoutesAndWindows :=
  ⟨transitFramesFollowTheirRoute, windowFramesAreCheckedThenServed⟩

end Sys2Proof.Proofs
end

section
/-! # Buckets and their retained blocks (R321, R326, R327) -/

namespace Sys2Proof.Machine

variable {s t : State} {i : SlabId}

/-- A filter of one element keeps it or nothing. -/
theorem filter_one {α : Type _} (q : α → Bool) (a : α) : [a].filter q = bif q a then [a] else [] := by
  rw [List.filter, List.filter]
  cases q a <;> rfl

/-! ## What the job says of collectives and epochs -/

/-- A change of an engine changes nothing else of a slab. -/
theorem slab_modEngine_proj {α : Type} (π : Slab → α) (h : ∀ (sl : Slab) (k : Nat) (g : Engine → Engine), π (sl.modEngine k g) = π sl)
    (s : State) (i j : SlabId) (e : Nat) (g : Engine → Engine) : π ((s.modSlab i (fun sl => sl.modEngine e g)).slab j) = π (s.slab j) :=
  slab_modSlab_proj π (fun sl => h sl e g) s i j

theorem job_modEngine (s : State) (i j : SlabId) (e : Nat) (g : Engine → Engine) : (s.modSlab i (fun sl => sl.modEngine e g)).job j = s.job j := by
  rw [State.job, dev_modSlab]
  exact slab_modEngine_proj (fun sl => sl.job) (fun _ _ _ => rfl) s i (s.dev j) e g

theorem collective_of_job (h : t.job i = s.job i) (c : Nat) : t.collective i c = s.collective i c := by
  rw [State.collective, State.image, h]; rfl

theorem collOfWindow_of_job (h : t.job i = s.job i) (w : Nat) : t.collOfWindow i w = s.collOfWindow i w := by
  rw [State.collOfWindow, State.image, h]; rfl

theorem epochNow_of_job (h : t.job i = s.job i) (x : Retained) : t.epochNow i x = s.epochNow i x := by
  rw [State.epochNow, State.passWindow, h]; rfl

/-! ## Blocks counted and buckets landed -/

theorem addBlock_of_counted {e c r b j : Nat} {co : Collective} {ep : Half} {data : List Byte} {x : Bucket}
    (hx : ((s.slab i).engine e).bucketOf c b ep = some x) (h : (r, j) ∈ x.counted) :
    s.addBlock i e co ep c r b j data = s.modSlab i (fun sl => sl.modEngine e (fun y => y.count Ctr.REDUCE_DUPLICATES 1)) := by
  unfold State.addBlock
  rw [hx]
  exact if_pos h

/-- BUCKET_ACK to every contributor of a bucket. -/
def State.ackContributors (s : State) (i : SlabId) (co : Collective) (b : Nat) (ep : Half) : State :=
  (List.range ((s.slab i).group co.group).ranks.length).foldl (fun s r => s.sendBucketAck i co b ep r) s

theorem exec_bucketLanded {e : Fin 16} {c : Nat} {b : Half} {co : Collective} {x : Bucket} (hready : (s.slab i).ready = true)
    (hco : s.collective i c = some co)
    (hx : ((s.slab i).engine e.val).buckets.find? (fun x =>
      decide (x.coll = c) && decide (x.bucket = b.toNat) && x.complete && decide (0 < x.landing)) = some x) :
    exec (.bucketLanded i e c b) s = if 0 < s.landingsOut i c b.toNat then .next s
      else .next ((s.modSlab i (fun sl => sl.modEngine e.val (fun y =>
        y.modBucket c b.toNat (fun z => { z with landing := 0 })))).ackContributors i co b.toNat x.epoch) := by
  change execBucketLanded i e c b s = _
  unfold execBucketLanded
  dsimp only
  rw [if_pos hready, hco, hx]
  rfl

/-! ## The contributor's retained blocks -/

theorem exec_bucketAck {p : Fin 16} {f : ZFrame} {w : Byte} {ep b : Half} {c : Nat} {co : Collective} (h : Claims.ctrl s i p f 3)
    (hw : s.collOfWindow i w.toNat = some (c, co)) :
    exec (.bucketAck i p f w ep b) s = .next ((Claims.taken s i p f).modSlab i (fun sl => sl.mapRetained (fun x =>
      if x.coll = c ∧ x.bucket = b.toNat ∧ !later x.epoch ep then none else some x))) := by
  change execBucketAck i p f w ep b s = _
  unfold execBucketAck
  rw [ctrlIn_of_ctrl h]
  dsimp only
  rw [if_pos rfl, collOfWindow_of_job (job_taken i), hw]

/-- Freeing retained blocks by a test. -/
theorem mapRetained_free (sl : Slab) (P : Retained → Prop) [DecidablePred P] :
    sl.mapRetained (fun x => if P x then none else some x) =
      { sl with engines := sl.engines.map (fun q => (q.1, { q.2 with retained := q.2.retained.filter (fun x => !decide (P x)) })) } := by
  have hfree : (fun x => if P x then none else some x) = Option.guard (fun x => !decide (P x)) := by
    funext x
    by_cases hx : P x <;> simp [Option.guard, hx]
  unfold Slab.mapRetained
  rw [hfree]
  simp only [List.filterMap_eq_filter]

section
variable {p : Fin 16} {f : ZFrame} {code : NackCode} {ep : Half} {h : BitVec 128} (hin : Claims.ctrl s i p f 1)
include hin

theorem exec_nack_of_write (htype : zType h = 1) :
    exec (.nack i p f code ep h) s = .next ((Claims.taken s i p f).modSlab i (fun sl => sl.count Ctr.ZETRA_WINDOW_NACKS 1)) := by
  change execNack i p f code ep h s = _
  unfold execNack
  rw [ctrlIn_of_ctrl hin]
  exact if_pos htype

/-- The retained block that a rejected REDUCE header names. -/
def Retained.named (x : Retained) (c : Nat) (h : BitVec 128) : Bool :=
  decide (x.coll = c) && decide (x.bucket = zBucket h) && decide (x.block = zBlock h)

/-- A rejected block of a REDUCE frame goes again after the delay, or is freed. -/
theorem exec_nack_of_reduce {c e : Nat} {co : Collective} (htype : zType h = 2) (hw : s.collOfWindow i (zWindow h) = some (c, co))
    (he : (s.slab i).retainer c (zBucket h) (zBlock h) = some e) :
    exec (.nack i p f code ep h) s =
      if code = .noBuffer ∨ later (zEpoch h) ep then
        .next ((Claims.taken s i p f).modSlab i (fun sl =>
          (sl.mapRetained (fun x => if x.named c h then some { x with again := true } else some x)).modEngine e (fun y =>
            if y.resendAt.isSome then y else { y with resendAt := some (sl.clocks.cycle + fabric sl.links.resendDelay) })))
      else .next ((Claims.taken s i p f).modSlab i (fun sl => sl.mapRetained (fun x => if x.named c h then none else some x))) := by
  have he' : ((Claims.taken s i p f).slab i).retainer c (zBucket h) (zBlock h) = some e :=
    (slab_taken_proj (fun sl => sl.retainer c (zBucket h) (zBlock h)) (fun _ _ _ => rfl) s i i p f).trans he
  change execNack i p f code ep h s = _
  unfold execNack
  rw [ctrlIn_of_ctrl hin]
  have hreduce : ¬ zType h = 1 := by rw [htype]; decide
  simp only [Bool.not_true, Bool.false_eq_true, if_false, hreduce, htype, if_true, collOfWindow_of_job (job_taken i), hw, he']
  rfl

end

/-! ## Blocks sent again -/

/-- An engine's blocks no longer marked to go again. -/
def State.unmarked (s : State) (i : SlabId) (e : Nat) : State :=
  s.modSlab i (fun sl => sl.modEngine e (fun y => { y with resendAt := none, retained := y.retained.map (fun x => { x with again := false }) }))

/-- A retained block of any collective sent to its root again. -/
def State.resent (s : State) (i : SlabId) (x : Retained) : State :=
  (s.collective i x.coll).elim s (fun co => s.sendRetained i co x (s.epochNow i x))

theorem exec_resendDelay {e : Fin 16} {n : Nat} (hready : (s.slab i).ready = true) (hat : ((s.slab i).engine e.val).resendAt = some n) :
    exec (.resendDelay i e) s = if s.cycle i < n then .next s
      else .next ((((s.slab i).engine e.val).retained.filter (fun x => x.again)).foldl (fun z x => z.resent i x) (s.unmarked i e.val)) := by
  have hsend : (fun (z : State) (x : Retained) => z.resent i x) = fun z x => match z.collective i x.coll with
      | none => z
      | some co => z.sendRetained i co x (z.epochNow i x) := by
    funext z x
    unfold State.resent
    cases z.collective i x.coll <;> rfl
  change execResendDelay i e s = _
  unfold execResendDelay
  dsimp only
  rw [if_pos hready, hat, hsend]
  rfl

theorem resent_unmarked {x : Retained} {co : Collective} (hco : s.collective i x.coll = some co) (e : Nat) :
    (s.unmarked i e).resent i x = (s.unmarked i e).sendRetained i co x (s.epochNow i x) := by
  have hjob : (s.unmarked i e).job i = s.job i := job_modEngine ..
  unfold State.resent
  rw [collective_of_job hjob, hco, epochNow_of_job hjob]
  rfl

/-- RESEND served by an engine: the bucket's retry is noted, and its missing blocks are sent again. -/
def State.resendFrom (s : State) (i : SlabId) (c : Nat) (co : Collective) (b : Half) (missing : BitVec 128) (e : Nat) : State :=
  let y := if ((s.slab i).engine e).retained.any (fun x => decide (x.coll = c) && decide (x.bucket = b.toNat))
    then s.noteRetry i c b.toNat else s
  let blocks := ((y.slab i).engine e).retained.filter (fun x =>
    decide (x.coll = c) && decide (x.bucket = b.toNat) && missing.getLsbD x.block)
  if blocks.isEmpty then y
  else (blocks.foldl (fun z x => z.sendRetained i co x (z.epochNow i x)) y).modSlab i (fun sl =>
    sl.modEngine e (fun y => y.count Ctr.REDUCE_RESENDS 1))

theorem exec_resend {p : Fin 16} {f : ZFrame} {w : Byte} {ep b : Half} {missing : BitVec 128} {c : Nat} {co : Collective}
    (h : Claims.ctrl s i p f 2) (hw : s.collOfWindow i w.toNat = some (c, co)) :
    exec (.resend i p f w ep b missing) s =
      .next ((List.range 16).foldl (fun z e => z.resendFrom i c co b missing e) (Claims.taken s i p f)) := by
  change execResend i p f w ep b missing s = _
  unfold execResend
  rw [ctrlIn_of_ctrl h]
  dsimp only
  rw [if_pos rfl, collOfWindow_of_job (job_taken i), hw]
  rfl

theorem resendFrom_of_none {c e : Nat} {co : Collective} {b : Half} {missing : BitVec 128}
    (h : ∀ x ∈ ((s.slab i).engine e).retained, ¬ (x.coll = c ∧ x.bucket = b.toNat)) : s.resendFrom i c co b missing e = s := by
  have hany : ((s.slab i).engine e).retained.any (fun x => decide (x.coll = c) && decide (x.bucket = b.toNat)) = false :=
    List.any_eq_false.mpr (fun x hx => by simpa using h x hx)
  have hnone : ((s.slab i).engine e).retained.filter (fun x =>
      decide (x.coll = c) && decide (x.bucket = b.toNat) && missing.getLsbD x.block) = [] :=
    List.filter_eq_nil_iff.mpr (fun x hx hx' => h x hx (by simp at hx'; exact hx'.1))
  unfold State.resendFrom
  dsimp only
  rw [hany, if_neg Bool.false_ne_true, hnone]
  rfl

end Sys2Proof.Machine

namespace Sys2Proof.Proofs

open Sys2Proof.Machine

/-- Settles O28: each command of a bucket by what it finds at the engine, with the frame taken first. -/
theorem bucketsLandAndFreeTheirBlocks : Obligations.BucketsLandAndFreeTheirBlocks := by
  refine ⟨fun s i e co ep c r b j data x => addBlock_of_counted, fun s i e c b co x hready hco hbuckets hcoll hbucket hcomplete hlanding => ?_,
    fun s i p f w ep b c co h hw => ?_, fun s i p f code ep h hin => ?_, fun s i e t hready hat => ?_,
    fun s i p f w ep b missing c co h hw => ?_⟩
  · have hfind : ((s.slab i).engine e.val).buckets.find? (fun x =>
        decide (x.coll = c) && decide (x.bucket = b.toNat) && x.complete && decide (0 < x.landing)) = some x := by
      rw [hbuckets, List.find?_singleton, if_pos (by simp [hcoll, hbucket, hcomplete, hlanding])]
    rw [exec_bucketLanded hready hco hfind]
    refine ⟨fun hout => if_pos hout, fun hout => ?_⟩
    intro z
    have hz : s.modSlab i (fun sl => sl.modEngine e.val (fun y => y.modBucket c b.toNat (fun v => { v with landing := 0 }))) = z := by
      refine modSlab_congr s i ?_
      simp only [Slab.modEngine, Engine.modBucket, hbuckets, List.map_cons, List.map_nil, hcoll, hbucket, and_self, if_true]
    have hlinks : (z.slab i).links = (s.slab i).links := slab_modEngine_proj (fun sl => sl.links) (fun _ _ _ => rfl) s i i e.val _
    rw [if_neg (by omega), hz, State.ackContributors, Slab.group, hlinks]
    rfl
  · intro z
    rw [exec_bucketAck h hw]
    refine congrArg _ (modSlab_congr z i ?_)
    rw [mapRetained_free]
    simp [Bool.and_assoc]
  · intro z
    refine ⟨exec_nack_of_write hin, fun c e co htype hw he => ?_⟩
    have hexec := exec_nack_of_reduce (code := code) (ep := ep) hin htype hw he
    exact ⟨fun hagain => hexec.trans (if_pos hagain), fun hcode hlate => hexec.trans (if_neg (by
      rintro (hc | hl)
      · exact hcode hc
      · exact Bool.false_ne_true (hlate.symm.trans hl)))⟩
  · rw [exec_resendDelay hready hat]
    refine ⟨fun hlt => if_pos hlt, fun hle hnone => ?_, fun x co hle hone hagain hco => ?_⟩
    · rw [if_neg (Nat.not_lt.mpr hle), List.filter_eq_nil_iff.mpr (fun x hx => by rw [hnone x hx]; exact Bool.false_ne_true)]
      rfl
    · intro z
      have hz : s.unmarked i e.val = z := modSlab_congr s i (by simp only [Slab.modEngine, hone, List.map_cons, List.map_nil])
      rw [if_neg (Nat.not_lt.mpr hle), hone, filter_one, hagain, cond_true, List.foldl_cons, List.foldl_nil, resent_unmarked hco, hz]
  · intro z
    rw [exec_resend h hw]
    exact ⟨fun hnone => congrArg _ (foldl_keeps (fun e he => resendFrom_of_none (hnone e (List.mem_range.mp he)))), rfl⟩

end Sys2Proof.Proofs
end

section
/-! # Off-module multicast: frames and packets at the target (R332, R333, R335) -/

namespace Sys2Proof.Machine

variable {s : State} {i : SlabId} {p : Fin 16} {f : ZFrame}

/-! ## Multicast frames -/

/-- A frame taken for this endpoint is received as part of its packet; another changes what the link layer changed. -/
theorem exec_zetraMcastFrame (hcu : zCatchup f.header = false) :
    exec (.zetraMcastFrame i p f) s = .next (if (s.linkInOwn i p.val f 3).2 then (s.linkInOwn i p.val f 3).1.mcastFrame i p.val f
      else (s.linkInOwn i p.val f 3).1) := by
  change execZetraMcastFrame i p f s = _
  unfold execZetraMcastFrame
  rw [hcu]
  rfl

/-- The group entry of a target for a frame. -/
def State.mcastEntry (s : State) (i : SlabId) (f : ZFrame) : Option McastRx :=
  (s.slab i).links.mcastRx.find? (fun x => decide (x.source = zSrc f.header) && decide (x.group = zGroup f.header))

/-- The group entry with a frame added: a frame that is no catch-up frame comes to an attached target. -/
def McastRx.withFrame (x : McastRx) (f : ZFrame) : McastRx :=
  { (x.addFrame f).1 with attached := if zCatchup f.header then (x.addFrame f).1.attached else true }

/-- A whole packet put with those held; the expected ones are delivered in order. -/
def State.mcastWhole (s : State) (i : SlabId) (p : Nat) (y : McastRx) (q : Word) (bs : List Byte) : State :=
  let x := { y with held := aset q bs y.held }
  let out := x.ready 64
  let x' : McastRx :=
    { x with expected := x.expected + BitVec.ofNat 32 out.length, held := x.held.filter (fun y => decide (y.1 ∉ out.map Prod.fst))
             unacked := x.unacked + out.length, unackedAt := if x.unacked = 0 then s.cycle i else x.unackedAt }
  let d := out.foldl (fun s y => s.deliverPacket i p x' y.1 y.2) (s.modSlab i (fun sl => sl.setMcastRx x'))
  if 8 ≤ x'.unacked then d.ackPackets i x' else d

theorem mcastFrame_of_none {k : Nat} (h : s.mcastEntry i f = none) : s.mcastFrame i k f = s := by
  unfold State.mcastFrame
  dsimp only
  rw [show List.find? _ _ = none from h]

theorem mcastFrame_of_entry {k : Nat} {x : McastRx} (h : s.mcastEntry i f = some x) :
    s.mcastFrame i k f =
      if later x.expected (zSeq f.header) then (if zMcLast f.header then s.ackPackets i x else s)
      else if 64 ≤ (zSeq f.header - x.expected).toNat then s
      else (x.addFrame f).2.elim (s.modSlab i (fun sl => sl.setMcastRx (x.withFrame f)))
        (s.mcastWhole i k (x.withFrame f) (zSeq f.header)) := by
  have hat : (if zCatchup f.header then (x.addFrame f).1 else { (x.addFrame f).1 with attached := true }) = x.withFrame f := by
    unfold McastRx.withFrame
    cases zCatchup f.header <;> rfl
  unfold State.mcastFrame
  dsimp only
  rw [show List.find? _ _ = some x from h]
  dsimp only
  rw [hat]
  refine ite_congr rfl (fun _ => rfl) (fun _ => ite_congr rfl (fun _ => rfl) (fun _ => ?_))
  generalize (x.withFrame f) = y
  generalize (x.addFrame f).2 = w
  cases w with
  | none => rfl
  | some bs => dsimp only [Option.elim, State.mcastWhole]

/-! ## A packet delivered -/

theorem later_self (q : Word) : later q q = false := by
  simp [later]

/-- The expected packet of a target that holds no other is delivered alone. -/
theorem ready_of_expected {x : McastRx} {bs : List Byte} (h : x.held = [(x.expected, bs)]) (n : Nat) :
    x.ready (n + 2) = [(x.expected, bs)] := by
  have hfirst : alookup x.expected x.held = some bs := by rw [h, alookup, if_pos rfl]
  have hnone : aerase x.expected x.held = [] := by simp [h, aerase]
  rw [McastRx.ready, hfirst]
  dsimp only
  rw [McastRx.ready, hnone]
  rfl

theorem addFrame_held (x : McastRx) (f : ZFrame) : (x.addFrame f).1.held = x.held ∧ (x.addFrame f).1.expected = x.expected := by
  unfold McastRx.addFrame
  dsimp only
  split
  · exact ⟨rfl, rfl⟩
  · split <;> exact ⟨rfl, rfl⟩

/-- The group entry once its expected packet is delivered. -/
def McastRx.passed (y : McastRx) (now : Nat) : McastRx :=
  { y with expected := y.expected + 1, held := [], unacked := y.unacked + 1, unackedAt := if y.unacked = 0 then now else y.unackedAt }

theorem mcastWhole_of_expected {k : Nat} {y : McastRx} {bs : List Byte} (h : y.held = []) :
    s.mcastWhole i k y y.expected bs =
      if 8 ≤ (y.passed (s.cycle i)).unacked then
        ((s.modSlab i (fun sl => sl.setMcastRx (y.passed (s.cycle i)))).deliverPacket i k (y.passed (s.cycle i)) y.expected bs).ackPackets i
          (y.passed (s.cycle i))
      else (s.modSlab i (fun sl => sl.setMcastRx (y.passed (s.cycle i)))).deliverPacket i k (y.passed (s.cycle i)) y.expected bs := by
  have hheld : aset y.expected bs y.held = [(y.expected, bs)] := by rw [h]; rfl
  unfold State.mcastWhole
  dsimp only
  rw [hheld, ready_of_expected rfl 62]
  simp only [List.length_singleton, List.map_cons, List.map_nil, List.foldl_cons, List.foldl_nil, List.filter_cons, List.filter_nil,
    List.mem_singleton, not_true, decide_false, Bool.false_eq_true, if_false, McastRx.passed]
  rfl

/-! ## Acknowledgement timers and detachment -/

theorem exec_mcastAckTimer_of_none {e : Half} {g : Byte} (h : (s.slab i).ready = false ∨
      (s.slab i).links.mcastRx.find? (fun x => decide (x.source = e) && decide (x.group = g.toNat)) = none) :
    exec (.mcastAckTimer i e g) s = .next s := by
  change execMcastAckTimer i e g s = _
  unfold execMcastAckTimer
  rcases h with h | h
  · rw [h]; rfl
  · rw [h, ite_self]

theorem exec_mcastAckTimer_of_entry {e : Half} {g : Byte} {x : McastRx} (hready : (s.slab i).ready = true)
    (h : (s.slab i).links.mcastRx.find? (fun x => decide (x.source = e) && decide (x.group = g.toNat)) = some x) :
    exec (.mcastAckTimer i e g) s =
      if x.unacked = 0 ∨ s.cycle i < x.unackedAt + fabric 1024 then .next s else .next (s.ackPackets i x) := by
  change execMcastAckTimer i e g s = _
  unfold execMcastAckTimer
  rw [if_pos hready, h]

theorem exec_detach_of_not_taken {g : Byte} {e : Half} {q : Word} {z : State} (h : s.ctrlIn i p.val f 5 = (z, false)) :
    exec (.detach i p f g e q) s = .next z := by
  change execDetach i p f g e q s = _
  unfold execDetach
  rw [h]
  rfl

theorem exec_detach_of_taken {g : Byte} {e : Half} {q : Word} (h : Claims.ctrl s i p f 5) :
    exec (.detach i p f g e q) s = if e ≠ (s.slab i).links.endpoint then .next (Claims.taken s i p f)
      else .next ((Claims.taken s i p f).modSlab i (fun sl => sl.modLinks (fun l => { l with mcastRx := l.mcastRx.map (fun x =>
        if x.source = zSrc f.header ∧ x.group = g.toNat then { x with attached := false } else x) }))) := by
  change execDetach i p f g e q s = _
  unfold execDetach
  rw [ctrlIn_of_ctrl h]
  simp only [links_taken, Bool.not_true, Bool.false_or, decide_eq_true_eq]

end Sys2Proof.Machine

namespace Sys2Proof.Proofs

open Sys2Proof.Machine

theorem multicastTargetsDeliver : Claims.MulticastTargetsDeliver := by
  refine ⟨fun s z i p f => ⟨fun hcu => if_pos hcu, fun hcu hno => ?_, fun hcu hthis => ?_, ?_⟩, fun s i e g => ?_, fun s z i p f g e q => ?_⟩
  · rw [exec_zetraMcastFrame hcu, hno]
    rfl
  · rw [exec_zetraMcastFrame hcu, linkInOwn_of_forThis hthis]
    rfl
  · intro entry
    refine ⟨mcastFrame_of_none, fun x hx => ?_⟩
    intro y at_
    have hframe := mcastFrame_of_entry (k := p.val) hx
    refine ⟨fun hold => hframe.trans (if_pos hold), fun hnew hfar => ?_, fun hnew hnear hpart => ?_, fun bs hwhole hexp hheld => ?_⟩
    · rw [hframe, hnew, if_neg Bool.false_ne_true, if_pos hfar]
    · rw [hframe, hnew, if_neg Bool.false_ne_true, if_neg (Nat.not_le.mpr hnear), hpart]
      rfl
    · intro w d
      obtain ⟨hheld', hexp'⟩ := addFrame_held x f
      have hexpected : (x.withFrame f).expected = x.expected := hexp'
      have hempty : (x.withFrame f).held = [] := hheld'.trans hheld
      have hpassed : (x.withFrame f).passed (z.cycle i) = w := by
        rw [McastRx.passed, hexpected]
        rfl
      rw [hframe, hexp, later_self, if_neg Bool.false_ne_true, BitVec.sub_self, if_neg (by decide), hwhole, Option.elim, ← hexpected,
        mcastWhole_of_expected hempty, hpassed]
      rw [hexpected]
  · intro entry
    refine ⟨exec_mcastAckTimer_of_none, fun x hready hx => ?_⟩
    rw [exec_mcastAckTimer_of_entry hready hx]
    exact ⟨fun h => if_pos h, fun hne hle => if_neg (not_or.mpr ⟨hne, Nat.not_lt.mpr hle⟩)⟩
  · refine ⟨exec_detach_of_not_taken, fun h hne => ?_, fun h he => ?_⟩
    · rw [exec_detach_of_taken h, if_pos hne]
    · rw [exec_detach_of_taken h, if_neg (not_not_intro he)]
      rfl

end Sys2Proof.Proofs
end

section
/-! # Off-module multicast: retries and catch-up at the source (R332, R334, R336) -/

namespace Sys2Proof.Machine

variable {s : State} {i : SlabId} {p : Fin 16} {f : ZFrame}

/-! ## Acknowledgements and retries -/

theorem exec_mcastAck_of_not_taken {g : Byte} {e : Half} {q : Word} {y : State} (h : s.ctrlIn i p.val f 4 = (y, false)) :
    exec (.mcastAck i p f g e q) s = .next y := by
  change execMcastAck i p f g e q s = _
  unfold execMcastAck
  rw [h]
  rfl

theorem exec_mcastAck_of_taken {g : Byte} {e : Half} {q : Word} (h : Claims.ctrl s i p f 4) :
    exec (.mcastAck i p f g e q) s = if e ≠ (s.slab i).links.endpoint then .next (Claims.taken s i p f)
      else .next ((Claims.taken s i p f).modSlab i (fun sl => sl.clearPending g.toNat (zSrc f.header) (fun y => !later y q))) := by
  change execMcastAck i p f g e q s = _
  unfold execMcastAck
  rw [ctrlIn_of_ctrl h]
  simp only [links_taken, Bool.not_true, Bool.false_or, decide_eq_true_eq]

/-- The stored packet that a retry names. -/
def McPacket.named (x : McPacket) (e : Fin 16) (g : Byte) (q : Word) : Bool :=
  decide (x.engine = e.val) && decide (x.group = g.toNat) && decide (x.seq = q)

theorem named_iff (x : McPacket) (e : Fin 16) (g : Byte) (q : Word) : x.named e g q = true ↔ x.engine = e.val ∧ x.group = g.toNat ∧ x.seq = q := by
  simp [McPacket.named, and_assoc]

theorem exec_mcastRetry_of_none {e : Fin 16} {g : Byte} {q : Word}
    (h : (s.slab i).ready = false ∨ ∀ x ∈ (s.slab i).links.packets, ¬ (x.engine = e.val ∧ x.group = g.toNat ∧ x.seq = q)) :
    exec (.mcastRetry i e g q) s = .next s := by
  change execMcastRetry i e g q s = _
  unfold execMcastRetry
  dsimp only
  rcases h with h | h
  · rw [h]; rfl
  · have hnone : (s.slab i).links.packets.find? (fun x => x.named e g q) = none :=
      List.find?_eq_none.mpr (fun x hx hn => h x hx ((named_iff x e g q).mp hn))
    unfold McPacket.named at hnone
    rw [hnone, ite_self]

/-- A packet sent again to the targets that it awaits. -/
def Slab.packetAgain (sl : Slab) (e : Fin 16) (g : Byte) (q : Word) (k : McPacket) : Slab :=
  ((k.pending.foldl (fun sl t => sl.sendFrames (sl.packetFrames t g.toNat q false k.payload)) sl).modLinks (fun l =>
    { l with packets := l.packets.map (fun x => if x.named e g q then { x with sentAt := sl.clocks.cycle } else x) })).modEngine e.val
      (fun w => w.count Ctr.MCAST_RETRIES 1)

theorem exec_mcastRetry_of_packet {e : Fin 16} {g : Byte} {q : Word} {k : McPacket} (hready : (s.slab i).ready = true)
    (h : (s.slab i).links.packets.find? (fun x => x.named e g q) = some k) :
    exec (.mcastRetry i e g q) s =
      if s.cycle i < k.sentAt + fabric (s.slab i).links.mcastRetry then .next s else .next (s.modSlab i (fun sl => sl.packetAgain e g q k)) := by
  change execMcastRetry i e g q s = _
  unfold execMcastRetry
  dsimp only
  unfold McPacket.named at h
  rw [if_pos hready, h]
  rfl

/-! ## Catch-up -/

theorem exec_catchupFrame_of_other (h : zType f.header ≠ 3 ∨ zCatchup f.header = false) : exec (.catchupFrame i p f) s = .next s :=
  if_pos (h.imp_right (fun hcu => by rw [hcu]; rfl))

section
variable (hcu : zCatchup f.header = true) (htype : zType f.header = 3)
include hcu htype

theorem exec_catchupFrame_of_source (hsrc : zSrc f.header = (s.slab i).links.endpoint) :
    exec (.catchupFrame i p f) s = if (s.slab i).ready then .next (s.sendCatchup i p.val f) else .next s := by
  change execCatchupFrame i p f s = _
  unfold execCatchupFrame
  rw [if_neg (by rw [hcu, htype]; simp), if_pos hsrc]

theorem exec_catchupFrame_of_target (hsrc : zSrc f.header ≠ (s.slab i).links.endpoint) :
    exec (.catchupFrame i p f) s = .next (if (s.linkInOwn i p.val f 3).2 then (s.linkInOwn i p.val f 3).1.mcastFrame i p.val f
      else (s.linkInOwn i p.val f 3).1) := by
  change execCatchupFrame i p f s = _
  unfold execCatchupFrame
  rw [if_neg (by rw [hcu, htype]; simp), if_neg hsrc]

end

theorem sendCatchup_of_no_group {k : Nat} (h : (s.slab i).mcGroup (zGroup f.header) = none) : s.sendCatchup i k f = s := by
  unfold State.sendCatchup
  dsimp only
  rw [h]

section
variable {k : Nat} {m : McastTx} (hm : (s.slab i).mcGroup (zGroup f.header) = some m)
include hm

theorem sendCatchup_of_attached (h : m.detached.find? (fun x => decide (x.1 = zDest f.header)) = none) : s.sendCatchup i k f = s := by
  unfold State.sendCatchup
  dsimp only
  rw [hm]
  dsimp only
  rw [h]

variable {t : Half} {q : Word} {n : DWord} (h : m.detached.find? (fun x => decide (x.1 = zDest f.header)) = some (t, q, n))
include h

theorem sendCatchup_of_other_packet (hq : zSeq f.header ≠ q) : s.sendCatchup i k f = s := by
  unfold State.sendCatchup
  dsimp only
  rw [hm]
  dsimp only
  rw [h]
  exact if_pos hq

theorem sendCatchup_of_not_last (hq : zSeq f.header = q) (hlast : zMcLast f.header = false) :
    s.sendCatchup i k f = s.modSlab i (fun sl => sl.sendFrame (mkFrame f.header f.payload) false) := by
  unfold State.sendCatchup
  dsimp only
  rw [hm]
  dsimp only
  rw [h]
  exact (if_neg (not_not_intro hq)).trans (if_pos (by rw [hlast]; rfl))

end

theorem exec_catchupAbandon_of_none {g : Byte} {t : Half} (h : (s.slab i).ready = false ∨ (s.slab i).mcGroup g.toNat = none) :
    exec (.catchupAbandon i g t) s = .next s := by
  change execCatchupAbandon i g t s = _
  unfold execCatchupAbandon
  dsimp only
  rcases h with h | h
  · rw [h]; rfl
  · rw [h, ite_self]

section
variable {g : Byte} {t : Half} {m : McastTx} (hready : (s.slab i).ready = true) (hm : (s.slab i).mcGroup g.toNat = some m)
include hready hm

theorem exec_catchupAbandon_of_attached (h : m.detached.find? (fun x => decide (x.1 = t)) = none) :
    exec (.catchupAbandon i g t) s = .next s := by
  change execCatchupAbandon i g t s = _
  unfold execCatchupAbandon
  dsimp only
  rw [if_pos hready, hm]
  dsimp only
  rw [h]

theorem exec_catchupAbandon_of_detached {q : Word} {n : DWord} (h : m.detached.find? (fun x => decide (x.1 = t)) = some (t, q, n)) :
    exec (.catchupAbandon i g t) s =
      if n.toNat + 1 < (s.job i).step.toNat ∨ (n.toNat + 1 = (s.job i).step.toNat ∧ (s.job i).inStep = false) then
        .next ((s.modSlab i (fun sl => sl.modMcGroup g.toNat (fun m =>
          { m with detached := m.detached.filter (fun x => decide (x.1 ≠ t)) }))).reportUnreachable i t 3)
      else .next s := by
  change execCatchupAbandon i g t s = _
  unfold execCatchupAbandon
  dsimp only
  rw [if_pos hready, hm]
  dsimp only
  rw [h]
  simp only [Bool.not_eq_true']

end

end Sys2Proof.Machine

namespace Sys2Proof.Proofs

open Sys2Proof.Machine

theorem multicastSourcesRetryAndCatchUp : Claims.MulticastSourcesRetryAndCatchUp := by
  refine ⟨fun s y i p f g e q => ⟨exec_mcastAck_of_not_taken, fun h he => ?_, fun h hne => ?_⟩,
    fun s i e g q k => ⟨exec_mcastRetry_of_none, fun hready hone he hg hq => ?_⟩,
    fun s z i p f => ⟨exec_catchupFrame_of_other, fun hcu htype hsrc => ?_, fun hcu htype hsrc => ?_, sendCatchup_of_no_group,
      fun m hm => ⟨sendCatchup_of_attached hm, fun t q n h => ⟨sendCatchup_of_other_packet hm h, sendCatchup_of_not_last hm h⟩⟩⟩,
    fun s i g t => ⟨exec_catchupAbandon_of_none, fun m hready hm => ⟨exec_catchupAbandon_of_attached hready hm, fun q n h => ?_⟩⟩⟩
  · rw [exec_mcastAck_of_taken h, if_neg (not_not_intro he)]
  · rw [exec_mcastAck_of_taken h, if_pos hne]
  · have hnamed : k.named e g q = true := (named_iff k e g q).mpr ⟨he, hg, hq⟩
    rw [exec_mcastRetry_of_packet hready (by rw [hone, List.find?_singleton, if_pos hnamed])]
    refine ⟨fun hlt => if_pos hlt, fun hle => (if_neg (Nat.not_lt.mpr hle)).trans ?_⟩
    simp only [Slab.packetAgain, named_iff]
    rfl
  · rw [exec_catchupFrame_of_target hcu htype hsrc]
    exact ⟨fun h => by rw [h]; rfl, fun h => by rw [linkInOwn_of_forThis h]; rfl⟩
  · rw [exec_catchupFrame_of_source hcu htype hsrc]
    exact ⟨fun h => if_neg (by rw [h]; exact Bool.false_ne_true), fun h => if_pos h⟩
  · intro past
    rw [exec_catchupAbandon_of_detached hready hm h]
    exact ⟨fun hp => if_neg hp, fun hp => if_pos hp⟩

/-- Settles O29: the target's frames by their place before its window, the source's commands by the packets and targets they name. -/
theorem multicastDeliversAcknowledgesAndRetries : Obligations.MulticastDeliversAcknowledgesAndRetries :=
  ⟨multicastTargetsDeliver, multicastSourcesRetryAndCatchUp⟩

end Sys2Proof.Proofs
end

section
/-! # What the job commands leave of the job's state (R382 to R385) -/

namespace Sys2Proof.Machine

variable {s t : State} {fn : SlabId} {m : Fin 4} {r : Request}

/-! ## The jobs of the module -/

/-- The mode in force and both slabs' jobs: what decides every device's job. -/
def State.jobs (s : State) : Mode × Job × Job := (s.shared.mode, s.slab0.job, s.slab1.job)

theorem job_of_jobs (h : t.jobs = s.jobs) (i : SlabId) : t.job i = s.job i := by
  have hmode : t.shared.mode = s.shared.mode := congrArg Prod.fst h
  have h0 : t.slab0.job = s.slab0.job := congrArg (fun x => x.2.1) h
  have h1 : t.slab1.job = s.slab1.job := congrArg (fun x => x.2.2) h
  unfold State.job State.dev
  rw [hmode]
  split
  · cases i
    · exact h0
    · exact h1
  · exact h0

theorem modSlab_jobs (s : State) (i : SlabId) (f : Slab → Slab) (h : ∀ sl, (f sl).job = sl.job := by intro _; rfl) :
    (s.modSlab i f).jobs = s.jobs := by
  cases i <;> exact congrArg (fun r => (_, r)) (by simp [State.modSlab, State.setSlab, h])

theorem modDev_jobs (s : State) (i : SlabId) (f : Slab → Slab) (h : ∀ sl, (f sl).job = sl.job := by intro _; rfl) :
    (s.modDev i f).jobs = s.jobs := by
  unfold State.modDev
  split
  · exact modSlab_jobs _ _ _ h
  · exact (modSlab_jobs _ _ _ h).trans (modSlab_jobs _ _ _ h)

theorem modFunc_jobs (s : State) (i : SlabId) (f : Func → Func) : (s.modFunc i f).jobs = s.jobs := by
  cases i <;> rfl

theorem post_jobs (s : State) (f : SlabId) (e : EventRec) : (s.post f e).jobs = s.jobs := by
  have h0 : (s.post f e).slab0 = s.slab0 := slab_post s f .s0 e
  have h1 : (s.post f e).slab1 = s.slab1 := slab_post s f .s1 e
  rw [State.jobs, shared_post, h0, h1]
  rfl

theorem event_jobs (s : State) (f i : SlabId) (ty : Byte) (d : List Byte) : (s.event f i ty d).jobs = s.jobs := post_jobs ..

theorem modLedger_jobs (s : State) (i : SlabId) (n : DWord) (g : LedgerRec → LedgerRec) : (s.modLedger i n g).jobs = s.jobs := modDev_jobs ..

theorem raise_jobs (s : State) (i : SlabId) (code : Byte) (u : Option (Fin 24)) : (s.raise i code u).jobs = s.jobs := modSlab_jobs ..

theorem logFault_jobs (s : State) (i : SlabId) (e : FaultEntry) : (s.logFault i e).jobs = s.jobs :=
  (event_jobs ..).trans (modSlab_jobs ..)

theorem respond_jobs (s : State) (f : SlabId) (m : Fin 4) (r : Request) (st : Byte) (payload : List Byte) :
    (s.respond f m r st payload).jobs = s.jobs := by
  have h0 : (s.respond f m r st payload).slab0 = s.slab0 := slab_respond s f .s0 m r st payload
  have h1 : (s.respond f m r st payload).slab1 = s.slab1 := slab_respond s f .s1 m r st payload
  rw [State.jobs, shared_respond, h0, h1]
  rfl

theorem accept_jobs (s : State) (f : SlabId) (m : Fin 4) (r : Request) (st : Byte) (c : Bool) (d : List Byte) :
    (s.accept f m r st c d).jobs = s.jobs := (modFunc_jobs ..).trans (respond_jobs ..)

theorem complete_jobs (s : State) (f : SlabId) (tag : Half) (st : Byte) (d : List Byte) : (s.complete f tag st d).jobs = s.jobs := by
  unfold State.complete
  split
  · rfl
  · exact (post_jobs ..).trans (modFunc_jobs ..)

theorem completeAll_jobs (s : State) (f : SlabId) (op : Nat) : (s.completeAll f op).jobs = s.jobs :=
  foldl_proj State.jobs (fun _ _ => complete_jobs ..) _ _

theorem beginForced_jobs (s : State) (i : SlabId) : (s.beginForced i).jobs = s.jobs :=
  foldl_proj State.jobs (fun _ _ => (modFunc_jobs ..).trans (modSlab_jobs ..)) _ _

theorem askHost_jobs (s : State) (i : SlabId) (n : DWord) : (s.askHost i n).jobs = s.jobs := by
  have hrecompile : ∀ b : Bool, (if b then s.event (s.jobFn i) (s.dev i) evtRecompile (leBytes n.toNat 8 ++ leBytes (s.lostBits i) 16)
      else s).jobs = s.jobs := fun b => by
    cases b
    · rfl
    · exact event_jobs ..
  unfold State.askHost
  dsimp only
  split
  · exact hrecompile _
  · exact (event_jobs ..).trans ((foldl_proj State.jobs (fun _ _ => logFault_jobs ..) _ _).trans (hrecompile _))

/-! ## The state that a command gives the job -/

theorem job_modJob (s : State) (i : SlabId) (g : Job → Job) : (s.modJob i g).job i = g (s.job i) := by
  rw [State.job, State.modJob, dev_modSlab, slab_modSlab_self]
  rfl

theorem jobState_setJobState (s : State) (i : SlabId) (st : JobState) (why : Reason) : ((s.setJobState i st why).job i).state = st := by
  rw [State.setJobState, job_of_jobs (event_jobs ..), job_modJob]

theorem jobState_askStop (s : State) (i : SlabId) : ((s.askStop i).job i).state = (s.job i).state := by
  rw [State.askStop, job_of_jobs (raise_jobs ..), job_modJob]

theorem jobState_startJob (s : State) (i : SlabId) (im : Image) (seed : DWord) : ((s.startJob i im seed).job i).state = .running := by
  unfold State.startJob
  dsimp only
  rw [job_of_jobs (modSlab_jobs ..), jobState_setJobState]

theorem jobState_endJob (s : State) (i : SlabId) : ((s.endJob i).job i).state = .loaded := jobState_setJobState ..

theorem jobState_resumeJob (s : State) (i : SlabId) : ((s.resumeJob i).job i).state = .running := jobState_setJobState ..

theorem jobState_enterPaused (s : State) (i : SlabId) (why : Reason) : ((s.enterPaused i why).job i).state = .paused := by
  rw [State.enterPaused, job_of_jobs (modSlab_jobs ..), jobState_setJobState]

theorem jobState_pausedEntry (s : State) (i f : SlabId) (why : Reason) (b : Bool) (n : DWord) :
    ((((if b then (s.enterPaused i why).askHost i n else s.enterPaused i why).beginForced i).completeAll f 0x31).job i).state = .paused := by
  rw [job_of_jobs (completeAll_jobs ..), job_of_jobs (beginForced_jobs ..)]
  cases b
  · exact jobState_enterPaused ..
  · rw [if_pos rfl, job_of_jobs (askHost_jobs ..), jobState_enterPaused]

end Sys2Proof.Machine

namespace Sys2Proof.Proofs

open Sys2Proof.Machine

theorem jobCommandsReachTheirState : Claims.JobCommandsReachTheirState := by
  intro s fn m r im j ends
  refine ⟨fun h him hhost hcover hready => ⟨_, exec_jobStart_of_image h him, ?_⟩, fun h hs => ⟨_, exec_jobPause h, ?_⟩,
    fun h hs hwhy hhost => ⟨_, exec_jobResume h, ?_⟩, fun h hf hs => ⟨_, exec_jobStop h hf, ?_⟩, fun h hf hs => ⟨_, exec_jobStop h hf, ?_⟩,
    fun h hf hs => ⟨_, exec_jobStopForce h hf, ?_⟩, fun h hok => ⟨_, exec_stepControl h, ?_⟩, fun hdev hfw => ⟨fun hs hb => ?_, fun hs hb => ?_⟩⟩
  · rw [show (s.job fn).needsHost = false from hhost, hcover, hready]
    exact (congrArg Job.state (job_of_jobs (respond_jobs ..) fn)).trans (jobState_startJob ..)
  · rw [if_pos hs, job_of_jobs (accept_jobs ..), jobState_setJobState]
  · rw [if_neg (by rw [show (s.job fn).state = .paused from hs]; decide), if_pos hs,
      if_pos (by rw [show (s.job fn).reason = .host from hwhy, show (s.job fn).needsHost = false from hhost]; decide),
      job_of_jobs (respond_jobs ..), jobState_resumeJob]
  · rw [stopJob_of_running s fn m r false (Or.inl hs), job_of_jobs (accept_jobs ..)]
    exact jobState_setJobState ..
  · rw [stopJob_of_paused s fn m r false hs, job_of_jobs (respond_jobs ..), jobState_endJob]
  · rw [stopJob_of_running s fn m r true (Or.inl hs), job_of_jobs (accept_jobs ..), if_pos rfl, jobState_askStop, jobState_setJobState]
  · dsimp only
    rw [hok, Bool.not_true, if_neg Bool.false_ne_true, job_of_jobs (respond_jobs ..), job_modJob]
  · have hexec := exec_jobStopEnd (s := s) (fn := fn) (by rw [hdev]; exact hs) (by rw [hdev]; exact hfw) (by rw [hdev]; exact hb)
    refine ⟨_, hexec, ?_⟩
    dsimp only
    rw [hdev, job_of_jobs (completeAll_jobs ..), job_of_jobs (completeAll_jobs ..), job_of_jobs (beginForced_jobs ..), jobState_endJob]
  · have hexec := exec_pausedEntry (s := s) (fn := fn) (by rw [hdev]; exact hs) (by rw [hdev]; exact hfw) (by rw [hdev]; exact hb)
    refine ⟨_, hexec, ?_⟩
    dsimp only
    rw [hdev]
    exact jobState_pausedEntry ..

end Sys2Proof.Proofs
end

section
/-! # What the commands of off-module multicast leave (R332 to R336) -/

namespace Sys2Proof.Machine

variable {s : State} {i : SlabId}

/-! ## The links' tables when a frame is sent -/

theorem links_sendFrame (sl : Slab) (f : ZFrame) (esc : Bool) : (sl.sendFrame f esc).links = sl.links := by
  unfold Slab.sendFrame
  split <;> rfl

theorem links_sendFrames (sl : Slab) (fs : List ZFrame) : (sl.sendFrames fs).links = sl.links :=
  foldl_proj Slab.links (fun _ _ => links_sendFrame ..) _ _

theorem links_sendCtrl (sl : Slab) (dest : Half) (op : Nat) (payload : List Byte) : (sl.sendCtrl dest op payload).links = sl.links :=
  links_sendFrame ..

/-! ## Stored packets and group entries -/

theorem packets_packetAgain (sl : Slab) (e : Fin 16) (g : Byte) (q : Word) (k : McPacket) : (sl.packetAgain e g q k).links.packets =
    sl.links.packets.map (fun x => if x.named e g q then { x with sentAt := sl.clocks.cycle } else x) := by
  rw [Slab.packetAgain, Slab.modEngine, Slab.modLinks]
  dsimp only
  rw [foldl_proj Slab.links (fun _ _ => links_sendFrames ..)]

theorem mcastRx_ackPackets (x : McastRx) : ((s.ackPackets i x).slab i).links.mcastRx =
    (s.slab i).links.mcastRx.map (fun y => if y.source = x.source ∧ y.group = x.group then { y with unacked := 0 } else y) := by
  rw [State.ackPackets, slab_modSlab_self, Slab.modLinks]
  dsimp only
  rw [links_sendCtrl]

/-- A target cleared up to a SEQ is in no packet of its group up to there. -/
theorem not_mem_pending_clearPending {sl : Slab} {g : Nat} {t : Half} {upTo : Word → Bool} {y : McPacket}
    (hy : y ∈ (sl.clearPending g t upTo).links.packets) (hg : y.group = g) (hup : upTo y.seq = true) : t ∉ y.pending := by
  obtain ⟨x, -, rfl⟩ := List.mem_map.mp (List.mem_filter.mp hy).1
  by_cases hc : x.group = g ∧ upTo x.seq = true
  · rw [if_pos hc]
    simp
  · rw [if_neg hc] at hg hup
    exact absurd ⟨hg, hup⟩ hc

/-- An unreachable peer's report leaves the links. -/
theorem links_reportUnreachable (s : State) (i j : SlabId) (e : Half) (n : Nat) : ((s.reportUnreachable i e n).slab j).links = (s.slab j).links := by
  unfold State.reportUnreachable
  rw [slab_event]
  exact slab_logFault_proj (fun sl => sl.links) (fun _ _ _ => rfl) s i j _

end Sys2Proof.Machine

namespace Sys2Proof.Proofs

open Sys2Proof.Machine

theorem multicastCommandsComplete : Claims.MulticastCommandsComplete := by
  intro s i p e f g w q m x k n
  have hpending : ∀ {c : Instr} {t : State}, exec c s = .next t → ∃ t, exec c s = .next t ∧ t.pending = s.pending :=
    fun h => ⟨_, h, exec_pending h⟩
  refine ⟨fun hcu h => hpending (exec_zetraMcastFrame hcu), fun hcu hsrc h => hpending (exec_catchupFrame_of_target hcu h.1.2.2.2.1 hsrc),
    fun hcu htype hsrc hready => hpending ((exec_catchupFrame_of_source hcu htype hsrc).trans (if_pos hready)), fun h => ?_, fun h => ?_,
    fun hready hone he hg hq hlate => ?_, fun hready hone hsrc hg hne hlate => ?_, fun hready htx hdet hlate => ?_⟩
  · refine ⟨_, (exec_mcastAck_of_taken h).trans (if_neg (not_not_intro rfl)), fun y hy hg hseq => ?_⟩
    rw [slab_modSlab_self] at hy
    exact not_mem_pending_clearPending hy hg (by rw [hseq]; rfl)
  · refine ⟨_, (exec_detach_of_taken h).trans (if_neg (not_not_intro rfl)), fun y hy hsrc hg => ?_⟩
    rw [slab_modSlab_self] at hy
    obtain ⟨x, -, rfl⟩ := List.mem_map.mp hy
    by_cases hc : x.source = zSrc f.header ∧ x.group = g.toNat
    · rw [if_pos hc]
    · rw [if_neg hc] at hsrc hg
      exact absurd ⟨hsrc, hg⟩ hc
  · have hnamed : k.named e g q = true := (named_iff k e g q).mpr ⟨he, hg, hq⟩
    have hexec := exec_mcastRetry_of_packet (e := e) (g := g) (q := q) (k := k) hready (by rw [hone, List.find?_singleton, if_pos hnamed])
    refine ⟨_, hexec.trans (if_neg (Nat.not_lt.mpr hlate)), ?_⟩
    rw [slab_modSlab_self, packets_packetAgain, hone, List.map_singleton, if_pos hnamed]
    rfl
  · have hfind : (s.slab i).links.mcastRx.find? (fun x => decide (x.source = w) && decide (x.group = g.toNat)) = some x := by
      rw [hone, List.find?_singleton, if_pos (by rw [hsrc, hg]; simp)]
    refine ⟨_, (exec_mcastAckTimer_of_entry hready hfind).trans (if_neg (not_or.mpr ⟨hne, Nat.not_lt.mpr hlate⟩)), ?_⟩
    rw [mcastRx_ackPackets, hone, List.map_singleton, if_pos ⟨rfl, rfl⟩]
  · have hm : (s.slab i).mcGroup g.toNat = some m := by rw [Slab.mcGroup, htx, alookup, if_pos rfl]
    have hfind : m.detached.find? (fun x => decide (x.1 = w)) = some (w, q, n) := by
      rw [hdet, List.find?_singleton, if_pos (decide_eq_true rfl)]
    refine ⟨_, (exec_catchupAbandon_of_detached hready hm hfind).trans (if_pos (Or.inl hlate)), ?_⟩
    rw [links_reportUnreachable, slab_modSlab_self, Slab.modMcGroup, Slab.modLinks]
    dsimp only
    rw [htx, List.map_singleton, if_pos rfl, hdet, filter_one]
    simp

/-- Settles O38: the multicast commands by their frames and timers, the job commands by the state they give the job. -/
theorem multicastAndJobCommandsComplete : Obligations.MulticastAndJobCommandsComplete :=
  ⟨multicastCommandsComplete, jobCommandsReachTheirState⟩

end Sys2Proof.Proofs
end

section
/-! # Uncorrectable sectors and migrations (R206 to R208, R212) -/

namespace Sys2Proof.Machine

variable {s : State} {i : SlabId}

/-! ## Uncorrectable sectors -/

/-- The entry of an uncorrectable sector in the fault log. -/
def sectorEntry (i : SlabId) (v : Nat) (e : DWord) (cls : Byte) : FaultEntry :=
  { FaultEntry.basic cls 1 with
    node := unitNode i 1 (pteStack e), aux := BitVec.ofNat 8 (pteStack e), detail := leBytes v 8 ++ leBytes (pteFrame e) 8 }

/-- An uncorrectable sector counted at its stack. -/
def State.sectorCounted (s : State) (i : SlabId) (k : Nat) : State :=
  s.modSlab i (fun sl => sl.modStack k (fun x => x.count Ctr.SHELF_UNCORRECTABLE 1))

theorem exec_shelfSectorUncorrectable (hready : (s.slab i).ready = true) (vpn : BitVec 27) (c : Fin 65536) :
    exec (.shelfSectorUncorrectable i vpn c) s = .next (s.sectorError i vpn.toNat c.val) := congrArg _ (if_pos hready)

theorem sectorError_of_down {v c : Nat} {e : DWord} (he : alookup v (s.slab i).mem.pages = some e)
    (hdown : (s.slab i).stackUp (pteStack e) = false) : s.sectorError i v c = s := by
  unfold State.sectorError
  rw [he]
  exact if_pos (by rw [hdown]; rfl)

section
variable {v c : Nat} {e : DWord} (he : alookup v (s.slab i).mem.pages = some e) (hup : (s.slab i).stackUp (pteStack e) = true)
include he hup

theorem sectorError_of_up :
    s.sectorError i v c =
      if pteProt e = 1 then
        ((((s.sectorCounted i (pteStack e)).slab i).rebuiltSector (pteStack e) (pteFrame e) c).elim
          ((s.sectorCounted i (pteStack e)).sectorLost i (pteStack e) (pteFrame e) c)
          (fun w => ((s.sectorCounted i (pteStack e)).modSlab i (fun sl =>
            (sl.setSector (pteStack e) (pteFrame e) c (sectorBytes w)).modStack (pteStack e) (fun x => x.count Ctr.PARITY_REBUILDS 1))).logFault i
              (sectorEntry i v e 0x06)))
      else if pteProt e = 2 then
        ((s.sectorCounted i (pteStack e)).modSlab i (fun sl => sl.modMem (fun m => { m with withheld := insertNew v m.withheld }))).logFault i
          (sectorEntry i v e 0x07)
      else (s.sectorCounted i (pteStack e)).sectorLost i (pteStack e) (pteFrame e) c := by
  have hcond : ¬ (!(s.slab i).stackUp (pteStack e)) = true := by rw [hup]; exact Bool.false_ne_true
  unfold State.sectorError
  rw [he]
  refine (if_neg hcond).trans (ite_congr rfl (fun _ => ?_) (fun _ => rfl))
  unfold State.sectorCounted
  dsimp only
  split
  · next w h => rw [h]; rfl
  · next h => rw [h]; rfl

end

/-! ## Translations of a page -/

/-- A tile without its translation of a page. -/
def Tile.forget (t : Tile) (v : Nat) : Tile := { t with xlate := aerase v t.xlate }

/-- A translation invalidated in every tile of a slab. -/
theorem cached_invalidated (sl : Slab) (v x y : Nat) : ((sl.mapTiles (fun _ _ t => t.forget v)).tile x y).cached v = none := by
  have hmap : alookup (x, y) (sl.mapTiles (fun _ _ t => t.forget v)).tiles = (alookup (x, y) sl.tiles).map (fun t => t.forget v) :=
    alookup_map_snd (fun t : Tile => Tile.forget t v) (x, y) sl.tiles
  rw [Slab.tile, agetD, hmap]
  cases alookup (x, y) sl.tiles with
  | none => rfl
  | some t => exact (alookup_aerase v v t.xlate).trans (if_pos rfl)

theorem devSlabs_modSlab (s : State) (i j : SlabId) (f : Slab → Slab) : (s.modSlab i f).devSlabs j = s.devSlabs j := by
  simp only [State.devSlabs, shared_modSlab]

theorem cached_setPte {k : SlabId} (hk : k ∈ s.devSlabs i) (j : SlabId) (v x y : Nat) (e : DWord) :
    (((s.setPte i j v e).slab k).tile x y).cached v = none := by
  unfold State.setPte State.invalidate
  rw [slab_modDev (by rw [devSlabs_modSlab]; exact hk)]
  exact cached_invalidated ..

/-! ## Migrations -/

/-- A migration may end: a maintenance pitch with that task, no hold, and the page's blocks at rest. -/
def State.mayMigrate (s : State) (i : SlabId) (v : Nat) : Bool :=
  !(s.root i).inHold && decide ((s.root i).kind = .maint) && decide ((s.root i).task = taskMigration) && s.pageQuiet i v

theorem exec_migrationCopyDone_of_not {vpn : BitVec 27} (h : s.mayMigrate i vpn.toNat = false) : exec (.migrationCopyDone i vpn) s = .next s := by
  have hno : ¬ ((s.slab i).ready && !(s.root i).inHold && decide ((s.root i).kind = .maint) && decide ((s.root i).task = taskMigration)
      && s.pageQuiet i vpn.toNat) = true := by
    intro hc
    have hm : s.mayMigrate i vpn.toNat = true := by
      unfold State.mayMigrate
      simp only [Bool.and_eq_true] at hc ⊢
      obtain ⟨⟨⟨⟨-, h1⟩, h2⟩, h3⟩, h4⟩ := hc
      exact ⟨⟨⟨h1, h2⟩, h3⟩, h4⟩
    exact Bool.false_ne_true (h.symm.trans hm)
  change execMigrationCopyDone i vpn s = _
  unfold execMigrationCopyDone
  dsimp only
  rw [if_neg hno]

/-- The home of a page once its copy is taken: the new frame filled, the old one freed, the migration over. -/
def State.migrated (s : State) (i : SlabId) (v : Nat) (mv : Migration) (e : DWord) (cs : Cells) : State :=
  s.modSlab i (fun sl =>
    (((sl.fillFrame mv.toStack mv.toFrame cs).dropFrame (pteStack e) (pteFrame e)).modMem (fun m =>
      { m with moving := m.moving.filter (fun y => decide (y.vpn ≠ v)) })).count Ctr.PAGES_MIGRATED 1)

theorem exec_migrationCopyDone {vpn : BitVec 27} {mv : Migration} {e : DWord} {cs : Cells} (hready : (s.slab i).ready = true)
    (hmay : s.mayMigrate i vpn.toNat = true) (hmv : (s.slab i).mem.moving.find? (fun m => decide (m.vpn = vpn.toNat)) = some mv)
    (he : alookup vpn.toNat (s.slab i).mem.pages = some e)
    (hcs : ((s.modSlab i (fun sl => sl.flushFrame (pteStack e) (pteFrame e))).slab i).frameCells (pteStack e) (pteFrame e) = some cs) :
    exec (.migrationCopyDone i vpn) s =
      let w := (s.modSlab i (fun sl => sl.flushFrame (pteStack e) (pteFrame e))).migrated i vpn.toNat mv e cs
      .next ((w.setPte i i vpn.toNat (pteWithHome e mv.toStack mv.toFrame)).passOwnership i vpn.toNat
        ((w.slab i).unitFor (pteStack e)) ((w.slab i).unitFor mv.toStack)) := by
  have hcond : ((s.slab i).ready && !(s.root i).inHold && decide ((s.root i).kind = .maint) && decide ((s.root i).task = taskMigration)
      && s.pageQuiet i vpn.toNat) = true := by
    unfold State.mayMigrate at hmay
    simp only [Bool.and_eq_true] at hmay ⊢
    obtain ⟨⟨⟨h1, h2⟩, h3⟩, h4⟩ := hmay
    exact ⟨⟨⟨⟨hready, h1⟩, h2⟩, h3⟩, h4⟩
  change execMigrationCopyDone i vpn s = _
  unfold execMigrationCopyDone
  dsimp only
  rw [if_pos hcond, hmv, he]
  dsimp only
  rw [hcs]
  rfl

end Sys2Proof.Machine

namespace Sys2Proof.Proofs

open Sys2Proof.Machine

theorem uncorrectableSectorsAreServed : Claims.UncorrectableSectorsAreServed := by
  intro s i vpn c e hready he k a z entry
  rw [exec_shelfSectorUncorrectable hready]
  refine ⟨fun hdown => congrArg _ (sectorError_of_down he hdown), fun hup => ?_⟩
  rw [sectorError_of_up he hup]
  refine ⟨fun v hprot hv => congrArg _ ((if_pos hprot).trans ?_), fun hprot => congrArg _ ?_, fun hnone hprot _ => congrArg _ ?_⟩
  · exact congrArg (Option.elim · _ _) hv
  · rw [if_neg (by rw [hprot]; decide), if_pos hprot]
    rfl
  · have hlost : z.sectorLost i k (pteFrame e) c.val
        = (({ z with free := z.free + 1 } : State).modSlab i (fun sl => { sl with mem := { sl.mem with
            shelf := Cells.writeN sl.mem.shelf a (freeBytes s.free 32) } })).raise i 0x08 (some ⟨k % 24, Nat.mod_lt _ (by decide)⟩) := by
      have hfree : z.free = s.free := free_modSlab ..
      rw [State.sectorLost, hfree]
      rfl
    rw [← hlost]
    by_cases h1 : pteProt e = 1
    · exact (if_pos h1).trans (congrArg (Option.elim · _ _) (hnone h1))
    · rw [if_neg h1, if_neg hprot]
      rfl

theorem migrationsMoveTheHome : Claims.MigrationsMoveTheHome := by
  intro s i vpn mv e cs hready hone hvpn he z hcs
  refine ⟨fun h => exec_migrationCopyDone_of_not ?_, fun hhold hkind htask hquiet => ?_, fun k x y hk => cached_setPte hk ..⟩
  · unfold State.mayMigrate
    rcases h with h | h | h | h
    · rw [h]; rfl
    · rw [decide_eq_false h]; simp
    · rw [decide_eq_false (show ¬ (s.root i).task = taskMigration from h)]; simp
    · rw [h, Bool.and_false]
  · have hmay : s.mayMigrate i vpn.toNat = true := by
      unfold State.mayMigrate
      rw [hhold, decide_eq_true hkind, decide_eq_true (show (s.root i).task = taskMigration from htask), hquiet]
      rfl
    exact exec_migrationCopyDone hready hmay (by rw [hone, List.find?_singleton, if_pos (decide_eq_true hvpn)]) he hcs

/-- Settles O20: an uncorrectable sector by its page's protection, a migration by the pitch and the page's blocks. -/
theorem sectorsAreServedAndPagesMove : Obligations.SectorsAreServedAndPagesMove := ⟨uncorrectableSectorsAreServed, migrationsMoveTheHome⟩

end Sys2Proof.Proofs
end

section
/-! # Stacks that leave service, and the rebuild of their pages (R213, R289, R352 to R356) -/

namespace Sys2Proof.Machine

variable {s : State} {i : SlabId} {u : Fin 24}

/-! ## A stack's state -/

theorem stack_setStack (s : State) (i : SlabId) (k : Nat) (st : StackState) :
    (((s.setStack i k st).slab i).stack k).state = st ∧ (((s.setStack i k st).slab i).stack k).changed = some (s.stamp i) := by
  unfold State.setStack
  dsimp only
  rw [slab_modSlab_self, slab_modSlab_self]
  rw [Slab.stack_count, Slab.mapChanged, Slab.stack_modCamp, Slab.unprotect, Slab.stack_modStack_self, Slab.stack_modMem, Slab.stack_modStack_self]
  exact ⟨rfl, rfl⟩

/-! ## Failures -/

theorem exec_stackFailure_of_lost (h : ((s.slab i).stack u.val).state.lost = true) : exec (.stackFailure i u) s = .next s := by
  change execStackFailure i u s = _
  unfold execStackFailure
  dsimp only
  rw [h, Bool.or_true, if_pos rfl]

theorem exec_stackFailure_of_not_lost (hready : (s.slab i).ready = true) (h : ((s.slab i).stack u.val).state.lost = false) :
    exec (.stackFailure i u) s =
      .next ((((s.setStack i u.val .failed).modSlab i (fun sl => sl.count Ctr.STACK_PARKS 1)).noteLostPages i).raise i 0x0A (some u)) := by
  change execStackFailure i u s = _
  unfold execStackFailure
  dsimp only
  rw [h, hready]
  rfl

/-! ## A lost controller -/

/-- The controller and unit of stack `v` stand in for stack `u` and for those that `u` stood in for. -/
def Slab.standInFor (sl : Slab) (u v : Fin 24) : Slab :=
  let z := stacks24.foldl (fun sl j =>
    if j = u.val ∨ (sl.stack j).unit.standIn = some u then sl.modUnit j (fun x => { x with standIn := some v, landings := [] }) else sl) sl
  z.modUnit v.val (fun x =>
    { x with landings := x.landings ++ (sl.stack u.val).unit.landings
             pos := if x.cstep = (sl.stack u.val).unit.cstep then min x.pos (sl.stack u.val).unit.pos else x.pos })

/-- The controller of a stack lost: the next stack in service stands in, if there is one. -/
def Slab.controllerGone (sl : Slab) (u : Fin 24) : Slab :=
  match sl.nextStack u.val with
  | none => sl
  | some v => sl.standInFor u v

theorem exec_shelfControllerLost_of_lost (h : ((s.slab i).stack u.val).state = .controllerLost) :
    exec (.shelfControllerLost i u) s = .next s := by
  change execShelfControllerLost i u s = _
  unfold execShelfControllerLost
  dsimp only
  rw [decide_eq_true h, Bool.or_true, if_pos rfl]

theorem exec_shelfControllerLost (hready : (s.slab i).ready = true) (h : ((s.slab i).stack u.val).state ≠ .controllerLost) :
    exec (.shelfControllerLost i u) s =
      .next ((((s.setStack i u.val .controllerLost).modSlab i (fun sl => sl.controllerGone u)).noteLostPages i).raise i 0x0B (some u)) := by
  change execShelfControllerLost i u s = _
  unfold execShelfControllerLost
  dsimp only
  rw [decide_eq_false h, hready]
  rfl

theorem stack_modUnit_state (sl : Slab) (j k : Nat) (g : UpdateUnit → UpdateUnit) : ((sl.modUnit j g).stack k).state = (sl.stack k).state := by
  rw [Slab.modUnit, Slab.stack_modStack]
  split
  · next h => rw [h]
  · rfl

theorem unit_modUnit (sl : Slab) (j k : Nat) (g : UpdateUnit → UpdateUnit) :
    ((sl.modUnit j g).stack k).unit = if k = j then g (sl.stack j).unit else (sl.stack k).unit := by
  rw [Slab.modUnit, Slab.stack_modStack]
  split <;> rfl

/-- A fold whose step at one member brings a property that every step keeps. -/
theorem foldl_brings {α β : Type} {f : α → β → α} {P : α → Prop} {b : β} (hb : ∀ a, P (f a b)) (hkeep : ∀ a c, P a → P (f a c))
    {l : List β} (hmem : b ∈ l) (a : α) : P (l.foldl f a) := by
  induction l generalizing a with
  | nil => exact nomatch hmem
  | cons c l ih =>
    rcases List.mem_cons.mp hmem with rfl | hmem
    · exact List.foldlRecOn l f (motive := P) (hb a) (fun a h c _ => hkeep a c h)
    · exact ih hmem _

theorem stack_standInFor (sl : Slab) (u v : Fin 24) :
    ((sl.standInFor u v).stack u.val).unit.standIn = some v ∧ ((sl.standInFor u v).stack u.val).state = (sl.stack u.val).state := by
  have hstep : ∀ (sl : Slab) (j : Nat), (sl.stack u.val).unit.standIn = some v →
      ((if j = u.val ∨ (sl.stack j).unit.standIn = some u then sl.modUnit j (fun x => { x with standIn := some v, landings := [] })
        else sl).stack u.val).unit.standIn = some v := by
    intro sl j h
    split
    · rw [unit_modUnit]
      split
      · rfl
      · exact h
    · exact h
  unfold Slab.standInFor
  dsimp only
  constructor
  · rw [unit_modUnit]
    have hfold := foldl_brings (P := fun sl : Slab => (sl.stack u.val).unit.standIn = some v) (b := u.val)
      (fun sl => by rw [if_pos (Or.inl rfl), unit_modUnit, if_pos rfl]) hstep (List.mem_range.mpr u.isLt) sl
    split
    · next h => rw [← h]; exact hfold
    · exact hfold
  · rw [stack_modUnit_state]
    refine foldl_proj (fun sl : Slab => (sl.stack u.val).state) (fun sl j => ?_) _ _
    split
    · exact stack_modUnit_state ..
    · rfl

/-! ## Parking -/

/-- The pages of STEP objects among given ones take new homes. -/
def State.rehomeStep (s : State) (i : SlabId) (ps : List (Nat × DWord)) : State :=
  ps.foldl (fun s p => if s.stepPage i p.1 then s.rehome i p.1 p.2 else s) s

theorem exec_stackPark (hready : (s.slab i).ready = true) (hhold : (s.root i).inHold = true) (hup : (s.slab i).stackUp u.val = true)
    (hasked : ∃ c ∈ (s.root i).causes, c.code = 0x09 ∧ c.slab = i ∧ c.unit = some u) :
    exec (.stackPark i u) s =
      .next (((((s.completeTorn i u.val).rehomeStep i ((s.slab i).pagesOn u.val)).setStack i u.val .parked).modSlab i (fun sl =>
        (sl.modStack u.val (fun x => { x with selfRefresh := true })).count Ctr.STACK_PARKS 1)).stackEntry i u.val 0x09) := by
  have hany : (s.root i).causes.any (fun c => decide (c.code = 0x09) && decide (c.slab = i) && decide (c.unit = some u)) = true := by
    obtain ⟨c, hc, h1, h2, h3⟩ := hasked
    exact List.any_eq_true.mpr ⟨c, hc, by simp [h1, h2, h3]⟩
  change execStackPark i u s = _
  unfold execStackPark
  dsimp only
  rw [hany, hready, hhold, hup]
  rfl

/-! ## Rebuilding -/

/-- The peer's copy that a page waited for has come. -/
def State.peerCame (s : State) (i : SlabId) (v : Nat) : State :=
  s.modSlab i (fun sl => sl.modMem (fun m => { m with withheld := m.withheld.filter (fun x => decide (x ≠ v)) }))

/-- A page about to be rebuilt: its lines are written back, and it waits for no peer. -/
def State.rebuildReady (s : State) (i : SlabId) (v : Nat) (e : DWord) : State :=
  s.modSlab i (fun sl => (sl.flushFrame (pteStack e) (pteFrame e)).modMem (fun m =>
    { m with withheld := m.withheld.filter (fun x => decide (x ≠ v)) }))

/-- The blocks of a page are reset when its contents are lost: a parameter object that is no replica. -/
def State.resetsBlocks (s : State) (i : SlabId) (v : Nat) : Bool :=
  match s.pageObject i v with
  | none => false
  | some o => o.isParam && decide (o.prot ≠ 2)

/-- The page at its rebuild target. -/
def State.rebuilt (s : State) (i : SlabId) (v : Nat) (e : DWord) (tgt : Nat × Nat × Bool) : State :=
  (((s.rebuildReady i v e).moveRebuilt i v e ((s.rebuildReady i v e).rebuiltCells i e) tgt).countRebuild i (pteStack e) ((s.slab i).pageReadable e))

section
variable {vpn : BitVec 27} {e : DWord} (hready : (s.slab i).ready = true) (he : alookup vpn.toNat (s.slab i).mem.pages = some e)
include hready he

theorem exec_pageRebuild_of_withheld (hup : (s.slab i).stackUp (pteStack e) = true) (hw : vpn.toNat ∈ (s.slab i).mem.withheld) :
    exec (.pageRebuild i vpn) s = .next (s.peerCame i vpn.toNat) := by
  change execPageRebuild i vpn s = _
  unfold execPageRebuild
  dsimp only
  rw [if_pos hready, he]
  exact if_pos ⟨hup, hw⟩

theorem exec_pageRebuild_of_not (h : ((s.slab i).stackUp (pteStack e) = true ∧ vpn.toNat ∉ (s.slab i).mem.withheld)
      ∨ ((s.slab i).stackUp (pteStack e) = false ∧ ((s.slab i).pageReadable e = false ∧ s.restorable i vpn.toNat = false
        ∨ s.restorable i vpn.toNat = true ∧ s.unrestorableWaiting i = true))) :
    exec (.pageRebuild i vpn) s = .next s := by
  change execPageRebuild i vpn s = _
  unfold execPageRebuild
  dsimp only
  rw [if_pos hready, he]
  dsimp only
  rcases h with ⟨hup, hw⟩ | ⟨hdown, ⟨hr, hn⟩ | ⟨hr, hn⟩⟩
  · rw [if_neg (fun hc => hw hc.2), if_pos (by rw [hup]; rfl)]
  · rw [if_neg (fun hc => Bool.false_ne_true (hdown.symm.trans hc.1)), if_pos (by rw [hr, hn]; simp)]
  · rw [if_neg (fun hc => Bool.false_ne_true (hdown.symm.trans hc.1)), if_pos (by rw [hr, hn]; simp)]

theorem exec_pageRebuild (hdown : (s.slab i).stackUp (pteStack e) = false)
    (hsource : (s.slab i).pageReadable e = true ∨ s.restorable i vpn.toNat = true)
    (hturn : s.restorable i vpn.toNat = true → s.unrestorableWaiting i = false) {tgt : Nat × Nat × Bool}
    (htgt : (s.slab i).rebuildTarget e = some tgt) :
    exec (.pageRebuild i vpn) s = .next (
      if !(s.slab i).pageReadable e && (s.rebuildReady i vpn.toNat e).resetsBlocks i vpn.toNat then
        (s.rebuilt i vpn.toNat e tgt).resetPage i vpn.toNat
      else s.rebuilt i vpn.toNat e tgt) := by
  have hgo : ¬ ((s.slab i).stackUp (pteStack e) || (!(s.slab i).pageReadable e && !s.restorable i vpn.toNat)
      || (s.restorable i vpn.toNat && s.unrestorableWaiting i)) = true := by
    rw [hdown]
    rcases hrest : s.restorable i vpn.toNat with _ | _
    · rw [hrest] at hsource
      rw [hsource.resolve_right Bool.false_ne_true]
      exact Bool.false_ne_true
    · rw [hturn hrest]
      simp
  change execPageRebuild i vpn s = _
  unfold execPageRebuild
  dsimp only
  rw [if_pos hready, he]
  dsimp only
  rw [if_neg (fun hc => Bool.false_ne_true (hdown.symm.trans hc.1)), if_neg hgo, htgt]
  rfl

end

theorem rebuiltCells_of_some {e : DWord} {cs : Cells} (h : (s.slab i).frameCells (pteStack e) (pteFrame e) = some cs) :
    s.rebuiltCells i e = cs := by
  unfold State.rebuiltCells
  dsimp only
  rw [h]

theorem rebuiltCells_of_none {e : DWord} (h : (s.slab i).frameCells (pteStack e) (pteFrame e) = none) :
    s.rebuiltCells i e = if pteProt e = 2 then Cells.frame (s.slab i).mem.shelf (pteStack e) (pteFrame e) else [] := by
  unfold State.rebuiltCells
  dsimp only
  rw [h]

theorem resetsBlocks_of_not {v : Nat} (h : ∀ o, s.pageObject i v = some o → o.isParam = false ∨ o.prot = 2) : s.resetsBlocks i v = false := by
  unfold State.resetsBlocks
  split
  · rfl
  · next o ho => rcases h o ho with h | h <;> simp [h]

theorem resetsBlocks_of_param {v : Nat} {o : ObjectEntry} (ho : s.pageObject i v = some o) (hp : o.isParam = true) (hprot : o.prot ≠ 2) :
    s.resetsBlocks i v = true := by
  unfold State.resetsBlocks
  rw [ho]
  simp [hp, hprot]

end Sys2Proof.Machine

namespace Sys2Proof.Proofs

open Sys2Proof.Machine

theorem stacksLeaveService : Claims.StacksLeaveService := by
  intro s i u hready
  refine ⟨exec_stackFailure_of_lost, exec_stackFailure_of_not_lost hready, exec_shelfControllerLost_of_lost, fun hstate hnone => ?_,
    fun v hstate hnext => ⟨_, exec_shelfControllerLost hready hstate, ?_⟩, fun hhold hup hasked => exec_stackPark hready hhold hup hasked,
    stack_setStack s i u.val⟩
  · rw [exec_shelfControllerLost hready hstate]
    have hsame : (s.setStack i u.val .controllerLost).modSlab i (fun sl => sl.controllerGone u) = s.setStack i u.val .controllerLost := by
      refine (modSlab_congr _ i (g := id) ?_).trans ?_
      · unfold Slab.controllerGone
        rw [hnone]
        rfl
      · cases i <;> rfl
    rw [hsame]
  · have hgone : ((s.setStack i u.val .controllerLost).slab i).controllerGone u = ((s.setStack i u.val .controllerLost).slab i).standInFor u v := by
      unfold Slab.controllerGone
      rw [hnext]
    rw [slab_modSlab_self, hgone]
    obtain ⟨hunit, hst⟩ := stack_standInFor ((s.setStack i u.val .controllerLost).slab i) u v
    exact ⟨hunit, hst.trans (stack_setStack s i u.val .controllerLost).1⟩

theorem pagesAreRebuilt : Claims.PagesAreRebuilt := by
  intro s i vpn e hready he k got z counted
  refine ⟨fun hup hw => exec_pageRebuild_of_not hready he (Or.inl ⟨hup, hw⟩), fun hup hw => exec_pageRebuild_of_withheld hready he hup hw,
    fun hdown => ⟨fun hr hn => exec_pageRebuild_of_not hready he (Or.inr ⟨hdown, Or.inl ⟨hr, hn⟩⟩),
      fun hr hw => exec_pageRebuild_of_not hready he (Or.inr ⟨hdown, Or.inr ⟨hr, hw⟩⟩), fun cs tgt hread hcs hturn htgt => ?_,
      fun tgt hread hcs hrest hturn htgt => ?_⟩⟩
  · rw [exec_pageRebuild hready he hdown (Or.inl hread) hturn htgt, hread, State.rebuilt,
      rebuiltCells_of_some (s := s.rebuildReady i vpn.toNat e) hcs]
    rfl
  · intro y
    have hexec := exec_pageRebuild hready he hdown (Or.inr hrest) (fun _ => hturn) htgt
    have hy : s.rebuilt i vpn.toNat e tgt = y := by
      rw [State.rebuilt, rebuiltCells_of_none (s := s.rebuildReady i vpn.toNat e) hcs]
      rfl
    rw [hread, hy] at hexec
    refine ⟨fun hno => ?_, fun o ho hp hprot => ?_⟩
    · rw [hexec, resetsBlocks_of_not (s := s.rebuildReady i vpn.toNat e) hno]
      rfl
    · rw [hexec, resetsBlocks_of_param (s := s.rebuildReady i vpn.toNat e) ho hp hprot]
      rfl

/-- Settles O21: stacks out of service by the event that took them out, pages by their stack, their stripe and their other source. -/
theorem stacksAndPagesAreRepaired : Obligations.StacksAndPagesAreRepaired := ⟨stacksLeaveService, pagesAreRebuilt⟩

end Sys2Proof.Proofs
end

section
/-! # Portals and lending tiles (R190, R191, R194 to R196, R200, R201, R232 to R234, R241) -/

namespace Sys2Proof.Machine

variable {s : State} {t : TileId}

/-! ## Translation walks -/

theorem exec_translationWalk_of_not {vpn : BitVec 27} (h : isPortal t = false ∨ ((s.tile t).cached vpn.toNat).isSome = true) :
    exec (.translationWalk t vpn) s = .next s :=
  if_pos (by rcases h with h | h <;> rw [h] <;> simp)

/-- The entry that a walk brings, 0 where none is valid, and the slab that holds the table. -/
def State.walked (s : State) (i : SlabId) (v : Nat) : SlabId × DWord := (s.pte i v).getD (i, 0)

theorem exec_translationWalk_of_miss {vpn : BitVec 27} (hready : (s.slab t.slab).ready = true) (hportal : isPortal t = true)
    (hmiss : (s.tile t).cached vpn.toNat = none) :
    exec (.translationWalk t vpn) s = .next ((s.walkLines (s.walked t.slab vpn.toNat).1 vpn.toNat).modTile t (fun tl =>
      (tl.cache vpn.toNat (s.walked t.slab vpn.toNat).2).count Ctr.XLATE_MISSES 1)) := by
  have hcond : ¬ (!(s.slab t.slab).ready || !isPortal t || ((s.tile t).cached vpn.toNat).isSome) = true := by
    rw [hready, hportal, hmiss]; exact Bool.false_ne_true
  refine (if_neg hcond).trans ?_
  unfold State.walked
  cases s.pte t.slab vpn.toNat <;> rfl

theorem cached_cache (tl : Tile) (v : Nat) (e : DWord) : (tl.cache v e).cached v = some e := if_pos rfl

/-! ## Portal flits -/

/-- The oldest flit of a portal queue taken. -/
def State.portalTaken (s : State) (t : TileId) (rest : List Flit) : State := s.modRouter t (fun r => { r with portal := rest })

theorem exec_portalFlitAccept_of_hold (h : (s.root t.slab).inHold = true) : exec (.portalFlitAccept t) s = .next s := by
  change execPortalFlitAccept t s = _
  unfold execPortalFlitAccept
  rw [h, Bool.not_true, Bool.and_false, Bool.false_and]
  rfl

section
variable {f : Flit} {rest : List Flit} (hready : (s.slab t.slab).ready = true) (hgate : bit (s.tile t).gate gateStream = true)
  (hflit : (s.tile t).router.portal = f :: rest) (hhold : (s.root t.slab).inHold = false)
include hready hgate hflit hhold

theorem portalFlits_of_open :
    (if (s.slab t.slab).ready && !(s.root t.slab).inHold && bit (s.tile t).gate gateStream then (s.tile t).router.portal else []) = f :: rest := by
  rw [hready, hhold, hgate, hflit]
  rfl

theorem exec_portalFlitAccept_of_forward {w : Forward} (hw : f.forward = some w) :
    exec (.portalFlitAccept t) s = .next (if s.stacksBusy t.slab then s else s.takeForward t f w) := by
  change execPortalFlitAccept t s = _
  unfold execPortalFlitAccept
  rw [portalFlits_of_open hready hgate hflit hhold]
  dsimp only
  rw [hw]

variable (hw : f.forward = none)
include hw

theorem exec_portalFlitAccept_of_no_descriptor (hsd : (s.placement t.slab).bind (fun p => p.stream f.queue) = none) :
    exec (.portalFlitAccept t) s = .next ((s.portalTaken t rest).dropPortal t f) := by
  change execPortalFlitAccept t s = _
  unfold execPortalFlitAccept
  rw [portalFlits_of_open hready hgate hflit hhold]
  dsimp only
  rw [hw, hsd]
  rfl

variable {sd : StreamDesc} (hsd : (s.placement t.slab).bind (fun p => p.stream f.queue) = some sd)
include hsd

theorem exec_portalFlitAccept_of_no_source (h : isPortal t = false ∨ streamTile t.slab f.queue ≠ t ∨ sd.accepts = false
      ∨ ((s.slab t.slab).stream f.queue).state = 0 ∨ sd.sourceNo f.sx f.sy = none) :
    exec (.portalFlitAccept t) s = .next ((s.portalTaken t rest).dropPortal t f) := by
  have hno : (if isPortal t && decide (streamTile t.slab f.queue = t) && sd.accepts && decide (((s.slab t.slab).stream f.queue).state ≠ 0)
      then sd.sourceNo f.sx f.sy else none) = none := by
    rcases h with h | h | h | h | h
    · rw [h]; rfl
    · rw [decide_eq_false h]; simp
    · rw [h]; simp
    · rw [decide_eq_false (not_not_intro h)]; simp
    · rw [h, ite_self]
  change execPortalFlitAccept t s = _
  unfold execPortalFlitAccept
  rw [portalFlits_of_open hready hgate hflit hhold]
  dsimp only
  rw [hw, hsd]
  dsimp only
  rw [hno]
  rfl

theorem exec_portalFlitAccept_of_source {k : Nat} {p : Pass} (hportal : isPortal t = true) (htile : streamTile t.slab f.queue = t)
    (haccepts : sd.accepts = true) (hstate : ((s.slab t.slab).stream f.queue).state ≠ 0) (hk : sd.sourceNo f.sx f.sy = some k)
    (hp : s.passOf t.slab f.queue (((s.slab t.slab).stream f.queue).cursor k).1 = some p) :
    exec (.portalFlitAccept t) s = .next (s.acceptFlit t f p k (((s.slab t.slab).stream f.queue).cursor k).1
      (((s.slab t.slab).stream f.queue).cursor k).2) := by
  have hyes : (if isPortal t && decide (streamTile t.slab f.queue = t) && sd.accepts && decide (((s.slab t.slab).stream f.queue).state ≠ 0)
      then sd.sourceNo f.sx f.sy else none) = some k := by
    rw [hportal, decide_eq_true htile, haccepts, decide_eq_true hstate, hk]
    rfl
  change execPortalFlitAccept t s = _
  unfold execPortalFlitAccept
  rw [portalFlits_of_open hready hgate hflit hhold]
  dsimp only
  rw [hw, hsd]
  dsimp only
  rw [hyes]
  dsimp only
  rw [hp]

end

/-! ## Atomics -/

section
variable {i : SlabId} {u : Fin 24} {a : Atomic} {rest : List Atomic}

/-- The oldest atomic of a slice taken. -/
def State.atomicTaken (s : State) (i : SlabId) (u : Fin 24) (rest : List Atomic) : State :=
  s.modSlab i (fun sl => sl.modStack u.val (fun st => { st with atomics := rest }))

variable (hready : (s.slab i).ready = true) (ha : ((s.slab i).stack u.val).atomics = a :: rest)
include hready ha

theorem exec_atomicApply_of_bad (hbad : a.bad = true) :
    exec (.atomicApply i u) s = .next ((((s.atomicTaken i u rest).modTile a.tile (fun tl => tl.setFlags flagOpndFault)).modSlab i (fun sl =>
      sl.modStack u.val (fun st => st.count Ctr.ATOMIC_FAULTS 1))).atomicDone a) := by
  change execAtomicApply i u s = _
  unfold execAtomicApply
  rw [if_pos hready, ha]
  exact if_pos hbad

variable (hgood : a.bad = false)
include hgood

theorem exec_atomicApply_of_unmapped (hpte : (s.atomicTaken i u rest).pte i (vpnOf a.addr) = none) :
    exec (.atomicApply i u) s = .next (((s.atomicTaken i u rest).modTile a.tile (fun tl => tl.xlateFault 1)).atomicDone a) := by
  have hcond : ¬ a.bad = true := by rw [hgood]; exact Bool.false_ne_true
  unfold State.atomicTaken at hpte
  change execAtomicApply i u s = _
  unfold execAtomicApply
  rw [if_pos hready, ha]
  dsimp only
  rw [if_neg hcond, hpte]
  rfl

theorem exec_atomicApply_of_sector {k : SlabId} {e : DWord} {old : BitVec 256} (hpte : (s.atomicTaken i u rest).pte i (vpnOf a.addr) = some (k, e))
    (hold : ((((s.atomicTaken i u rest).allocLines i (a.addr / 32 * 32) 32).slab k).sector (pteStack e) (pteFrame e)
      (a.addr % pageBytes / 32)) = some old) :
    exec (.atomicApply i u) s = .next ((((s.atomicTaken i u rest).allocLines i (a.addr / 32 * 32) 32).modSlab k (fun sl =>
      (sl.putSector (pteStack e) (pteFrame e) (a.addr % pageBytes / 32) (a.apply old)).modStack u.val (fun st =>
        { st.count Ctr.ATOMIC_OPS 1 with atomicOld := old }))).atomicDone a) := by
  have hcond : ¬ a.bad = true := by rw [hgood]; exact Bool.false_ne_true
  unfold State.atomicTaken at hpte hold
  change execAtomicApply i u s = _
  unfold execAtomicApply
  rw [if_pos hready, ha]
  dsimp only
  rw [if_neg hcond, hpte]
  dsimp only
  rw [hold]
  rfl

end

/-! ## Lending tiles -/

section
variable {r : LoadReq} {rest : List LoadReq} (hready : (s.slab t.slab).ready = true) (hgate : bit (s.tile t).gate gateStream = true)
  (hloads : (s.tile t).loads = r :: rest)
include hready hgate hloads

theorem loads_of_open : (if (s.slab t.slab).ready && bit (s.tile t).gate gateStream then (s.tile t).loads else []) = r :: rest := by
  rw [hready, hgate, hloads]
  rfl

/-- The oldest read of a lending tile taken. -/
def State.loadTaken (s : State) (t : TileId) (rest : List LoadReq) : State := s.modTile t (fun x => { x with loads := rest })

/-- A read that its tile cannot serve any more goes to the home of its page. -/
theorem exec_streamDescriptorLoad_of_gone {errs : List RowError} (h : s.canLend t = false ∨ s.holdsPage t r = false) :
    exec (.streamDescriptorLoad t errs) s = .next ((s.loadTaken t rest).injectRows r.requester r.target
      (rowsOf ((s.loadTaken t rest).readRangeD r.requester.slab (r.vpn * pageBytes + r.offset) (64 * r.count))) true) := by
  have hcond : (!s.canLend t || !s.holdsPage t r) = true := by rcases h with h | h <;> rw [h] <;> simp
  change execStreamDescriptorLoad t errs s = _
  unfold execStreamDescriptorLoad
  rw [loads_of_open hready hgate hloads]
  exact if_pos hcond

/-- A read without an error of its rows, served by the tile that lends them. -/
theorem exec_streamDescriptorLoad_of_lent (hlend : s.canLend t = true) (hpage : s.holdsPage t r = true) (hfew : (s.tile t).unacked < 64) :
    exec (.streamDescriptorLoad t []) s = .next (((s.loadTaken t rest).served t r.frame).injectRows t r.target
      ((s.tile t).frameRows (isPortal t) r.frame r.offset r.count) true) := by
  have hcond : ¬ (!s.canLend t || !s.holdsPage t r) = true := by rw [hlend, hpage]; exact Bool.false_ne_true
  have herrs : (s.loadTaken t rest).modTile t (fun x => x.lentErrors (isPortal t) r.frame []) = s.loadTaken t rest := by
    refine (modTile_modTile ..).trans (modTile_congr s t ?_)
    unfold Tile.lentErrors
    split <;> rfl
  unfold State.loadTaken at herrs
  change execStreamDescriptorLoad t [] s = _
  unfold execStreamDescriptorLoad
  rw [loads_of_open hready hgate hloads]
  refine (if_neg hcond).trans ((if_neg (Nat.not_le.mpr hfew)).trans ?_)
  dsimp only [List.filter_nil]
  rw [herrs]
  have hgood : (!if r.frame = 64 then rowsUncorrectable [] else [].any (fun e : RowError => decide (1 < e.weight))) = true := by
    split <;> rfl
  refine (if_pos hgood).trans ?_
  by_cases hframe : r.frame = 64
  · rw [if_pos hframe]
    rfl
  · rw [if_neg hframe]
    rfl

end

theorem root_modTile (s : State) (t : TileId) (g : Tile → Tile) (i : SlabId) : (s.modTile t g).root i = s.root i := by
  rw [State.root, dev_modTile]
  exact slab_modSlab_proj (fun sl => sl.root) (f := fun sl => sl.modTile t.x.val t.y.val g) (fun _ => rfl) s t.slab (s.dev i)

theorem served_loadTaken (rest : List LoadReq) (frame : Nat) :
    (s.loadTaken t rest).served t frame =
      (s.modTile t (fun x => { x with
        loads := rest, lastUse := (s.root t.slab).pitch, counters := Counters.bump x.counters Ctr.BIVOUAC_READS 1 })).modSlab t.slab (fun sl =>
          sl.modMem (fun m => { m with residence := m.residence.map (fun p =>
            if p.1 = (gx s.shared.mode t, t.y.val, frame) then (p.1, p.2.1, (s.root t.slab).pitch) else p) })) := by
  have hroot : (s.loadTaken t rest).root t.slab = s.root t.slab := root_modTile ..
  have hmode : (s.loadTaken t rest).shared = s.shared := shared_modTile ..
  rw [State.served, hroot, hmode, State.loadTaken, modTile_modTile]
  rfl

end Sys2Proof.Machine

namespace Sys2Proof.Proofs

open Sys2Proof.Machine

theorem missesWalkThePageTable : Claims.MissesWalkThePageTable := by
  intro s t vpn hready
  refine ⟨exec_translationWalk_of_not, fun hportal hmiss => ⟨(s.walked t.slab vpn.toNat).1, (s.walked t.slab vpn.toNat).2, fun h => ?_,
    fun j x h => ?_, exec_translationWalk_of_miss hready hportal hmiss, cached_cache ..⟩⟩
  · rw [State.walked, h]; exact ⟨rfl, rfl⟩
  · rw [State.walked, h]; exact ⟨rfl, rfl⟩

theorem portalFlitsFillTheirRunOrAreDropped : Claims.PortalFlitsFillTheirRunOrAreDropped := by
  intro s t f rest hready hgate hflit i st taken ack z y gone
  refine ⟨exec_portalFlitAccept_of_hold, fun w hhold hw => ?_, fun hhold hw => ⟨exec_portalFlitAccept_of_no_descriptor hready hgate hflit hhold hw,
    fun sd hsd => ⟨exec_portalFlitAccept_of_no_source hready hgate hflit hhold hw hsd, fun k p hportal htile haccepts hstate hk hp =>
      exec_portalFlitAccept_of_source hready hgate hflit hhold hw hsd hportal htile haccepts hstate hk hp⟩⟩⟩
  have hexec := exec_portalFlitAccept_of_forward hready hgate hflit hhold hw
  have htaken : s.modRouter t (fun r => { r with portal := r.portal.drop 1 }) = taken :=
    modTile_congr s t (by dsimp only; rw [hflit]; rfl)
  refine ⟨fun hbusy => hexec.trans (congrArg _ (if_pos hbusy)), fun hfree => hexec.trans (congrArg _ ((if_neg ?_).trans ?_))⟩
  · rw [hfree]; exact Bool.false_ne_true
  · rw [State.takeForward, htaken]
    rfl

theorem atomicsReplaceTheirSector : Claims.AtomicsReplaceTheirSector := by
  intro s i u a rest hready ha z
  exact ⟨exec_atomicApply_of_bad hready ha, exec_atomicApply_of_unmapped hready ha, fun k e old hgood hpte hold =>
    exec_atomicApply_of_sector hready ha hgood hpte hold⟩

theorem lendingTileServesReads : Claims.LendingTileServesReads := by
  intro s t r rest hready hgate hloads pitch target
  refine ⟨fun hlend hpage hfew => ?_, exec_streamDescriptorLoad_of_gone hready hgate hloads⟩
  rw [exec_streamDescriptorLoad_of_lent hready hgate hloads hlend hpage hfew, served_loadTaken]
  rfl

/-- Settles O19: a walk by the cache's miss, a portal flit by its source's run, an atomic by its sector, a lent read by its frame. -/
theorem portalsServeTiles : Obligations.PortalsServeTiles :=
  ⟨missesWalkThePageTable, portalFlitsFillTheirRunOrAreDropped, atomicsReplaceTheirSector, lendingTileServesReads⟩

end Sys2Proof.Proofs
end

section
/-! # The fetches of a stream (R229, R239, R245, R248) -/

namespace Sys2Proof.Machine

variable {s : State} {i : SlabId} {d : Fin 16384} {p : Pass}

/-! ## The begin of a fetch -/

theorem fetchWaiting_of_pass (hp : s.passOf i d.val ((s.slab i).stream d.val).fetchPass = some p) :
    s.fetchWaiting i d.val = if decide (((s.slab i).stream d.val).state ≠ 0) && !((s.slab i).stream d.val).fetching
        && !((s.slab i).stream d.val).held && p.desc.reads && s.fetchDue i d.val p ((s.slab i).stream d.val).fetchStep then
      some (s.passKey i d.val ((s.slab i).stream d.val).fetchStep p) else none := by
  unfold State.fetchWaiting
  dsimp only
  rw [hp]

/-- No other descriptor of the engine waits with an earlier place. -/
theorem firstOf_iff (s : State) (i : SlabId) (d : Nat) (key : List Nat) (wait : Nat → Option (List Nat)) :
    s.firstOf i d key wait = true ↔ ∀ x ∈ (s.slab i).streams, x.1 ≠ d → streamTile i x.1 = streamTile i d →
      ∀ k, wait x.1 = some k → lexLess k key = false := by
  unfold State.firstOf
  rw [List.all_eq_true]
  refine forall_congr' (fun x => forall_congr' (fun _ => ?_))
  rw [Bool.or_eq_true, Bool.or_eq_true, decide_eq_true_eq, decide_eq_true_eq]
  cases wait x.1 with
  | none => simp
  | some k =>
    simp only [Bool.not_eq_true', Option.some.injEq, forall_eq']
    rw [or_assoc, Decidable.or_iff_not_imp_left, Decidable.or_iff_not_imp_left, Decidable.not_not]

section
variable (hready : (s.slab i).ready = true) (hp : s.passOf i d.val ((s.slab i).stream d.val).fetchPass = some p)
  (hgo : s.streamsStopped i = false)
include hready hp hgo

theorem exec_streamFetchStart_of_not_waiting (hw : s.fetchWaiting i d.val = none) : exec (.streamFetchStart i d) s = .next s := by
  change execStreamFetchStart i d s = _
  unfold execStreamFetchStart
  dsimp only
  rw [hready, hgo, hp, hw]
  rfl

theorem exec_streamFetchStart_of_waiting {key : List Nat} (hw : s.fetchWaiting i d.val = some key) :
    exec (.streamFetchStart i d) s =
      if !s.firstOf i d.val key (s.fetchWaiting i) then .next s
      else if s.commitBlocks i p ((s.slab i).stream d.val).fetchStep then
        .next (s.modSlab i (fun sl => sl.modStream d.val (fun st => { st with held := true, heldAt := some (s.cycle i) })))
      else .next (s.beginFetch i d.val p) := by
  change execStreamFetchStart i d s = _
  unfold execStreamFetchStart
  dsimp only
  rw [hready, hgo, hp, hw]
  rfl

theorem exec_commitWaitRelease_of_held (hpause : s.readsPause i = false) (hheld : ((s.slab i).stream d.val).held = true) :
    exec (.commitWaitRelease i d) s =
      if s.commitBlocks i p ((s.slab i).stream d.val).fetchStep then .next s else .next (s.beginFetch i d.val p) := by
  change execCommitWaitRelease i d s = _
  unfold execCommitWaitRelease
  dsimp only
  rw [hready, hgo, hpause, hheld, hp]
  rfl

end

theorem exec_streamFetchStart_of_stopped (h : s.streamsStopped i = true) : exec (.streamFetchStart i d) s = .next s := by
  change execStreamFetchStart i d s = _
  unfold execStreamFetchStart
  dsimp only
  rw [h, Bool.or_true, if_pos rfl]

theorem exec_commitWaitRelease_of_not (h : s.streamsStopped i = true ∨ s.readsPause i = true) : exec (.commitWaitRelease i d) s = .next s := by
  change execCommitWaitRelease i d s = _
  unfold execCommitWaitRelease
  dsimp only
  rcases h with h | h <;> rw [h] <;> simp

theorem readsPause_iff (s : State) (i : SlabId) : s.readsPause i = true ↔ (s.root i).kind = .maint ∧ (s.root i).inHold = false := by
  simp [State.readsPause]

theorem readsPause_of_not (h : (s.root i).kind = .maint → (s.root i).inHold = true) : s.readsPause i = false := by
  rw [Bool.eq_false_iff, ne_eq, readsPause_iff]
  rintro ⟨hk, hh⟩
  rw [h hk] at hh
  exact Bool.noConfusion hh

/-! ## The end of a fetch -/

theorem exec_streamFetchEnd (hready : (s.slab i).ready = true) (hp : s.passOf i d.val ((s.slab i).stream d.val).fetchPass = some p)
    (hf : ((s.slab i).stream d.val).fetching = true) :
    exec (.streamFetchEnd i d) s =
      if ((s.slab i).stream d.val).returned.length < p.desc.returns then .next s else .next (s.endFetch i d.val) := by
  change execStreamFetchEnd i d s = _
  unfold execStreamFetchEnd
  dsimp only
  rw [hready, hf, Bool.and_self, if_pos rfl, hp]

/-- A change of a descriptor's stream. -/
theorem stream_modSlab_modStream (s : State) (i : SlabId) (d : Nat) (g : StreamState → StreamState) :
    ((s.modSlab i (fun sl => sl.modStream d g)).slab i).stream d = g ((s.slab i).stream d) := by
  rw [slab_modSlab_self, Slab.stream_modStream, if_pos rfl]

theorem stream_modJob (s : State) (i j : SlabId) (d : Nat) (g : Job → Job) : ((s.modJob i g).slab j).stream d = (s.slab j).stream d :=
  slab_modSlab_proj (fun sl => sl.stream d) (f := fun sl => sl.modJob g) (fun _ => rfl) s (s.dev i) j

theorem stream_endFetch (s : State) (i : SlabId) (d : Nat) :
    ((s.endFetch i d).slab i).stream d =
      { (s.slab i).stream d with
        state := if ((s.slab i).stream d).delivering then 2 else 1, fetching := false, returned := []
        fetchStep := (s.nextPass i d ((s.slab i).stream d).fetchStep ((s.slab i).stream d).fetchPass).1
        fetchPass := (s.nextPass i d ((s.slab i).stream d).fetchStep ((s.slab i).stream d).fetchPass).2 } := by
  have hjob : ∀ (b : Bool) (z : State) (g : Job → Job),
      ((if b then z else z.modJob i g).slab i).stream d = (z.slab i).stream d := by
    intro b z g
    cases b
    · exact stream_modJob ..
    · rfl
  exact (hjob _ _ _).trans (stream_modSlab_modStream ..)

theorem nextPass_eq (s : State) (i : SlabId) (d st n : Nat) :
    (s.nextPass i d st n).1 = (if n + 1 < s.passCount i d then st else st + 1)
      ∧ (s.nextPass i d st n).2 = (if n + 1 < s.passCount i d then n + 1 else 0) := by
  unfold State.nextPass
  split <;> exact ⟨rfl, rfl⟩

end Sys2Proof.Machine

namespace Sys2Proof.Proofs

open Sys2Proof.Machine

theorem fetchesBeginWaitAndEnd : Claims.FetchesBeginWaitAndEnd := by
  intro s i d p hready st hp begun waited
  have hbegun : s.beginFetch i d.val p = begun waited := rfl
  refine ⟨fun hgo hstate hfetch hheld hreads => ?_, fun hstop => ⟨exec_streamFetchStart_of_stopped hstop, exec_commitWaitRelease_of_not (Or.inl hstop)⟩,
    fun hgo hpause hheld => ?_, fun hk hh => exec_commitWaitRelease_of_not (Or.inr ((readsPause_iff s i).mpr ⟨hk, hh⟩)), fun hfetch => ?_⟩
  · have hwait := fetchWaiting_of_pass hp
    rw [decide_eq_true hstate, hfetch, hheld, hreads] at hwait
    have hstart : s.fetchDue i d.val p st.fetchStep = true → _ := fun hdue =>
      exec_streamFetchStart_of_waiting hready hp hgo (hwait.trans (if_pos (by rw [hdue]; rfl)))
    refine ⟨fun hdue => exec_streamFetchStart_of_not_waiting hready hp hgo (hwait.trans (if_neg (by rw [hdue]; exact Bool.false_ne_true))),
      fun hdue hfirst => ?_, fun x key hx hne htile hkey hless => ?_⟩
    · have hexec := hstart hdue
      rw [(firstOf_iff ..).mpr hfirst, Bool.not_true, if_neg Bool.false_ne_true] at hexec
      exact ⟨fun h => hexec.trans (if_pos h), fun h => hexec.trans (if_neg (by rw [h]; exact Bool.false_ne_true))⟩
    · by_cases hdue : s.fetchDue i d.val p st.fetchStep = true
      · refine (hstart hdue).trans (if_pos ?_)
        rw [Bool.not_eq_true', Bool.eq_false_iff, ne_eq, firstOf_iff]
        exact fun hfirst => Bool.false_ne_true ((hfirst x hx hne htile key hkey).symm.trans hless)
      · exact exec_streamFetchStart_of_not_waiting hready hp hgo (hwait.trans (if_neg (by rw [Bool.eq_false_iff.mpr hdue]; exact Bool.false_ne_true)))
  · rw [exec_commitWaitRelease_of_held hready hp hgo (readsPause_of_not hpause) hheld]
    exact ⟨fun h => if_pos h, fun h => if_neg (by rw [h]; exact Bool.false_ne_true)⟩
  · rw [exec_streamFetchEnd hready hp hfetch]
    obtain ⟨hstep, hpass⟩ := nextPass_eq s i d.val st.fetchStep st.fetchPass
    refine ⟨fun hlt => if_pos hlt, fun hle => ⟨if_neg (Nat.not_lt.mpr hle), ?_⟩⟩
    rw [stream_endFetch]
    exact ⟨rfl, hstep, hpass⟩

end Sys2Proof.Proofs
end

section
/-! # Reads that return into the stream buffer (R192, R197, R230, R231, R236) -/

namespace Sys2Proof.Machine

variable {s : State} {i : SlabId} {d : Fin 16384} {p : Pass} {ep : Half} {k : Nat}

/-! ## A run that returns -/

/-- The slices' and lending tiles' part in a run's reads: translations used, degraded sectors counted, lent pages read. -/
def State.runRead (s : State) (i : SlabId) (d : Nat) (p : Pass) (k : Nat) : State :=
  let a := p.runAddr k
  let n := p.desc.runBytes
  let t := streamTile i d
  let z := (((s.useXlate t a.1 n).useXlate t a.2.1 a.2.2).countDegraded i a.1 n).countDegraded i a.2.1 a.2.2
  (if p.desc.mode = 10 then z.readLent i a.1 n else z).readLent i a.2.1 a.2.2

/-- A run put into the buffers, and the deliveries that it lets go on. -/
def State.runBuffered (s : State) (i : SlabId) (d : Nat) (p : Pass) (k : Nat) (fs : List Fetched) : State :=
  let a := p.runAddr k
  let n := p.desc.runBytes
  (s.bufferPieces i d k fs (n + a.2.2) (s.faultsIn i a.1 n + s.faultsIn i a.2.1 a.2.2)).deliver i

section
variable (hready : (s.slab i).ready = true) (hp : s.passOf i d.val ((s.slab i).stream d.val).fetchPass = some p)
include hready hp

section
variable (hreads : p.desc.reads = true) (hmode : p.desc.mode ≠ 2)
include hreads hmode

theorem exec_streamReadReturn_of_stale (hep : ep ≠ (s.job i).epoch) :
    exec (.streamReadReturn i d ep k) s = .next (s.dropRead i d.val (p.desc.runBytes + (p.runAddr k).2.2)) := by
  change execStreamReadReturn i d ep k s = _
  unfold execStreamReadReturn
  dsimp only
  rw [if_pos hready, hp]
  dsimp only
  rw [if_neg (by rw [hreads]; simpa using hmode), if_pos hep]

variable (hep : ep = (s.job i).epoch) (hfetch : ((s.slab i).stream d.val).fetching = true) (hk : k < p.desc.runs)
  (hnew : k ∉ ((s.slab i).stream d.val).returned) (hgo : s.readsPause i = false)
  (hw : s.withholds i (p.runAddr k).1 p.desc.runBytes = false) (hw' : s.withholds i (p.runAddr k).2.1 (p.runAddr k).2.2 = false)
include hep hfetch hk hnew hgo hw hw'

/-- A run of the epoch that may return: it waits for its translations, then for its home, then for buffer rows. -/
theorem exec_streamReadReturn_of_due :
    exec (.streamReadReturn i d ep k) s =
      if !((s.tile (streamTile i d.val)).translated (p.runAddr k).1 p.desc.runBytes
          && (s.tile (streamTile i d.val)).translated (p.runAddr k).2.1 (p.runAddr k).2.2) then .next s
      else (s.fetchRun i d.val k p ((s.slab i).stream d.val)).elim (.next s) (fun fs =>
        if s.fits fs (((s.slab i).stream d.val).missing k) then .next ((s.runRead i d.val p k).runBuffered i d.val p k fs)
        else .next (s.waitBuffer i d.val)) := by
  have hdue : ¬ (!((s.slab i).stream d.val).fetching || decide (p.desc.runs ≤ k) || decide (k ∈ ((s.slab i).stream d.val).returned)
      || s.readsPause i || s.withholds i (p.runAddr k).1 p.desc.runBytes || s.withholds i (p.runAddr k).2.1 (p.runAddr k).2.2) = true := by
    rw [hfetch, decide_eq_false (Nat.not_le.mpr hk), decide_eq_false hnew, hgo, hw, hw']
    exact Bool.false_ne_true
  change execStreamReadReturn i d ep k s = _
  unfold execStreamReadReturn
  dsimp only
  rw [if_pos hready, hp]
  dsimp only
  rw [if_neg (by rw [hreads]; simpa using hmode), if_neg (not_not_intro hep), if_neg hdue]
  refine ite_congr rfl (fun _ => rfl) (fun _ => ?_)
  split
  · next h => rw [h]; rfl
  · next fs h => rw [h]; rfl

end

/-! ## A gather request -/

/-- The addresses of a gather request's index list and its length in bytes. -/
def Pass.listAt (p : Pass) (k : Nat) : Nat := p.arm.sbase + 4 * p.desc.runs * p.j + 256 * k
def Pass.items (p : Pass) (k : Nat) : Nat := min 64 (p.desc.runs - 64 * k)

/-- The items of a gather request as a piece of the executing tile's buffer. -/
def State.gathered (s : State) (i : SlabId) (d : Nat) (p : Pass) (k : Nat) : Fetched :=
  let st := (s.slab i).stream d
  (paddedRows (s.gatherData i p (s.gatherAddrs i p k)),
    { step := st.fetchStep, pass := st.fetchPass, run := k, epoch := st.epoch, offset := k * p.desc.runBytes, rows := [], scaleBytes := 0
      holder := streamTile i d, lent := none })

/-- The slices' part in a gather request: the index list and the items of given addresses read. -/
def State.itemsRead (s : State) (i : SlabId) (d : Nat) (p : Pass) (k : Nat) (addrs : List Nat) : State :=
  addrs.foldl (fun s a => s.gatherItem i (streamTile i d) p a)
    ((s.useXlate (streamTile i d) (p.listAt k) (4 * p.items k)).readLent i (p.listAt k) (4 * p.items k))

/-- Items put into the buffer, and the deliveries that they let go on. -/
def State.itemsBuffered (s : State) (i : SlabId) (d : Nat) (p : Pass) (k : Nat) (f : Fetched) (addrs : List Nat) : State :=
  (s.bufferPieces i d k [f] (p.items k * p.desc.runBytes)
    (addrs.foldl (fun m a => m + s.faultsIn i a p.desc.runBytes) (s.faultsIn i (p.listAt k) (4 * p.items k)))).deliver i

section
variable (hmode : p.desc.mode = 2) (hk : 64 * k < p.desc.runs)
include hmode hk

theorem exec_gatherRequest_of_stale (hep : ep ≠ (s.job i).epoch) :
    exec (.gatherRequest i d ep k) s = .next (s.dropRead i d.val (p.items k * p.desc.runBytes)) := by
  change execGatherRequest i d ep k s = _
  unfold execGatherRequest
  dsimp only
  rw [if_pos hready, hp]
  dsimp only
  rw [if_neg (not_or.mpr ⟨not_not_intro hmode, Nat.not_le.mpr hk⟩), if_pos hep]
  rfl

/-- A request of the epoch that may return waits for buffer rows alone. -/
theorem exec_gatherRequest_of_due (hep : ep = (s.job i).epoch) (hfetch : ((s.slab i).stream d.val).fetching = true)
    (hnew : k ∉ ((s.slab i).stream d.val).returned) (hgo : s.readsPause i = false)
    (hlist : s.withholds i (p.listAt k) (4 * p.items k) = false)
    (hitems : ∀ a ∈ s.gatherAddrs i p k, s.withholds i a p.desc.runBytes = false)
    (htlist : (s.tile (streamTile i d.val)).translated (p.listAt k) (4 * p.items k) = true)
    (htitems : ∀ a ∈ s.gatherAddrs i p k, (s.tile (streamTile i d.val)).translated a p.desc.runBytes = true) :
    exec (.gatherRequest i d ep k) s =
      if !s.fits [s.gathered i d.val p k] (((s.slab i).stream d.val).missing k) then .next (s.waitBuffer i d.val)
      else .next ((s.itemsRead i d.val p k (s.gatherAddrs i p k)).itemsBuffered i d.val p k (s.gathered i d.val p k) (s.gatherAddrs i p k)) := by
  have hdue : ¬ (!((s.slab i).stream d.val).fetching || decide (k ∈ ((s.slab i).stream d.val).returned) || s.readsPause i
      || s.withholds i (p.listAt k) (4 * p.items k)) = true := by
    rw [hfetch, decide_eq_false hnew, hgo, hlist]
    exact Bool.false_ne_true
  have htrans : ¬ (!((s.tile (streamTile i d.val)).translated (p.listAt k) (4 * p.items k)
      && (s.gatherAddrs i p k).all (fun a => (s.tile (streamTile i d.val)).translated a p.desc.runBytes))
      || (s.gatherAddrs i p k).any (fun a => s.withholds i a p.desc.runBytes)) = true := by
    rw [htlist, List.all_eq_true.mpr htitems, List.any_eq_false.mpr (fun a ha => by rw [hitems a ha]; exact Bool.false_ne_true)]
    exact Bool.false_ne_true
  change execGatherRequest i d ep k s = _
  unfold execGatherRequest
  dsimp only
  rw [if_pos hready, hp]
  dsimp only
  refine (if_neg (not_or.mpr ⟨not_not_intro hmode, Nat.not_le.mpr hk⟩)).trans ((if_neg (not_not_intro hep)).trans
    ((if_neg hdue).trans (if_neg htrans)))

end

end

/-! ## The pieces of a run -/

section
variable {st : StreamState} {v first count : Nat} {w : SlabId} {e : DWord} {scales : List Byte} {n : Nat}

/-- The record of a piece of run `k` without its rows. -/
def piecePlain (i : SlabId) (n k first : Nat) (st : StreamState) : BufferedRun :=
  { step := st.fetchStep, pass := st.fetchPass, run := k, epoch := st.epoch, offset := first, rows := [], scaleBytes := 0
    holder := streamTile i n, lent := none }

/-- A run whose rows lie on one page and make one piece. -/
theorem fetchRun_of_piece {f : Fetched} (hone : rowGroups (p.runAddr k).1 p.desc.runBytes = [(v, first, count, false)])
    (hf : s.fetchPiece i n k p st (p.runAddr k).1 (v, first, count, false) = [some f])
    (hscales : s.readRange i (p.runAddr k).2.1 (p.runAddr k).2.2 = some scales) :
    s.fetchRun i n k p st = some (f :: scalePiece i n k st scales) := by
  unfold State.fetchRun
  dsimp only
  rw [hone, List.flatMap_singleton, hf, List.all_cons, List.all_nil, Option.isSome_some, Bool.and_self, if_pos rfl, hscales]
  rfl

variable {a : Nat} (he : s.pte i v = some (w, e))
include he

theorem fetchPiece_of_home (hlent : ¬ (2 ≤ pteRes e ∧ p.desc.mode = 0)) {bs : List Byte}
    (hbs : s.readRange i (a + 64 * first) (64 * count) = some bs) :
    s.fetchPiece i n k p st a (v, first, count, false) =
      [some (rowsOf bs, { piecePlain i n k first st with holder := holderOf i n p.desc.mode k w e })] := by
  have hno : (!(decide (2 ≤ pteRes e) && decide (p.desc.mode = 0))) = true := by
    rw [Bool.not_eq_true', ← Bool.decide_and, decide_eq_false hlent]
  unfold State.fetchPiece
  dsimp only
  rw [he]
  dsimp only
  rw [if_pos hno, State.homePiece, he, hbs]
  rfl

theorem fetchPiece_of_lent (hres : 2 ≤ pteRes e) (hmode : p.desc.mode = 0) (hpos : 0 < count) :
    s.fetchPiece i n k p st a (v, first, count, false) =
      [some ([], { piecePlain i n k first st with lent := some (v, (a + 64 * first) % pageBytes, count) })] := by
  have hyes : (!(decide (2 ≤ pteRes e) && decide (p.desc.mode = 0))) = false := by
    rw [← Bool.decide_and, decide_eq_true ⟨hres, hmode⟩]
    rfl
  unfold State.fetchPiece
  dsimp only
  rw [he]
  dsimp only
  rw [if_neg (by rw [hyes]; exact Bool.false_ne_true), if_neg Bool.false_ne_true, if_neg (Nat.ne_of_gt hpos)]
  rfl

end

end Sys2Proof.Machine

namespace Sys2Proof.Proofs

open Sys2Proof.Machine

theorem readsReturnIntoTheBuffer : Claims.ReadsReturnIntoTheBuffer := by
  refine ⟨fun s i d p ep k hready => ?_, fun s i d k p st v first count w e bs scales => ?_⟩
  · intro st t hp
    refine ⟨fun hreads hmode => ?_, fun hmode hk => ?_⟩
    · intro a n
      refine ⟨exec_streamReadReturn_of_stale hready hp hreads hmode, fun hep hfetch hk hnew hpause hw hw' => ?_⟩
      have hexec := exec_streamReadReturn_of_due hready hp hreads hmode hep hfetch hk hnew (readsPause_of_not hpause) hw hw'
      refine ⟨fun ht => ?_, fun fs ht ht' hfs => ?_⟩
      · rw [show ((s.tile (streamTile i d.val)).translated (p.runAddr k).1 p.desc.runBytes
          && (s.tile (streamTile i d.val)).translated (p.runAddr k).2.1 (p.runAddr k).2.2) = false from ht] at hexec
        exact hexec
      · rw [show (s.tile (streamTile i d.val)).translated (p.runAddr k).1 p.desc.runBytes = true from ht,
          show (s.tile (streamTile i d.val)).translated (p.runAddr k).2.1 (p.runAddr k).2.2 = true from ht',
          show s.fetchRun i d.val k p ((s.slab i).stream d.val) = some fs from hfs] at hexec
        replace hexec := hexec.trans (if_neg Bool.false_ne_true)
        dsimp only [Option.elim] at hexec
        exact ⟨fun h => hexec.trans (if_neg (by rw [h]; exact Bool.false_ne_true)), fun h => hexec.trans (if_pos h)⟩
    · intro n size list addrs bytes f
      have hf : s.gathered i d.val p k = f := by
        have hbytes : s.gatherData i p (s.gatherAddrs i p k) = bytes := by
          unfold State.gatherData Pass.badItem
          simp only [decide_eq_true_eq]
          rfl
        rw [State.gathered, hbytes]
      refine ⟨exec_gatherRequest_of_stale hready hp hmode hk, fun hep hfetch hnew hpause hlist hitems htlist htitems => ?_⟩
      have hexec := exec_gatherRequest_of_due hready hp hmode hk hep hfetch hnew (readsPause_of_not hpause) hlist hitems htlist htitems
      rw [hf] at hexec
      exact ⟨fun h => hexec.trans (if_pos (by rw [h]; rfl)), fun h => hexec.trans (if_neg (by rw [h]; exact Bool.false_ne_true))⟩
  · intro a hone he hbs hscales piece tail
    exact ⟨fun hlent => fetchRun_of_piece hone (fetchPiece_of_home he hlent hbs) hscales,
      fun hres hmode hpos => fetchRun_of_piece hone (fetchPiece_of_lent he hres hmode hpos) hscales⟩

end Sys2Proof.Proofs
end

section
/-! # The delivery of fetched passes (R221, R225, R229, R230, R335) -/

namespace Sys2Proof.Machine

variable {s : State} {i : SlabId} {p : Pass}

/-! ## The begin of a delivery -/

/-- The delivery index and local cycle of a pass have come. -/
def State.deliveryCome (s : State) (i : SlabId) (d : Nat) (p : Pass) : Bool :=
  decide (((s.slab i).stream d).step * s.stepLength i + p.at_ < (s.root i).schedIndex.toNat)
    || (decide (((s.slab i).stream d).step * s.stepLength i + p.at_ = (s.root i).schedIndex.toNat)
      && decide (p.desc.dstart ≤ s.localCycle (streamTile i d)))

section
variable {d : Nat} (hp : s.passOf i d ((s.slab i).stream d).pass = some p)
include hp

theorem deliveryWaiting_of_pass :
    s.deliveryWaiting i d = if !(s.root i).inHold && decide ((s.root i).kind = .image) && p.desc.reads
        && decide (((s.slab i).stream d).state ≠ 0) && !((s.slab i).stream d).delivering && s.withinStep i ((s.slab i).stream d).step
        && s.deliveryCome i d p then
      some (s.passKey i d ((s.slab i).stream d).step p) else none := by
  unfold State.deliveryWaiting
  dsimp only
  rw [hp]
  rfl

theorem deliveryWaiting_of_not
    (h : (s.root i).inHold = true ∨ (s.root i).kind ≠ .image ∨ s.deliveryCome i d p = false
      ∨ s.withinStep i ((s.slab i).stream d).step = false) : s.deliveryWaiting i d = none := by
  rw [deliveryWaiting_of_pass hp]
  refine if_neg ?_
  rcases h with h | h | h | h
  · rw [h]; simp
  · rw [decide_eq_false h]; simp
  · rw [h]; simp
  · rw [h]; simp

theorem deliveryWaiting_of_due (hhold : (s.root i).inHold = false) (hkind : (s.root i).kind = .image) (hreads : p.desc.reads = true)
    (hstate : ((s.slab i).stream d).state ≠ 0) (hidle : ((s.slab i).stream d).delivering = false)
    (hcome : s.deliveryCome i d p = true) (hstep : s.withinStep i ((s.slab i).stream d).step = true) :
    s.deliveryWaiting i d = some (s.passKey i d ((s.slab i).stream d).step p) := by
  rw [deliveryWaiting_of_pass hp, hhold, decide_eq_true hkind, hreads, decide_eq_true hstate, hidle, hcome, hstep]
  rfl

end

/-- Before the delivery index, or at it before the local cycle, the delivery has not come. -/
theorem deliveryCome_eq_false {d : Nat}
    (h : (s.root i).schedIndex.toNat < ((s.slab i).stream d).step * s.stepLength i + p.at_
      ∨ ((s.root i).schedIndex.toNat = ((s.slab i).stream d).step * s.stepLength i + p.at_ ∧ s.localCycle (streamTile i d) < p.desc.dstart)) :
    s.deliveryCome i d p = false := by
  rw [State.deliveryCome, Bool.or_eq_false_iff, Bool.and_eq_false_iff, decide_eq_false_iff_not, decide_eq_false_iff_not,
    decide_eq_false_iff_not]
  omega

theorem deliveryCome_eq_true {d : Nat}
    (h : ((s.slab i).stream d).step * s.stepLength i + p.at_ < (s.root i).schedIndex.toNat
      ∨ (((s.slab i).stream d).step * s.stepLength i + p.at_ = (s.root i).schedIndex.toNat ∧ p.desc.dstart ≤ s.localCycle (streamTile i d))) :
    s.deliveryCome i d p = true := by
  rw [State.deliveryCome, Bool.or_eq_true, Bool.and_eq_true, decide_eq_true_eq, decide_eq_true_eq, decide_eq_true_eq]
  exact h

section
variable {d : Fin 16384} {errs : List (TileId × RowError)}

theorem exec_streamDeliveryStart_of_not_waiting (hw : s.deliveryWaiting i d.val = none) :
    exec (.streamDeliveryStart i ⟨d, errs⟩) s = .next s := by
  change execStreamDeliveryStart i ⟨d, errs⟩ s = _
  unfold execStreamDeliveryStart
  dsimp only
  rw [hw, ite_self]

theorem exec_streamDeliveryStart_of_first {key : List Nat} (hready : (s.slab i).ready = true) (hw : s.deliveryWaiting i d.val = some key)
    (hfirst : s.firstOf i d.val key (s.deliveryWaiting i) = true) :
    exec (.streamDeliveryStart i ⟨d, errs⟩) s = .next ((s.modSlab i (fun sl => sl.modStream d.val (fun st =>
      { st with delivering := true, state := 2, errs := errs }))).deliver i) := by
  change execStreamDeliveryStart i ⟨d, errs⟩ s = _
  unfold execStreamDeliveryStart
  dsimp only
  rw [if_pos hready, hw]
  dsimp only
  rw [hfirst]
  rfl

end

/-! ## The end of a pass -/

theorem stream_endPass (s : State) (i : SlabId) (d : Nat) :
    ((s.endPass i d).slab i).stream d =
      { (s.slab i).stream d with
        step := (s.nextPass i d ((s.slab i).stream d).step ((s.slab i).stream d).pass).1
        pass := (s.nextPass i d ((s.slab i).stream d).step ((s.slab i).stream d).pass).2
        run := 0, delivering := false, tail := [], tailRow := 0, errs := []
        state := if (s.nextPass i d ((s.slab i).stream d).step ((s.slab i).stream d).pass).1 ≠ ((s.slab i).stream d).step then 3
          else if ((s.slab i).stream d).fetching then 2 else 1
        buffer := ((s.slab i).stream d).buffer.filter (fun b => !(decide (b.step = ((s.slab i).stream d).step)
          && decide (b.pass = ((s.slab i).stream d).pass))) } :=
  stream_modSlab_modStream ..

/-! ## The pieces of a pass -/

section
variable {d n : Nat}

theorem deliverRuns_of_over (hover : p.desc.returns ≤ ((s.slab i).stream d).run) (htail : ((s.slab i).stream d).tail = []) :
    s.deliverRuns i d p (n + 1) = s.endPass i d := by
  rw [State.deliverRuns]
  rw [if_pos hover, htail, List.isEmpty_nil, if_pos rfl]

section
variable (hrun : ((s.slab i).stream d).run < p.desc.returns)
include hrun

theorem deliverRuns_of_unfetched (hf : ((s.slab i).stream d).fetched ((s.slab i).stream d).run = false) :
    s.deliverRuns i d p (n + 1) = s := by
  rw [State.deliverRuns]
  rw [if_neg (Nat.not_le.mpr hrun), hf, Bool.not_false, if_pos rfl]

/-- The next piece of a fetched run goes on when its holder may send. -/
theorem deliverRuns_of_piece {b : BufferedRun} (hmode : p.desc.mode ≠ 10)
    (hf : ((s.slab i).stream d).fetched ((s.slab i).stream d).run = true) (hb : ((s.slab i).stream d).nextPiece = some b) :
    s.deliverRuns i d p (n + 1) =
      if maxUnacked ≤ (s.tile b.holder).unacked then s else (s.deliverPiece i d p b).deliverRuns i d p n := by
  rw [State.deliverRuns]
  rw [if_neg (Nat.not_le.mpr hrun), hf, Bool.not_true, if_neg Bool.false_ne_true, if_neg hmode, hb]

end

/-- A piece read without an error gives the rows as they stand. -/
theorem readPiece_of_clean {st : StreamState} {b : BufferedRun} (herrs : st.errs = []) :
    s.readPiece st b = (s, some (b.rows.map (fun r => (s.tile b.holder).engRow (isPortal b.holder) r))) := by
  unfold State.readPiece StreamState.pieceErrs
  rw [herrs]
  rfl

theorem deliverPiece_of_lent {b : BufferedRun} (hlent : b.lent.isSome = true) :
    s.deliverPiece i d p b = (s.askLender (streamTile i d) p b).freePiece i d b := by
  unfold State.deliverPiece
  dsimp only
  rw [if_pos hlent]

theorem deliverPiece_of_rows {b : BufferedRun} (hlent : b.lent = none) (hscale : b.scaleBytes = 0) (herrs : ((s.slab i).stream d).errs = []) :
    s.deliverPiece i d p b = (s.freePiece i d b).injectRows b.holder (p.desc.target (p.destRow b))
      (b.rows.map (fun r => (s.tile b.holder).engRow (isPortal b.holder) r)) true := by
  unfold State.deliverPiece
  dsimp only
  rw [hlent, Option.isSome_none, if_neg Bool.false_ne_true, readPiece_of_clean herrs]
  dsimp only
  rw [if_pos hscale]

end

end Sys2Proof.Machine

namespace Sys2Proof.Proofs

open Sys2Proof.Machine

theorem fetchedPassesAreDelivered : Claims.FetchedPassesAreDelivered := by
  refine ⟨fun s i d p errs hready => ?_, fun s i d n p hmode => ?_⟩
  · intro st r t due hp
    obtain ⟨-, hpass⟩ := nextPass_eq s i d.val st.step st.pass
    refine ⟨fun h => exec_streamDeliveryStart_of_not_waiting (deliveryWaiting_of_not hp ?_),
      fun hhold hkind hreads hstate hidle hcome hstep hfirst => ?_, ?_⟩
    · rcases h with h | h | h | h | h
      · exact Or.inl h
      · exact Or.inr (Or.inl h)
      · exact Or.inr (Or.inr (Or.inl (deliveryCome_eq_false (Or.inl h))))
      · exact Or.inr (Or.inr (Or.inl (deliveryCome_eq_false (Or.inr h))))
      · exact Or.inr (Or.inr (Or.inr (decide_eq_false (Nat.not_lt.mpr h))))
    · exact exec_streamDeliveryStart_of_first hready
        (deliveryWaiting_of_due hp hhold hkind hreads hstate hidle (deliveryCome_eq_true hcome) (decide_eq_true hstep))
        ((firstOf_iff ..).mpr hfirst)
    · intro e
      have he : e.stream d.val = _ := stream_endPass s i d.val
      rw [he]
      refine ⟨hpass, rfl, fun b hb hthis => ?_⟩
      have hother := (List.mem_filter.mp hb).2
      rw [Bool.not_eq_true', ← Bool.decide_and, decide_eq_false_iff_not] at hother
      exact hother hthis
  · intro st
    refine ⟨deliverRuns_of_over, deliverRuns_of_unfetched, fun b hrun hf hb => ?_⟩
    have hgo : (s.tile b.holder).unacked < 64 → s.deliverRuns i d p (n + 1) = (s.deliverPiece i d p b).deliverRuns i d p n :=
      fun h => (deliverRuns_of_piece hrun hmode hf hb).trans (if_neg (Nat.not_le.mpr h))
    refine ⟨fun h => (deliverRuns_of_piece hrun hmode hf hb).trans (if_pos h), fun h hlent hscale herrs => ?_, fun h hlent => ?_⟩
    · rw [hgo h, deliverPiece_of_rows hlent hscale herrs]
      rfl
    · rw [hgo h, deliverPiece_of_lent hlent]

/-- Settles O18: a fetch and a delivery begin by their place in the engine's order, a run returns into free rows once, and a pass's pieces
leave one by one while their holder may send. -/
theorem passesAreFetchedAndDelivered : Obligations.PassesAreFetchedAndDelivered :=
  ⟨fetchesBeginWaitAndEnd, readsReturnIntoTheBuffer, fetchedPassesAreDelivered⟩

end Sys2Proof.Proofs
end

section
/-! # A cycle with an empty queue (R151, R152, R242, R243) -/

namespace Sys2Proof.Machine

/-! ## The wheel of a stack -/

/-- A stack whose wheel has gone on to its next position. -/
def Stack.nextPosition (x : Stack) : Stack := { x with wheelHalf := false, wheel := x.wheel + 1 }

/-- The low four bits of the split are the read positions, the next four the write positions. -/
theorem shareAt_eq (split : Half) (p : Nat) :
    shareAt split p = if p < split.toNat % 16 then .read else if p < split.toNat % 16 + split.toNat / 16 % 16 then .write else .remote := by
  have hread : bits split 3 0 = split.toNat % 16 := rfl
  have hwrite : bits split 7 4 = split.toNat / 16 % 16 := congrArg (· % 16) (Nat.shiftRight_eq_div_pow split.toNat 4)
  unfold shareAt
  dsimp only
  rw [hread, hwrite]

section
variable {x : Stack} {split : Half} {busy : Bool}

theorem turn_of_not_good (h : x.state ≠ .good) : x.turn split busy = x := if_pos h

theorem turn_of_half (hgood : x.state = .good) (hhot : x.hot = true) (hhalf : x.wheelHalf = false) :
    x.turn split busy = { x with wheelHalf := true } := by
  unfold Stack.turn
  rw [if_neg (not_not_intro hgood), if_pos (by rw [hhot, hhalf]; rfl)]

/-- A position passes: nothing is served under maintenance, and else the position is granted to its class. -/
theorem turn_of_position (hgood : x.state = .good) (h : x.hot = false ∨ x.wheelHalf = true) :
    x.turn split busy = if busy then x.nextPosition else x.nextPosition.grant (shareAt split x.nextPosition.wheel.val) := by
  unfold Stack.turn
  rw [if_neg (not_not_intro hgood), if_neg (by rcases h with h | h <;> simp [h])]
  rfl

end

section
variable {x : Stack} {c : ShareClass} {u v : ShelfWork}

theorem grant_of_idle (h : ∀ q ∈ x.work, q.cls ≠ c) : x.grant c = x.count c.idle 1 := by
  unfold Stack.grant
  rw [List.any_eq_false.mpr (fun q hq => by rw [decide_eq_false (h q hq)]; exact Bool.false_ne_true), if_neg Bool.false_ne_true]

/-- The work that is admitted before a unit's: all of the remote class, and else the streams'. -/
def ShelfWork.first (c : ShareClass) (w : ShelfWork) : Bool := decide (w.cls = c) && (decide (c = .remote) || !w.unit)

/-- The work that has what is left: a unit's, but for the remote class. -/
def ShelfWork.second (c : ShareClass) (w : ShelfWork) : Bool := decide (w.cls = c) && !decide (c = .remote) && w.unit

/-- A position with a request of its class serves in two turns. -/
theorem grant_of_mem (hu : u ∈ x.work) (hcls : u.cls = c) :
    x.grant c = { x with work := (serveWork (ShelfWork.second c) (serveWork (ShelfWork.first c) 2048 x.work).2
      (serveWork (ShelfWork.first c) 2048 x.work).1).1 } := by
  unfold Stack.grant
  rw [if_pos (List.any_eq_true.mpr ⟨u, hu, decide_eq_true hcls⟩)]
  rfl

theorem serveWork_cons_of_not {ok : ShelfWork → Bool} {n : Nat} {w : ShelfWork} {ws : List ShelfWork} (h : ok w = false) :
    serveWork ok n (w :: ws) = (w :: (serveWork ok n ws).1, (serveWork ok n ws).2) := by
  rw [serveWork, h, if_neg Bool.false_ne_true]

theorem serveWork_cons_of_whole {ok : ShelfWork → Bool} {n : Nat} {w : ShelfWork} {ws : List ShelfWork} (h : ok w = true) (hn : w.bytes ≤ n) :
    serveWork ok n (w :: ws) = serveWork ok (n - w.bytes) ws := by
  rw [serveWork, if_pos h]
  exact if_pos hn

theorem serveWork_cons_of_part {ok : ShelfWork → Bool} {n : Nat} {w : ShelfWork} {ws : List ShelfWork} (h : ok w = true) (hn : n < w.bytes) :
    serveWork ok n (w :: ws) = ({ w with bytes := w.bytes - n } :: (serveWork ok 0 ws).1, (serveWork ok 0 ws).2) := by
  rw [serveWork, if_pos h, Nat.sub_eq_zero_of_le (Nat.le_of_lt hn)]
  exact if_neg (Nat.not_le.mpr hn)

/-- Nothing left serves no one. -/
theorem serveWork_zero {ok : ShelfWork → Bool} : ∀ {ws : List ShelfWork}, (∀ w ∈ ws, 0 < w.bytes) → serveWork ok 0 ws = (ws, 0)
  | [], _ => rfl
  | w :: ws, h => by
    have hws : serveWork ok 0 ws = (ws, 0) := serveWork_zero fun x hx => h x (List.mem_cons_of_mem w hx)
    cases hok : ok w with
    | false => rw [serveWork_cons_of_not hok, hws]
    | true => rw [serveWork_cons_of_part hok (h w List.mem_cons_self), hws]; rfl

/-- Work that is not admitted all stays. -/
theorem serveWork_of_none {ok : ShelfWork → Bool} {n : Nat} : ∀ {ws : List ShelfWork}, (∀ w ∈ ws, ok w = false) → serveWork ok n ws = (ws, n)
  | [], _ => rfl
  | w :: ws, h => by
    rw [serveWork_cons_of_not (h w List.mem_cons_self), serveWork_of_none fun x hx => h x (List.mem_cons_of_mem w hx)]

/-- One admitted request has the position to itself. -/
theorem serveWork_singleton {ok : ShelfWork → Bool} {n : Nat} (h : ok u = true) :
    (serveWork ok n [u]).1 = if u.bytes ≤ n then [] else [{ u with bytes := u.bytes - n }] := by
  split
  · next hn => rw [serveWork_cons_of_whole h hn]; rfl
  · next hn => rw [serveWork_cons_of_part h (Nat.not_le.mp hn)]; rfl

theorem first_of_stream (h : u.cls = c) (hunit : u.unit = false) : u.first c = true := by
  rw [ShelfWork.first, decide_eq_true h, hunit, Bool.not_false, Bool.or_true, Bool.and_self]

theorem first_of_remote (h : u.cls = c) (hc : c = .remote) : u.first c = true := by
  rw [ShelfWork.first, decide_eq_true h, decide_eq_true hc, Bool.true_or, Bool.and_self]

theorem first_of_unit (hc : c ≠ .remote) (hunit : u.unit = true) : u.first c = false := by
  rw [ShelfWork.first, decide_eq_false hc, hunit, Bool.not_true, Bool.or_false, Bool.and_false]

theorem second_of_remote (hc : c = .remote) : u.second c = false := by
  rw [ShelfWork.second, decide_eq_true hc, Bool.not_true, Bool.and_false, Bool.false_and]

/-- What is left of a request keeps its class and its turn. -/
theorem second_of_bytes (u : ShelfWork) (c : ShareClass) (n : Nat) : ShelfWork.second c { u with bytes := n } = u.second c := rfl

/-- Each request of the class is admitted in one of the two turns and not in the other. -/
theorem second_eq_not_first (h : u.cls = c) : u.second c = !u.first c := by
  rw [ShelfWork.second, ShelfWork.first, decide_eq_true h, Bool.true_and, Bool.true_and, Bool.not_or, Bool.not_not]

theorem grant_of_one (hwork : x.work = [u]) (hcls : u.cls = c) :
    x.grant c = { x with work := if u.bytes ≤ 2048 then [] else [{ u with bytes := u.bytes - 2048 }] } := by
  rw [grant_of_mem (hwork ▸ List.mem_singleton.mpr rfl) hcls, hwork]
  have hsecond : u.second c = !u.first c := second_eq_not_first hcls
  cases hfirst : u.first c with
  | true =>
    have hserve : (serveWork (ShelfWork.first c) 2048 [u]).1 = _ := serveWork_singleton hfirst
    have hrest : ∀ w ∈ (serveWork (ShelfWork.first c) 2048 [u]).1, w.second c = false := by
      intro w hw
      rw [hserve] at hw
      split at hw
      · cases hw
      · rw [List.mem_singleton.mp hw, second_of_bytes, hsecond, hfirst, Bool.not_true]
    rw [serveWork_of_none hrest, hserve]
  | false =>
    rw [hfirst] at hsecond
    rw [serveWork_of_none (ok := ShelfWork.first c) (by simpa using hfirst), serveWork_singleton hsecond]

/-- A unit's request has what a stream's request leaves. -/
theorem grant_of_unit_behind_stream (hwork : x.work = [u, v]) (hu : u.cls = c) (hv : v.cls = c) (hc : c ≠ .remote) (huu : u.unit = true)
    (hvu : v.unit = false) (hpos : 0 < u.bytes) (hbytes : 2048 ≤ v.bytes) :
    x.grant c = { x with work := u :: (if v.bytes = 2048 then [] else [{ v with bytes := v.bytes - 2048 }]) } := by
  have hserve : serveWork (ShelfWork.first c) 2048 [u, v]
      = (u :: (if v.bytes = 2048 then [] else [{ v with bytes := v.bytes - 2048 }]), 0) := by
    rw [serveWork_cons_of_not (first_of_unit hc huu)]
    split
    · next h => rw [serveWork_cons_of_whole (first_of_stream hv hvu) (Nat.le_of_eq h), h]; rfl
    · next h => rw [serveWork_cons_of_part (first_of_stream hv hvu) (by omega)]; rfl
  rw [grant_of_mem (hwork ▸ List.mem_cons_self) hu, hwork, hserve, serveWork_zero]
  intro w hw
  split at hw <;> simp only [List.mem_cons, List.not_mem_nil, or_false] at hw
  · rwa [hw]
  · rcases hw with rfl | rfl
    · exact hpos
    · exact Nat.sub_pos_of_lt (by omega)

/-- Remote requests are served in order of arrival. -/
theorem grant_of_remote (hwork : x.work = [u, v]) (hu : u.cls = c) (hc : c = .remote) (hbytes : 2048 < u.bytes) (hpos : 0 < v.bytes) :
    x.grant c = { x with work := [{ u with bytes := u.bytes - 2048 }, v] } := by
  have hserve : serveWork (ShelfWork.first c) 2048 [u, v] = ([{ u with bytes := u.bytes - 2048 }, v], 0) := by
    rw [serveWork_cons_of_part (first_of_remote hu hc) hbytes, serveWork_zero (by simpa using hpos)]
  rw [grant_of_mem (hwork ▸ List.mem_cons_self) hu, hwork, hserve, serveWork_of_none (fun w _ => second_of_remote hc)]

end

/-! ## The scrub of a tile -/

section
variable {t : Tile} {p : Bool} {now row at_ : Nat} {e : RowError}

theorem scrubFound_of_none (h : t.scrubErrs = []) : t.scrubFound p now = [] := by rw [Tile.scrubFound, h]; rfl

theorem scrubFound_of_one (h : t.scrubErrs = [e]) (hrow : e.row ∈ t.scrubRows now) (hpower : t.rowPowered p e.row = true)
    (hsym : 0 < e.symbols) : t.scrubFound p now = [e] := by
  rw [Tile.scrubFound, h, filter_one, decide_eq_true hrow, hpower, decide_eq_true hsym]
  rfl

/-- Of the errors found, those of at most three symbols cost a turn each and are rewritten. -/
theorem scrubRead_next (t : Tile) (p : Bool) (now : Nat) :
    (t.scrubRead p now).scrubNext = now + 1 + 4 * ((t.scrubFound p now).filter (fun e => decide (e.symbols ≤ 3))).length := rfl

theorem scrubRead_rewrites (t : Tile) (p : Bool) (now : Nat) :
    (t.scrubRead p now).rewrites = t.rewrites ++ ((t.scrubFound p now).filter (fun e => decide (e.symbols ≤ 3))).map
      (fun e => (e.row, slotFrom e.row streamClient (now + 1), e)) := rfl

theorem settle_rewrites (t : Tile) (now : Nat) : (t.settle now).rewrites = t.rewrites.filter (fun r => decide (now ≤ r.2.1)) := rfl

theorem settle_counters (t : Tile) (now : Nat) :
    (t.settle now).counters = Counters.bump t.counters Ctr.SP_SCRUB_REWRITES (t.rewrites.filter (fun r => decide (r.2.1 < now))).length := rfl

theorem settle_scrubbed (t : Tile) (now : Nat) :
    (t.settle now).scrubbed = t.scrubbed ++ (t.rewrites.filter (fun r => decide (r.2.1 < now))).map (fun r => (r.1, r.2.2.places)) := rfl

theorem bump_zero (cs : Counters) (id : Nat) : Counters.bump cs id 0 = cs := if_pos rfl

/-- A write of a row that is there drops a rewrite of that row, when its bank has power. -/
theorem writeRow_rewrites (d : Row) (h : row < spRows) :
    (t.writeRow p row d).rewrites = if t.rowPowered p row = true then t.rewrites.filter (fun x => decide (x.1 ≠ row)) else t.rewrites := by
  have hfaults : (t.writeRow p row d).rewrites = (t.putBytes p row 0 (rowBytes d)).rewrites := by
    rw [Tile.writeRow, rowFaults_eq]
  rw [hfaults, Tile.putBytes, decide_eq_false (Nat.not_le.mpr h), Bool.false_or]
  cases t.rowPowered p row <;> rfl

end

/-! ## One cycle of the module -/

section
variable {s : State} {i : SlabId}

/-- A slab whose divided clocks have counted one arithmetic cycle. -/
def Slab.tick (sl : Slab) : Slab := { sl with clocks := { sl.clocks with cycle := sl.clocks.cycle + 1 } }

/-- The slab after a cycle in which nothing has work. -/
def Slab.tickIfReady (sl : Slab) : Slab := if sl.ready = true then sl.tick else sl

/-- Nothing of the slab has work in the coming cycle: no tile, no stream, and no management or fabric cycle begins. -/
def Slab.Quiet (sl : Slab) : Prop := sl.ready = true → sl.clocks.cycle % 2 = 0 ∧ sl.tiles = [] ∧ sl.streams = []

theorem not_manages_tick {sl : Slab} (h : sl.clocks.cycle % 2 = 0) : sl.tick.manages = false :=
  decide_eq_false (show ¬ (sl.clocks.cycle + 1) % 4 = 0 by omega)

theorem mapTiles_of_none {sl : Slab} (h : sl.tiles = []) (f : Nat → Nat → Tile → Tile) : sl.mapTiles f = sl := by
  rw [Slab.mapTiles, h, List.map_nil, ← h]

theorem passCycle_of_quiet {sl : Slab} (h : sl.Quiet) (m : Mode) (b : Bool) : sl.passCycle m i b = sl.tickIfReady := by
  unfold Slab.passCycle Slab.tickIfReady
  refine ite_congr rfl (fun hready => ?_) (fun _ => rfl)
  obtain ⟨hcycle, htiles, -⟩ := h hready
  dsimp only
  rw [show ({ sl with clocks := { sl.clocks with cycle := sl.clocks.cycle + 1 } } : Slab) = sl.tick from rfl,
    mapTiles_of_none (sl := sl.tick) htiles, not_manages_tick hcycle, if_neg Bool.false_ne_true]

theorem scrubCycle_of_quiet (h : (s.slab i).ready = true → (s.slab i).tiles = []) : s.scrubCycle i = s := by
  unfold State.scrubCycle
  dsimp only
  split
  · next hgo =>
    obtain ⟨⟨-, hpower⟩, hrun⟩ := (Bool.and_eq_true_iff.mp hgo).imp_left (Bool.and_eq_true_iff.mp)
    have htiles : (s.slab i).tiles = [] := h (Bool.and_eq_true_iff.mpr ⟨hpower, hrun⟩)
    rw [htiles, List.filterMap_nil, List.foldl_nil, State.modSlab, Slab.scrubTiles, mapTiles_of_none htiles, setSlab_slab]
  · rfl

theorem deliver_of_no_streams (h : (s.slab i).streams = []) : s.deliver i = s := by
  unfold State.deliver State.deliverOrder
  rw [h]
  rfl

theorem passTraffic_of_quiet (h : (s.slab i).ready = true → (s.slab i).clocks.cycle % 2 ≠ 0 ∧ (s.slab i).streams = []) :
    s.passTraffic i = s := by
  unfold State.passTraffic
  split
  · next hready =>
    obtain ⟨hcycle, hstreams⟩ := h hready
    rw [if_neg hcycle, deliver_of_no_streams hstreams]
  · rfl

theorem releaseHeld_of_none (h : (s.slab i).camp.ctrlHeld = []) : s.releaseHeld i = s := by
  unfold State.releaseHeld
  dsimp only
  rw [h]
  rfl

section
variable {sl : Slab}

@[simp] theorem ready_tickIfReady : sl.tickIfReady.ready = sl.ready := by unfold Slab.tickIfReady; split <;> rfl
@[simp] theorem tiles_tickIfReady : sl.tickIfReady.tiles = sl.tiles := by unfold Slab.tickIfReady; split <;> rfl
@[simp] theorem camp_tickIfReady : sl.tickIfReady.camp = sl.camp := by unfold Slab.tickIfReady; split <;> rfl
theorem tickIfReady_of_ready (h : sl.ready = true) : sl.tickIfReady = sl.tick := if_pos h

end

/-- On a slab where nothing has work the clocks alone go on. -/
theorem passSlab_of_quiet (hheld : (s.slab i).camp.ctrlHeld = []) (hquiet : (s.slab i).Quiet) :
    s.passSlab i = s.modSlab i Slab.tickIfReady := by
  have hslab : (s.modSlab i Slab.tickIfReady).slab i = (s.slab i).tickIfReady := slab_modSlab_self ..
  have hcycle : s.modSlab i (fun sl => sl.passCycle s.shared.mode i (s.root i).inHold) = s.modSlab i Slab.tickIfReady :=
    modSlab_congr s i (passCycle_of_quiet hquiet _ _)
  unfold State.passSlab
  dsimp only
  rw [hcycle, scrubCycle_of_quiet, passTraffic_of_quiet, releaseHeld_of_none]
  · rw [hslab, camp_tickIfReady, hheld]
  · intro hready
    rw [hslab] at hready ⊢
    rw [ready_tickIfReady] at hready
    obtain ⟨hcycle, -, hstreams⟩ := hquiet hready
    rw [tickIfReady_of_ready hready]
    exact ⟨show ((s.slab i).clocks.cycle + 1) % 2 ≠ 0 by omega, hstreams⟩
  · intro hready
    rw [hslab, ready_tickIfReady] at hready
    obtain ⟨-, htiles, -⟩ := hquiet hready
    rw [hslab, tiles_tickIfReady, htiles]

theorem settleShared_of_not (h : s.slab0.manages = false) : s.settleShared = s := by
  rw [State.settleShared, h, if_neg Bool.false_ne_true]

/-- With nothing at work on either slab the module's clocks alone go on. -/
theorem passCycle_of_all_quiet (hheld : ∀ k, (s.slab k).camp.ctrlHeld = []) (hquiet : ∀ k, (s.slab k).Quiet) (hready : s.slab0.ready = true) :
    s.passCycle = (s.modSlab .s0 Slab.tickIfReady).modSlab .s1 Slab.tickIfReady := by
  have hother : (s.modSlab .s0 Slab.tickIfReady).slab .s1 = s.slab .s1 := rfl
  unfold State.passCycle
  rw [passSlab_of_quiet (hheld .s0) (hquiet .s0), passSlab_of_quiet (by rw [hother]; exact hheld .s1) (by rw [hother]; exact hquiet .s1)]
  refine settleShared_of_not ?_
  change s.slab0.tickIfReady.manages = false
  rw [tickIfReady_of_ready hready]
  obtain ⟨hcycle, -⟩ := hquiet .s0 hready
  exact not_manages_tick hcycle

end

end Sys2Proof.Machine

namespace Sys2Proof.Proofs

open Sys2Proof.Machine

theorem oneCyclePasses : Claims.OneCyclePasses := by
  intro s hpending
  refine ⟨⟨s.passCycle, step_of_pending_nil hpending, ?_⟩, fun hquiet hready => ⟨s.passCycle, step_of_pending_nil hpending, ?_⟩⟩
  · have hchassis : s.passCycle.chassis = s.chassis := passCycle_chassis s
    exact ⟨(congrArg Chassis.pending hchassis).trans hpending, congrArg Chassis.mode hchassis, congrArg Chassis.inputGood hchassis,
      congrArg Chassis.converters hchassis, congrArg Chassis.reference hchassis, congrArg Chassis.perstN hchassis,
      congrArg Chassis.thermtripN hchassis⟩
  · rw [passCycle_of_all_quiet (fun k => (hquiet k).1) (fun k => (hquiet k).2) hready]
    refine ⟨rfl, rfl, rfl, rfl, rfl, rfl, fun k => ?_⟩
    cases k <;> rfl

theorem wheelsTurn : Claims.WheelsTurn := by
  refine ⟨shareAt_eq, fun x split busy u v => ?_⟩
  intro y c
  refine ⟨turn_of_not_good, turn_of_half, fun hgood hpass => ?_⟩
  have hturn : x.turn split busy = if busy then y else y.grant c := turn_of_position hgood hpass
  have hgrant : busy = false → x.turn split busy = y.grant c := fun h => hturn.trans (if_neg (by rw [h]; exact Bool.false_ne_true))
  exact ⟨fun h => hturn.trans (if_pos h), fun h hidle => (hgrant h).trans (grant_of_idle hidle),
    fun h hwork hu => (hgrant h).trans (grant_of_one hwork hu),
    fun h hwork hu hv hc huu hvu hpos hbytes => (hgrant h).trans (grant_of_unit_behind_stream hwork hu hv hc huu hvu hpos hbytes),
    fun h hwork hu _ hc hbytes hpos => (hgrant h).trans (grant_of_remote hwork hu hc hbytes hpos)⟩

theorem scrubsReadAndRewrite : Claims.ScrubsReadAndRewrite := by
  intro t p now row at_ e d
  refine ⟨rfl, fun hnone => ?_, fun hone hrow hpower hsym => ?_, fun hre => ⟨fun hle => ?_, fun hlt => ?_, fun hin => ?_⟩⟩
  · rw [scrubRead_next, scrubRead_rewrites, scrubFound_of_none hnone]
    exact ⟨rfl, List.append_nil _⟩
  · rw [scrubRead_next, scrubRead_rewrites, scrubFound_of_one hone hrow hpower hsym, filter_one]
    refine ⟨fun h => ?_, fun h => ?_⟩
    · rw [decide_eq_true h]
      exact ⟨rfl, rfl⟩
    · rw [decide_eq_false (Nat.not_le.mpr h)]
      exact ⟨rfl, List.append_nil _⟩
  · rw [settle_rewrites, settle_counters, hre, filter_one, filter_one]
    dsimp only
    rw [decide_eq_true hle, decide_eq_false (Nat.not_lt.mpr hle)]
    exact ⟨rfl, bump_zero _ _⟩
  · rw [settle_rewrites, settle_counters, settle_scrubbed, hre, filter_one, filter_one]
    dsimp only
    rw [decide_eq_false (Nat.not_le.mpr hlt), decide_eq_true hlt]
    exact ⟨rfl, rfl, rfl⟩
  · rw [writeRow_rewrites d hin, hre, filter_one, decide_eq_false (not_not_intro rfl)]
    rfl

/-- Settles O52: a cycle keeps the chassis, a position of a wheel serves in two turns, and a scrub's rewrites are those of the errors it
found. -/
theorem idleStepPassesOneCycle : Obligations.IdleStepPassesOneCycle := ⟨oneCyclePasses, wheelsTurn, scrubsReadAndRewrite⟩

end Sys2Proof.Proofs
end
